-- ==== Sys2Proof/Word.lean ====
section
/-! DEFINITION. The words of the device: bytes and 32-bit register words (R16, R17), and their plainest reading as
numbers. -/

namespace Sys2Proof

/-- A byte of memory, of a message or of a descriptor. -/
abbrev Byte := BitVec 8

/-- A register word (R19: every register access is 32 bits wide). -/
abbrev Word := BitVec 32

/-- A device physical or global address (48 bits, Table CEL-5 and R646). -/
abbrev Addr := BitVec 48

/-- Grid time (R13): the cycle number in bits 63:16, the phase in bits 15:0. -/
abbrev GT := BitVec 64

end Sys2Proof
end

