-- ==== Sys2Proof/Syntax.lean ====
section
/-! DEFINITION. The commands the device takes: one constructor for each row of the table of operations and events,
with what the command carries. -/

namespace Sys2Proof

/-- Who performs an access (Tables HST-3 and REG-6, R289, R562). Followers and the head reach a page over Skewer. -/
inductive Src where
  /-- a host core -/
  | host
  /-- Sous firmware -/
  | sous
  /-- the Pilot controller -/
  | pilot
  /-- an external host over PCIe -/
  | pcie
  /-- an Ethernet port (0 or 1) -/
  | eth (n : Fin 2)
  /-- the Mandoline, whose notify writes ring doorbells -/
  | mandoline
  /-- a command's own writes -/
  | command
  /-- another member of the cabinet -/
  | member (m : Fin 8)
deriving DecidableEq, Repr

/-- Which standing order an ARM or DISARM names: the one that SO_SEL of a context page selects (R736), or one of
firmware's own (R236) with its template, period, anchor and phase. -/
inductive SoWho where
  | ctx (c : BitVec 8)
  | firmware (num : Nat) (template : List Byte) (period anchor : BitVec 8) (phase : BitVec 16)
deriving DecidableEq, Repr

/-- A long packet that a camera port receives: virtual channel, whether a VCX value other than 0 came with it, data type,
payload, whether its CRC-16 holds, whether the start of transmission was in error, and what header ECC found: 0 no error,
1 one bit corrected, 2 uncorrectable. -/
structure Packet where
  vc : Fin 4
  vcx : Bool
  dt : BitVec 8
  payload : List Byte
  crcOk : Bool
  sot : Bool
  hdr : Fin 3
deriving DecidableEq, Repr

/-- A CAPTURE entry of the Ephemeris (R65): its number, its due GT, its period in phase units (0 for one that is not periodic),
and the FSYNC schedule it programs when it fires: output, the FSYNC_CFG word and the anchor. -/
structure CaptureEnt where
  num : Nat
  due : Nat
  period : Nat
  output : Nat
  cfg : Nat
  anchor : Nat
deriving DecidableEq, Repr

/-- A request at a Pantry bank (Table CEL-2): its rank, the slot whose tag it names, the offset, the bytes it writes or how
many it reads, and what the ECC finds in the word: 0 no error, 1 a correctable one, 2 an uncorrectable one. -/
structure PantryReq where
  rank : Fin 7
  slot : Option (Fin 32)
  ofs : BitVec 22
  write : Option (List Byte)
  len : Nat
  ecc : Fin 3
deriving DecidableEq, Repr


/-- A lamp schedule point of the firmware parameters (R467, R728): its point, and the values of its SP registers. -/
structure SpEnt where
  point : Fin 32
  gt : BitVec 64
  period : Word
  output : BitVec 7
  smin : BitVec 10
  smax : BitVec 10
  ramp : BitVec 16
deriving DecidableEq, Repr

/-- A standing order of the firmware parameters (R236, R728): number, template descriptor, period, anchor and phase. -/
structure FwOrder where
  num : Nat
  template : List Byte
  period : BitVec 8
  anchor : BitVec 8
  phase : BitVec 16
deriving DecidableEq, Repr

/-- A tile that fails the boot self-test (R618, R621): the columns and banks that fail, and whether anything else does. -/
structure SelfTest where
  tile : Fin 18
  cols : List (Fin 128)
  banks : List (Fin 32)
  other : Bool
deriving DecidableEq, Repr

/-- What firmware reads from the calibration and parameter partitions and finds while it initialises (R728): ZC_DELAY, whether the
first MAINS_STAT or the parameters say 60 Hz, LAMP_BOOT_LEVEL and LAMP_BOOT_HOLD, schedule points, standing orders, CAPTURE entries,
the image's TEST_SEED, and the tiles that fail the self-test. -/
structure FwBoot where
  zcDelay : Word
  hz60 : Bool
  level : BitVec 10
  hold : Word
  points : List SpEnt
  orders : List FwOrder
  captures : List CaptureEnt
  testSeed : BitVec 16
  fails : List SelfTest
deriving DecidableEq, Repr

/-- The commands (opcode_table.json, one constructor a row, in its order). -/
inductive Instr where
  /-- A ZC_STAMP from the Farside arrives; the Orrery corrects it to a crossing time and judges it in or out of the expected window (R35) -/
  | zcStamp (m : List Byte)
  /-- An expected crossing has no in-window stamp 60 µs after its window ends, so ZC_MISS advances (R35) -/
  | zcMiss
  /-- A MAINS_STAT message arrives; adverse flags disqualify the MAINS candidate and restart its requalification count (R36) -/
  | mainsStat (m : List Byte)
  /-- GT reaches phase 0 of a cycle, which is the GRID reference event and rewrites the GT-to-SI mapping (R55) -/
  | gridPhaseZero (ofs : BitVec 64) (phaseErr freqOfs : BitVec 32)
  /-- SI time reaches a second boundary, which is the SI channel's reference event (R39) -/
  | siSecondBoundary (ofs : BitVec 64) (phaseErr freqOfs : BitVec 32)
  /-- A better candidate has been eligible and best without a break for SWITCH_DWELL (R40) -/
  | switchDwellElapsed (ch : Fin 2) (ofs : BitVec 64)
  /-- The phase error stays below the lock threshold for 10 consecutive reference events, so the channel becomes LOCKED (R45) -/
  | chLock (ch : Fin 2) (ofs : BitVec 64)
  /-- HOLDOVER_LIMIT expires with no switch due, so the channel enters LOST (R43) -/
  | holdoverLimit (ch : Fin 2) (ofs : BitVec 64)
  /-- CH_HOLD_EST reaches LOST_ERR, so the channel enters LOST (R735) -/
  | holdEstLost (ch : Fin 2) (ofs : BitVec 64)
  /-- A write of REALIGN sets REALIGN_PEND for the group (R51) -/
  | realign (v : Word)
  /-- At the group's next pulse decision the group offset becomes zero and REALIGN_PEND clears (R51) -/
  | realignDecision (g : Fin 6)
  /-- GT minus the group offset reaches an FSYNC output's programmed phase, so the output pulses (R53) -/
  | fsyncPulse (n : Fin 16)
  /-- GRID_OUT pulses at each phase 0, shifted by its group offset (R53) -/
  | gridOutPulse
  /-- PPS_OUT pulses at each SI second boundary, shifted by its group offset (R53) -/
  | ppsOutPulse
  /-- A write of SNAP.TAKE captures GT and SI time at one core-clock edge (R57) -/
  | snapTake (v : Word)
  /-- A read of the LO half of a latched 64-bit pair latches its HI half (R58) -/
  | loReadLatch (page : BitVec 14) (ofs : BitVec 12)
  /-- A write of PLLn_CFG.TARGET_MHZ sets the target, or is ignored with LOCKED_WR when it lies out of range (R59) -/
  | pllTargetWrite (n : Fin 5) (v : Word)
  /-- A write of PLLn_CMD.RELOCK starts a relock, and the PLL delivers the bypass clock (R59) -/
  | pllRelock (n : Fin 5)
  /-- The relocking PLL achieves lock (R59) -/
  | pllLock (n : Fin 5)
  /-- Lock has held for 32 µs, so the PLL switches glitch-free from bypass to its target clock (R59) -/
  | pllBypassEnd (n : Fin 5)
  /-- The PLL has not locked 40 µs after the relock start, so it stays on bypass and sets FAULT (R61) -/
  | pllFault (n : Fin 5)
  /-- A write of MCLKn_TARGET starts a rate-limited slew, or sets RANGE_ERR when the target lies out of range (R62) -/
  | mclkTargetWrite (n : Fin 8) (v : Word)
  /-- The MCLK output reaches its new target and SLEWING clears (R62) -/
  | mclkSlewDone (n : Fin 8)
  /-- GT enters a new cycle number, so every token bucket is refilled and held commands are released (R49) -/
  | refill
  /-- A lamp schedule point falls due and sets SMIN and SMAX of its output (R467) -/
  | schedulePoint (k : Fin 32)
  /-- A CAPTURE entry of the Ephemeris fires at its due GT (R65) -/
  | captureOccurrence (num : Nat)
  /-- A standing order's occurrence falls due and creates a command from its template (R234) -/
  | standingOccurrence (num : Nat)
  /-- The Kettle chooses the next ready step by class, RANK and slot (R76) -/
  | stepChoose (tile : Fin 18) (wait : Nat)
  /-- A stationary tile load starts, writing one row per cycle (R82) -/
  | tileLoadStart (tile : Fin 18)
  /-- A BROADCAST pass flips every cell's bank select after the drain and its own load (R83) -/
  | bankFlip (tile : Fin 18)
  /-- A pass issues its first activation vector and then issues its vectors in consecutive cycles (R75) -/
  | passIssue (tile : Fin 18)
  /-- The last result of a pass is written to the accumulator file at t + 191 (R78) -/
  | passDrain (tile : Fin 18)
  /-- The Whisk reads an accumulator entry of a final pass (R95) -/
  | whiskRead (tile : Fin 18) (parity : Bool)
  /-- A Whisk result is written to the Pantry, and the last write of a command moves its slot to COMMITTING (R95) -/
  | whiskWrite (tile : Fin 18)
  /-- A kill reaches a slot; issue stops, and the slot goes to KILLING or FREE (R101) -/
  | kill (tile : Fin 18) (n : Fin 32) (wait : Nat)
  /-- The killed command's last in-array vector leaves, its blocks are freed and the slot becomes FREE (R102) -/
  | killComplete (tile : Fin 18) (n : Fin 32)
  /-- A write of CNT_CTRL.CLEAR zeroes the Kettle cycle counters in one cycle (R105) -/
  | kettleCntClear (tile : Fin 18) (freeze : Bool)
  /-- A bank serves one Pantry access chosen by rank arbitration (R106) -/
  | pantryAccess (tile : Fin 18) (bank : Fin 32) (arrive : List PantryReq) (same : Bool)
  /-- Vault initialisation completes and the controller becomes ACTIVE (R129) -/
  | vaultInitDone (v : Fin 18)
  /-- A vault of a gated Kettle has seen no access for 1 ms, so it starts entering self-refresh (R128) -/
  | vaultSrEntry (v : Fin 18)
  /-- Self-refresh entry completes (R129) -/
  | vaultSrEntered (v : Fin 18)
  /-- An access arrives at a self-refreshing vault and is held while the vault exits (R127) -/
  | vaultSrExit (v : Fin 18)
  /-- Self-refresh exit completes and the held access is performed (R127) -/
  | vaultSrExited (v : Fin 18)
  /-- The vault temperature band changes and the refresh rate follows it (R123) -/
  | tempBandChange (v : Fin 18) (band : Fin 3) (temp : BitVec 8)
  /-- Scrub reads and corrects every vault word once per SCRUB_PERIOD (R125) -/
  | scrubPass (v : Fin 18) (ce : Nat) (bad : List (BitVec 30))
  /-- A write of IWIN_CFG.EN = 1 enables the window, or sets CFG_ERR (R132) -/
  | iwinEnable (w : Fin 8) (v : Word)
  /-- A write of EN = 0 disables the window; accepted accesses complete (R134) -/
  | iwinDisable (w : Fin 8) (v : Word)
  /-- Zeroing of the Larder completes and LARDER_INIT_DONE is set (R138) -/
  | larderInitDone
  /-- A write becomes readable at its destination and is acknowledged on RSP (R143) -/
  | trivetWriteAck (id n : Nat) (ce : Bool) (ue : Option Nat)
  /-- Firmware reads and validates a recipe image, then registers it or refuses it (R157) -/
  | recipeRegister (addr constBase : Addr)
  /-- A stage's C-level transfer starts once its ordering conditions hold (R176) -/
  | clevelXferStart (tile : Fin 18) (n : Fin 32)
  /-- A C-level transfer completes (R176) -/
  | clevelXferDone (tile : Fin 18) (n : Fin 32)
  /-- After its last Whisk write of the previous stage, a part sends its halo rows as BULK writes (R173) -/
  | haloSend (tile : Fin 18) (n : Fin 32)
  /-- A halo write is acknowledged and LD_HALO_PEND falls (R174) -/
  | haloAck (tile : Fin 18) (n : Fin 32)
  /-- A fill batch is released for dispatch when full, at FILL_WAIT or at its deadline margin (R183) -/
  | fillBatchRelease (id : Nat)
  /-- CTX_CMD OPEN checks the ring configuration and budget, then opens the context (R197) -/
  | ctxOpen (src : Src) (c : BitVec 8)
  /-- CTX_CMD CLOSE moves the context to CLOSING and applies its POLICY (R194) -/
  | ctxClose (src : Src) (c : BitVec 8)
  /-- CTX_CMD ADOPT reopens an ORPHANED context with a new GEN (R232) -/
  | ctxAdopt (src : Src) (c : BitVec 8)
  /-- A LEASE write with the matching GEN renews the lease expiry (R227) -/
  | lease (src : Src) (c : BitVec 8) (v : Word)
  /-- GT reaches the lease expiry, so the context becomes ORPHANED (R228) -/
  | leaseExpire (c : BitVec 8)
  /-- ORPHAN_HOLD ends, so the context goes to CLOSING under ABANDON (R233) -/
  | orphanHoldEnd (c : BitVec 8)
  /-- A doorbell write sets SQ_TAIL when acceptable, and is otherwise ignored and counted (R199) -/
  | doorbell (src : Src) (c : BitVec 8) (v : Word)
  /-- With completion slots reserved, the device reads the next descriptor in ring order (R201) -/
  | descriptorConsume (c : BitVec 8)
  /-- A CQ_HEAD write takes effect when it lies between the present head and the tail (R206) -/
  | cqHeadWrite (src : Src) (c : BitVec 8) (v : Word)
  /-- The NOP opcode completes DONE with no side effect (R208) -/
  | nop (id : Nat)
  /-- The RUN_RECIPE opcode runs a registered recipe and drains its write-back windows at commit (R222) -/
  | runRecipe (id : Nat)
  /-- The COPY opcode reads its source into windows and writes the destination at commit (R210) -/
  | copy (id : Nat)
  /-- The FENCE opcode completes once its fences resolve (R211) -/
  | fence (id : Nat)
  /-- The WAIT_GT opcode starts its wait at dispatch (R209) -/
  | waitGt (id : Nat)
  /-- GT reaches the WAIT_GT target, so the command enters commit (R209) -/
  | waitGtReached (id : Nat)
  /-- The SIGNAL opcode writes its 64-bit value to OUT_ADDR at commit (R221) -/
  | signal (id : Nat)
  /-- The LAMP_REQUEST opcode hands a level request to the lamp arbiter at commit (R461) -/
  | lampRequest (id : Nat)
  /-- The CAPTURE_BIND opcode binds a frame of a stream and writes its frame reference (R326) -/
  | captureBind (id : Nat)
  /-- The ORBIT_SOLVE opcode is dispatched to the Orbit engine queue (R398) -/
  | orbitSolve (id : Nat)
  /-- Every part has reached COMMITTING, so the command enters commit and performs its side effect (R222) -/
  | commitEnter (id : Nat)
  /-- Every write of the commit has been acknowledged, so the closing record is written (R143) -/
  | commitComplete (id : Nat)
  /-- SO_CMD ARM takes the template and timing and arms the standing order (R736) -/
  | soArm (src : Src) (who : SoWho)
  /-- SO_CMD DISARM disarms the standing order (R736) -/
  | soDisarm (src : Src) (who : SoWho)
  /-- A Kettle that becomes urgent-ready takes the command at the head of the urgent FIFO (R250) -/
  | urgFifoDispatch (k : Fin 16)
  /-- Firmware places a ready F-class command, or sheds it as infeasible (R264) -/
  | fDispatch
  /-- The partition dispatches its B-class command of lowest finish tag (R265) -/
  | bDispatch (part : Fin 16) (ks : List (Fin 128))
  /-- GT reaches an F-class DEADLINE; the command is judged late or shed (R262) -/
  | deadline (id : Nat)
  /-- A write of BOOKS_SNAP.TAKE requests a snapshot of the books (R270) -/
  | booksSnap
  /-- At the first moment BOOKS_BUSY is 0, the book values are copied and DONE is set (R270) -/
  | booksSnapCapture
  /-- A PART_KMASK write sets the partition's Kettles, or is ignored on overlap (R239) -/
  | partKmaskWrite (v : Word)
  /-- A PART_URG_BUDGET write takes effect, or is refused above the quarter limit (R242) -/
  | partUrgBudgetWrite (v : Word)
  /-- An OP_FLOOR write comes into force once the affected groups reach it (R537) -/
  | opFloorWrite (v : Word)
  /-- GT reaches the confirmation deadline of a PROVISIONAL frame, which is retracted (R276) -/
  | confirmDeadline (frame : BitVec 32)
  /-- Retraction reaches dependent commands transitively and writes RETRACTED records in dependency order (R296) -/
  | retraction
  /-- A SPEC raise reaches cycle N + SPEC_HOLD unconfirmed and is reverted (R293) -/
  | specRaiseExpire (cmd : Nat) (o : BitVec 7)
  /-- A DOM_CFG.EN write of 1 enables a speculation domain, or sets CFG_ERR (R301) -/
  | domEnable (v : Word)
  /-- A DOM_CFG.EN write of 0 disables the domain when no command of it has a frame set (R302) -/
  | domDisable (v : Word)
  /-- A frame start packet opens a frame, stamps its capture GT and assigns its frame id (R320) -/
  | frameStart (port : Fin 16) (vc : Fin 4) (vcx : Bool) (hdr : Fin 3)
  /-- A long packet line is stored in arrival order, padded, cut or marked (R306) -/
  | lineReceive (port : Fin 16) (pkt : Packet)
  /-- A frame end packet closes the frame (R315) -/
  | frameEnd (port : Fin 16) (vc : Fin 4) (vcx : Bool) (hdr : Fin 3)
  /-- GT reaches capture GT + MAX_AGE, so the frame becomes stale (R321) -/
  | frameStale (frame : BitVec 32)
  /-- An alignment window reaches AG_TOL incomplete and is handled by its policy (R323) -/
  | agWindowClose (g : Fin 4)
  /-- A write of STR_CTRL.EN = 1 enables the stream, or sets CFG_ERR (R308) -/
  | streamEnable (port : Fin 16) (vc : Fin 4) (v : Word)
  /-- A REF_RELEASE write releases a BIND_HOLD reference (R329) -/
  | refRelease (port : Fin 16) (v : Word)
  /-- BIND_HOLD_CYC cycles after the bind commits, its reference is released (R329) -/
  | bindHoldExpire (cmd : Nat)
  /-- A write of SC_PUSH_HI reads and checks a bundle, then queues it or marks it INVALID (R334) -/
  | scPush (c : Fin 8) (v : Word)
  /-- A write of SC_FLUSH cancels every queued bundle (R333) -/
  | scFlush (c : Fin 8)
  /-- A bundle comes due and its writes start on the bus (R330) -/
  | bundleStart (c : Fin 8)
  /-- A bundle's last write completes; its status becomes DONE or LATE (R331) -/
  | bundleComplete (c : Fin 8)
  /-- A NACK or bus error ends the bundle at the failing write (R333) -/
  | bundleNack (c : Fin 8) (k : Fin 32)
  /-- An I3C in-band interrupt is acknowledged and queued with its GT, or is lost (R330) -/
  | ibiReceive (c : Fin 8) (addr : BitVec 7) (payload : List Byte)
  /-- The idle Sieve starts the ready stripe of earliest capture GT (R346) -/
  | stripeStart (v : Fin 2)
  /-- A stall longer than STALL_MAX suspends the stripe and saves its state (R347) -/
  | stripeSuspend (v : Fin 2)
  /-- Every row of a stripe has been written and acknowledged; SPEC and the Mandoline are told (R349) -/
  | stripeDelivered (v : Fin 2)
  /-- A REL_CMD write releases the HOST reference of an output buffer (R355) -/
  | sieveRelCmd (v : Fin 2) (w : Word)
  /-- OUTn_HOST_HOLD cycles after hand-off, the HOST reference is released (R355) -/
  | hostHoldExpire (v : Fin 2) (c : Fin 64) (o : Fin 3) (k : Fin 16)
  /-- A PB_NEXT_HI write makes a parameter commit pending, replacing any pending one (R358) -/
  | pbNextWrite (v : Fin 2) (w : Word)
  /-- A write of CTX_CFG.EN = 1 applies PB_NEXT at once, or sets CFG_ERR (R362) -/
  | sieveCtxEnable (v : Fin 2) (w : Word)
  /-- A write of PG_CTRL.EN = 1 fetches and validates the shape block and mesh (R375) -/
  | pgEnable (p : Fin 16) (v : Word)
  /-- The program's band needs are computed and READY is set (R375) -/
  | pgReady (p : Fin 16)
  /-- A ready band is chosen at an element boundary and warped (R378) -/
  | bandStart
  /-- A band's writes are acknowledged; the header is updated and the notify is written (R379) -/
  | bandDone
  /-- A PG_REL write releases the hold reference on a tensor buffer (R382) -/
  | pgRel (p : Fin 16) (v : Word)
  /-- HOLD_CYC cycles after the last band, the hold reference is released (R382) -/
  | pgHoldExpire (p k : Fin 16)
  /-- A bound command on a retracted, abandoned or unwritten band closes without service (R384) -/
  | bindShed (id : Nat)
  /-- A JQ_TAIL write posts jobs, or is ignored and counted (R388) -/
  | jqTail (q : Fin 4) (v : Word)
  /-- A job at a queue head reads its list and is checked before it writes (R386) -/
  | jobStart (q : Fin 4)
  /-- One crop element is sampled into its bucket slot (R389) -/
  | crop
  /-- One CBOR record is decoded into a row, or rejected with a reason code (R394) -/
  | decodeRecord
  /-- A job ends; STATUS is written, the notify is performed and JQ_HEAD advances (R388) -/
  | jobEnd (q : Fin 4)
  /-- The engine starts the queued solve of lowest RANK (R399) -/
  | solveStart
  /-- Optimisation, conflict checks and zones finish, and the output block is staged (R421) -/
  | solveComplete (ce ue : Bool)
  /-- The Farside consumes a LEVEL_SET and makes it the output's pending level (R452) -/
  | levelSet (m : List Byte)
  /-- The Farside performs a DALI query, configuration, special or memory-read command (R446) -/
  | daliQuery (m : List Byte) (status : Fin 3) (data : List Byte)
  /-- The Farside consumes a Nearside HEARTBEAT, with RESYNC or ECHO handling (R458) -/
  | nsHeartbeat (m : List Byte)
  /-- The Farside applies a failsafe setting, or rejects it out of range (R459) -/
  | failsafeCfg (m : List Byte)
  /-- PARAM_WRITE with START clears the staging copy (R468) -/
  | paramWriteStart (m : List Byte)
  /-- PARAM_WRITE stores 8 bytes of the staged block (R468) -/
  | paramWriteChunk (m : List Byte)
  /-- PARAM_WRITE with COMMIT checks the staged block and accepts or rejects it (R469) -/
  | paramCommit (m : List Byte)
  /-- A LEVEL_ACK from the Farside reaches the arbiter (R465) -/
  | levelAck (m : List Byte)
  /-- No LEVEL_ACK within 2 cycles of the target cycle, so the LEVEL_SET is resent (R465) -/
  | levelAckTimeout (o : BitVec 7)
  /-- A DALI_REPLY message is queued for driver software (R448) -/
  | daliReply (m : List Byte)
  /-- An IO_STAT message reports the debounced inputs and the relay state (R451) -/
  | ioStat (m : List Byte)
  /-- A Farside HEARTBEAT reports state, RESET and RX_ACK (R465) -/
  | fsHeartbeat (m : List Byte)
  /-- An FS_FAULT message reports a Farside fault code (R439) -/
  | fsFault (m : List Byte)
  /-- RX_ACK has not passed a message within RETX_US, so every outstanding message is resent (R434) -/
  | barrierRetx
  /-- The barrier link comes up and its one-way latency is measured by ECHO (R438) -/
  | barrierLinkUp (lat : BitVec 16)
  /-- A TX_PUSH write queues a Nearside message for transmission within credits (R433) -/
  | barrierTxPush (src : Src) (v : Word)
  /-- An RX_POP write drops the head of the receive FIFO (R435) -/
  | barrierRxPop (v : Word)
  /-- A DQ_PUSH write queues a DALI_QUERY request (R446) -/
  | dqPush (v : Word)
  /-- A write of SP_CMD.EN takes a schedule point into the Ephemeris (R467) -/
  | spEnable (src : Src) (v : Word)
  /-- FS_VIN rises, so the Farside loads its parameter block and applies POWERUP_LEVEL (R460) -/
  | fsPowerup
  /-- FS_VIN falls to 10.0 V or below, so the Farside reports FS_VIN_LOW (R717) -/
  | fsVinLow
  /-- FS_VIN falls below 9.0 V, so the Farside stops and releases every output (R717) -/
  | fsVinStop
  /-- A rising zero crossing counts messages, runs failsafe and applies due LEVEL_SETs (R453) -/
  | zeroCrossing (period age rms freq : BitVec 16)
  /-- With no real crossing, the flywheel advances the crossing index (R441) -/
  | flywheelCrossing
  /-- A mains flag changes, so the Farside sends MAINS_STAT (R442) -/
  | mainsFlagChange (half rms freq : BitVec 16)
  /-- Samples fall short of the expected sine for 1 ms, so BROWNOUT_WARN is sent (R443) -/
  | brownoutWarn
  /-- At each DALI_STEP_MS interval, a DAPC of the ramp is sent (R447) -/
  | dapcStep (o : Fin 81) (delayed : Bool)
  /-- The bus has stayed low for 500 ms, so BUS_FAIL is declared (R448) -/
  | daliBusFail
  /-- The bus recovers and every DALI level is resent (R448) -/
  | daliBusRecover
  /-- A debounced change on IN0 or IN1 sends IO_STAT (R451) -/
  | fieldInputChange (v : BitVec 2)
  /-- A confirmed zone reaches its start GT and becomes a live request (R461) -/
  | zoneOpen (id : Nat)
  /-- A zone reaches its end and stops being a request (R461) -/
  | zoneClose (id : Nat)
  /-- The boot lamp hold ends at the first valid result or after LAMP_BOOT_HOLD (R730) -/
  | lampBootHoldEnd
  /-- A frame boundary decides the output's picture: composed, HOLD or BLANK (R483) -/
  | compositorBoundary (o : Fin 8)
  /-- The Compositor starts writing a picture (R486) -/
  | pictureStart
  /-- A picture is written and handed to the Encoder's reference (R485) -/
  | pictureDone
  /-- A MASK_RELOAD write rereads the static mask at the next boundary (R478) -/
  | maskReload (o : Fin 8) (v : Word)
  /-- An LY_POST write posts a layer buffer for the next boundary (R482) -/
  | lyPost (o : Fin 8) (l : Fin 2) (v : Word)
  /-- A write of OC_CTRL.EN = 1 enables the output, or sets CFG_ERR (R471) -/
  | compOutputEnable (o : Fin 8) (v : Word)
  /-- The Encoder starts a picture once 64 rows are written (R489) -/
  | encodeStart (n : Fin 8)
  /-- The access-unit record is written whole and BS_WR advances (R493) -/
  | encodeDone (n : Fin 8) (len : BitVec 24) (qp : BitVec 8)
  /-- A write of ES_CFG.EN = 1 enables a session, or sets CFG_ERR (R492) -/
  | encSessionEnable (n : Fin 8) (v : Word)
  /-- A FORCE_IDR write makes the next picture an IDR (R487) -/
  | forceIdr (n : Fin 8) (v : Word)
  /-- A BS_RD write frees ring space, or is ignored and counted (R494) -/
  | bsRdWrite (n : Fin 8) (v : Word)
  /-- At a hop boundary the PDM clock changes rate and a cross-fade begins (R502) -/
  | pdmRateChange
  /-- The 320-sample cross-fade ends (R503) -/
  | xfadeEnd
  /-- A log-mel feature frame is computed and written to the ring (R506) -/
  | featureFrame
  /-- Raw samples and features of a hop are written to the Larder stream rings (R518) -/
  | audioStreamHop
  /-- A SIM_CTRL write starts a Simmer program after its CRC and MAC checks (R509) -/
  | simmerStart (v : Word) (len0 len1 : BitVec 19)
  /-- At a due hop boundary, a Simmer program evaluates its window of frames (R509) -/
  | simmerEval (slot : Fin 2) (overrun : Bool) (scores : List Byte)
  /-- FREEZE_MAX after W, the FROZEN buffer becomes SPARE (R514) -/
  | freezeExpire
  /-- A FREEZE_REL write makes the FROZEN buffer SPARE (R514) -/
  | freezeRel (v : Word)
  /-- The OFF deferral ends after 1.5 s or when IN_PROGRESS clears, and OFF entry proceeds (R516) -/
  | offDeferEnd
  /-- A write of EXP_CMD starts an audio export, or sets ERR (R520) -/
  | exportStart (v : Word)
  /-- The export copy completes (R520) -/
  | exportDone
  /-- A WAKE timer fires and raises TIMER (R521) -/
  | pilotTimerWake (n : Fin 16)
  /-- A LEVEL timer fires and sends its LEVEL_SET (R521) -/
  | pilotTimerLevel (n : Fin 16)
  /-- A PS_REQ write for RUN is accepted or refused (R525) -/
  | psReqRun
  /-- A PS_REQ write for WATCH starts the RUN to WATCH transition, or is refused (R527) -/
  | psReqWatch
  /-- A PS_REQ write for REST starts the entry, or is refused (R526) -/
  | psReqRest
  /-- A PS_REQ write for DEEP starts the entry, or is refused (R526) -/
  | psReqDeep
  /-- A PS_REQ write for OFF starts OFF entry after any deferral (R530) -/
  | psReqOff
  /-- A KGATE write requests gating or ungating of logical Kettles (R528) -/
  | kgateWrite (v : Word)
  /-- All 32 slots of the Kettle are FREE, so it is gated (R528) -/
  | kettleGated (k : Fin 16)
  /-- An ungated Kettle's Pantry is zeroed and it returns to service (R529) -/
  | kettleUngated (k : Fin 16)
  /-- A power-state transition finishes its steps and BUSY clears (R530) -/
  | transitionComplete
  /-- An enabled wake cause latches and starts the wake from REST or DEEP (R533) -/
  | wakeCause
  /-- The Pilot domain reaches power-good and GT starts (R726) -/
  | pilotPowerGood
  /-- The main rails become good and RST_CAUSE is latched (R726) -/
  | mainPowerGood (bootsel : Bool) (cab : Fin 8) (temp : Byte) (sensor : Fin 21)
  /-- VIN stays above 10.2 V for 10 ms, so power-up from OFF starts (R545) -/
  | vinStart
  /-- A rising edge on PWR_ON leaves OFF (R533) -/
  | pwrOnEdge (mv : BitVec 16)
  /-- VIN falls through WARN_MV and the VIN_WARN event is raised (R545) -/
  | vinWarn (mv : BitVec 16)
  /-- VIN stays below 9.5 V for 20 µs, so every Nearside domain switches off (R548) -/
  | vinUv
  /-- TJ_MAX reaches WARN and the thermal WARN event is raised (R550) -/
  | thermWarn (temp : Byte) (sensor : Fin 21)
  /-- TJ_MAX reaches EMERG, so every group is driven to OP3 (R551) -/
  | thermEmerg (temp : Byte) (sensor : Fin 21)
  /-- TJ_MAX stays below EMERG − 5 °C for 100 ms, so the emergency ends (R551) -/
  | thermEmergEnd (temp : Byte) (sensor : Fin 21)
  /-- TJ_MAX stays at TRIP for 1 ms, so every domain except PILOT switches off (R552) -/
  | thermTrip (temp : Byte) (sensor : Fin 21)
  /-- A GRP_OP_REQ write requests an operating point for a group (R536) -/
  | grpOpReqWrite (v : Word)
  /-- A settled step of the voltage, bias and PLL sequence starts the next step (R538) -/
  | opChangeStep (g : Fin 3)
  /-- A HOST_EN write powers host cores up or down (R535) -/
  | hostEnWrite (v : Word)
  /-- A PAD_RELEASE write releases held pad groups, or is counted as an error (R543) -/
  | padRelease (v : Word)
  /-- An inbound PCIe access to BAR0, BAR2 or BAR4 is performed (R560) -/
  | pcieInbound (bar : Fin 3) (ofs : BitVec 24) (len : BitVec 9) (write : Option (List (Option Byte)))
  /-- A due MSI-X message is sent, after coalescing and masking (R566) -/
  | msixSend (v : Fin 64)
  /-- Unmasking an entry sends its pending message (R566) -/
  | msixUnmask (v : Fin 64)
  /-- A VEC_EOI write resends the message if PENDING is still 1 (R566) -/
  | vecEoi (v : Fin 64) (w : Word)
  /-- PERST# resets the endpoint's link, configuration and MSI-X state only (R563) -/
  | perst
  /-- The PCIe link trains and comes up (R563) -/
  | pcieLinkUp (speed width : BitVec 3)
  /-- The PCIe link goes down and endpoint state is reset (R563) -/
  | pcieLinkDown
  /-- A received Ethernet frame is written to a descriptor, or discarded and counted (R568) -/
  | ethRxFrame (port : Fin 2) (bytes : List Byte) (fcsOk : Bool)
  /-- A TX_TAIL write posts transmit descriptors (R569) -/
  | ethTxTail (port : Fin 2) (v : Word)
  /-- An RX_TAIL write posts receive descriptors (R569) -/
  | ethRxTail (port : Fin 2) (v : Word)
  /-- A frame is transmitted and its descriptor written back with a timestamp (R570) -/
  | ethTxFrame (port : Fin 2)
  /-- A PTP_MEAS_HI write delivers a reference event to PTP0 or PTP1 (R572) -/
  | ptpMeas (port : Fin 2) (v : Word)
  /-- PTP_TIMEOUT seconds after the last event, the candidate's quality becomes 255 (R572) -/
  | ptpTimeout (port : Fin 2)
  /-- A PPS edge is stamped and qualified, or counted as a glitch (R574) -/
  | ppsEdge (rising : Bool)
  /-- 1.5 s pass without a qualified edge, so PPS is missing (R574) -/
  | ppsMissing
  /-- A GNSS UART byte enters the receive FIFO, or overflows (R573) -/
  | gnssRxByte (b : Byte)
  /-- A UART_TX write queues a GNSS byte (R573) -/
  | gnssTxByte (v : Word)
  /-- A host UART byte is received, or discarded on overflow or framing error (R575) -/
  | huRxByte (b : Byte) (good : Bool)
  /-- An HU_TX write queues a byte, and is ignored when the FIFO is full (R575) -/
  | huTxByte (v : Word)
  /-- An enabled GPIO edge raises its event and latches GPIO_EDGE_GT (R576) -/
  | gpioEdge (n : Fin 11) (drive level : Bool)
  /-- The Boot ROM chooses, checks and loads an image from the boot record (R590) -/
  | bootSelect
  /-- A BOOT_DOORBELL write checks and starts a host-loaded image (R586) -/
  | bootDoorbell (v : Word)
  /-- Firmware finishes INIT and reaches READY (R593) -/
  | fwReady (boot : FwBoot)
  /-- The INFO mailbox command returns slot states and versions (R597) -/
  | info (src : Src)
  /-- UPD_BEGIN erases the target slot and sets WRITING (R598) -/
  | updBegin (src : Src) (len : Word)
  /-- UPD_WRITE programs a chunk of the target slot (R597) -/
  | updWrite (src : Src) (ofs : Word) (addr : BitVec 64) (len : Word)
  /-- UPD_VERIFY checks the target image and sets VERIFIED (R583) -/
  | updVerify (src : Src)
  /-- UPD_ACTIVATE NEXT_BOOT writes a trial boot record (R598) -/
  | updActivateNextBoot (src : Src)
  /-- UPD_ACTIVATE LIVE loads the SOUS section for a live handover (R605) -/
  | updActivateLive (src : Src)
  /-- UPD_CONFIRM writes a record that makes the running image the next-boot image (R610) -/
  | updConfirm (src : Src)
  /-- UPD_REVERT reverts a trial record or live-updates back (R611) -/
  | updRevert (src : Src)
  /-- UPD_ABORT erases the target slot to EMPTY (R597) -/
  | updAbort (src : Src)
  /-- REBOOT holds pads, keeps memories and resets the main domain (R724) -/
  | reboot (src : Src)
  /-- TAP_LOCK burns JTAG_LOCK to LOCKED (R597) -/
  | tapLock (src : Src) (v : Word)
  /-- A long mailbox command finishes and writes MB_STAT (R597) -/
  | mbComplete (flashError : Bool)
  /-- With no firmware transaction open, the handover block passes state to the new image (R607) -/
  | liveHandover (valid : Bool) (pauseUs : BitVec 12)
  /-- A TAP instruction is loaded, or replaced by BYPASS under JTAG_LOCK (R612) -/
  | tapInstruction (instr : Fin 5)
  /-- A Kettle's canary starts when all its slots are FREE (R619) -/
  | canaryStart
  /-- The canary ends and a failure is classified as COLUMN, BANK or KETTLE (R621) -/
  | canaryComplete (cols : List (Fin 128)) (banks : List (Fin 32)) (other : Bool)
  /-- Every 10 ms the aging margin is refreshed and judged against WARN and FAIL (R623) -/
  | ageRefresh (tile : Fin 18) (margin : BitVec 8)
  /-- An RM_CMD write requests a KETTLE repair (R626) -/
  | rmCmd (v : Word)
  /-- A waiting KETTLE repair starts; its Kettle goes to DRAINING (R626) -/
  | remapStart
  /-- All slots of the tile are FREE, so the vault copy starts (R627) -/
  | drainComplete
  /-- The last vault block is copied (R628) -/
  | migrationComplete (fault : Bool)
  /-- A failing column is remapped to a spare and the Pantry is rewritten (R616) -/
  | columnRemap (tile : Fin 18)
  /-- A failing Pantry bank is remapped to a spare (R616) -/
  | bankRemap (tile : Fin 18)
  /-- A Skewer port finishes training, learns its neighbour and reaches UP or WIRING (R643) -/
  | portTrained (port : Fin 2) (neigh : Fin 8) (lanes : BitVec 4)
  /-- A lane loses block lock for more than 1 µs, so the port retrains at 2 lanes (R659) -/
  | laneFail (port : Fin 2) (lanes : BitVec 4)
  /-- A flit is received and checked for CRC and LSEQ (R661) -/
  | flitReceive (port : Fin 2) (bytes : List Byte)
  /-- ACK has not passed the oldest kept flit within 4 µs, so the flits are resent (R662) -/
  | replayTimeout (port : Fin 2)
  /-- The port is not UP within 10 ms of RETRAIN, so it goes DOWN (R663) -/
  | retrainTimeout (port : Fin 2)
  /-- A remote read arrives over Skewer and is performed (R669) -/
  | rd (src : Fin 8) (tag : BitVec 16) (addr : Addr) (len : BitVec 9)
  /-- A remote write arrives and is performed, then acknowledged (R668) -/
  | wr (src : Fin 8) (tag : BitVec 16) (addr : Addr) (bytes : List (Option Byte))
  /-- A forwarded context-page write is performed at the home member (R650) -/
  | ctxWr (src : Fin 8) (tag : BitVec 16) (orig : Src) (which : Fin 3) (c : BitVec 8) (v : Word)
  /-- A KILL message kills a delegated command (R669) -/
  | skewerKill (src : Fin 8) (tag : BitVec 16) (ctx : BitVec 11) (seq : Word)
  /-- A DELEGATE places a command in a slot of the receiving member (R654) -/
  | delegate (src : Fin 8) (ctx : BitVec 11) (part : Fin 16) (attempt reruns : Byte) (kettles : List (Fin 16)) (desc : List Byte)
  /-- Read data returns to the requester (R668) -/
  | rdData (src : Fin 8) (tag : BitVec 16) (bytes : List Byte)
  /-- A WR_ACK acknowledges a remote write (R668) -/
  | wrAck (src : Fin 8) (tag : BitVec 16)
  /-- An ERR gives the requester an error response (R668) -/
  | err (src : Fin 8) (tag : BitVec 16)
  /-- A REPORT tells the head of a start, commit entry, completion or kill (R654) -/
  | report (src : Fin 8) (ctx : BitVec 11) (seq : Word) (what : Fin 5) (disp : Byte) (b20 : Word) (place : BitVec 16)
  /-- An accepted F-class or B-class command is handed to the head (R651) -/
  | handoff (src : Fin 8) (ctx : BitVec 11) (part : Fin 16) (desc : List Byte)
  /-- A follower HEARTBEAT arrives at the head (R674) -/
  | skewerHeartbeat (m : Fin 8) (running : Bool)
  /-- Every 50 µs a follower sends HEARTBEAT to the head (R674) -/
  | skewerHbSend
  /-- No HEARTBEAT for LOSS_US, so the head declares the member lost (R674) -/
  | memberHbTimeout (m : Fin 8) (portsDown : Bool)
  /-- MEMBER_LOST makes a member drop the lost member's messages and answer LOST_ACK (R675) -/
  | memberLost (m : Fin 8)
  /-- The last LOST_ACK lets the head rerun the lost member's work (R675) -/
  | lostAck (src lost : Fin 8)
  /-- A JOIN from the head adds a member to the cabinet (R644) -/
  | join (members : Byte)
  /-- A write of SK_CMD.GO issues a JOIN (R644) -/
  | skJoinGo (v : Word) (ok : Bool)
  /-- A member that cannot reach the head for LOSS_US becomes STANDALONE (R681) -/
  | headUnreachable
  /-- A TIME message gives a reference event for SKEW_GRID and SKEW_SI (R672) -/
  | time (port : Fin 2) (gridQ siQ : Byte)
  /-- An ECHO measures link latency at link-up (R672) -/
  | echo (port : Fin 2) (latNs : BitVec 16)
  /-- No TIME message for 2 cycles, so the SKEW candidates become ineligible (R673) -/
  | skewTimeTimeout
  /-- A head CAB_DOORBELL write is forwarded to the home member's DOORBELL (R650) -/
  | cabDoorbell (src : Src) (v : Word)
  /-- A head CAB_LEASE write is forwarded to the home member's LEASE (R650) -/
  | cabLease (src : Src) (v : Word)
  /-- A head CAB_CQHEAD write is forwarded to the home member's CQ_HEAD (R650) -/
  | cabCqhead (src : Src) (v : Word)
  /-- An EVT_CLR write clears EVT_RAW bits, and an event in the same cycle wins (R686) -/
  | evtClr (src : Src) (page : BitVec 14) (v : Word)
  /-- An EVT_SET write sets EVT_RAW bits (R686) -/
  | evtSet (src : Src) (page : BitVec 14) (v : Word)
  /-- A write of an RWS field writes its shadow copy, and under COMMIT_AT = 0 commits it (R689) -/
  | shadowWrite (src : Src) (page : BitVec 14) (ofs : BitVec 12) (v : Word)
  /-- A SHADOW_CTRL write with ARM arms the page commit (R692) -/
  | shadowArm (src : Src) (page : BitVec 14) (v : Word)
  /-- A SHADOW_CTRL write with DISARM cancels an armed commit (R692) -/
  | shadowDisarm (src : Src) (page : BitVec 14) (v : Word)
  /-- The armed commit moment arrives and every shadow copy becomes live (R691) -/
  | shadowCommit (page : BitVec 14)
  /-- A BLK_CTRL.CNT_CLEAR write zeroes the page's _CNT counters (R697) -/
  | cntClear (src : Src) (page : BitVec 14)
  /-- An RST_REQ write starts or denies block resets bit by bit (R700) -/
  | blockResetReq (src : Src) (v : Word)
  /-- A block reset completes and the block's references are released (R701) -/
  | blockResetDone (k : Fin 28)
  /-- An access to an unmapped page reads zero and is counted (R694) -/
  | unmappedAccess (page : BitVec 14)
  /-- A non-32-bit or misaligned access completes without effect and sets ACCESS_ERR (R19) -/
  | badWidthAccess (page : BitVec 14) (ofs : BitVec 12)
  /-- An access to a page whose domain is off reads zero and raises no fault (R33) -/
  | offPageAccess (page : BitVec 14) (ofs : BitVec 12)
  /-- A read of an RC field returns its value and clears it (R17) -/
  | rcRead (page : BitVec 14) (ofs : BitVec 12)
  /-- A write of a register with no row of its own is performed field by field under its write conditions (R688) -/
  | registerWrite (src : Src) (page : BitVec 14) (ofs : BitVec 12) (v : Word)
  /-- A sensor supply output exceeds its limit and folds back (R713) -/
  | supplyFoldback (out : Fin 13)
  /-- Every 100 ms a folded-back supply output retries (R713) -/
  | foldbackRetry (out : Fin 13) (ok : Bool)
  /-- Firmware takes the next F-class or B-class descriptor from the 1,024-entry hand-off queue and admits it (R248) -/
  | handOffTake
  /-- Firmware, or the Pilot controller while the main domain is off, sends a Nearside HEARTBEAT at least every HB_PERIOD cycles (R458) -/
  | hbPeriodSend
  /-- The Farside consumes an in-order Nearside message of a type it does not know, counts it and reports it in FS_FAULT (R431) -/
  | unknownType (m : List Byte)
  /-- The Nearside receives a Farside message whose type is in neither column of Table FAR-1, discards it and advances RX_UNKNOWN_CNT (R435) -/
  | rxUnknown (m : List Byte)
  /-- The barrier link loses its partner, BR_STAT.LINK falls to DOWN and the link DOWN event is raised (R438) -/
  | barrierLinkDown
  /-- A frame from another bus master appears on the DALI bus and is counted as a collision (R445) -/
  | daliCollision
  /-- The relay coil is found open or shorted, and IO_STAT reports relay state 2 with FS_FAULT RELAY_FAULT (R451) -/
  | relayCoilFault
  /-- The VIN warning clears without a loss of VIN, and firmware resumes normal flash use (R604) -/
  | vinWarnClear (mv : BitVec 16)
  /-- After a thermal trip TJ_MAX falls below EMERG − 10 °C, and the Pilot stops blocking wakes (R552) -/
  | tripWakeUnblock (temp : Byte)
  /-- An Ethernet PHY link comes up or goes down after auto-negotiation, updating PHY_STAT and raising the link change event (R568) -/
  | ethLinkChange (port : Fin 2) (speed : Fin 3)
  /-- A byte leaves a UART transmit FIFO on the line, lowering TX_COUNT and possibly raising the TX level event (R575) -/
  | uartByteSent (port : Fin 2)
deriving DecidableEq, Repr

end Sys2Proof
end

