-- ==== Sys2Proof/Machine/Bits.lean ====
section
/-! DEFINITION. Bit fields, sign extension and byte order (R16: every multi-byte value is little-endian, bit 0 is the
least significant bit), on natural numbers. -/

namespace Sys2Proof.Machine

/-- Bits lo to lo + w - 1 of v. -/
def bitsOf (v lo w : Nat) : Nat := v / 2 ^ lo % 2 ^ w

/-- Bit i of v, as a truth value. -/
def bitOf (v i : Nat) : Bool := v / 2 ^ i % 2 == 1

/-- v with bits lo to lo + w - 1 replaced by x. -/
def putBits (v lo w x : Nat) : Nat :=
  v % 2 ^ lo + (x % 2 ^ w) * 2 ^ lo + v / 2 ^ (lo + w) * 2 ^ (lo + w)

/-- v with bit i set. -/
def setBit (v i : Nat) : Nat := putBits v i 1 1

/-- v with bit i cleared. -/
def clrBit (v i : Nat) : Nat := putBits v i 1 0

/-- The bits of v that are not set in m, over w bits. -/
def clrMask (v m : Nat) : Nat := v - (v &&& m)

/-- A truth value as one bit. -/
def b2n (b : Bool) : Nat := if b then 1 else 0

/-- The signed value of the low w bits of v (two's complement). -/
def toS (w v : Nat) : Int :=
  if v % 2 ^ w < 2 ^ (w - 1) then (v % 2 ^ w : Int) else (v % 2 ^ w : Int) - 2 ^ w

/-- The low w bits of a signed value. -/
def ofS (w : Nat) (i : Int) : Nat := (i % (2 ^ w : Int)).toNat

/-- The value of a list of bytes, the first the least significant (R16). -/
def ofBytes : List Byte → Nat
  | [] => 0
  | b :: t => b.toNat + 256 * ofBytes t

/-- The n bytes of v, the least significant first (R16). -/
def toBytes : Nat → Nat → List Byte
  | 0, _ => []
  | n + 1, v => BitVec.ofNat 8 v :: toBytes n (v / 256)

/-- Bytes k to k + n - 1 of a list, as a number; a byte that is not there counts as zero. -/
def leAt (bs : List Byte) (k n : Nat) : Nat := ofBytes ((bs.drop k).take n)

/-- ceil(a / b). -/
def ceilDiv (a b : Nat) : Nat := (a + b - 1) / b

/-- a clamped to the range lo to hi. -/
def clampI (lo hi a : Int) : Int := max lo (min hi a)

/-- The number of bits of v below position w that are set. -/
def popcount : Nat → Nat → Nat
  | 0, _ => 0
  | w + 1, v => v % 2 + popcount w (v / 2)

/-- Saturating increment of a 32-bit counter (R30 and the counters of every register table that saturate). -/
def satInc (v : Nat) (k : Nat := 1) : Nat := min (v + k) 0xFFFFFFFF

/-- True where a lies behind b in w-bit serial arithmetic. -/
def serialLt (w a b : Nat) : Bool :=
  let d := (b + 2 ^ w - a % 2 ^ w) % 2 ^ w
  decide (0 < d ∧ d < 2 ^ (w - 1))

/-- Rounding of a rational to the nearest integer, ties away from zero. -/
def roundAway (num : Int) (den : Nat) : Int :=
  if 0 ≤ num then (2 * num + den) / (2 * den) else -((2 * (-num) + den) / (2 * den))

/-- The first index from k that satisfies p, within the fuel n. -/
def findFrom (p : Nat → Bool) : Nat → Nat → Option Nat
  | 0, _ => none
  | n + 1, k => if p k then some k else findFrom p n (k + 1)

end Sys2Proof.Machine
end

