-- ==== Sys2Proof/Config.lean ====
section
/-! DEFINITION. What an implementation fixes and the specification leaves open. A free value has no body: nothing can
compute it, so a statement holds whatever it is. -/

namespace Sys2Proof.Config

/-- The free values of the device, one for each number of the counter `fresh` of the state: what the specification
gives an operation as a result without stating its value. DESIGN CHOICE (log 5), safe. -/
opaque freeValue : Nat → Nat

/-- A value the specification leaves open that depends on its operands alone (a transcendental function it bounds by an
error, a division corner), by a kind number and the operands. DESIGN CHOICE (log 5), safe. -/
opaque freeFun : Nat → List Nat → Nat

end Sys2Proof.Config
end

