-- ==== Sys2Proof/Machine/Store.lean ====
section
/-! DEFINITION. Sparse data by key: a list of pairs in one canonical form, the keys strictly rising, with no entry equal
to what an unlisted key reads as. Registers, shadow copies and memory are held so. -/

namespace Sys2Proof.Machine

/-- The value listed at key k, if one is. -/
def storeFind {α : Type} (k : Nat) : List (Nat × α) → Option α
  | [] => none
  | (a, x) :: t => if a = k then some x else storeFind k t

/-- What key k reads as: the listed value, or d. -/
def storeGet {α : Type} (d : α) (m : List (Nat × α)) (k : Nat) : α := (storeFind k m).getD d

/-- The list with key k removed. -/
def storeDel {α : Type} (k : Nat) : List (Nat × α) → List (Nat × α)
  | [] => []
  | (a, x) :: t => if a = k then storeDel k t else (a, x) :: storeDel k t

/-- The list with (k, v) put at its place in rising order. -/
def storePut {α : Type} (k : Nat) (v : α) : List (Nat × α) → List (Nat × α)
  | [] => [(k, v)]
  | (a, x) :: t => if k < a then (k, v) :: (a, x) :: t else if a = k then (k, v) :: t else (a, x) :: storePut k v t

/-- A write: the value an unlisted key reads as removes the entry. -/
def storeSet {α : Type} [DecidableEq α] (d : α) (m : List (Nat × α)) (k : Nat) (v : α) : List (Nat × α) :=
  if v = d then storeDel k m else storePut k v m

/-- Keys strictly rising from below bound. -/
def storeSorted {α : Type} : List (Nat × α) → Bool
  | [] => true
  | [_] => true
  | (a, _) :: (b, y) :: t => decide (a < b) && storeSorted ((b, y) :: t)

end Sys2Proof.Machine
end

