-- ==== Sys2Proof/Machine/Field.lean ====
section
/-! DEFINITION. What a register field is: its place in a register page (R683, R694), its bits, its access type
(Table SCO-6) and its reset value. Every field of the specification is an instance, in Fields.lean. -/

namespace Sys2Proof.Machine

/-- Table SCO-6: register access types. -/
inductive Acc where
  | ro | rw | rws | w1c | w1s | wo | rc
deriving DecidableEq, Repr

/-- The selector register through which a field is addressed, where it has one. -/
inductive Sel where
  | none | so | part | bkt | bctx | kb | dom | str | prof | svctx | arb | sp | tmr | route | can
deriving DecidableEq, Repr

/-- A register field: one row of a register table. -/
structure Fld where
  /-- the row's own number, below 4096 -/
  id : Nat
  /-- the first page that carries it, and how many pages from there -/
  page : Nat
  npg : Nat
  /-- offset, and the repetitions within the page: cnt places stride apart, each with cnt2 places stride2 apart -/
  ofs : Nat
  cnt : Nat
  stride : Nat
  cnt2 : Nat
  stride2 : Nat
  /-- the selector, and how many settings it has -/
  sel : Sel
  seln : Nat
  /-- least significant bit and width; a width above 32 is a LO/HI pair at two consecutive words -/
  lsb : Nat
  width : Nat
  ty : Acc
  /-- reading the LO word latches the HI word -/
  latch : Bool
  /-- a counter that CNT_CLEAR zeroes (R697) -/
  counter : Bool
  /-- reset value by page number from the first and by index within the page -/
  rst : Nat → Nat → Nat

/-- A field from its columns. -/
def Fld.mk' (id page npg ofs cnt stride cnt2 stride2 : Nat) (sel : Sel) (seln lsb width : Nat) (ty : Acc)
    (latch counter : Bool) (rst : Nat → Nat → Nat) : Fld :=
  { id, page, npg, ofs, cnt, stride, cnt2, stride2, sel, seln, lsb, width, ty, latch, counter, rst }

/-- The key under which the value of a field is held: its page, its number, its index. -/
def Fld.key (f : Fld) (p i : Nat) : Nat := ((f.page + p) * 4096 + f.id % 4096) * 65536 + i % 65536

end Sys2Proof.Machine
end

