-- ==== Sys2Proof/Machine/Fields.lean ====
section
/-! DEFINITION. Every register field of the specification, one definition a row of its register tables:
the page, the offset, the bits, the access type and the reset value as the table gives them. The name of a field is
its block, its register and its field. -/

namespace Sys2Proof.Machine.F

/-- Table ORR-4 (spec/02). GT[31:0]; read latches GT_HI -/
def ORR_GT : Fld := .mk' 1 0x4 1 0x40 1 0x0 1 0 .none 1 0 64 .ro true false (fun _ _ => 0x0)

/-- Table ORR-4 (spec/02). TAI ns [31:0]; read latches SI_HI -/
def ORR_SI : Fld := .mk' 2 0x4 1 0x48 1 0x0 1 0 .none 1 0 64 .ro true false (fun _ _ => 0x0)

/-- Table ORR-4 (spec/02). 1 captures GT and SI (R57) -/
def ORR_SNAP_TAKE : Fld := .mk' 3 0x4 1 0x50 1 0x0 1 0 .none 1 0 1 .wo false false (fun _ _ => 0x0)

/-- Table ORR-4 (spec/02). Captured GT -/
def ORR_SNAP_GT : Fld := .mk' 4 0x4 1 0x54 1 0x0 1 0 .none 1 0 64 .ro false false (fun _ _ => 0x0)

/-- Table ORR-4 (spec/02). Captured SI -/
def ORR_SNAP_SI : Fld := .mk' 5 0x4 1 0x5c 1 0x0 1 0 .none 1 0 64 .ro false false (fun _ _ => 0x0)

/-- Table ORR-4 (spec/02). Odd while the mapping is written -/
def ORR_MAP_SEQ : Fld := .mk' 6 0x4 1 0x64 1 0x0 1 0 .none 1 0 32 .ro false false (fun _ _ => 0x0)

/-- Table ORR-4 (spec/02). GT anchor -/
def ORR_MAP_GT : Fld := .mk' 7 0x4 1 0x68 1 0x0 1 0 .none 1 0 64 .ro false false (fun _ _ => 0x0)

/-- Table ORR-4 (spec/02). SI anchor, TAI ns -/
def ORR_MAP_SI : Fld := .mk' 8 0x4 1 0x70 1 0x0 1 0 .none 1 0 64 .ro false false (fun _ _ => 0x0)

/-- Table ORR-4 (spec/02). Cycle length in 1/128 ns; reset is 20 ms -/
def ORR_MAP_NS_PER_CYCLE : Fld := .mk' 9 0x4 1 0x78 1 0x0 1 0 .none 1 0 32 .ro false false (fun _ _ => 0x98968000)

/-- Table ORR-4 (spec/02). R56 -/
def ORR_MAP_STAT_MAP_VALID : Fld := .mk' 10 0x4 1 0x7c 1 0x0 1 0 .none 1 0 1 .ro false false (fun _ _ => 0x0)

/-- Table ORR-5 (spec/02). 0 = 50 Hz, 1 = 60 Hz -/
def ORR_GRID_CTRL_NOMINAL_HZ : Fld := .mk' 11 0x4 1 0x100 1 0x0 1 0 .none 1 0 1 .rw false false (fun _ _ => 0x0)

/-- Table ORR-5 (spec/02). Mains-sense path delay in ns, loaded from calibration -/
def ORR_ZC_DELAY : Fld := .mk' 12 0x4 1 0x104 1 0x0 1 0 .none 1 0 32 .rw false false (fun _ _ => 0x0)

/-- Table ORR-5 (spec/02). Missed crossings; saturates -/
def ORR_ZC_MISS : Fld := .mk' 13 0x4 1 0x108 1 0x0 1 0 .none 1 0 32 .ro false false (fun _ _ => 0x0)

/-- Table ORR-5 (spec/02). Skipped Ephemeris occurrences; saturates -/
def ORR_EPH_MISS : Fld := .mk' 14 0x4 1 0x10c 1 0x0 1 0 .none 1 0 32 .ro false false (fun _ _ => 0x0)

/-- Table ORR-5 (spec/02). PPS quality -/
def ORR_SI_QUAL_SW_PPS_QUAL : Fld := .mk' 15 0x4 1 0x110 1 0x0 1 0 .none 1 0 8 .rw false false (fun _ _ => 0xff)

/-- Table ORR-5 (spec/02). R51 -/
def ORR_REALIGN_GRP : Fld := .mk' 16 0x4 1 0x114 1 0x0 1 0 .none 1 0 6 .w1s false false (fun _ _ => 0x0)

/-- Table ORR-5 (spec/02). Pending REALIGN per group -/
def ORR_REALIGN_PEND_GRP : Fld := .mk' 17 0x4 1 0x118 1 0x0 1 0 .none 1 0 6 .ro false false (fun _ _ => 0x0)

/-- Table ORR-5 (spec/02). FSYNC width, µs -/
def ORR_OUT_WIDTH_FSYNC_W : Fld := .mk' 18 0x4 1 0x11c 1 0x0 1 0 .none 1 0 8 .rw false false (fun _ _ => 0xa)

/-- Table ORR-5 (spec/02). GRID_OUT width, 10 µs units -/
def ORR_OUT_WIDTH_GRID_W : Fld := .mk' 19 0x4 1 0x11c 1 0x0 1 0 .none 1 8 8 .rw false false (fun _ _ => 0x64)

/-- Table ORR-5 (spec/02). PPS_OUT width, ms -/
def ORR_OUT_WIDTH_PPS_W : Fld := .mk' 20 0x4 1 0x11c 1 0x0 1 0 .none 1 16 8 .rw false false (fun _ _ => 0x64)

/-- Table ORR-6 (spec/02). Candidate enables by index -/
def ORR_CH_CTRL_REF_EN : Fld := .mk' 21 0x4 1 0x80 2 0x40 1 0 .none 1 0 8 .rw false false (fun _ i => if i = 0 then 0x07 else 0x1F)

/-- Table ORR-6 (spec/02). 0 FREE, 1 ACQUIRING, 2 LOCKED, 3 HOLDOVER, 4 LOST -/
def ORR_CH_STAT_STATE : Fld := .mk' 22 0x4 1 0x84 2 0x40 1 0 .none 1 0 3 .ro false false (fun _ _ => 0x0)

/-- Table ORR-6 (spec/02). Selected candidate index -/
def ORR_CH_STAT_SEL_REF : Fld := .mk' 23 0x4 1 0x84 2 0x40 1 0 .none 1 4 3 .ro false false (fun _ _ => 0x0)

/-- Table ORR-6 (spec/02). Quality of selected candidate -/
def ORR_CH_STAT_SEL_QUAL : Fld := .mk' 24 0x4 1 0x84 2 0x40 1 0 .none 1 8 8 .ro false false (fun _ _ => 0xff)

/-- Table ORR-6 (spec/02). Candidate in dwell -/
def ORR_CH_STAT_DWELL_REF : Fld := .mk' 25 0x4 1 0x84 2 0x40 1 0 .none 1 16 3 .ro false false (fun _ _ => 0x0)

/-- Table ORR-6 (spec/02). Dwell timer running -/
def ORR_CH_STAT_DWELL_ACTIVE : Fld := .mk' 26 0x4 1 0x84 2 0x40 1 0 .none 1 19 1 .ro false false (fun _ _ => 0x0)

/-- Table ORR-6 (spec/02). Seconds -/
def ORR_CH_DWELL_SWITCH_DWELL : Fld := .mk' 27 0x4 1 0x88 2 0x40 1 0 .none 1 0 16 .rw false false (fun _ _ => 0xa)

/-- Table ORR-6 (spec/02). Seconds -/
def ORR_CH_HOLD_HOLDOVER_LIMIT : Fld := .mk' 28 0x4 1 0x8c 2 0x40 1 0 .none 1 0 16 .rw false false (fun _ _ => 0x12c)

/-- Table ORR-6 (spec/02). GRID phase units (5 %), SI µs -/
def ORR_CH_HOLD_LOST_ERR : Fld := .mk' 29 0x4 1 0x8c 2 0x40 1 0 .none 1 16 16 .rw false false (fun _ i => if i = 0 then 0x0CCD else 0x0064)

/-- Table ORR-6 (spec/02). 4-bit priority per candidate, index i at [4i+3:4i] -/
def ORR_CH_PRIO : Fld := .mk' 30 0x4 1 0x90 2 0x40 1 0 .none 1 0 32 .rw false false (fun _ _ => 0x76543210)

/-- Table ORR-6 (spec/02). Qualities of candidates 0–3, 8 bits each -/
def ORR_CH_QUAL0 : Fld := .mk' 31 0x4 1 0x94 2 0x40 1 0 .none 1 0 32 .ro false false (fun _ _ => 0xffffffff)

/-- Table ORR-6 (spec/02). Qualities of candidates 4–7 -/
def ORR_CH_QUAL1 : Fld := .mk' 32 0x4 1 0x98 2 0x40 1 0 .none 1 0 32 .ro false false (fun _ _ => 0xffffffff)

/-- Table ORR-6 (spec/02). Last step, signed 64-bit (R46) -/
def ORR_CH_STEP : Fld := .mk' 33 0x4 1 0x9c 2 0x40 1 0 .none 1 0 64 .ro false false (fun _ _ => 0x0)

/-- Table ORR-6 (spec/02). Steps taken; saturates -/
def ORR_CH_STEP_CNT : Fld := .mk' 34 0x4 1 0xa4 2 0x40 1 0 .none 1 0 32 .ro false true (fun _ _ => 0x0)

/-- Table ORR-6 (spec/02). Signed; GRID phase units, SI ns -/
def ORR_CH_PHASE_ERR : Fld := .mk' 35 0x4 1 0xa8 2 0x40 1 0 .none 1 0 32 .ro false false (fun _ _ => 0x0)

/-- Table ORR-6 (spec/02). Estimated holdover error in the units of LOST_ERR (GRID phase units, SI µs), compared with … -/
def ORR_CH_HOLD_EST : Fld := .mk' 36 0x4 1 0xac 2 0x40 1 0 .none 1 0 32 .ro false false (fun _ _ => 0x0)

/-- Table ORR-6 (spec/02). Signed ppb against nominal -/
def ORR_CH_FREQ_OFS : Fld := .mk' 37 0x4 1 0xb0 2 0x40 1 0 .none 1 0 32 .ro false false (fun _ _ => 0x0)

/-- Table ORR-7 (spec/02). Phase of pulse -/
def ORR_FSYNC_CFG_PHASE : Fld := .mk' 38 0x4 1 0x140 16 0x4 1 0 .none 1 0 16 .rws false false (fun _ _ => 0x0)

/-- Table ORR-7 (spec/02). Period in cycles, 1–255; 0 reads as 1 -/
def ORR_FSYNC_CFG_PERIOD_CYC : Fld := .mk' 39 0x4 1 0x140 16 0x4 1 0 .none 1 16 8 .rws false false (fun _ _ => 0x1)

/-- Table ORR-7 (spec/02). Group 0–3 -/
def ORR_FSYNC_CFG_GROUP : Fld := .mk' 40 0x4 1 0x140 16 0x4 1 0 .none 1 28 2 .rws false false (fun _ _ => 0x0)

/-- Table ORR-7 (spec/02). 0 = active high -/
def ORR_FSYNC_CFG_POL : Fld := .mk' 41 0x4 1 0x140 16 0x4 1 0 .none 1 30 1 .rws false false (fun _ _ => 0x0)

/-- Table ORR-7 (spec/02). Output enable; disabled outputs hold inactive -/
def ORR_FSYNC_CFG_EN : Fld := .mk' 42 0x4 1 0x140 16 0x4 1 0 .none 1 31 1 .rws false false (fun _ _ => 0x0)

/-- Table ORR-7 (spec/02). — -/
def ORR_GRID_OUT_CFG_POL : Fld := .mk' 43 0x4 1 0x180 1 0x0 1 0 .none 1 30 1 .rw false false (fun _ _ => 0x0)

/-- Table ORR-7 (spec/02). — -/
def ORR_GRID_OUT_CFG_EN : Fld := .mk' 44 0x4 1 0x180 1 0x0 1 0 .none 1 31 1 .rw false false (fun _ _ => 0x0)

/-- Table ORR-7 (spec/02). — -/
def ORR_PPS_OUT_CFG_POL : Fld := .mk' 45 0x4 1 0x184 1 0x0 1 0 .none 1 30 1 .rw false false (fun _ _ => 0x0)

/-- Table ORR-7 (spec/02). — -/
def ORR_PPS_OUT_CFG_EN : Fld := .mk' 46 0x4 1 0x184 1 0x0 1 0 .none 1 31 1 .rw false false (fun _ _ => 0x0)

/-- Table ORR-7 (spec/02). Signed offset (R50) -/
def ORR_GRP_OFS : Fld := .mk' 47 0x4 1 0x1c0 6 0x4 1 0 .none 1 0 32 .ro false false (fun _ _ => 0x0)

/-- Table ORR-7 (spec/02). Cycle residue, 0–255; taken modulo PERIOD_CYC (R53) -/
def ORR_FSYNC_ANC_ANCHOR : Fld := .mk' 48 0x4 1 0x200 16 0x4 1 0 .none 1 0 8 .rws false false (fun _ _ => 0x0)

/-- Table ORR-9 (spec/02). Target; takes effect at RELOCK; a write outside the PLL's range is ignored (R59) -/
def CLK_PLL_CFG_TARGET_MHZ : Fld := .mk' 49 0x2 1 0x40 5 0x10 1 0 .none 1 0 12 .rw false false (fun _ i => if i = 3 then 0x640 else if i = 4 then 0x320 else 0x190)

/-- Table ORR-9 (spec/02). Starts a relock -/
def CLK_PLL_CMD_RELOCK : Fld := .mk' 50 0x2 1 0x44 5 0x10 1 0 .none 1 0 1 .wo false false (fun _ _ => 0x0)

/-- Table ORR-9 (spec/02). Lock held -/
def CLK_PLL_STAT_LOCKED : Fld := .mk' 51 0x2 1 0x48 5 0x10 1 0 .none 1 0 1 .ro false false (fun _ _ => 0x0)

/-- Table ORR-9 (spec/02). Delivering bypass clock -/
def CLK_PLL_STAT_ON_BYPASS : Fld := .mk' 52 0x2 1 0x48 5 0x10 1 0 .none 1 1 1 .ro false false (fun _ _ => 0x1)

/-- Table ORR-9 (spec/02). Bypass at 250 MHz -/
def CLK_PLL_STAT_BYPASS_DIV2 : Fld := .mk' 53 0x2 1 0x48 5 0x10 1 0 .none 1 2 1 .ro false false (fun _ _ => 0x0)

/-- Table ORR-9 (spec/02). R61; cleared by RELOCK -/
def CLK_PLL_STAT_FAULT : Fld := .mk' 54 0x2 1 0x48 5 0x10 1 0 .none 1 3 1 .ro false false (fun _ _ => 0x0)

/-- Table ORR-9 (spec/02). Clock being delivered -/
def CLK_PLL_STAT_DELIVERED_MHZ : Fld := .mk' 55 0x2 1 0x48 5 0x10 1 0 .none 1 16 12 .ro false false (fun _ _ => 0x1f4)

/-- Table ORR-9 (spec/02). Hz; reset 24 MHz -/
def CLK_MCLK_TARGET : Fld := .mk' 56 0x2 1 0x100 8 0x10 1 0 .none 1 0 32 .rw false false (fun _ _ => 0x16e3600)

/-- Table ORR-9 (spec/02). Output enable -/
def CLK_MCLK_CTRL_EN : Fld := .mk' 57 0x2 1 0x104 8 0x10 1 0 .none 1 0 1 .rw false false (fun _ _ => 0x0)

/-- Table ORR-9 (spec/02). 0 MEMS, 1 SI, 2 GRID, 3 reserved (treated as 0) -/
def CLK_MCLK_CTRL_SRC : Fld := .mk' 58 0x2 1 0x104 8 0x10 1 0 .none 1 1 2 .rw false false (fun _ _ => 0x0)

/-- Table ORR-9 (spec/02). Present frequency, Hz -/
def CLK_MCLK_STAT_FREQ : Fld := .mk' 59 0x2 1 0x108 8 0x10 1 0 .none 1 0 32 .ro false false (fun _ _ => 0x16e3600)

/-- Table ORR-9 (spec/02). Slew in progress -/
def CLK_MCLK_FLAG_SLEWING : Fld := .mk' 60 0x2 1 0x10c 8 0x10 1 0 .none 1 0 1 .ro false false (fun _ _ => 0x0)

/-- Table ORR-9 (spec/02). R63 -/
def CLK_MCLK_FLAG_RANGE_ERR : Fld := .mk' 61 0x2 1 0x10c 8 0x10 1 0 .none 1 1 1 .w1c false false (fun _ _ => 0x0)

/-- Table KET-6 (spec/03). Tile enabled; written by firmware under KMAP. While 0, no step is chosen (R76); commands a … -/
def KT_CTRL_EN : Fld := .mk' 62 0x10 18 0x40 1 0x0 1 0 .none 1 0 1 .rw false false (fun _ _ => 0x0)

/-- Table KET-6 (spec/03). 1: no new step is chosen; chosen and issuing passes finish -/
def KT_CTRL_HALT : Fld := .mk' 63 0x10 18 0x40 1 0x0 1 0 .none 1 1 1 .rw false false (fun _ _ => 0x0)

/-- Table KET-6 (spec/03). Logical Kettle served; 0x1F = none -/
def KT_ID_LOGICAL : Fld := .mk' 64 0x10 18 0x44 1 0x0 1 0 .none 1 0 5 .ro false false (fun _ _ => 0x1f)

/-- Table KET-6 (spec/03). Follows the class of the present cycle (Table KET-5): 0 IDLE for IDLE_CYC; 1 LOADING for a … -/
def KT_STAT_ARRAY : Fld := .mk' 65 0x10 18 0x48 1 0x0 1 0 .none 1 0 3 .ro false false (fun _ _ => 0x0)

/-- Table KET-6 (spec/03). Bank of last issued pass: 0 A, 1 B -/
def KT_STAT_BANK : Fld := .mk' 66 0x10 18 0x48 1 0x0 1 0 .none 1 3 1 .ro false false (fun _ _ => 0x0)

/-- Table KET-6 (spec/03). Mode of last issued pass: 0 BROADCAST, 1 RIPPLE -/
def KT_STAT_MODE : Fld := .mk' 67 0x10 18 0x48 1 0x0 1 0 .none 1 4 1 .ro false false (fun _ _ => 0x0)

/-- Table KET-6 (spec/03). Slot of the issuing pass -/
def KT_STAT_STEP_SLOT : Fld := .mk' 68 0x10 18 0x48 1 0x0 1 0 .none 1 8 5 .ro false false (fun _ _ => 0x0)

/-- Table KET-6 (spec/03). Free accumulator blocks, one bit per block -/
def KT_STAT_ACC_FREE : Fld := .mk' 69 0x10 18 0x48 1 0x0 1 0 .none 1 16 8 .ro false false (fun _ _ => 0xff)

/-- Table KET-6 (spec/03). HALT is set and the array is empty -/
def KT_STAT_HALTED : Fld := .mk' 70 0x10 18 0x48 1 0x0 1 0 .none 1 24 1 .ro false false (fun _ _ => 0x0)

/-- Table KET-6 (spec/03). Bit n: slot n not FREE -/
def KT_SLOT_BUSY : Fld := .mk' 71 0x10 18 0x4c 1 0x0 1 0 .none 1 0 32 .ro false false (fun _ _ => 0x0)

/-- Table KET-6 (spec/03). Bit n: slot n RUNNING -/
def KT_SLOT_RUN : Fld := .mk' 72 0x10 18 0x50 1 0x0 1 0 .none 1 0 32 .ro false false (fun _ _ => 0x0)

/-- Table KET-6 (spec/03). Bit n: slot n COMMITTING -/
def KT_SLOT_COMMIT : Fld := .mk' 73 0x10 18 0x54 1 0x0 1 0 .none 1 0 32 .ro false false (fun _ _ => 0x0)

/-- Table KET-6 (spec/03). Bit n: slot n KILLING -/
def KT_SLOT_KILL : Fld := .mk' 74 0x10 18 0x58 1 0x0 1 0 .none 1 0 32 .ro false false (fun _ _ => 0x0)

/-- Table KET-7 (spec/03). 64-bit; reading LO latches HI -/
def KT_ISSUE_CYC : Fld := .mk' 75 0x10 18 0x60 1 0x0 1 0 .none 1 0 64 .ro true false (fun _ _ => 0x0)

/-- Table KET-7 (spec/03). As above -/
def KT_DRAIN_CYC : Fld := .mk' 76 0x10 18 0x68 1 0x0 1 0 .none 1 0 64 .ro true false (fun _ _ => 0x0)

/-- Table KET-7 (spec/03). As above -/
def KT_RIPPLE_STALL_CYC : Fld := .mk' 77 0x10 18 0x70 1 0x0 1 0 .none 1 0 64 .ro true false (fun _ _ => 0x0)

/-- Table KET-7 (spec/03). As above -/
def KT_FEED_WAIT_CYC : Fld := .mk' 78 0x10 18 0x78 1 0x0 1 0 .none 1 0 64 .ro true false (fun _ _ => 0x0)

/-- Table KET-7 (spec/03). As above -/
def KT_KILL_CYC : Fld := .mk' 79 0x10 18 0x80 1 0x0 1 0 .none 1 0 64 .ro true false (fun _ _ => 0x0)

/-- Table KET-7 (spec/03). As above -/
def KT_IDLE_CYC : Fld := .mk' 80 0x10 18 0x88 1 0x0 1 0 .none 1 0 64 .ro true false (fun _ _ => 0x0)

/-- Table KET-7 (spec/03). Passes issued; saturates -/
def KT_PASS_CNT : Fld := .mk' 81 0x10 18 0x90 1 0x0 1 0 .none 1 0 32 .ro false true (fun _ _ => 0x0)

/-- Table KET-7 (spec/03). Kills received in LOADED or RUNNING; saturates -/
def KT_KILL_CNT : Fld := .mk' 82 0x10 18 0x94 1 0x0 1 0 .none 1 0 32 .ro false true (fun _ _ => 0x0)

/-- Table KET-7 (spec/03). 1 stops the counters of this table; the Ladle counters of Table LAD-10 and the Pantry coun … -/
def KT_CNT_CTRL_FREEZE : Fld := .mk' 83 0x10 18 0x98 1 0x0 1 0 .none 1 0 1 .rw false false (fun _ _ => 0x0)

/-- Table KET-7 (spec/03). 1 zeroes the counters of this table in one cycle; the Ladle and Pantry counters of the pag … -/
def KT_CNT_CTRL_CLEAR : Fld := .mk' 84 0x10 18 0x98 1 0x0 1 0 .none 1 1 1 .wo false false (fun _ _ => 0x0)

/-- Table KET-8 (spec/03). 0 FREE, 1 LOADED, 2 RUNNING, 3 KILLING, 4 COMMITTING -/
def KT_SLOT_STATE : Fld := .mk' 85 0x10 18 0xa0 32 0x4 1 0 .none 1 0 3 .ro false false (fun _ _ => 0x0)

/-- Table KET-8 (spec/03). 0 U, 1 F, 2 B -/
def KT_SLOT_CLASS : Fld := .mk' 86 0x10 18 0xa0 32 0x4 1 0 .none 1 4 2 .ro false false (fun _ _ => 0x0)

/-- Table KET-8 (spec/03). Dispatch rank; lower is chosen first -/
def KT_SLOT_RANK : Fld := .mk' 87 0x10 18 0xa0 32 0x4 1 0 .none 1 8 8 .ro false false (fun _ _ => 0x0)

/-- Table KET-8 (spec/03). Accumulator blocks held -/
def KT_SLOT_ACC_HELD : Fld := .mk' 88 0x10 18 0xa0 32 0x4 1 0 .none 1 16 8 .ro false false (fun _ _ => 0x0)

/-- Table KET-8 (spec/03). Low 8 bits of the number of steps issued -/
def KT_SLOT_STEP_LSB : Fld := .mk' 89 0x10 18 0xa0 32 0x4 1 0 .none 1 24 8 .ro false false (fun _ _ => 0x0)

/-- Table KET-9 (spec/03). R100 -/
def KT_WHISK_STAT_NAN_SEEN : Fld := .mk' 90 0x10 18 0x130 1 0x0 1 0 .none 1 0 1 .w1c false false (fun _ _ => 0x0)

/-- Table KET-9 (spec/03). Clamped results (R97); saturates -/
def KT_WHISK_SAT_CNT : Fld := .mk' 91 0x10 18 0x134 1 0x0 1 0 .none 1 0 32 .ro false true (fun _ _ => 0x0)

/-- Table CEL-6 (spec/04). Permits idle self-refresh entry -/
def VC_CTRL_SR_ALLOW : Fld := .mk' 92 0x30 18 0x40 1 0x0 1 0 .none 1 0 1 .rw false false (fun _ _ => 0x1)

/-- Table CEL-6 (spec/04). R125 -/
def VC_CTRL_SCRUB_EN : Fld := .mk' 93 0x30 18 0x40 1 0x0 1 0 .none 1 1 1 .rw false false (fun _ _ => 0x1)

/-- Table CEL-6 (spec/04). 0 OFF, 1 INIT, 2 ACTIVE, 3 SR_ENTERING, 4 SELF_REFRESH, 5 SR_EXITING -/
def VC_STAT_STATE : Fld := .mk' 94 0x30 18 0x44 1 0x0 1 0 .none 1 0 3 .ro false false (fun _ _ => 0x0)

/-- Table CEL-6 (spec/04). Table CEL-3 -/
def VC_STAT_TEMP_BAND : Fld := .mk' 95 0x30 18 0x44 1 0x0 1 0 .none 1 4 2 .ro false false (fun _ _ => 0x0)

/-- Table CEL-6 (spec/04). Logical vault served; 0x1F none -/
def VC_STAT_LOGICAL : Fld := .mk' 96 0x30 18 0x44 1 0x0 1 0 .none 1 8 5 .ro false false (fun _ _ => 0x1f)

/-- Table CEL-6 (spec/04). Write mirroring for migration active -/
def VC_STAT_MIRROR : Fld := .mk' 97 0x30 18 0x44 1 0x0 1 0 .none 1 16 1 .ro false false (fun _ _ => 0x0)

/-- Table CEL-6 (spec/04). At least one poisoned word -/
def VC_STAT_POISON_PRESENT : Fld := .mk' 98 0x30 18 0x44 1 0x0 1 0 .none 1 17 1 .ro false false (fun _ _ => 0x0)

/-- Table CEL-6 (spec/04). Signed °C -/
def VC_TEMP : Fld := .mk' 99 0x30 18 0x48 1 0x0 1 0 .none 1 0 8 .ro false false (fun _ _ => 0x0)

/-- Table CEL-6 (spec/04). Seconds; 3,600 -/
def VC_SCRUB_PERIOD : Fld := .mk' 100 0x30 18 0x4c 1 0x0 1 0 .none 1 0 16 .rw false false (fun _ _ => 0xe10)

/-- Table CEL-6 (spec/04). Saturates -/
def VC_ECC_CE_CNT : Fld := .mk' 101 0x30 18 0x50 1 0x0 1 0 .none 1 0 32 .ro false true (fun _ _ => 0x0)

/-- Table CEL-6 (spec/04). Saturates -/
def VC_ECC_UE_CNT : Fld := .mk' 102 0x30 18 0x54 1 0x0 1 0 .none 1 0 32 .ro false true (fun _ _ => 0x0)

/-- Table CEL-6 (spec/04). In-vault offset of last UE -/
def VC_ECC_UE_ADDR_OFS : Fld := .mk' 103 0x30 18 0x58 1 0x0 1 0 .none 1 0 30 .ro false false (fun _ _ => 0x0)

/-- Table CEL-6 (spec/04). — -/
def VC_ECC_UE_ADDR_VALID : Fld := .mk' 104 0x30 18 0x58 1 0x0 1 0 .none 1 31 1 .w1c false false (fun _ _ => 0x0)

/-- Table CEL-6 (spec/04). 64-bit; reading LO latches HI -/
def VC_RD_BYTES : Fld := .mk' 105 0x30 18 0x60 1 0x0 1 0 .none 1 0 64 .ro true false (fun _ _ => 0x0)

/-- Table CEL-6 (spec/04). As above -/
def VC_WR_BYTES : Fld := .mk' 106 0x30 18 0x68 1 0x0 1 0 .none 1 0 64 .ro true false (fun _ _ => 0x0)

/-- Table CEL-6 (spec/04). Saturates -/
def VC_SR_ENTRY_CNT : Fld := .mk' 107 0x30 18 0x70 1 0x0 1 0 .none 1 0 32 .ro false true (fun _ _ => 0x0)

/-- Table CEL-6 (spec/04). Saturates -/
def VC_SCRUB_PASS_CNT : Fld := .mk' 108 0x30 18 0x74 1 0x0 1 0 .none 1 0 32 .ro false true (fun _ _ => 0x0)

/-- Table CEL-7 (spec/04). R138 -/
def TV_STAT_LARDER_INIT_DONE : Fld := .mk' 109 0x50 1 0x40 1 0x0 1 0 .none 1 8 1 .ro false false (fun _ _ => 0x0)

/-- Table CEL-7 (spec/04). R144; saturate -/
def TV_CE_CNT : Fld := .mk' 110 0x50 1 0x44 1 0x0 1 0 .none 1 0 32 .ro false true (fun _ _ => 0x0)

/-- Table CEL-7 (spec/04). R144; saturate -/
def TV_UE_CNT : Fld := .mk' 111 0x50 1 0x48 1 0x0 1 0 .none 1 0 32 .ro false true (fun _ _ => 0x0)

/-- Table CEL-7 (spec/04). R136; saturate -/
def TV_LARDER_CE_CNT : Fld := .mk' 112 0x50 1 0x4c 1 0x0 1 0 .none 1 0 32 .ro false true (fun _ _ => 0x0)

/-- Table CEL-7 (spec/04). R136; saturate -/
def TV_LARDER_UE_CNT : Fld := .mk' 113 0x50 1 0x50 1 0x0 1 0 .none 1 0 32 .ro false true (fun _ _ => 0x0)

/-- Table CEL-7 (spec/04). Larder offset of last UE -/
def TV_LARDER_UE_ADDR_OFS : Fld := .mk' 114 0x50 1 0x54 1 0x0 1 0 .none 1 0 24 .ro false false (fun _ _ => 0x0)

/-- Table CEL-7 (spec/04). — -/
def TV_LARDER_UE_ADDR_VALID : Fld := .mk' 115 0x50 1 0x54 1 0x0 1 0 .none 1 31 1 .w1c false false (fun _ _ => 0x0)

/-- Table CEL-7 (spec/04). R147; saturates -/
def TV_ADDR_FAULT_CNT : Fld := .mk' 116 0x50 1 0x58 1 0x0 1 0 .none 1 0 32 .ro false true (fun _ _ => 0x0)

/-- Table CEL-7 (spec/04). Address [31:0] of last fault -/
def TV_ADDR_FAULT_LO : Fld := .mk' 117 0x50 1 0x5c 1 0x0 1 0 .none 1 0 32 .ro false false (fun _ _ => 0x0)

/-- Table CEL-7 (spec/04). Address [47:32] -/
def TV_ADDR_FAULT_HI_ADDR : Fld := .mk' 118 0x50 1 0x60 1 0x0 1 0 .none 1 0 16 .ro false false (fun _ _ => 0x0)

/-- Table CEL-7 (spec/04). — -/
def TV_ADDR_FAULT_HI_VALID : Fld := .mk' 119 0x50 1 0x60 1 0x0 1 0 .none 1 31 1 .w1c false false (fun _ _ => 0x0)

/-- Table CEL-7 (spec/04). Link index 0–32 -/
def TV_LINK_SEL_LINK : Fld := .mk' 120 0x50 1 0x70 1 0x0 1 0 .none 1 0 6 .rw false false (fun _ _ => 0x0)

/-- Table CEL-7 (spec/04). 0 east, south or into the mesh; 1 the reverse -/
def TV_LINK_SEL_DIR : Fld := .mk' 121 0x50 1 0x70 1 0x0 1 0 .none 1 6 1 .rw false false (fun _ _ => 0x0)

/-- Table CEL-7 (spec/04). Flits (R139) on the selected link and direction: one per link cycle in which payload moved … -/
def TV_LINK_FLITS : Fld := .mk' 122 0x50 1 0x74 1 0x0 1 0 .none 1 0 64 .ro false false (fun _ _ => 0x0)

/-- Table CEL-7 (spec/04). Link cycles of the selected link and direction in which at least one flit of any class was … -/
def TV_LINK_WAIT_CYC : Fld := .mk' 123 0x50 1 0x7c 1 0x0 1 0 .none 1 0 32 .ro false false (fun _ _ => 0x0)

/-- Table CEL-7 (spec/04). R130 -/
def TV_IWIN_CFG_FIRST : Fld := .mk' 124 0x50 1 0x100 8 0x10 1 0 .none 1 0 4 .rw false false (fun _ _ => 0x0)

/-- Table CEL-7 (spec/04). 0–4 -/
def TV_IWIN_CFG_COUNT_LOG2 : Fld := .mk' 125 0x50 1 0x100 8 0x10 1 0 .none 1 4 3 .rw false false (fun _ _ => 0x0)

/-- Table CEL-7 (spec/04). 0–8 -/
def TV_IWIN_CFG_GRAN_LOG2 : Fld := .mk' 126 0x50 1 0x100 8 0x10 1 0 .none 1 8 4 .rw false false (fun _ _ => 0x0)

/-- Table CEL-7 (spec/04). R132, R133 -/
def TV_IWIN_CFG_EN : Fld := .mk' 127 0x50 1 0x100 8 0x10 1 0 .none 1 31 1 .rw false false (fun _ _ => 0x0)

/-- Table CEL-7 (spec/04). MiB -/
def TV_IWIN_OFS : Fld := .mk' 128 0x50 1 0x104 8 0x10 1 0 .none 1 0 10 .rw false false (fun _ _ => 0x0)

/-- Table CEL-7 (spec/04). MiB, 1–1024 -/
def TV_IWIN_LEN : Fld := .mk' 129 0x50 1 0x108 8 0x10 1 0 .none 1 0 11 .rw false false (fun _ _ => 0x0)

/-- Table CEL-7 (spec/04). R132 -/
def TV_IWIN_STAT_CFG_ERR : Fld := .mk' 130 0x50 1 0x10c 8 0x10 1 0 .none 1 0 1 .w1c false false (fun _ _ => 0x0)

/-- Table CEL-8 (spec/04). R117, R118; saturate -/
def KT_PANTRY_CE_CNT : Fld := .mk' 131 0x10 18 0x200 1 0x0 1 0 .none 1 0 32 .ro false true (fun _ _ => 0x0)

/-- Table CEL-8 (spec/04). R117, R118; saturate -/
def KT_PANTRY_UE_CNT : Fld := .mk' 132 0x10 18 0x204 1 0x0 1 0 .none 1 0 32 .ro false true (fun _ _ => 0x0)

/-- Table CEL-8 (spec/04). Offset of last UE -/
def KT_PANTRY_UE_ADDR_OFS : Fld := .mk' 133 0x10 18 0x208 1 0x0 1 0 .none 1 0 22 .ro false false (fun _ _ => 0x0)

/-- Table CEL-8 (spec/04). — -/
def KT_PANTRY_UE_ADDR_VALID : Fld := .mk' 134 0x10 18 0x208 1 0x0 1 0 .none 1 31 1 .w1c false false (fun _ _ => 0x0)

/-- Table CEL-8 (spec/04). R115 -/
def KT_GRANULE_FREE : Fld := .mk' 135 0x10 18 0x20c 1 0x0 1 0 .none 1 0 9 .ro false false (fun _ _ => 0x100)

/-- Table CEL-8 (spec/04). Cycles in which any rank 3–6 request waited; saturates -/
def KT_BANK_WAIT_CYC : Fld := .mk' 136 0x10 18 0x210 1 0x0 1 0 .none 1 0 32 .ro false false (fun _ _ => 0x0)

/-- Table CEL-8 (spec/04). R113; saturates -/
def KT_TAG_VIOL_CNT : Fld := .mk' 137 0x10 18 0x214 1 0x0 1 0 .none 1 0 32 .ro false true (fun _ _ => 0x0)

/-- Table CEL-8 (spec/04). Tag of granule 4n + j in bits [8j+5:8j] -/
def KT_GTAG : Fld := .mk' 138 0x10 18 0x400 64 0x4 1 0 .none 1 0 32 .ro false false (fun _ _ => 0x3f3f3f3f)

/-- Table LAD-10 (spec/05). Bit n: slot n has a C-level transfer in progress -/
def KT_LD_XFER_BUSY : Fld := .mk' 139 0x10 18 0x140 1 0x0 1 0 .none 1 0 32 .ro false false (fun _ _ => 0x0)

/-- Table LAD-10 (spec/05). Halo writes issued and not yet acknowledged (R174) -/
def KT_LD_HALO_PEND_COUNT : Fld := .mk' 140 0x10 18 0x144 1 0x0 1 0 .none 1 0 16 .ro false false (fun _ _ => 0x0)

/-- Table LAD-10 (spec/05). C-level bytes moved; 64-bit; reading LO latches HI -/
def KT_XFER_BYTES : Fld := .mk' 141 0x10 18 0x148 1 0x0 1 0 .none 1 0 64 .ro true false (fun _ _ => 0x0)

/-- Table LAD-10 (spec/05). Halo bytes sent; saturates -/
def KT_HALO_TX_BYTES : Fld := .mk' 142 0x10 18 0x150 1 0x0 1 0 .none 1 0 32 .ro false false (fun _ _ => 0x0)

/-- Table LAD-10 (spec/05). Cycles in which a stage was held only by R177's halo condition; saturates -/
def KT_HALO_WAIT_CYC : Fld := .mk' 143 0x10 18 0x154 1 0x0 1 0 .none 1 0 32 .ro false false (fun _ _ => 0x0)

/-- Table LAD-10 (spec/05). R162; saturates -/
def KT_PAD_VEC_CNT : Fld := .mk' 144 0x10 18 0x158 1 0x0 1 0 .none 1 0 32 .ro false true (fun _ _ => 0x0)

/-- Table LAD-10 (spec/05). R193; saturates -/
def KT_COST_OVERRUN_CNT : Fld := .mk' 145 0x10 18 0x15c 1 0x0 1 0 .none 1 0 32 .ro false true (fun _ _ => 0x0)

/-- Table CMD-6 (spec/06). Address [31:0], R198 -/
def CTX_SQ_BASE_LO : Fld := .mk' 146 0x100 256 0x40 1 0x0 1 0 .none 1 0 32 .rw false false (fun _ _ => 0x0)

/-- Table CMD-6 (spec/06). Address [47:32] -/
def CTX_SQ_BASE_HI : Fld := .mk' 147 0x100 256 0x44 1 0x0 1 0 .none 1 0 16 .rw false false (fun _ _ => 0x0)

/-- Table CMD-6 (spec/06). As SQ -/
def CTX_CQ_BASE_LO : Fld := .mk' 148 0x100 256 0x48 1 0x0 1 0 .none 1 0 32 .rw false false (fun _ _ => 0x0)

/-- Table CMD-6 (spec/06). As SQ -/
def CTX_CQ_BASE_HI : Fld := .mk' 149 0x100 256 0x4c 1 0x0 1 0 .none 1 0 16 .rw false false (fun _ _ => 0x0)

/-- Table CMD-6 (spec/06). 4–12 -/
def CTX_RING_CFG_SQ_LOG2 : Fld := .mk' 150 0x100 256 0x50 1 0x0 1 0 .none 1 0 4 .rw false false (fun _ _ => 0x4)

/-- Table CMD-6 (spec/06). 4–12 -/
def CTX_RING_CFG_CQ_LOG2 : Fld := .mk' 151 0x100 256 0x50 1 0x0 1 0 .none 1 8 4 .rw false false (fun _ _ => 0x4)

/-- Table CMD-6 (spec/06). Partition -/
def CTX_CFG_PART : Fld := .mk' 152 0x100 256 0x54 1 0x0 1 0 .none 1 0 4 .rw false false (fun _ _ => 0x0)

/-- Table CMD-6 (spec/06). 0 DRAIN, 1 ABANDON -/
def CTX_CFG_POLICY : Fld := .mk' 153 0x100 256 0x54 1 0x0 1 0 .none 1 4 1 .rw false false (fun _ _ => 0x0)

/-- Table CMD-6 (spec/06). Vector for record events -/
def CTX_CFG_MSIX : Fld := .mk' 154 0x100 256 0x54 1 0x0 1 0 .none 1 8 6 .rw false false (fun _ _ => 0x0)

/-- Table CMD-6 (spec/06). Cycles; 0 means 50 -/
def CTX_LEASE_CFG_LEASE_PERIOD : Fld := .mk' 155 0x100 256 0x58 1 0x0 1 0 .none 1 0 16 .rw false false (fun _ _ => 0x0)

/-- Table CMD-6 (spec/06). Cycles; 0 means 500 -/
def CTX_LEASE_CFG_ORPHAN_HOLD : Fld := .mk' 156 0x100 256 0x58 1 0x0 1 0 .none 1 16 16 .rw false false (fun _ _ => 0x0)

/-- Table CMD-6 (spec/06). 1 OPEN, 2 CLOSE, 3 ADOPT -/
def CTX_CMD_CMD : Fld := .mk' 157 0x100 256 0x5c 1 0x0 1 0 .none 1 0 2 .wo false false (fun _ _ => 0x0)

/-- Table CMD-6 (spec/06). 0 FREE, 1 OPEN, 2 ORPHANED, 3 CLOSING -/
def CTX_STAT_STATE : Fld := .mk' 158 0x100 256 0x60 1 0x0 1 0 .none 1 0 2 .ro false false (fun _ _ => 0x0)

/-- Table CMD-6 (spec/06). R195 -/
def CTX_STAT_GEN : Fld := .mk' 159 0x100 256 0x60 1 0x0 1 0 .none 1 8 7 .ro false false (fun _ _ => 0x0)

/-- Table CMD-6 (spec/06). R196 -/
def CTX_STAT_CMD_BUSY : Fld := .mk' 160 0x100 256 0x60 1 0x0 1 0 .none 1 16 1 .ro false false (fun _ _ => 0x0)

/-- Table CMD-6 (spec/06). Table CMD-7 -/
def CTX_STAT_CMD_ERR : Fld := .mk' 161 0x100 256 0x60 1 0x0 1 0 .none 1 20 4 .w1c false false (fun _ _ => 0x0)

/-- Table CMD-6 (spec/06). R199 -/
def CTX_DOORBELL_TAIL : Fld := .mk' 162 0x100 256 0x64 1 0x0 1 0 .none 1 0 16 .wo false false (fun _ _ => 0x0)

/-- Table CMD-6 (spec/06). Indices -/
def CTX_SQ_TAIL : Fld := .mk' 163 0x100 256 0x68 1 0x0 1 0 .none 1 0 16 .ro false false (fun _ _ => 0x0)

/-- Table CMD-6 (spec/06). Indices -/
def CTX_SQ_HEAD : Fld := .mk' 164 0x100 256 0x6c 1 0x0 1 0 .none 1 0 16 .ro false false (fun _ _ => 0x0)

/-- Table CMD-6 (spec/06). Index -/
def CTX_CQ_TAIL : Fld := .mk' 165 0x100 256 0x70 1 0x0 1 0 .none 1 0 16 .ro false false (fun _ _ => 0x0)

/-- Table CMD-6 (spec/06). R206 -/
def CTX_CQ_HEAD : Fld := .mk' 166 0x100 256 0x74 1 0x0 1 0 .none 1 0 16 .rw false false (fun _ _ => 0x0)

/-- Table CMD-6 (spec/06). R227 -/
def CTX_LEASE_GEN : Fld := .mk' 167 0x100 256 0x78 1 0x0 1 0 .none 1 0 7 .wo false false (fun _ _ => 0x0)

/-- Table CMD-6 (spec/06). Expiry GT; reading LO latches HI -/
def CTX_LEASE_EXP : Fld := .mk' 168 0x100 256 0x7c 1 0x0 1 0 .none 1 0 64 .ro true false (fun _ _ => 0x0)

/-- Table CMD-6 (spec/06). — -/
def CTX_LAST_SEQ : Fld := .mk' 169 0x100 256 0x84 1 0x0 1 0 .none 1 0 32 .ro false false (fun _ _ => 0x0)

/-- Table CMD-6 (spec/06). Accepted commands without a closing record -/
def CTX_INFLIGHT : Fld := .mk' 170 0x100 256 0x88 1 0x0 1 0 .none 1 0 16 .ro false false (fun _ _ => 0x0)

/-- Table CMD-6 (spec/06). R203 -/
def CTX_CQ_RESERVED : Fld := .mk' 171 0x100 256 0x8c 1 0x0 1 0 .none 1 0 16 .ro false false (fun _ _ => 0x0)

/-- Table CMD-6 (spec/06). Saturate -/
def CTX_DB_IGNORED_CNT : Fld := .mk' 172 0x100 256 0x90 1 0x0 1 0 .none 1 0 32 .ro false true (fun _ _ => 0x0)

/-- Table CMD-6 (spec/06). Saturate -/
def CTX_DB_BAD_CNT : Fld := .mk' 173 0x100 256 0x94 1 0x0 1 0 .none 1 0 32 .ro false true (fun _ _ => 0x0)

/-- Table CMD-6 (spec/06). Saturate -/
def CTX_NOTICE_SKIP_CNT : Fld := .mk' 174 0x100 256 0x98 1 0x0 1 0 .none 1 0 32 .ro false true (fun _ _ => 0x0)

/-- Table CMD-6 (spec/06). Saturate -/
def CTX_LEASE_BAD_CNT : Fld := .mk' 175 0x100 256 0x9c 1 0x0 1 0 .none 1 0 32 .ro false true (fun _ _ => 0x0)

/-- Table CMD-6 (spec/06). Standing order addressed by 0x0C4–0x13C -/
def CTX_SO_SEL : Fld := .mk' 176 0x100 256 0xc0 1 0x0 1 0 .none 1 0 3 .rw false false (fun _ _ => 0x0)

/-- Table CMD-6 (spec/06). 1–255; 0 is taken as 1 (R736) -/
def CTX_SO_TIME_PERIOD_CYC : Fld := .mk' 177 0x100 256 0xc4 1 0x0 1 0 .so 8 0 8 .rw false false (fun _ _ => 0x1)

/-- Table CMD-6 (spec/06). Cycle residue, taken modulo PERIOD_CYC (R736) -/
def CTX_SO_TIME_ANCHOR : Fld := .mk' 178 0x100 256 0xc4 1 0x0 1 0 .so 8 8 8 .rw false false (fun _ _ => 0x0)

/-- Table CMD-6 (spec/06). Phase of occurrence -/
def CTX_SO_TIME_PHASE : Fld := .mk' 179 0x100 256 0xc4 1 0x0 1 0 .so 8 16 16 .rw false false (fun _ _ => 0x0)

/-- Table CMD-6 (spec/06). 1 ARM, 2 DISARM -/
def CTX_SO_CMD : Fld := .mk' 180 0x100 256 0xc8 1 0x0 1 0 .so 8 0 2 .wo false false (fun _ _ => 0x0)

/-- Table CMD-6 (spec/06). — -/
def CTX_SO_STAT_ARMED : Fld := .mk' 181 0x100 256 0xcc 1 0x0 1 0 .so 8 0 1 .ro false false (fun _ _ => 0x0)

/-- Table CMD-6 (spec/06). R235; saturates -/
def CTX_SO_SKIP_CNT : Fld := .mk' 182 0x100 256 0xd0 1 0x0 1 0 .so 8 0 32 .ro false true (fun _ _ => 0x0)

/-- Table CMD-6 (spec/06). Template descriptor -/
def CTX_SO_DESC : Fld := .mk' 183 0x100 256 0x100 16 0x4 1 0 .so 8 0 32 .rw false false (fun _ _ => 0x0)

/-- Table SCH-7 (spec/07). R269 -/
def SCH_SCHED_STAT_BOOKS_BUSY : Fld := .mk' 184 0x5 1 0x40 1 0x0 1 0 .none 1 0 1 .ro false false (fun _ _ => 0x0)

/-- Table SCH-7 (spec/07). Firmware scheduler running -/
def SCH_SCHED_STAT_FW_RUN : Fld := .mk' 185 0x5 1 0x40 1 0x0 1 0 .none 1 1 1 .ro false false (fun _ _ => 0x0)

/-- Table SCH-7 (spec/07). Live-update handover in progress -/
def SCH_SCHED_STAT_HANDOVER : Fld := .mk' 186 0x5 1 0x40 1 0x0 1 0 .none 1 2 1 .ro false false (fun _ _ => 0x0)

/-- Table SCH-7 (spec/07). R241 -/
def SCH_SCHED_STAT_FLOOR_BREACH : Fld := .mk' 187 0x5 1 0x40 1 0x0 1 0 .none 1 3 1 .ro false false (fun _ _ => 0x0)

/-- Table SCH-7 (spec/07). R270 -/
def SCH_BOOKS_SNAP_TAKE : Fld := .mk' 188 0x5 1 0x44 1 0x0 1 0 .none 1 0 1 .wo false false (fun _ _ => 0x0)

/-- Table SCH-7 (spec/07). Snapshot complete -/
def SCH_BOOKS_SNAP_STAT_DONE : Fld := .mk' 189 0x5 1 0x48 1 0x0 1 0 .none 1 0 1 .rc false false (fun _ _ => 0x0)

/-- Table SCH-7 (spec/07). GT of snapshot -/
def SCH_SNAP_GT : Fld := .mk' 190 0x5 1 0x4c 1 0x0 1 0 .none 1 0 64 .ro false false (fun _ _ => 0x0)

/-- Table SCH-7 (spec/07). U-class commands admitted -/
def SCH_URG_ADMIT_CNT : Fld := .mk' 191 0x5 1 0x60 1 0x0 1 0 .none 1 0 32 .ro false true (fun _ _ => 0x0)

/-- Table SCH-7 (spec/07). R250 -/
def SCH_URG_FIFO_CNT : Fld := .mk' 192 0x5 1 0x64 1 0x0 1 0 .none 1 0 32 .ro false true (fun _ _ => 0x0)

/-- Table SCH-7 (spec/07). Kills under R93 -/
def SCH_URG_KILL_CNT : Fld := .mk' 193 0x5 1 0x68 1 0x0 1 0 .none 1 0 32 .ro false true (fun _ _ => 0x0)

/-- Table SCH-7 (spec/07). Reruns of any cause -/
def SCH_RERUN_CNT : Fld := .mk' 194 0x5 1 0x6c 1 0x0 1 0 .none 1 0 32 .ro false true (fun _ _ => 0x0)

/-- Table SCH-7 (spec/07). — -/
def SCH_REFUSED_BUDGET_CNT : Fld := .mk' 195 0x5 1 0x70 1 0x0 1 0 .none 1 0 32 .ro false true (fun _ _ => 0x0)

/-- Table SCH-7 (spec/07). — -/
def SCH_SHED_DEADLINE_CNT : Fld := .mk' 196 0x5 1 0x74 1 0x0 1 0 .none 1 0 32 .ro false true (fun _ _ => 0x0)

/-- Table SCH-7 (spec/07). — -/
def SCH_SHED_INFEASIBLE_CNT : Fld := .mk' 197 0x5 1 0x78 1 0x0 1 0 .none 1 0 32 .ro false true (fun _ _ => 0x0)

/-- Table SCH-7 (spec/07). R254 -/
def SCH_URG_LATE_START_CNT : Fld := .mk' 198 0x5 1 0x7c 1 0x0 1 0 .none 1 0 32 .ro false true (fun _ _ => 0x0)

/-- Table SCH-7 (spec/07). Longest within-budget start, ns -/
def SCH_URG_START_MAX : Fld := .mk' 199 0x5 1 0x80 1 0x0 1 0 .none 1 0 32 .rc false false (fun _ _ => 0x0)

/-- Table SCH-7 (spec/07). Longest transaction, ns -/
def SCH_TXN_MAX : Fld := .mk' 200 0x5 1 0x84 1 0x0 1 0 .none 1 0 32 .rc false false (fun _ _ => 0x0)

/-- Table SCH-8 (spec/07). Partition addressed by 0x104–0x118 -/
def SCH_PART_SEL : Fld := .mk' 201 0x5 1 0x100 1 0x0 1 0 .none 1 0 4 .rw false false (fun _ _ => 0x0)

/-- Table SCH-8 (spec/07). R238, R239 -/
def SCH_PART_KMASK : Fld := .mk' 202 0x5 1 0x104 1 0x0 1 0 .part 16 0 16 .rw false false (fun _ i => if i = 0 then 0xFFFF else 0)

/-- Table SCH-8 (spec/07). R240, R241 -/
def SCH_PART_CFG_OP_FLOOR : Fld := .mk' 203 0x5 1 0x108 1 0x0 1 0 .part 16 0 2 .rw false false (fun _ _ => 0x3)

/-- Table SCH-8 (spec/07). R244 -/
def SCH_PART_CFG_B_SLOTS : Fld := .mk' 204 0x5 1 0x108 1 0x0 1 0 .part 16 8 5 .rw false false (fun _ _ => 0x8)

/-- Table SCH-8 (spec/07). CU per cycle, R242 -/
def SCH_PART_URG_BUDGET : Fld := .mk' 205 0x5 1 0x10c 1 0x0 1 0 .part 16 0 24 .rw false false (fun _ _ => 0x0)

/-- Table SCH-8 (spec/07). R240; follows NOMINAL_HZ, KMAP and OP_FLOOR -/
def SCH_PART_CAP : Fld := .mk' 206 0x5 1 0x110 1 0x0 1 0 .part 16 0 24 .ro false false (fun _ _ => 0)

/-- Table SCH-8 (spec/07). R243 -/
def SCH_PART_URG_ALLOC : Fld := .mk' 207 0x5 1 0x114 1 0x0 1 0 .part 16 0 24 .ro false false (fun _ _ => 0x0)

/-- Table SCH-8 (spec/07). R239 -/
def SCH_PART_ERR_OVERLAP : Fld := .mk' 208 0x5 1 0x118 1 0x0 1 0 .part 16 0 1 .w1c false false (fun _ _ => 0x0)

/-- Table SCH-8 (spec/07). R242 -/
def SCH_PART_ERR_BUDGET : Fld := .mk' 209 0x5 1 0x118 1 0x0 1 0 .part 16 1 1 .w1c false false (fun _ _ => 0x0)

/-- Table SCH-8 (spec/07). R265 -/
def SCH_PART_VT : Fld := .mk' 210 0x5 1 0x11c 1 0x0 1 0 .part 16 0 32 .ro false false (fun _ _ => 0x0)

/-- Table SCH-9 (spec/07). Context addressed: 0–255 on a single device or a follower; cabinet context 0–2047 on a hea … -/
def SCH_BKT_CTX : Fld := .mk' 211 0x5 1 0x140 1 0x0 1 0 .none 1 0 11 .rw false false (fun _ _ => 0x0)

/-- Table SCH-9 (spec/07). 1 addresses firmware's context FW (R237); its RATE, BURST and B_WEIGHT are then read-only -/
def SCH_BKT_CTX_FW : Fld := .mk' 212 0x5 1 0x140 1 0x0 1 0 .none 1 15 1 .rw false false (fun _ _ => 0x0)

/-- Table SCH-9 (spec/07). 0 U, 1 F, 2 B -/
def SCH_BKT_CLASS : Fld := .mk' 213 0x5 1 0x144 1 0x0 1 0 .none 1 0 2 .rw false false (fun _ _ => 0x0)

/-- Table SCH-9 (spec/07). CU per cycle, R261 -/
def SCH_BKT_RATE : Fld := .mk' 214 0x5 1 0x148 1 0x0 1 0 .bkt 65536 0 24 .rw false false (fun _ _ => 0x0)

/-- Table SCH-9 (spec/07). CU -/
def SCH_BKT_BURST : Fld := .mk' 215 0x5 1 0x14c 1 0x0 1 0 .bkt 65536 0 24 .rw false false (fun _ _ => 0x0)

/-- Table SCH-9 (spec/07). — -/
def SCH_BKT_LEVEL : Fld := .mk' 216 0x5 1 0x150 1 0x0 1 0 .bkt 65536 0 24 .ro false false (fun _ _ => 0x0)

/-- Table SCH-9 (spec/07). 64-bit -/
def SCH_CREDITED : Fld := .mk' 217 0x5 1 0x154 1 0x0 1 0 .bkt 65536 0 64 .ro false false (fun _ _ => 0x0)

/-- Table SCH-9 (spec/07). 64-bit -/
def SCH_DEBITED : Fld := .mk' 218 0x5 1 0x15c 1 0x0 1 0 .bkt 65536 0 64 .ro false false (fun _ _ => 0x0)

/-- Table SCH-9 (spec/07). 64-bit -/
def SCH_REFUNDED : Fld := .mk' 219 0x5 1 0x164 1 0x0 1 0 .bkt 65536 0 64 .ro false false (fun _ _ => 0x0)

/-- Table SCH-9 (spec/07). Held commands -/
def SCH_BKT_WAITERS : Fld := .mk' 220 0x5 1 0x16c 1 0x0 1 0 .bkt 65536 0 16 .ro false false (fun _ _ => 0x0)

/-- Table SCH-9 (spec/07). R265; 0 reads as 1 -/
def SCH_B_WEIGHT : Fld := .mk' 221 0x5 1 0x170 1 0x0 1 0 .bctx 4096 0 8 .rw false false (fun _ _ => 0x1)

/-- Table SCH-9 (spec/07). Wrap modulo 2^32 -/
def SCH_ACCEPTED_CNT : Fld := .mk' 222 0x5 1 0x174 1 0x0 1 0 .bctx 4096 0 32 .ro false false (fun _ _ => 0x0)

/-- Table SCH-9 (spec/07). Wrap modulo 2^32 -/
def SCH_CLOSED_CNT : Fld := .mk' 223 0x5 1 0x178 1 0x0 1 0 .bctx 4096 0 32 .ro false false (fun _ _ => 0x0)

/-- Table SCH-10 (spec/07). Logical Kettle addressed -/
def SCH_KB_SEL : Fld := .mk' 224 0x5 1 0x180 1 0x0 1 0 .none 1 0 4 .rw false false (fun _ _ => 0x0)

/-- Table SCH-10 (spec/07). — -/
def SCH_KB_SLOTS0_FREE : Fld := .mk' 225 0x5 1 0x184 1 0x0 1 0 .kb 16 0 6 .ro false false (fun _ _ => 0x20)

/-- Table SCH-10 (spec/07). — -/
def SCH_KB_SLOTS0_LOADED : Fld := .mk' 226 0x5 1 0x184 1 0x0 1 0 .kb 16 8 6 .ro false false (fun _ _ => 0x0)

/-- Table SCH-10 (spec/07). — -/
def SCH_KB_SLOTS0_RUNNING : Fld := .mk' 227 0x5 1 0x184 1 0x0 1 0 .kb 16 16 6 .ro false false (fun _ _ => 0x0)

/-- Table SCH-10 (spec/07). — -/
def SCH_KB_SLOTS0_KILLING : Fld := .mk' 228 0x5 1 0x184 1 0x0 1 0 .kb 16 24 6 .ro false false (fun _ _ => 0x0)

/-- Table SCH-10 (spec/07). — -/
def SCH_KB_SLOTS1_COMMITTING : Fld := .mk' 229 0x5 1 0x188 1 0x0 1 0 .kb 16 0 6 .ro false false (fun _ _ => 0x0)

/-- Table SCH-10 (spec/07). — -/
def SCH_KB_GRAN_AVAIL : Fld := .mk' 230 0x5 1 0x18c 1 0x0 1 0 .kb 16 0 8 .ro false false (fun _ _ => 0xe0)

/-- Table SCH-10 (spec/07). — -/
def SCH_KB_GRAN_HELD : Fld := .mk' 231 0x5 1 0x18c 1 0x0 1 0 .kb 16 8 8 .ro false false (fun _ _ => 0x0)

/-- Table SCH-10 (spec/07). — -/
def SCH_KB_GRAN_SHARED : Fld := .mk' 232 0x5 1 0x18c 1 0x0 1 0 .kb 16 16 8 .ro false false (fun _ _ => 0x0)

/-- Table SCH-10 (spec/07). — -/
def SCH_KB_GRAN_RERUN_RESV : Fld := .mk' 233 0x5 1 0x18c 1 0x0 1 0 .kb 16 24 8 .ro false false (fun _ _ => 0x0)

/-- Table SCH-10 (spec/07). — -/
def SCH_KB_URG_URG_FREE : Fld := .mk' 234 0x5 1 0x190 1 0x0 1 0 .kb 16 0 6 .ro false false (fun _ _ => 0x20)

/-- Table SCH-10 (spec/07). — -/
def SCH_KB_URG_URG_HELD : Fld := .mk' 235 0x5 1 0x190 1 0x0 1 0 .kb 16 8 6 .ro false false (fun _ _ => 0x0)

/-- Table SPC-4 (spec/08). Cycles; 0 means the default of R294 -/
def SPC_SPEC_CTRL_SPEC_HOLD : Fld := .mk' 236 0x6 1 0x40 1 0x0 1 0 .none 1 0 16 .rw false false (fun _ _ => 0x0)

/-- Table SPC-4 (spec/08). R275 -/
def SPC_SPEC_STAT_GRACE : Fld := .mk' 237 0x6 1 0x44 1 0x0 1 0 .none 1 0 16 .ro false false (fun _ _ => 0x199a)

/-- Table SPC-4 (spec/08). R299 -/
def SPC_SPEC_STAT_RETRACT_BUSY : Fld := .mk' 238 0x6 1 0x44 1 0x0 1 0 .none 1 16 1 .ro false false (fun _ _ => 0x0)

/-- Table SPC-4 (spec/08). Frames confirmed -/
def SPC_CONFIRM_CNT : Fld := .mk' 239 0x6 1 0x48 1 0x0 1 0 .none 1 0 32 .ro false true (fun _ _ => 0x0)

/-- Table SPC-4 (spec/08). Frames retracted -/
def SPC_RETRACT_CNT : Fld := .mk' 240 0x6 1 0x4c 1 0x0 1 0 .none 1 0 32 .ro false true (fun _ _ => 0x0)

/-- Table SPC-4 (spec/08). RETRACTED records -/
def SPC_RETR_CMD_CNT : Fld := .mk' 241 0x6 1 0x50 1 0x0 1 0 .none 1 0 32 .ro false true (fun _ _ => 0x0)

/-- Table SPC-4 (spec/08). R289 -/
def SPC_GUARD_CNT : Fld := .mk' 242 0x6 1 0x54 1 0x0 1 0 .none 1 0 32 .ro false true (fun _ _ => 0x0)

/-- Table SPC-4 (spec/08). R279 -/
def SPC_NOARENA_CNT : Fld := .mk' 243 0x6 1 0x58 1 0x0 1 0 .none 1 0 32 .ro false true (fun _ _ => 0x0)

/-- Table SPC-4 (spec/08). Raises sent under R292 -/
def SPC_SPEC_RAISE_CNT : Fld := .mk' 244 0x6 1 0x5c 1 0x0 1 0 .none 1 0 32 .ro false true (fun _ _ => 0x0)

/-- Table SPC-4 (spec/08). R293 -/
def SPC_SPEC_REVERT_CNT : Fld := .mk' 245 0x6 1 0x60 1 0x0 1 0 .none 1 0 32 .ro false true (fun _ _ => 0x0)

/-- Table SPC-4 (spec/08). Frame id of the last retraction -/
def SPC_LAST_RETR_FRAME : Fld := .mk' 246 0x6 1 0x64 1 0x0 1 0 .none 1 0 32 .ro false false (fun _ _ => 0xffffffff)

/-- Table SPC-4 (spec/08). 1 DEADLINE, 2 CRC, 3 SHORT, 4 LONG, 5 LINE_FLAG, 6 DROPPED, 7 STALE -/
def SPC_LAST_RETR_CAUSE : Fld := .mk' 247 0x6 1 0x68 1 0x0 1 0 .none 1 0 4 .ro false false (fun _ _ => 0x0)

/-- Table SPC-4 (spec/08). Domain addressed by 0x084–0x098 -/
def SPC_DOM_SEL : Fld := .mk' 248 0x6 1 0x80 1 0x0 1 0 .none 1 0 4 .rw false false (fun _ _ => 0x0)

/-- Table SPC-4 (spec/08). Address [31:12] -/
def SPC_DOM_ARENA_LO_BASE : Fld := .mk' 249 0x6 1 0x84 1 0x0 1 0 .dom 16 12 20 .rw false false (fun _ _ => 0x0)

/-- Table SPC-4 (spec/08). Address [47:32] -/
def SPC_DOM_ARENA_HI_BASE : Fld := .mk' 250 0x6 1 0x88 1 0x0 1 0 .dom 16 0 16 .rw false false (fun _ _ => 0x0)

/-- Table SPC-4 (spec/08). Arena pages -/
def SPC_DOM_LEN : Fld := .mk' 251 0x6 1 0x8c 1 0x0 1 0 .dom 16 0 20 .rw false false (fun _ _ => 0x0)

/-- Table SPC-4 (spec/08). Partitions permitted -/
def SPC_DOM_PARTMASK : Fld := .mk' 252 0x6 1 0x90 1 0x0 1 0 .dom 16 0 16 .rw false false (fun _ _ => 0x0)

/-- Table SPC-4 (spec/08). R301, R302 -/
def SPC_DOM_CFG_EN : Fld := .mk' 253 0x6 1 0x94 1 0x0 1 0 .dom 16 0 1 .rw false false (fun _ _ => 0x0)

/-- Table SPC-4 (spec/08). R301, R302 -/
def SPC_DOM_STAT_CFG_ERR : Fld := .mk' 254 0x6 1 0x98 1 0x0 1 0 .dom 16 0 1 .w1c false false (fun _ _ => 0x0)

/-- Table SPC-4 (spec/08). Stream addressed by 0x0A4–0x0A8 -/
def SPC_STR_SEL : Fld := .mk' 255 0x6 1 0xa0 1 0x0 1 0 .none 1 0 6 .rw false false (fun _ _ => 0x0)

/-- Table SPC-4 (spec/08). — -/
def SPC_STR_CFG_DOMAIN : Fld := .mk' 256 0x6 1 0xa4 1 0x0 1 0 .str 64 0 4 .rw false false (fun _ _ => 0x0)

/-- Table SPC-4 (spec/08). R279 -/
def SPC_STR_CFG_SPEC_EN : Fld := .mk' 257 0x6 1 0xa4 1 0x0 1 0 .str 64 4 1 .rw false false (fun _ _ => 0x0)

/-- Table SPC-4 (spec/08). Table SPC-1 -/
def SPC_STR_CFG_ACCEPT_CRC : Fld := .mk' 258 0x6 1 0xa4 1 0x0 1 0 .str 64 8 1 .rw false false (fun _ _ => 0x0)

/-- Table SPC-4 (spec/08). Table SPC-1 -/
def SPC_STR_CFG_ACCEPT_SHORT : Fld := .mk' 259 0x6 1 0xa4 1 0x0 1 0 .str 64 9 1 .rw false false (fun _ _ => 0x0)

/-- Table SPC-4 (spec/08). Table SPC-1 -/
def SPC_STR_CFG_ACCEPT_LONG : Fld := .mk' 260 0x6 1 0xa4 1 0x0 1 0 .str 64 10 1 .rw false false (fun _ _ => 0x0)

/-- Table SPC-4 (spec/08). Table SPC-1 -/
def SPC_STR_CFG_ACCEPT_LINEFLAG : Fld := .mk' 261 0x6 1 0xa4 1 0x0 1 0 .str 64 11 1 .rw false false (fun _ _ => 0x0)

/-- Table SPC-4 (spec/08). Phase units (R275) -/
def SPC_STR_PERIOD : Fld := .mk' 262 0x6 1 0xa8 1 0x0 1 0 .str 64 0 24 .rw false false (fun _ _ => 0x10000)

/-- Table CSI-6 (spec/09). 1, 2 or 4; other values disable the port -/
def CSI_PHY_CFG_LANES : Fld := .mk' 263 0x60 16 0x40 1 0x0 1 0 .none 1 0 3 .rw false false (fun _ _ => 0x4)

/-- Table CSI-6 (spec/09). Physical lane of logical lane i at [2i+1:2i] -/
def CSI_PHY_CFG_LANE_MAP : Fld := .mk' 264 0x60 16 0x40 1 0x0 1 0 .none 1 8 8 .rw false false (fun _ _ => 0xe4)

/-- Table CSI-6 (spec/09). Invert data lane i -/
def CSI_PHY_CFG_LANE_POL : Fld := .mk' 265 0x60 16 0x40 1 0x0 1 0 .none 1 16 4 .rw false false (fun _ _ => 0x0)

/-- Table CSI-6 (spec/09). Invert clock lane -/
def CSI_PHY_CFG_CLK_POL : Fld := .mk' 266 0x60 16 0x40 1 0x0 1 0 .none 1 20 1 .rw false false (fun _ _ => 0x0)

/-- Table CSI-6 (spec/09). Port enable -/
def CSI_PHY_CFG_EN : Fld := .mk' 267 0x60 16 0x40 1 0x0 1 0 .none 1 31 1 .rw false false (fun _ _ => 0x0)

/-- Table CSI-6 (spec/09). 80–2500 per lane -/
def CSI_PHY_RATE_MBPS : Fld := .mk' 268 0x60 16 0x44 1 0x0 1 0 .none 1 0 12 .rw false false (fun _ _ => 0x3e8)

/-- Table CSI-6 (spec/09). Clock lane in HS -/
def CSI_PHY_STAT_CLK_HS : Fld := .mk' 269 0x60 16 0x48 1 0x0 1 0 .none 1 0 1 .ro false false (fun _ _ => 0x0)

/-- Table CSI-6 (spec/09). Data lanes in HS -/
def CSI_PHY_STAT_LANE_HS : Fld := .mk' 270 0x60 16 0x48 1 0x0 1 0 .none 1 1 4 .ro false false (fun _ _ => 0x0)

/-- Table CSI-6 (spec/09). — -/
def CSI_PHY_STAT_DESKEW_DONE : Fld := .mk' 271 0x60 16 0x48 1 0x0 1 0 .none 1 5 1 .ro false false (fun _ _ => 0x0)

/-- Table CSI-6 (spec/09). — -/
def CSI_PHY_STAT_ULPS : Fld := .mk' 272 0x60 16 0x48 1 0x0 1 0 .none 1 6 1 .ro false false (fun _ _ => 0x0)

/-- Table CSI-6 (spec/09). Table DEV-3, R305, R307, R315, R316, R319 -/
def CSI_HDR_CORR_CNT : Fld := .mk' 273 0x60 16 0x50 1 0x0 1 0 .none 1 0 32 .ro false true (fun _ _ => 0x0)

/-- Table CSI-6 (spec/09). Table DEV-3, R305, R307, R315, R316, R319 -/
def CSI_HDR_UNCORR_CNT : Fld := .mk' 274 0x60 16 0x54 1 0x0 1 0 .none 1 0 32 .ro false true (fun _ _ => 0x0)

/-- Table CSI-6 (spec/09). Table DEV-3, R305, R307, R315, R316, R319 -/
def CSI_GEN_LONG_CNT : Fld := .mk' 275 0x60 16 0x58 1 0x0 1 0 .none 1 0 32 .ro false true (fun _ _ => 0x0)

/-- Table CSI-6 (spec/09). Table DEV-3, R305, R307, R315, R316, R319 -/
def CSI_CRC_CNT : Fld := .mk' 276 0x60 16 0x5c 1 0x0 1 0 .none 1 0 32 .ro false true (fun _ _ => 0x0)

/-- Table CSI-6 (spec/09). Table DEV-3, R305, R307, R315, R316, R319 -/
def CSI_SOT_ERR_CNT : Fld := .mk' 277 0x60 16 0x60 1 0x0 1 0 .none 1 0 32 .ro false true (fun _ _ => 0x0)

/-- Table CSI-6 (spec/09). Table DEV-3, R305, R307, R315, R316, R319 -/
def CSI_FS_INFER_CNT : Fld := .mk' 278 0x60 16 0x64 1 0x0 1 0 .none 1 0 32 .ro false true (fun _ _ => 0x0)

/-- Table CSI-6 (spec/09). Table DEV-3, R305, R307, R315, R316, R319 -/
def CSI_FE_INFER_CNT : Fld := .mk' 279 0x60 16 0x68 1 0x0 1 0 .none 1 0 32 .ro false true (fun _ _ => 0x0)

/-- Table CSI-6 (spec/09). Larder address [31:0]; 64-byte aligned; writable while every stream of the port is disable … -/
def CSI_POOL_BASE_LO : Fld := .mk' 280 0x60 16 0x80 1 0x0 1 0 .none 1 0 32 .rw false false (fun _ _ => 0x0)

/-- Table CSI-6 (spec/09). [47:32] -/
def CSI_POOL_BASE_HI : Fld := .mk' 281 0x60 16 0x84 1 0x0 1 0 .none 1 0 16 .rw false false (fun _ _ => 0x0)

/-- Table CSI-6 (spec/09). 1–32 -/
def CSI_POOL_CFG_NBUF : Fld := .mk' 282 0x60 16 0x88 1 0x0 1 0 .none 1 0 6 .rw false false (fun _ _ => 0x0)

/-- Table CSI-6 (spec/09). 2–1,023 -/
def CSI_POOL_CFG_BUF_KIB : Fld := .mk' 283 0x60 16 0x88 1 0x0 1 0 .none 1 16 10 .rw false false (fun _ _ => 0x0)

/-- Table CSI-6 (spec/09). R311 -/
def CSI_POOL_BOOKS_FREE : Fld := .mk' 284 0x60 16 0x8c 1 0x0 1 0 .none 1 0 6 .ro false false (fun _ _ => 0x0)

/-- Table CSI-6 (spec/09). R311 -/
def CSI_POOL_BOOKS_CAPTURING : Fld := .mk' 285 0x60 16 0x8c 1 0x0 1 0 .none 1 8 6 .ro false false (fun _ _ => 0x0)

/-- Table CSI-6 (spec/09). R311 -/
def CSI_POOL_BOOKS_HELD : Fld := .mk' 286 0x60 16 0x8c 1 0x0 1 0 .none 1 16 6 .ro false false (fun _ _ => 0x0)

/-- Table CSI-6 (spec/09). R329 -/
def CSI_REF_RELEASE : Fld := .mk' 287 0x60 16 0x90 1 0x0 1 0 .none 1 0 32 .wo false false (fun _ _ => 0x0)

/-- Table CSI-7 (spec/09). R308; other fields of the block are writable only while EN is 0 -/
def CSI_STR_CTRL_EN : Fld := .mk' 288 0x60 16 0x100 4 0x40 1 0 .none 1 0 1 .rw false false (fun _ _ => 0x0)

/-- Table CSI-7 (spec/09). Data type -/
def CSI_STR_CTRL_DT : Fld := .mk' 289 0x60 16 0x100 4 0x40 1 0 .none 1 2 6 .rw false false (fun _ _ => 0x2c)

/-- Table CSI-7 (spec/09). 0 PAD_CUT, 1 MARK_ONLY -/
def CSI_STR_CTRL_LINE_POLICY : Fld := .mk' 290 0x60 16 0x100 4 0x40 1 0 .none 1 8 1 .rw false false (fun _ _ => 0x0)

/-- Table CSI-7 (spec/09). R313, R317 -/
def CSI_STR_CTRL_PAD_SRC : Fld := .mk' 291 0x60 16 0x100 4 0x40 1 0 .none 1 9 1 .rw false false (fun _ _ => 0x0)

/-- Table CSI-7 (spec/09). Embedded data 0x12 stored -/
def CSI_STR_CTRL_EMB_EN : Fld := .mk' 292 0x60 16 0x100 4 0x40 1 0 .none 1 10 1 .rw false false (fun _ _ => 0x0)

/-- Table CSI-7 (spec/09). R310 -/
def CSI_STR_CTRL_BIND_HOLD : Fld := .mk' 293 0x60 16 0x100 4 0x40 1 0 .none 1 11 1 .rw false false (fun _ _ => 0x0)

/-- Table CSI-7 (spec/09). 0–4 -/
def CSI_STR_CTRL_RETAIN : Fld := .mk' 294 0x60 16 0x100 4 0x40 1 0 .none 1 12 3 .rw false false (fun _ _ => 0x0)

/-- Table CSI-7 (spec/09). Pixels; lines 1–8,192 -/
def CSI_STR_GEOM_WIDTH : Fld := .mk' 295 0x60 16 0x104 4 0x40 1 0 .none 1 0 16 .rw false false (fun _ _ => 0x0)

/-- Table CSI-7 (spec/09). Pixels; lines 1–8,192 -/
def CSI_STR_GEOM_LINES : Fld := .mk' 296 0x60 16 0x104 4 0x40 1 0 .none 1 16 16 .rw false false (fun _ _ => 0x0)

/-- Table CSI-7 (spec/09). Bytes -/
def CSI_LINE_PITCH : Fld := .mk' 297 0x60 16 0x108 4 0x40 1 0 .none 1 0 32 .rw false false (fun _ _ => 0x0)

/-- Table CSI-7 (spec/09). 64–512 -/
def CSI_BUF_LINES : Fld := .mk' 298 0x60 16 0x10c 4 0x40 1 0 .none 1 0 10 .rw false false (fun _ _ => 0x100)

/-- Table CSI-7 (spec/09). R307 -/
def CSI_STR_MAX_WC : Fld := .mk' 299 0x60 16 0x110 4 0x40 1 0 .none 1 0 16 .rw false false (fun _ _ => 0xffff)

/-- Table CSI-7 (spec/09). Sample value -/
def CSI_PAD_VALUE : Fld := .mk' 300 0x60 16 0x114 4 0x40 1 0 .none 1 0 16 .rw false false (fun _ _ => 0x0)

/-- Table CSI-7 (spec/09). Bytes, multiple of 64 -/
def CSI_EMB_LEN : Fld := .mk' 301 0x60 16 0x118 4 0x40 1 0 .none 1 0 16 .rw false false (fun _ _ => 0x0)

/-- Table CSI-7 (spec/09). Phase units -/
def CSI_MAX_AGE : Fld := .mk' 302 0x60 16 0x11c 4 0x40 1 0 .none 1 0 24 .rw false false (fun _ _ => 0x30000)

/-- Table CSI-7 (spec/09). R322 -/
def CSI_TRIG_MAX : Fld := .mk' 303 0x60 16 0x120 4 0x40 1 0 .none 1 0 24 .rw false false (fun _ _ => 0x1000)

/-- Table CSI-7 (spec/09). R322 -/
def CSI_TRIG_LAG : Fld := .mk' 304 0x60 16 0x124 4 0x40 1 0 .none 1 0 24 .ro false false (fun _ _ => 0x0)

/-- Table CSI-7 (spec/09). Cycles, 1–255; 0 reads as 1 -/
def CSI_BIND_HOLD_CYC : Fld := .mk' 305 0x60 16 0x128 4 0x40 1 0 .none 1 0 8 .rw false false (fun _ _ => 0x4)

/-- Table CSI-7 (spec/09). R308 -/
def CSI_STR_STAT_CFG_ERR : Fld := .mk' 306 0x60 16 0x12c 4 0x40 1 0 .none 1 0 1 .w1c false false (fun _ _ => 0x0)

/-- Table CSI-7 (spec/09). — -/
def CSI_LAST_FRAME_ID : Fld := .mk' 307 0x60 16 0x130 4 0x40 1 0 .none 1 0 32 .ro false false (fun _ _ => 0xffffffff)

/-- Table CSI-7 (spec/09). Reading LO latches HI -/
def CSI_LAST_CAPT_GT : Fld := .mk' 308 0x60 16 0x134 4 0x40 1 0 .none 1 0 64 .ro true false (fun _ _ => 0x0)

/-- Table CSI-8 (spec/09). Stream bitmask, at most 16 set; writable while EN is 0 -/
def AG_MEMBERS : Fld := .mk' 309 0x60 1 0x400 4 0x20 1 0 .none 1 0 64 .rw false false (fun _ _ => 0x0)

/-- Table CSI-8 (spec/09). Phase units -/
def AG_CFG_TOL : Fld := .mk' 310 0x60 1 0x408 4 0x20 1 0 .none 1 0 24 .rw false false (fun _ _ => 0x400)

/-- Table CSI-8 (spec/09). 0 DROP, 1 PARTIAL -/
def AG_CFG_POLICY : Fld := .mk' 311 0x60 1 0x408 4 0x20 1 0 .none 1 24 1 .rw false false (fun _ _ => 0x1)

/-- Table CSI-8 (spec/09). Writing 1 with more than 16 members, or a stream already in another group, leaves EN at 0 -/
def AG_CFG_EN : Fld := .mk' 312 0x60 1 0x408 4 0x20 1 0 .none 1 31 1 .rw false false (fun _ _ => 0x0)

/-- Table CSI-8 (spec/09). Mask of the last released window -/
def AG_MISSING : Fld := .mk' 313 0x60 1 0x40c 4 0x20 1 0 .none 1 0 16 .ro false false (fun _ _ => 0x0)

/-- Table CSI-8 (spec/09). R324 -/
def AG_COMPLETE_CNT : Fld := .mk' 314 0x60 1 0x410 4 0x20 1 0 .none 1 0 32 .ro false true (fun _ _ => 0x0)

/-- Table CSI-8 (spec/09). R324 -/
def AG_PARTIAL_CNT : Fld := .mk' 315 0x60 1 0x414 4 0x20 1 0 .none 1 0 32 .ro false true (fun _ _ => 0x0)

/-- Table CSI-8 (spec/09). R324 -/
def AG_DROP_CNT : Fld := .mk' 316 0x60 1 0x418 4 0x20 1 0 .none 1 0 32 .ro false true (fun _ _ => 0x0)

/-- Table CSI-9 (spec/09). 0 off, 1 I2C, 2 I3C -/
def SC_CFG_MODE : Fld := .mk' 317 0xb8 1 0x40 8 0x20 1 0 .none 1 0 2 .rw false false (fun _ _ => 0x0)

/-- Table CSI-9 (spec/09). 0 100 kHz, 1 400 kHz, 2 1 MHz -/
def SC_CFG_I2C_SPEED : Fld := .mk' 318 0xb8 1 0x40 8 0x20 1 0 .none 1 2 2 .rw false false (fun _ _ => 0x1)

/-- Table CSI-9 (spec/09). SDR rate, 1–12; 12 means 12.5 MHz -/
def SC_CFG_I3C_MHZ : Fld := .mk' 319 0xb8 1 0x40 8 0x20 1 0 .none 1 4 4 .rw false false (fun _ _ => 0xc)

/-- Table CSI-9 (spec/09). Bundle address [31:0] -/
def SC_PUSH_LO : Fld := .mk' 320 0xb8 1 0x44 8 0x20 1 0 .none 1 0 32 .rw false false (fun _ _ => 0x0)

/-- Table CSI-9 (spec/09). Address [47:32]; the write pushes -/
def SC_PUSH_HI : Fld := .mk' 321 0xb8 1 0x48 8 0x20 1 0 .none 1 0 16 .wo false false (fun _ _ => 0x0)

/-- Table CSI-9 (spec/09). R333 -/
def SC_FLUSH : Fld := .mk' 322 0xb8 1 0x4c 8 0x20 1 0 .none 1 0 1 .wo false false (fun _ _ => 0x0)

/-- Table CSI-9 (spec/09). Bundles queued -/
def SC_STAT_QUEUED : Fld := .mk' 323 0xb8 1 0x50 8 0x20 1 0 .none 1 0 5 .ro false false (fun _ _ => 0x0)

/-- Table CSI-9 (spec/09). Bus transaction in progress -/
def SC_STAT_BUSY : Fld := .mk' 324 0xb8 1 0x50 8 0x20 1 0 .none 1 8 1 .ro false false (fun _ _ => 0x0)

/-- Table CSI-9 (spec/09). Saturate -/
def SC_NACK_CNT : Fld := .mk' 325 0xb8 1 0x54 8 0x20 1 0 .none 1 0 32 .ro false true (fun _ _ => 0x0)

/-- Table CSI-9 (spec/09). Saturate -/
def SC_LATE_WR_CNT : Fld := .mk' 326 0xb8 1 0x58 8 0x20 1 0 .none 1 0 32 .ro false true (fun _ _ => 0x0)

/-- Table CSI-9 (spec/09). Saturate -/
def SC_PUSH_FULL_CNT : Fld := .mk' 327 0xb8 1 0x5c 8 0x20 1 0 .none 1 0 32 .ro false true (fun _ _ => 0x0)

/-- Table CSI-9 (spec/09). Stream addressed by 0x204–0x208 -/
def SC_PROF_SEL : Fld := .mk' 328 0xb8 1 0x200 1 0x0 1 0 .none 1 0 6 .rw false false (fun _ _ => 0x0)

/-- Table CSI-9 (spec/09). Controller -/
def SC_PROF_CTRL : Fld := .mk' 329 0xb8 1 0x204 1 0x0 1 0 .prof 64 0 3 .rw false false (fun _ _ => 0x0)

/-- Table CSI-9 (spec/09). 1–3; 0 reads as 1 -/
def SC_PROF_DELAY : Fld := .mk' 330 0xb8 1 0x204 1 0x0 1 0 .prof 64 4 2 .rw false false (fun _ _ => 0x2)

/-- Table CSI-9 (spec/09). Phase units -/
def SC_PROF_WIN_WR_OFS : Fld := .mk' 331 0xb8 1 0x208 1 0x0 1 0 .prof 64 0 16 .rw false false (fun _ _ => 0x1000)

/-- Table CSI-9 (spec/09). Phase units -/
def SC_PROF_WIN_WR_LATEST : Fld := .mk' 332 0xb8 1 0x208 1 0x0 1 0 .prof 64 16 16 .rw false false (fun _ _ => 0x8000)

/-- Table CSI-9 (spec/09). [7:0] address, [15:8] byte count, [16] valid; payload and GT follow at 0x214–0x220 -/
def SC_IBI_POP : Fld := .mk' 333 0xb8 1 0x210 1 0x0 1 0 .none 1 0 32 .rc false false (fun _ _ => 0x0)

/-- Table CSI-9 (spec/09). Saturates -/
def SC_IBI_LOST_CNT : Fld := .mk' 334 0xb8 1 0x224 1 0x0 1 0 .none 1 0 32 .ro false true (fun _ _ => 0x0)

/-- Table CSI-9 (spec/09). R334; saturates -/
def SC_BAD_BUNDLE_CNT : Fld := .mk' 335 0xb8 1 0x228 1 0x0 1 0 .none 1 0 32 .ro false true (fun _ _ => 0x0)

/-- Table SIV-5 (spec/10). Instance enable -/
def SV_CTRL_EN : Fld := .mk' 336 0x70 2 0x40 1 0x0 1 0 .none 1 0 1 .rw false false (fun _ _ => 0x0)

/-- Table SIV-5 (spec/10). No new stripe starts; the running stripe finishes -/
def SV_CTRL_HALT : Fld := .mk' 337 0x70 2 0x40 1 0x0 1 0 .none 1 1 1 .rw false false (fun _ _ => 0x0)

/-- Table SIV-5 (spec/10). Phase units (R347), 0.156 ms at 50 Hz, 0.130 ms at 60 Hz -/
def SV_CFG_STALL_MAX : Fld := .mk' 338 0x70 2 0x44 1 0x0 1 0 .none 1 0 16 .rw false false (fun _ _ => 0x200)

/-- Table SIV-5 (spec/10). A stripe, save, restore or fetch in progress -/
def SV_STAT_BUSY : Fld := .mk' 339 0x70 2 0x48 1 0x0 1 0 .none 1 0 1 .ro false false (fun _ _ => 0x0)

/-- Table SIV-5 (spec/10). Context running -/
def SV_STAT_CUR_CTX : Fld := .mk' 340 0x70 2 0x48 1 0x0 1 0 .none 1 8 6 .ro false false (fun _ _ => 0x0)

/-- Table SIV-5 (spec/10). HALT set and idle -/
def SV_STAT_HALTED : Fld := .mk' 341 0x70 2 0x48 1 0x0 1 0 .none 1 16 1 .ro false false (fun _ _ => 0x0)

/-- Table SIV-5 (spec/10). R364 -/
def SV_LOAD : Fld := .mk' 342 0x70 2 0x4c 1 0x0 1 0 .none 1 0 10 .ro false false (fun _ _ => 0x0)

/-- Table SIV-5 (spec/10). Input pixels processed; reading LO latches HI -/
def SV_PIX : Fld := .mk' 343 0x70 2 0x50 1 0x0 1 0 .none 1 0 64 .ro true false (fun _ _ => 0x0)

/-- Table SIV-5 (spec/10). R347; saves plus restores -/
def SV_STALL_CYC : Fld := .mk' 344 0x70 2 0x58 1 0x0 1 0 .none 1 0 32 .ro false false (fun _ _ => 0x0)

/-- Table SIV-5 (spec/10). R347; saves plus restores -/
def SV_SWITCH_CNT : Fld := .mk' 345 0x70 2 0x5c 1 0x0 1 0 .none 1 0 32 .ro false true (fun _ _ => 0x0)

/-- Table SIV-5 (spec/10). Longest wait from ready to start, phase units -/
def SV_WAIT_MAX : Fld := .mk' 346 0x70 2 0x60 1 0x0 1 0 .none 1 0 32 .rc false false (fun _ _ => 0x0)

/-- Table SIV-5 (spec/10). R347, R350, R356 -/
def SV_SUSPEND_CNT : Fld := .mk' 347 0x70 2 0x64 1 0x0 1 0 .none 1 0 32 .ro false true (fun _ _ => 0x0)

/-- Table SIV-5 (spec/10). R347, R350, R356 -/
def SV_ABANDON_CNT : Fld := .mk' 348 0x70 2 0x68 1 0x0 1 0 .none 1 0 32 .ro false true (fun _ _ => 0x0)

/-- Table SIV-5 (spec/10). R347, R350, R356 -/
def SV_OUT_DROP_CNT : Fld := .mk' 349 0x70 2 0x6c 1 0x0 1 0 .none 1 0 32 .ro false true (fun _ _ => 0x0)

/-- Table SIV-5 (spec/10). R339a, R358, R359 -/
def SV_PB_ERR_CNT : Fld := .mk' 350 0x70 2 0x70 1 0x0 1 0 .none 1 0 32 .ro false true (fun _ _ => 0x0)

/-- Table SIV-5 (spec/10). R339a, R358, R359 -/
def SV_PB_REPLACED_CNT : Fld := .mk' 351 0x70 2 0x74 1 0x0 1 0 .none 1 0 32 .ro false true (fun _ _ => 0x0)

/-- Table SIV-5 (spec/10). R339a, R358, R359 -/
def SV_ARM_EMPTY_CNT : Fld := .mk' 352 0x70 2 0x78 1 0x0 1 0 .none 1 0 32 .ro false true (fun _ _ => 0x0)

/-- Table SIV-5 (spec/10). R355 -/
def SV_REL_FID : Fld := .mk' 353 0x70 2 0x80 1 0x0 1 0 .none 1 0 32 .rw false false (fun _ _ => 0x0)

/-- Table SIV-5 (spec/10). R355 -/
def SV_REL_CMD_CTX : Fld := .mk' 354 0x70 2 0x84 1 0x0 1 0 .none 1 0 6 .wo false false (fun _ _ => 0x0)

/-- Table SIV-5 (spec/10). Output 0–2 -/
def SV_REL_CMD_OUT : Fld := .mk' 355 0x70 2 0x84 1 0x0 1 0 .none 1 8 2 .wo false false (fun _ _ => 0x0)

/-- Table SIV-5 (spec/10). Context addressed by 0x104–0x1BC -/
def SV_CTX_SEL : Fld := .mk' 356 0x70 2 0x100 1 0x0 1 0 .none 1 0 6 .rw false false (fun _ _ => 0x0)

/-- Table SIV-6 (spec/10). R362; the fields below marked "EN = 0" are writable only while EN is 0 -/
def SV_CTX_CFG_EN : Fld := .mk' 357 0x70 2 0x104 1 0x0 1 0 .svctx 64 0 1 .rw false false (fun _ _ => 0x0)

/-- Table SIV-6 (spec/10). Stream; EN = 0 -/
def SV_CTX_CFG_STREAM : Fld := .mk' 358 0x70 2 0x104 1 0x0 1 0 .svctx 64 1 6 .rw false false (fun _ _ => 0x0)

/-- Table SIV-6 (spec/10). R350; EN = 0 -/
def SV_CTX_CFG_SKIP_RETRACTED : Fld := .mk' 359 0x70 2 0x104 1 0x0 1 0 .svctx 64 7 1 .rw false false (fun _ _ => 0x0)

/-- Table SIV-6 (spec/10). 0 per frame, else 64–512 in multiples of 8; EN = 0 -/
def SV_CTX_CFG_STRIPE_LINES : Fld := .mk' 360 0x70 2 0x104 1 0x0 1 0 .svctx 64 8 10 .rw false false (fun _ _ => 0x0)

/-- Table SIV-6 (spec/10). Lines (R345); EN = 0 -/
def SV_CTX_CFG_START_LEAD : Fld := .mk' 361 0x70 2 0x104 1 0x0 1 0 .svctx 64 18 8 .rw false false (fun _ _ => 0x0)

/-- Table SIV-6 (spec/10). Position 0: 0 R, 1 Gr, 2 Gb, 3 B; EN = 0 -/
def SV_CTX_CFG_BAYER : Fld := .mk' 362 0x70 2 0x104 1 0x0 1 0 .svctx 64 26 2 .rw false false (fun _ _ => 0x0)

/-- Table SIV-6 (spec/10). R348; EN = 0 -/
def SV_SAVE_BASE_LO : Fld := .mk' 363 0x70 2 0x108 1 0x0 1 0 .svctx 64 0 32 .rw false false (fun _ _ => 0x0)

/-- Table SIV-6 (spec/10). EN = 0 -/
def SV_SAVE_BASE_HI : Fld := .mk' 364 0x70 2 0x10c 1 0x0 1 0 .svctx 64 0 16 .rw false false (fun _ _ => 0x0)

/-- Table SIV-6 (spec/10). Block address [31:0] -/
def SV_PB_NEXT_LO : Fld := .mk' 365 0x70 2 0x110 1 0x0 1 0 .svctx 64 0 32 .rw false false (fun _ _ => 0x0)

/-- Table SIV-6 (spec/10). [47:32]; the write makes the commit pending -/
def SV_PB_NEXT_HI : Fld := .mk' 366 0x70 2 0x114 1 0x0 1 0 .svctx 64 0 16 .wo false false (fun _ _ => 0x0)

/-- Table SIV-6 (spec/10). Table SIV-3 -/
def SV_CTX_COMMIT_MODE : Fld := .mk' 367 0x70 2 0x118 1 0x0 1 0 .svctx 64 0 2 .rw false false (fun _ _ => 0x1)

/-- Table SIV-6 (spec/10). MODE 2 -/
def SV_COMMIT_GT : Fld := .mk' 368 0x70 2 0x11c 1 0x0 1 0 .svctx 64 0 64 .rw false false (fun _ _ => 0x0)

/-- Table SIV-6 (spec/10). MODE 3 -/
def SV_COMMIT_FID : Fld := .mk' 369 0x70 2 0x124 1 0x0 1 0 .svctx 64 0 32 .rw false false (fun _ _ => 0x0)

/-- Table SIV-6 (spec/10). R361 -/
def SV_CTX_STAT_PB_PENDING : Fld := .mk' 370 0x70 2 0x128 1 0x0 1 0 .svctx 64 0 1 .ro false false (fun _ _ => 0x0)

/-- Table SIV-6 (spec/10). — -/
def SV_CTX_STAT_STRIPE_ACTIVE : Fld := .mk' 371 0x70 2 0x128 1 0x0 1 0 .svctx 64 1 1 .ro false false (fun _ _ => 0x0)

/-- Table SIV-6 (spec/10). R347 -/
def SV_CTX_STAT_SUSPENDED : Fld := .mk' 372 0x70 2 0x128 1 0x0 1 0 .svctx 64 2 1 .ro false false (fun _ _ => 0x0)

/-- Table SIV-6 (spec/10). R362 -/
def SV_CTX_STAT_CFG_ERR : Fld := .mk' 373 0x70 2 0x128 1 0x0 1 0 .svctx 64 3 1 .w1c false false (fun _ _ => 0x0)

/-- Table SIV-6 (spec/10). R360 -/
def SV_PB_SEQ : Fld := .mk' 374 0x70 2 0x12c 1 0x0 1 0 .svctx 64 0 32 .ro false false (fun _ _ => 0x0)

/-- Table SIV-6 (spec/10). Last frame delivered -/
def SV_LAST_FRAME_ID : Fld := .mk' 375 0x70 2 0x130 1 0x0 1 0 .svctx 64 0 32 .ro false false (fun _ _ => 0xffffffff)

/-- Table SIV-6 (spec/10). 64-byte aligned; EN = 0 -/
def SV_STATS_BASE_LO : Fld := .mk' 376 0x70 2 0x134 1 0x0 1 0 .svctx 64 0 32 .rw false false (fun _ _ => 0x0)

/-- Table SIV-6 (spec/10). EN = 0 -/
def SV_STATS_BASE_HI : Fld := .mk' 377 0x70 2 0x138 1 0x0 1 0 .svctx 64 0 16 .rw false false (fun _ _ => 0x0)

/-- Table SIV-6 (spec/10). 0 off, 1–16; EN = 0 -/
def SV_STATS_CFG_NSLOT : Fld := .mk' 378 0x70 2 0x13c 1 0x0 1 0 .svctx 64 0 5 .rw false false (fun _ _ => 0x0)

/-- Table SIV-7 (spec/10). 64-byte aligned; EN = 0 -/
def SV_OUT_BASE_LO : Fld := .mk' 379 0x70 2 0x160 3 0x20 1 0 .svctx 64 0 32 .rw false false (fun _ _ => 0x0)

/-- Table SIV-7 (spec/10). EN = 0 -/
def SV_OUT_BASE_HI : Fld := .mk' 380 0x70 2 0x164 3 0x20 1 0 .svctx 64 0 16 .rw false false (fun _ _ => 0x0)

/-- Table SIV-7 (spec/10). EN = 0 -/
def SV_OUT_CFG_EN : Fld := .mk' 381 0x70 2 0x168 3 0x20 1 0 .svctx 64 0 1 .rw false false (fun _ _ => 0x0)

/-- Table SIV-7 (spec/10). 0 NV12, 1 P010, 2 YUYV 4:2:2, 3 Y8; others treated as 0 -/
def SV_OUT_CFG_FMT : Fld := .mk' 382 0x70 2 0x168 3 0x20 1 0 .svctx 64 1 3 .rw false false (fun _ _ => 0x0)

/-- Table SIV-7 (spec/10). [4] MANDOLINE, [5] COMPOSITOR, [6] HOST -/
def SV_OUT_CFG_CONSUMERS : Fld := .mk' 383 0x70 2 0x168 3 0x20 1 0 .svctx 64 4 3 .rw false false (fun _ _ => 0x0)

/-- Table SIV-7 (spec/10). 1–16 -/
def SV_OUT_CFG_NBUF : Fld := .mk' 384 0x70 2 0x168 3 0x20 1 0 .svctx 64 8 5 .rw false false (fun _ _ => 0x0)

/-- Table SIV-7 (spec/10). Cycles, 1–255; 0 reads as 1 -/
def SV_OUT_CFG_HOST_HOLD : Fld := .mk' 385 0x70 2 0x168 3 0x20 1 0 .svctx 64 16 8 .rw false false (fun _ _ => 0x4)

/-- Table SIV-7 (spec/10). EN = 0 -/
def SV_OUT_BUF_KIB : Fld := .mk' 386 0x70 2 0x16c 3 0x20 1 0 .svctx 64 0 16 .rw false false (fun _ _ => 0x0)

/-- Table SIV-7 (spec/10). Bytes, multiple of 64; EN = 0 -/
def SV_OUT_PITCH : Fld := .mk' 387 0x70 2 0x170 3 0x20 1 0 .svctx 64 0 16 .rw false false (fun _ _ => 0x0)

/-- Table SIV-7 (spec/10). R353; one balanced instant -/
def SV_OUT_BOOKS_FREE : Fld := .mk' 388 0x70 2 0x174 3 0x20 1 0 .svctx 64 0 6 .ro false false (fun _ _ => 0x0)

/-- Table SIV-7 (spec/10). R353; one balanced instant -/
def SV_OUT_BOOKS_WRITING : Fld := .mk' 389 0x70 2 0x174 3 0x20 1 0 .svctx 64 8 6 .ro false false (fun _ _ => 0x0)

/-- Table SIV-7 (spec/10). R353; one balanced instant -/
def SV_OUT_BOOKS_HELD : Fld := .mk' 390 0x70 2 0x174 3 0x20 1 0 .svctx 64 16 6 .ro false false (fun _ _ => 0x0)

/-- Table SIV-7 (spec/10). Buffer last handed off; 0x1F none -/
def SV_OUT_LAST_BUF : Fld := .mk' 391 0x70 2 0x178 3 0x20 1 0 .svctx 64 0 5 .ro false false (fun _ _ => 0x1f)

/-- Table MAN-8 (spec/11). Enable -/
def MD_CTRL_EN : Fld := .mk' 392 0x78 1 0x40 1 0x0 1 0 .none 1 0 1 .rw false false (fun _ _ => 0x0)

/-- Table MAN-8 (spec/11). No new element starts -/
def MD_CTRL_HALT : Fld := .mk' 393 0x78 1 0x40 1 0x0 1 0 .none 1 1 1 .rw false false (fun _ _ => 0x0)

/-- Table MAN-8 (spec/11). Element in progress -/
def MD_STAT_BUSY : Fld := .mk' 394 0x78 1 0x44 1 0x0 1 0 .none 1 0 1 .ro false false (fun _ _ => 0x0)

/-- Table MAN-8 (spec/11). HALT set and idle -/
def MD_STAT_HALTED : Fld := .mk' 395 0x78 1 0x44 1 0x0 1 0 .none 1 1 1 .ro false false (fun _ _ => 0x0)

/-- Table MAN-8 (spec/11). Busy ‰ over the last 16 cycles -/
def MD_LOAD : Fld := .mk' 396 0x78 1 0x48 1 0x0 1 0 .none 1 0 10 .ro false false (fun _ _ => 0x0)

/-- Table MAN-8 (spec/11). As referenced -/
def MD_CROP_CNT : Fld := .mk' 397 0x78 1 0x50 1 0x0 1 0 .none 1 0 32 .ro false true (fun _ _ => 0x0)

/-- Table MAN-8 (spec/11). As referenced -/
def MD_DEC_REC_CNT : Fld := .mk' 398 0x78 1 0x54 1 0x0 1 0 .none 1 0 32 .ro false true (fun _ _ => 0x0)

/-- Table MAN-8 (spec/11). As referenced -/
def MD_DEC_REJECT_CNT : Fld := .mk' 399 0x78 1 0x58 1 0x0 1 0 .none 1 0 32 .ro false true (fun _ _ => 0x0)

/-- Table MAN-8 (spec/11). As referenced -/
def MD_CLAMP_CNT : Fld := .mk' 400 0x78 1 0x5c 1 0x0 1 0 .none 1 0 32 .ro false true (fun _ _ => 0x0)

/-- Table MAN-8 (spec/11). As referenced -/
def MD_OOB_PIX_CNT : Fld := .mk' 401 0x78 1 0x60 1 0x0 1 0 .none 1 0 32 .ro false true (fun _ _ => 0x0)

/-- Table MAN-8 (spec/11). As referenced -/
def MD_ABANDON_CNT : Fld := .mk' 402 0x78 1 0x64 1 0x0 1 0 .none 1 0 32 .ro false true (fun _ _ => 0x0)

/-- Table MAN-8 (spec/11). As referenced -/
def MD_BIND_SHED_CNT : Fld := .mk' 403 0x78 1 0x68 1 0x0 1 0 .none 1 0 32 .ro false true (fun _ _ => 0x0)

/-- Table MAN-8 (spec/11). As referenced -/
def MD_JOB_ERR_CNT : Fld := .mk' 404 0x78 1 0x6c 1 0x0 1 0 .none 1 0 32 .ro false true (fun _ _ => 0x0)

/-- Table MAN-8 (spec/11). As referenced -/
def MD_NOTIFY_ERR_CNT : Fld := .mk' 405 0x78 1 0x70 1 0x0 1 0 .none 1 0 32 .ro false true (fun _ _ => 0x0)

/-- Table MAN-9 (spec/11). R375; other fields writable only while EN is 0 -/
def MD_PG_CTRL_EN : Fld := .mk' 406 0x78 1 0x100 16 0x40 1 0 .none 1 0 1 .rw false false (fun _ _ => 0x0)

/-- Table MAN-9 (spec/11). 0 A, 1 B -/
def MD_PG_CTRL_SIEVE : Fld := .mk' 407 0x78 1 0x100 16 0x40 1 0 .none 1 1 1 .rw false false (fun _ _ => 0x0)

/-- Table MAN-9 (spec/11). Sieve context -/
def MD_PG_CTRL_CTX : Fld := .mk' 408 0x78 1 0x100 16 0x40 1 0 .none 1 2 6 .rw false false (fun _ _ => 0x0)

/-- Table MAN-9 (spec/11). Sieve output 0–2 -/
def MD_PG_CTRL_OUT : Fld := .mk' 409 0x78 1 0x100 16 0x40 1 0 .none 1 8 2 .rw false false (fun _ _ => 0x0)

/-- Table MAN-9 (spec/11). Table MAN-4 -/
def MD_PG_CTRL_NOTIFY_MODE : Fld := .mk' 410 0x78 1 0x100 16 0x40 1 0 .none 1 10 2 .rw false false (fun _ _ => 0x0)

/-- Table MAN-9 (spec/11). 1–15; 0 reads as 1 -/
def MD_PG_CTRL_STEP : Fld := .mk' 411 0x78 1 0x100 16 0x40 1 0 .none 1 12 4 .rw false false (fun _ _ => 0x1)

/-- Table MAN-9 (spec/11). Table MAN-4 -/
def MD_PG_CTRL_ORIGIN : Fld := .mk' 412 0x78 1 0x100 16 0x40 1 0 .none 1 16 16 .rw false false (fun _ _ => 0x0)

/-- Table MAN-9 (spec/11). Shape block address -/
def MD_PG_SHAPE : Fld := .mk' 413 0x78 1 0x104 16 0x40 1 0 .none 1 0 64 .rw false false (fun _ _ => 0x0)

/-- Table MAN-9 (spec/11). Mesh header address -/
def MD_PG_MESH : Fld := .mk' 414 0x78 1 0x10c 16 0x40 1 0 .none 1 0 64 .rw false false (fun _ _ => 0x0)

/-- Table MAN-9 (spec/11). Pool base, 64-byte aligned -/
def MD_PG_POOL : Fld := .mk' 415 0x78 1 0x114 16 0x40 1 0 .none 1 0 64 .rw false false (fun _ _ => 0x0)

/-- Table MAN-9 (spec/11). 1–16 -/
def MD_PG_POOL_CFG_NBUF : Fld := .mk' 416 0x78 1 0x11c 16 0x40 1 0 .none 1 0 5 .rw false false (fun _ _ => 0x0)

/-- Table MAN-9 (spec/11). Buffer size, KiB -/
def MD_PG_POOL_CFG_BUF_KIB : Fld := .mk' 417 0x78 1 0x11c 16 0x40 1 0 .none 1 8 16 .rw false false (fun _ _ => 0x0)

/-- Table MAN-9 (spec/11). 1–255; 0 reads as 1 -/
def MD_PG_POOL_CFG_HOLD_CYC : Fld := .mk' 418 0x78 1 0x11c 16 0x40 1 0 .none 1 24 8 .rw false false (fun _ _ => 0x4)

/-- Table MAN-9 (spec/11). Notify address, 4-byte aligned -/
def MD_PG_NOTIFY : Fld := .mk' 419 0x78 1 0x120 16 0x40 1 0 .none 1 0 64 .rw false false (fun _ _ => 0x0)

/-- Table MAN-9 (spec/11). R375 -/
def MD_PG_BAND_BAND_ROWS : Fld := .mk' 420 0x78 1 0x128 16 0x40 1 0 .none 1 0 13 .rw false false (fun _ _ => 0x40)

/-- Table MAN-9 (spec/11). R375 -/
def MD_PG_STAT_READY : Fld := .mk' 421 0x78 1 0x12c 16 0x40 1 0 .none 1 0 1 .ro false false (fun _ _ => 0x0)

/-- Table MAN-9 (spec/11). 1 shape, 2 mesh, 3 band, 4 Sieve binding, 5 pool, 6 fetch fault -/
def MD_PG_STAT_ERR_CODE : Fld := .mk' 422 0x78 1 0x12c 16 0x40 1 0 .none 1 4 4 .w1c false false (fun _ _ => 0x0)

/-- Table MAN-9 (spec/11). — -/
def MD_PG_STAT_NBANDS : Fld := .mk' 423 0x78 1 0x12c 16 0x40 1 0 .none 1 8 9 .ro false false (fun _ _ => 0x0)

/-- Table MAN-9 (spec/11). R382; one balanced instant -/
def MD_PG_BOOKS_FREE : Fld := .mk' 424 0x78 1 0x130 16 0x40 1 0 .none 1 0 5 .ro false false (fun _ _ => 0x0)

/-- Table MAN-9 (spec/11). R382; one balanced instant -/
def MD_PG_BOOKS_WRITING : Fld := .mk' 425 0x78 1 0x130 16 0x40 1 0 .none 1 8 5 .ro false false (fun _ _ => 0x0)

/-- Table MAN-9 (spec/11). R382; one balanced instant -/
def MD_PG_BOOKS_HELD : Fld := .mk' 426 0x78 1 0x130 16 0x40 1 0 .none 1 16 5 .ro false false (fun _ _ => 0x0)

/-- Table MAN-9 (spec/11). j -/
def MD_PG_SEQ : Fld := .mk' 427 0x78 1 0x134 16 0x40 1 0 .none 1 0 32 .ro false false (fun _ _ => 0x0)

/-- Table MAN-9 (spec/11). Frame id, R382 -/
def MD_PG_REL : Fld := .mk' 428 0x78 1 0x138 16 0x40 1 0 .none 1 0 32 .wo false false (fun _ _ => 0x0)

/-- Table MAN-9 (spec/11). R377 -/
def MD_TAKE_SKIP_CNT : Fld := .mk' 429 0x78 1 0x13c 16 0x40 1 0 .none 1 0 32 .ro false true (fun _ _ => 0x0)

/-- Table MAN-10 (spec/11). Shape block (CROP) or schema (DECODE) -/
def MD_PF_SHAPE : Fld := .mk' 430 0x78 1 0x500 8 0x20 1 0 .none 1 0 64 .rw false false (fun _ _ => 0x0)

/-- Table MAN-10 (spec/11). 1–64 -/
def MD_PF_CFG_BATCH : Fld := .mk' 431 0x78 1 0x508 8 0x20 1 0 .none 1 0 7 .rw false false (fun _ _ => 0x1)

/-- Table MAN-10 (spec/11). R390 -/
def MD_PF_CFG_BUCKET_EN : Fld := .mk' 432 0x78 1 0x508 8 0x20 1 0 .none 1 7 1 .rw false false (fun _ _ => 0x0)

/-- Table MAN-10 (spec/11). R392 -/
def MD_PF_CFG_AUG_EN : Fld := .mk' 433 0x78 1 0x508 8 0x20 1 0 .none 1 8 1 .rw false false (fun _ _ => 0x0)

/-- Table MAN-10 (spec/11). R393 -/
def MD_PF_AUG_FLIP_P : Fld := .mk' 434 0x78 1 0x50c 8 0x20 1 0 .none 1 0 8 .rw false false (fun _ _ => 0x0)

/-- Table MAN-10 (spec/11). R393 -/
def MD_PF_AUG_JIT_POS : Fld := .mk' 435 0x78 1 0x50c 8 0x20 1 0 .none 1 8 8 .rw false false (fun _ _ => 0x0)

/-- Table MAN-10 (spec/11). R393 -/
def MD_PF_AUG_JIT_SCALE : Fld := .mk' 436 0x78 1 0x50c 8 0x20 1 0 .none 1 16 8 .rw false false (fun _ _ => 0x0)

/-- Table MAN-10 (spec/11). R393 -/
def MD_PF_AUG_GAIN_J : Fld := .mk' 437 0x78 1 0x50c 8 0x20 1 0 .none 1 24 8 .rw false false (fun _ _ => 0x0)

/-- Table MAN-10 (spec/11). R390 -/
def MD_PF_BKT_MAXDIM : Fld := .mk' 438 0x78 1 0x510 8 0x20 4 4 .none 1 0 16 .rw false false (fun _ _ => 0x0)

/-- Table MAN-10 (spec/11). R390 -/
def MD_PF_BKT_OUTW8 : Fld := .mk' 439 0x78 1 0x510 8 0x20 4 4 .none 1 16 8 .rw false false (fun _ _ => 0x0)

/-- Table MAN-10 (spec/11). R390 -/
def MD_PF_BKT_OUTH8 : Fld := .mk' 440 0x78 1 0x510 8 0x20 4 4 .none 1 24 8 .rw false false (fun _ _ => 0x0)

/-- Table MAN-11 (spec/11). Writable while EN is 0 -/
def MD_JQ_BASE : Fld := .mk' 441 0x78 1 0x600 4 0x20 1 0 .none 1 0 64 .rw false false (fun _ _ => 0x0)

/-- Table MAN-11 (spec/11). 4–10 -/
def MD_JQ_CFG_LOG2 : Fld := .mk' 442 0x78 1 0x608 4 0x20 1 0 .none 1 0 4 .rw false false (fun _ _ => 0x4)

/-- Table MAN-11 (spec/11). Enabling zeroes JQ_HEAD, JQ_TAIL and n -/
def MD_JQ_CFG_EN : Fld := .mk' 443 0x78 1 0x608 4 0x20 1 0 .none 1 4 1 .rw false false (fun _ _ => 0x0)

/-- Table MAN-11 (spec/11). Table MAN-4 -/
def MD_JQ_CFG_NOTIFY_MODE : Fld := .mk' 444 0x78 1 0x608 4 0x20 1 0 .none 1 8 2 .rw false false (fun _ _ => 0x0)

/-- Table MAN-11 (spec/11). Table MAN-4 -/
def MD_JQ_CFG_STEP : Fld := .mk' 445 0x78 1 0x608 4 0x20 1 0 .none 1 12 4 .rw false false (fun _ _ => 0x1)

/-- Table MAN-11 (spec/11). Table MAN-4 -/
def MD_JQ_CFG_ORIGIN : Fld := .mk' 446 0x78 1 0x608 4 0x20 1 0 .none 1 16 16 .rw false false (fun _ _ => 0x0)

/-- Table MAN-11 (spec/11). Tail write -/
def MD_JQ_TAIL : Fld := .mk' 447 0x78 1 0x60c 4 0x20 1 0 .none 1 0 16 .wo false false (fun _ _ => 0x0)

/-- Table MAN-11 (spec/11). R388 -/
def MD_JQ_HEAD : Fld := .mk' 448 0x78 1 0x610 4 0x20 1 0 .none 1 0 16 .ro false false (fun _ _ => 0x0)

/-- Table MAN-11 (spec/11). Notify address -/
def MD_JQ_NOTIFY : Fld := .mk' 449 0x78 1 0x614 4 0x20 1 0 .none 1 0 64 .rw false false (fun _ _ => 0x0)

/-- Table MAN-11 (spec/11). Jobs completed, n -/
def MD_JQ_DONE : Fld := .mk' 450 0x78 1 0x61c 4 0x20 1 0 .none 1 0 32 .ro false false (fun _ _ => 0x0)

/-- Table ORB-7 (spec/12). Engine enable; written by firmware at boot -/
def OB_CTRL_EN : Fld := .mk' 451 0x7c 1 0x40 1 0x0 1 0 .none 1 0 1 .rw false false (fun _ _ => 0x0)

/-- Table ORB-7 (spec/12). No new solve starts; the running solve finishes -/
def OB_CTRL_HALT : Fld := .mk' 452 0x7c 1 0x40 1 0x0 1 0 .none 1 1 1 .rw false false (fun _ _ => 0x0)

/-- Table ORB-7 (spec/12). Solve running -/
def OB_STAT_BUSY : Fld := .mk' 453 0x7c 1 0x44 1 0x0 1 0 .none 1 0 1 .ro false false (fun _ _ => 0x0)

/-- Table ORB-7 (spec/12). HALT set and no solve running -/
def OB_STAT_HALTED : Fld := .mk' 454 0x7c 1 0x44 1 0x0 1 0 .none 1 1 1 .ro false false (fun _ _ => 0x0)

/-- Table ORB-7 (spec/12). R401 -/
def OB_BOOKS_FREE : Fld := .mk' 455 0x7c 1 0x48 1 0x0 1 0 .none 1 0 4 .ro false false (fun _ _ => 0x8)

/-- Table ORB-7 (spec/12). R401 -/
def OB_BOOKS_QUEUED : Fld := .mk' 456 0x7c 1 0x48 1 0x0 1 0 .none 1 8 4 .ro false false (fun _ _ => 0x0)

/-- Table ORB-7 (spec/12). R401 -/
def OB_BOOKS_RUNNING : Fld := .mk' 457 0x7c 1 0x48 1 0x0 1 0 .none 1 16 1 .ro false false (fun _ _ => 0x0)

/-- Table ORB-7 (spec/12). R401 -/
def OB_BOOKS_COMMITTING : Fld := .mk' 458 0x7c 1 0x48 1 0x0 1 0 .none 1 17 1 .ro false false (fun _ _ => 0x0)

/-- Table ORB-7 (spec/12). Context of the running solve -/
def OB_CUR_CTX : Fld := .mk' 459 0x7c 1 0x4c 1 0x0 1 0 .none 1 0 11 .ro false false (fun _ _ => 0x0)

/-- Table ORB-7 (spec/12). — -/
def OB_CUR_VALID : Fld := .mk' 460 0x7c 1 0x4c 1 0x0 1 0 .none 1 31 1 .ro false false (fun _ _ => 0x0)

/-- Table ORB-7 (spec/12). Its SEQ -/
def OB_CUR_SEQ : Fld := .mk' 461 0x7c 1 0x50 1 0x0 1 0 .none 1 0 32 .ro false false (fun _ _ => 0x0)

/-- Table ORB-7 (spec/12). R406, R417, R423 -/
def OB_SOLVE_CNT : Fld := .mk' 462 0x7c 1 0x54 1 0x0 1 0 .none 1 0 32 .ro false true (fun _ _ => 0x0)

/-- Table ORB-7 (spec/12). R406, R417, R423 -/
def OB_ITER_CNT : Fld := .mk' 463 0x7c 1 0x58 1 0x0 1 0 .none 1 0 32 .ro false true (fun _ _ => 0x0)

/-- Table ORB-7 (spec/12). R406, R417, R423 -/
def OB_INVALID_AGENT_CNT : Fld := .mk' 464 0x7c 1 0x5c 1 0x0 1 0 .none 1 0 32 .ro false true (fun _ _ => 0x0)

/-- Table ORB-7 (spec/12). R406, R417, R423 -/
def OB_CONF_OVF_CNT : Fld := .mk' 465 0x7c 1 0x60 1 0x0 1 0 .none 1 0 32 .ro false true (fun _ _ => 0x0)

/-- Table ORB-7 (spec/12). R406, R417, R423 -/
def OB_ZONE_LATE_CNT : Fld := .mk' 466 0x7c 1 0x64 1 0x0 1 0 .none 1 0 32 .ro false true (fun _ _ => 0x0)

/-- Table ORB-7 (spec/12). R404, R402, R400 -/
def OB_ARG_ERR_CNT : Fld := .mk' 467 0x7c 1 0x68 1 0x0 1 0 .none 1 0 32 .ro false true (fun _ _ => 0x0)

/-- Table ORB-7 (spec/12). R404, R402, R400 -/
def OB_KILL_CNT : Fld := .mk' 468 0x7c 1 0x6c 1 0x0 1 0 .none 1 0 32 .ro false true (fun _ _ => 0x0)

/-- Table ORB-7 (spec/12). R404, R402, R400 -/
def OB_COST_OVERRUN_CNT : Fld := .mk' 469 0x7c 1 0x70 1 0x0 1 0 .none 1 0 32 .ro false true (fun _ _ => 0x0)

/-- Table ORB-7 (spec/12). R407 -/
def OB_LOCAL_CE_CNT : Fld := .mk' 470 0x7c 1 0x74 1 0x0 1 0 .none 1 0 32 .ro false true (fun _ _ => 0x0)

/-- Table ORB-7 (spec/12). R407 -/
def OB_LOCAL_UE_CNT : Fld := .mk' 471 0x7c 1 0x78 1 0x0 1 0 .none 1 0 32 .ro false true (fun _ _ => 0x0)

/-- Table ORB-7 (spec/12). Last solve, start of service to first record -/
def OB_LAST_TIME_NS : Fld := .mk' 472 0x7c 1 0x7c 1 0x0 1 0 .none 1 0 32 .ro false false (fun _ _ => 0x0)

/-- Table ORB-7 (spec/12). Longest since read -/
def OB_TIME_MAX_NS : Fld := .mk' 473 0x7c 1 0x80 1 0x0 1 0 .none 1 0 32 .rc false false (fun _ _ => 0x0)

/-- Table ORB-7 (spec/12). 1 header field, 2 region beyond ARG_LEN, 3 OUT_LEN short, 4 read refused, 5 lamp entry -/
def OB_LAST_ERR_CODE : Fld := .mk' 474 0x7c 1 0x84 1 0x0 1 0 .none 1 0 4 .ro false false (fun _ _ => 0x0)

/-- Table ORB-7 (spec/12). Reserved for the agent index; zero -/
def OB_LAST_ERR_AGENT : Fld := .mk' 475 0x7c 1 0x84 1 0x0 1 0 .none 1 8 8 .ro false false (fun _ _ => 0x0)

/-- Table FAR-6 (spec/13). Link enable -/
def BR_CTRL_EN : Fld := .mk' 476 0x90 1 0x40 1 0x0 1 0 .none 1 0 1 .rw false false (fun _ _ => 0x0)

/-- Table FAR-6 (spec/13). R458 -/
def BR_CTRL_PILOT_HB : Fld := .mk' 477 0x90 1 0x40 1 0x0 1 0 .none 1 1 1 .rw false false (fun _ _ => 0x1)

/-- Table FAR-6 (spec/13). R434 -/
def BR_CFG_RETX_US : Fld := .mk' 478 0x90 1 0x44 1 0x0 1 0 .none 1 0 10 .rw false false (fun _ _ => 0x64)

/-- Table FAR-6 (spec/13). Cycles -/
def BR_CFG_HB_PERIOD : Fld := .mk' 479 0x90 1 0x44 1 0x0 1 0 .none 1 16 8 .rw false false (fun _ _ => 0x5)

/-- Table FAR-6 (spec/13). 0 DOWN, 1 TRAINING, 2 UP -/
def BR_STAT_LINK : Fld := .mk' 480 0x90 1 0x48 1 0x0 1 0 .none 1 0 2 .ro false false (fun _ _ => 0x0)

/-- Table FAR-6 (spec/13). From the last Farside HEARTBEAT -/
def BR_STAT_FS_STATE : Fld := .mk' 481 0x90 1 0x48 1 0x0 1 0 .none 1 2 2 .ro false false (fun _ _ => 0x0)

/-- Table FAR-6 (spec/13). Byte 8 of the last MAINS_STAT -/
def BR_STAT_MAINS_FLAGS : Fld := .mk' 482 0x90 1 0x48 1 0x0 1 0 .none 1 8 8 .ro false false (fun _ _ => 0x0)

/-- Table FAR-6 (spec/13). R438 -/
def BR_LAT_NS : Fld := .mk' 483 0x90 1 0x4c 1 0x0 1 0 .none 1 0 16 .ro false false (fun _ _ => 0x0)

/-- Table FAR-6 (spec/13). R433 -/
def BR_TX_CREDIT_AVAILABLE : Fld := .mk' 484 0x90 1 0x50 1 0x0 1 0 .none 1 0 4 .ro false false (fun _ _ => 0x8)

/-- Table FAR-6 (spec/13). R433 -/
def BR_TX_CREDIT_OUTSTANDING : Fld := .mk' 485 0x90 1 0x50 1 0x0 1 0 .none 1 8 4 .ro false false (fun _ _ => 0x0)

/-- Table FAR-6 (spec/13). — -/
def BR_TX_SEQ_NEXT : Fld := .mk' 486 0x90 1 0x54 1 0x0 1 0 .none 1 0 16 .ro false false (fun _ _ => 0x0)

/-- Table FAR-6 (spec/13). — -/
def BR_TX_SEQ_RX_ACK : Fld := .mk' 487 0x90 1 0x54 1 0x0 1 0 .none 1 16 16 .ro false false (fun _ _ => 0x0)

/-- Table FAR-6 (spec/13). Bytes 1, 4–13 of the next message, with byte 1 in TX_MSG0 [7:0] -/
def BR_TX_MSG : Fld := .mk' 488 0x90 1 0x60 3 0x4 1 0 .none 1 0 32 .rw false false (fun _ _ => 0x0)

/-- Table FAR-6 (spec/13). Queues TX_MSG; the hardware adds sync, number and CRC -/
def BR_TX_PUSH : Fld := .mk' 489 0x90 1 0x70 1 0x0 1 0 .none 1 0 1 .wo false false (fun _ _ => 0x0)

/-- Table FAR-6 (spec/13). 0–32; a push to a full queue is ignored -/
def BR_TX_STAT_QUEUED : Fld := .mk' 490 0x90 1 0x74 1 0x0 1 0 .none 1 0 6 .ro false false (fun _ _ => 0x0)

/-- Table FAR-6 (spec/13). Head of the 64-entry receive FIFO -/
def BR_RX_MSG : Fld := .mk' 491 0x90 1 0x80 4 0x4 1 0 .none 1 0 32 .ro false false (fun _ _ => 0x0)

/-- Table FAR-6 (spec/13). Drops the head -/
def BR_RX_POP : Fld := .mk' 492 0x90 1 0x90 1 0x0 1 0 .none 1 0 1 .wo false false (fun _ _ => 0x0)

/-- Table FAR-6 (spec/13). Entries; overflow drops the new message -/
def BR_RX_STAT_COUNT : Fld := .mk' 493 0x90 1 0x94 1 0x0 1 0 .none 1 0 7 .ro false false (fun _ _ => 0x0)

/-- Table FAR-6 (spec/13). Last MAINS_STAT -/
def BR_MAINS_RMS_RMS : Fld := .mk' 494 0x90 1 0x98 1 0x0 1 0 .none 1 0 16 .ro false false (fun _ _ => 0x0)

/-- Table FAR-6 (spec/13). Last MAINS_STAT -/
def BR_MAINS_RMS_FREQ : Fld := .mk' 495 0x90 1 0x98 1 0x0 1 0 .none 1 16 16 .ro false false (fun _ _ => 0x0)

/-- Table FAR-6 (spec/13). R466 -/
def BR_ZC_OFS : Fld := .mk' 496 0x90 1 0x9c 1 0x0 1 0 .none 1 0 32 .ro false false (fun _ _ => 0x0)

/-- Table FAR-6 (spec/13). As referenced -/
def BR_RX_CRC_CNT : Fld := .mk' 497 0x90 1 0xa0 1 0x0 1 0 .none 1 0 32 .ro false true (fun _ _ => 0x0)

/-- Table FAR-6 (spec/13). As referenced -/
def BR_RX_GAP_CNT : Fld := .mk' 498 0x90 1 0xa4 1 0x0 1 0 .none 1 0 32 .ro false true (fun _ _ => 0x0)

/-- Table FAR-6 (spec/13). As referenced -/
def BR_RX_UNKNOWN_CNT : Fld := .mk' 499 0x90 1 0xa8 1 0x0 1 0 .none 1 0 32 .ro false true (fun _ _ => 0x0)

/-- Table FAR-6 (spec/13). As referenced -/
def BR_RX_OVF_CNT : Fld := .mk' 500 0x90 1 0xac 1 0x0 1 0 .none 1 0 32 .ro false true (fun _ _ => 0x0)

/-- Table FAR-6 (spec/13). As referenced -/
def BR_RETX_CNT : Fld := .mk' 501 0x90 1 0xb0 1 0x0 1 0 .none 1 0 32 .ro false true (fun _ _ => 0x0)

/-- Table FAR-6 (spec/13). As referenced -/
def BR_TX_DENY_CNT : Fld := .mk' 502 0x90 1 0xb4 1 0x0 1 0 .none 1 0 32 .ro false true (fun _ _ => 0x0)

/-- Table FAR-6 (spec/13). As referenced -/
def BR_ARB_BADOUT_CNT : Fld := .mk' 503 0x90 1 0xb8 1 0x0 1 0 .none 1 0 32 .ro false true (fun _ _ => 0x0)

/-- Table FAR-6 (spec/13). DALI_QUERY bytes 4–11; the Farside replaces the tag -/
def BR_DQ_REQ : Fld := .mk' 504 0x90 1 0x100 3 0x4 1 0 .none 1 0 32 .rw false false (fun _ _ => 0x0)

/-- Table FAR-6 (spec/13). Queues the request, 4 deep -/
def BR_DQ_PUSH : Fld := .mk' 505 0x90 1 0x10c 1 0x0 1 0 .none 1 0 1 .wo false false (fun _ _ => 0x0)

/-- Table FAR-6 (spec/13). DALI_REPLY bytes 5–11 of the oldest reply; [31] of DQ_REPLY1 valid -/
def BR_DQ_REPLY : Fld := .mk' 506 0x90 1 0x110 1 0x0 1 0 .none 1 0 64 .rc false false (fun _ _ => 0x0)

/-- Table FAR-6 (spec/13). Output addressed -/
def BR_ARB_SEL : Fld := .mk' 507 0x90 1 0x140 1 0x0 1 0 .none 1 0 7 .rw false false (fun _ _ => 0x0)

/-- Table FAR-6 (spec/13). — -/
def BR_ARB_LEVEL_PRESENT_LEVEL : Fld := .mk' 508 0x90 1 0x144 1 0x0 1 0 .arb 128 0 10 .ro false false (fun _ _ => 0x0)

/-- Table FAR-6 (spec/13). — -/
def BR_ARB_LEVEL_SMIN : Fld := .mk' 509 0x90 1 0x144 1 0x0 1 0 .arb 128 16 10 .ro false false (fun _ _ => 0x0)

/-- Table FAR-6 (spec/13). — -/
def BR_ARB_SMAX : Fld := .mk' 510 0x90 1 0x148 1 0x0 1 0 .arb 128 0 10 .ro false false (fun _ _ => 0x3e8)

/-- Table FAR-6 (spec/13). Schedule point 0–31 -/
def BR_SP_SEL : Fld := .mk' 511 0x90 1 0x180 1 0x0 1 0 .none 1 0 5 .rw false false (fun _ _ => 0x0)

/-- Table FAR-6 (spec/13). First GT -/
def BR_SP_GT : Fld := .mk' 512 0x90 1 0x184 1 0x0 1 0 .sp 32 0 64 .rw false false (fun _ _ => 0x0)

/-- Table FAR-6 (spec/13). Cycles; 0 once -/
def BR_SP_PERIOD : Fld := .mk' 513 0x90 1 0x18c 1 0x0 1 0 .sp 32 0 32 .rw false false (fun _ _ => 0x0)

/-- Table FAR-6 (spec/13). — -/
def BR_SP_OUT_OUTPUT : Fld := .mk' 514 0x90 1 0x190 1 0x0 1 0 .sp 32 0 7 .rw false false (fun _ _ => 0x0)

/-- Table FAR-6 (spec/13). — -/
def BR_SP_OUT_SMIN : Fld := .mk' 515 0x90 1 0x190 1 0x0 1 0 .sp 32 16 10 .rw false false (fun _ _ => 0x0)

/-- Table FAR-6 (spec/13). — -/
def BR_SP_LIM_SMAX : Fld := .mk' 516 0x90 1 0x194 1 0x0 1 0 .sp 32 0 10 .rw false false (fun _ _ => 0x3e8)

/-- Table FAR-6 (spec/13). — -/
def BR_SP_LIM_RAMP_MS : Fld := .mk' 517 0x90 1 0x194 1 0x0 1 0 .sp 32 16 16 .rw false false (fun _ _ => 0x0)

/-- Table FAR-6 (spec/13). Firmware takes the point into the Ephemeris within 100 µs -/
def BR_SP_CMD_EN : Fld := .mk' 518 0x90 1 0x198 1 0x0 1 0 .sp 32 0 1 .rw false false (fun _ _ => 0x0)

/-- Table CMP-3 (spec/14). Enable -/
def CP_CTRL_EN : Fld := .mk' 519 0xa0 1 0x40 1 0x0 1 0 .none 1 0 1 .rw false false (fun _ _ => 0x0)

/-- Table CMP-3 (spec/14). Picture in progress -/
def CP_STAT_BUSY : Fld := .mk' 520 0xa0 1 0x44 1 0x0 1 0 .none 1 0 1 .ro false false (fun _ _ => 0x0)

/-- Table CMP-3 (spec/14). As referenced -/
def CP_COMPOSED_CNT : Fld := .mk' 521 0xa0 1 0x50 1 0x0 1 0 .none 1 0 32 .ro false true (fun _ _ => 0x0)

/-- Table CMP-3 (spec/14). As referenced -/
def CP_HELD_CNT : Fld := .mk' 522 0xa0 1 0x54 1 0x0 1 0 .none 1 0 32 .ro false true (fun _ _ => 0x0)

/-- Table CMP-3 (spec/14). As referenced -/
def CP_BLANK_CNT : Fld := .mk' 523 0xa0 1 0x58 1 0x0 1 0 .none 1 0 32 .ro false true (fun _ _ => 0x0)

/-- Table CMP-3 (spec/14). As referenced -/
def CP_MASK_BLANK_CNT : Fld := .mk' 524 0xa0 1 0x5c 1 0x0 1 0 .none 1 0 32 .ro false true (fun _ _ => 0x0)

/-- Table CMP-3 (spec/14). As referenced -/
def CP_REUSE_CNT : Fld := .mk' 525 0xa0 1 0x60 1 0x0 1 0 .none 1 0 32 .ro false true (fun _ _ => 0x0)

/-- Table CMP-3 (spec/14). As referenced -/
def CP_SKIP_CNT : Fld := .mk' 526 0xa0 1 0x64 1 0x0 1 0 .none 1 0 32 .ro false true (fun _ _ => 0x0)

/-- Table CMP-3 (spec/14). As referenced -/
def CP_BASE_SKIP_CNT : Fld := .mk' 527 0xa0 1 0x68 1 0x0 1 0 .none 1 0 32 .ro false true (fun _ _ => 0x0)

/-- Table CMP-3 (spec/14). As referenced -/
def CP_POOL_SKIP_CNT : Fld := .mk' 528 0xa0 1 0x6c 1 0x0 1 0 .none 1 0 32 .ro false true (fun _ _ => 0x0)

/-- Table CMP-3 (spec/14). As referenced -/
def CP_LATE_CNT : Fld := .mk' 529 0xa0 1 0x70 1 0x0 1 0 .none 1 0 32 .ro false true (fun _ _ => 0x0)

/-- Table CMP-4 (spec/14). R471; other fields writable only while EN is 0, except OC_TIME and LY_POST -/
def CP_OC_CTRL_EN : Fld := .mk' 530 0xa0 1 0x100 8 0x80 1 0 .none 1 0 1 .rw false false (fun _ _ => 0x0)

/-- Table CMP-4 (spec/14). 0 NV12, 1 P010 -/
def CP_OC_CTRL_FMT : Fld := .mk' 531 0xa0 1 0x100 8 0x80 1 0 .none 1 1 1 .rw false false (fun _ _ => 0x0)

/-- Table CMP-4 (spec/14). 0 A, 1 B -/
def CP_OC_CTRL_SIEVE : Fld := .mk' 532 0xa0 1 0x100 8 0x80 1 0 .none 1 2 1 .rw false false (fun _ _ => 0x0)

/-- Table CMP-4 (spec/14). Sieve context -/
def CP_OC_CTRL_CTX : Fld := .mk' 533 0xa0 1 0x100 8 0x80 1 0 .none 1 3 6 .rw false false (fun _ _ => 0x0)

/-- Table CMP-4 (spec/14). Sieve output -/
def CP_OC_CTRL_OUT : Fld := .mk' 534 0xa0 1 0x100 8 0x80 1 0 .none 1 9 2 .rw false false (fun _ _ => 0x0)

/-- Table CMP-4 (spec/14). 0–15 -/
def CP_OC_CTRL_HOLD_MAX : Fld := .mk' 535 0xa0 1 0x100 8 0x80 1 0 .none 1 12 4 .rw false false (fun _ _ => 0x4)

/-- Table CMP-4 (spec/14). Pixels -/
def CP_OC_SIZE_W : Fld := .mk' 536 0xa0 1 0x104 8 0x80 1 0 .none 1 0 16 .rw false false (fun _ _ => 0x0)

/-- Table CMP-4 (spec/14). Pixels -/
def CP_OC_SIZE_H : Fld := .mk' 537 0xa0 1 0x104 8 0x80 1 0 .none 1 16 16 .rw false false (fun _ _ => 0x0)

/-- Table CMP-4 (spec/14). R473 -/
def CP_OC_TIME_PERIOD_CYC : Fld := .mk' 538 0xa0 1 0x108 8 0x80 1 0 .none 1 0 8 .rws false false (fun _ _ => 0x1)

/-- Table CMP-4 (spec/14). R473 -/
def CP_OC_TIME_ANCHOR : Fld := .mk' 539 0xa0 1 0x108 8 0x80 1 0 .none 1 8 8 .rws false false (fun _ _ => 0x0)

/-- Table CMP-4 (spec/14). R473 -/
def CP_OC_TIME_PHASE : Fld := .mk' 540 0xa0 1 0x108 8 0x80 1 0 .none 1 16 16 .rws false false (fun _ _ => 0x0)

/-- Table CMP-4 (spec/14). 64-byte aligned -/
def CP_OC_POOL : Fld := .mk' 541 0xa0 1 0x10c 8 0x80 1 0 .none 1 0 48 .rw false false (fun _ _ => 0x0)

/-- Table CMP-4 (spec/14). NBUF 1–8 -/
def CP_OC_POOL_CFG_NBUF : Fld := .mk' 542 0xa0 1 0x114 8 0x80 1 0 .none 1 0 4 .rw false false (fun _ _ => 0x0)

/-- Table CMP-4 (spec/14). NBUF 1–8 -/
def CP_OC_POOL_CFG_BUF_KIB : Fld := .mk' 543 0xa0 1 0x114 8 0x80 1 0 .none 1 8 16 .rw false false (fun _ _ => 0x0)

/-- Table CMP-4 (spec/14). 10-bit black -/
def CP_OC_BLANK_Y : Fld := .mk' 544 0xa0 1 0x118 8 0x80 1 0 .none 1 0 10 .rw false false (fun _ _ => 0x40)

/-- Table CMP-4 (spec/14). 10-bit black -/
def CP_OC_BLANK_CB : Fld := .mk' 545 0xa0 1 0x118 8 0x80 1 0 .none 1 10 10 .rw false false (fun _ _ => 0x200)

/-- Table CMP-4 (spec/14). 10-bit black -/
def CP_OC_BLANK_CR : Fld := .mk' 546 0xa0 1 0x118 8 0x80 1 0 .none 1 20 10 .rw false false (fun _ _ => 0x200)

/-- Table CMP-4 (spec/14). R485 -/
def CP_OC_BOOKS_FREE : Fld := .mk' 547 0xa0 1 0x11c 8 0x80 1 0 .none 1 0 4 .ro false false (fun _ _ => 0x0)

/-- Table CMP-4 (spec/14). R485 -/
def CP_OC_BOOKS_WRITING : Fld := .mk' 548 0xa0 1 0x11c 8 0x80 1 0 .none 1 8 4 .ro false false (fun _ _ => 0x0)

/-- Table CMP-4 (spec/14). R485 -/
def CP_OC_BOOKS_HELD : Fld := .mk' 549 0xa0 1 0x11c 8 0x80 1 0 .none 1 16 4 .ro false false (fun _ _ => 0x0)

/-- Table CMP-4 (spec/14). R471 -/
def CP_OC_STAT_CFG_ERR : Fld := .mk' 550 0xa0 1 0x120 8 0x80 1 0 .none 1 0 1 .w1c false false (fun _ _ => 0x0)

/-- Table CMP-4 (spec/14). 0 none, 1 static, 2 dynamic -/
def CP_MASK_CFG_MODE : Fld := .mk' 551 0xa0 1 0x124 8 0x80 1 0 .none 1 0 2 .rw false false (fun _ _ => 0x0)

/-- Table CMP-4 (spec/14). 0 SOLID, 1 PIXELATE -/
def CP_MASK_CFG_FILL : Fld := .mk' 552 0xa0 1 0x124 8 0x80 1 0 .none 1 2 1 .rw false false (fun _ _ => 0x0)

/-- Table CMP-4 (spec/14). 1–8 -/
def CP_MASK_CFG_SLOTS : Fld := .mk' 553 0xa0 1 0x124 8 0x80 1 0 .none 1 8 4 .rw false false (fun _ _ => 0x1)

/-- Table CMP-4 (spec/14). KiB -/
def CP_MASK_CFG_STRIDE : Fld := .mk' 554 0xa0 1 0x124 8 0x80 1 0 .none 1 16 12 .rw false false (fun _ _ => 0x0)

/-- Table CMP-4 (spec/14). Y, Cb, Cr as OC_BLANK -/
def CP_MASK_FILL : Fld := .mk' 555 0xa0 1 0x128 8 0x80 1 0 .none 1 0 30 .rw false false (fun _ _ => 0x20080040)

/-- Table CMP-4 (spec/14). 64-byte aligned -/
def CP_MASK_BASE : Fld := .mk' 556 0xa0 1 0x12c 8 0x80 1 0 .none 1 0 48 .rw false false (fun _ _ => 0x0)

/-- Table CMP-4 (spec/14). R478 -/
def CP_MASK_RELOAD : Fld := .mk' 557 0xa0 1 0x134 8 0x80 1 0 .none 1 0 1 .wo false false (fun _ _ => 0x0)

/-- Table CMP-4 (spec/14). R478 -/
def CP_MASK_STAT_STATIC_VALID : Fld := .mk' 558 0xa0 1 0x138 8 0x80 1 0 .none 1 0 1 .ro false false (fun _ _ => 0x0)

/-- Table CMP-5 (spec/14). — -/
def CP_LY_CFG_EN : Fld := .mk' 559 0xa0 1 0x140 8 0x80 2 32 .none 1 0 1 .rw false false (fun _ _ => 0x0)

/-- Table CMP-5 (spec/14). 0 REUSE, 1 SKIP, 2 HOLD_FRAME, 3 BLANK -/
def CP_LY_CFG_POLICY : Fld := .mk' 560 0xa0 1 0x140 8 0x80 2 32 .none 1 1 2 .rw false false (fun _ _ => 0x0)

/-- Table CMP-5 (spec/14). 0–15 -/
def CP_LY_CFG_MAX_REUSE : Fld := .mk' 561 0xa0 1 0x140 8 0x80 2 32 .none 1 4 4 .rw false false (fun _ _ => 0x4)

/-- Table CMP-5 (spec/14). Even values -/
def CP_LY_POS_X : Fld := .mk' 562 0xa0 1 0x144 8 0x80 2 32 .none 1 0 16 .rw false false (fun _ _ => 0x0)

/-- Table CMP-5 (spec/14). Even values -/
def CP_LY_POS_Y : Fld := .mk' 563 0xa0 1 0x144 8 0x80 2 32 .none 1 16 16 .rw false false (fun _ _ => 0x0)

/-- Table CMP-5 (spec/14). Even values -/
def CP_LY_SIZE_W : Fld := .mk' 564 0xa0 1 0x148 8 0x80 2 32 .none 1 0 16 .rw false false (fun _ _ => 0x0)

/-- Table CMP-5 (spec/14). Even values -/
def CP_LY_SIZE_H : Fld := .mk' 565 0xa0 1 0x148 8 0x80 2 32 .none 1 16 16 .rw false false (fun _ _ => 0x0)

/-- Table CMP-5 (spec/14). Larder offsets, 64-byte aligned -/
def CP_LY_BUF0 : Fld := .mk' 566 0xa0 1 0x14c 8 0x80 2 32 .none 1 0 24 .rw false false (fun _ _ => 0x0)

/-- Table CMP-5 (spec/14). Larder offsets, 64-byte aligned -/
def CP_LY_BUF1 : Fld := .mk' 567 0xa0 1 0x150 8 0x80 2 32 .none 1 0 24 .rw false false (fun _ _ => 0x0)

/-- Table CMP-5 (spec/14). Larder offsets, 64-byte aligned -/
def CP_LY_PAL : Fld := .mk' 568 0xa0 1 0x154 8 0x80 2 32 .none 1 0 24 .rw false false (fun _ _ => 0x0)

/-- Table CMP-5 (spec/14). Buffer index, R482 -/
def CP_LY_POST : Fld := .mk' 569 0xa0 1 0x158 8 0x80 2 32 .none 1 0 1 .wo false false (fun _ _ => 0x0)

/-- Table CMP-5 (spec/14). R482 -/
def CP_LY_STAT_POSTED : Fld := .mk' 570 0xa0 1 0x15c 8 0x80 2 32 .none 1 0 1 .ro false false (fun _ _ => 0x0)

/-- Table CMP-5 (spec/14). R482 -/
def CP_LY_STAT_IN_USE0 : Fld := .mk' 571 0xa0 1 0x15c 8 0x80 2 32 .none 1 1 1 .ro false false (fun _ _ => 0x0)

/-- Table CMP-5 (spec/14). R482 -/
def CP_LY_STAT_IN_USE1 : Fld := .mk' 572 0xa0 1 0x15c 8 0x80 2 32 .none 1 2 1 .ro false false (fun _ _ => 0x0)

/-- Table CMP-5 (spec/14). Consecutive reuses -/
def CP_LY_STAT_REUSED : Fld := .mk' 573 0xa0 1 0x15c 8 0x80 2 32 .none 1 4 4 .ro false false (fun _ _ => 0x0)

/-- Table CMP-6 (spec/14). Enable -/
def EN_CTRL_EN : Fld := .mk' 574 0xa1 1 0x40 1 0x0 1 0 .none 1 0 1 .rw false false (fun _ _ => 0x0)

/-- Table CMP-6 (spec/14). Busy ‰ over the last 16 cycles -/
def EN_LOAD : Fld := .mk' 575 0xa1 1 0x44 1 0x0 1 0 .none 1 0 10 .ro false false (fun _ _ => 0x0)

/-- Table CMP-6 (spec/14). R490, R494 -/
def EN_AU_CNT : Fld := .mk' 576 0xa1 1 0x50 1 0x0 1 0 .none 1 0 32 .ro false true (fun _ _ => 0x0)

/-- Table CMP-6 (spec/14). R490, R494 -/
def EN_AU_DROP_CNT : Fld := .mk' 577 0xa1 1 0x54 1 0x0 1 0 .none 1 0 32 .ro false true (fun _ _ => 0x0)

/-- Table CMP-6 (spec/14). R490, R494 -/
def EN_IN_DROP_CNT : Fld := .mk' 578 0xa1 1 0x58 1 0x0 1 0 .none 1 0 32 .ro false true (fun _ _ => 0x0)

/-- Table CMP-6 (spec/14). R490, R494 -/
def EN_BS_ERR_CNT : Fld := .mk' 579 0xa1 1 0x5c 1 0x0 1 0 .none 1 0 32 .ro false true (fun _ _ => 0x0)

/-- Table CMP-6 (spec/14). Other fields writable only while EN is 0 -/
def EN_ES_CFG_EN : Fld := .mk' 580 0xa1 1 0x100 8 0x40 1 0 .none 1 0 1 .rw false false (fun _ _ => 0x0)

/-- Table CMP-6 (spec/14). 0 HEVC Main, 1 HEVC Main 10, 2 AVC Main, 3 AVC High, 4 JPEG -/
def EN_ES_CFG_CODEC : Fld := .mk' 581 0xa1 1 0x100 8 0x40 1 0 .none 1 1 3 .rw false false (fun _ _ => 0x0)

/-- Table CMP-6 (spec/14). Compositor output -/
def EN_ES_CFG_OUTPUT : Fld := .mk' 582 0xa1 1 0x100 8 0x40 1 0 .none 1 4 3 .rw false false (fun _ _ => 0x0)

/-- Table CMP-6 (spec/14). AVC only -/
def EN_ES_CFG_CAVLC : Fld := .mk' 583 0xa1 1 0x100 8 0x40 1 0 .none 1 7 1 .rw false false (fun _ _ => 0x0)

/-- Table CMP-6 (spec/14). As coded in the stream -/
def EN_ES_CFG_LEVEL_IDC : Fld := .mk' 584 0xa1 1 0x100 8 0x40 1 0 .none 1 8 8 .rw false false (fun _ _ => 0x0)

/-- Table CMP-6 (spec/14). 1–1,023 -/
def EN_ES_CFG_IDR_PERIOD : Fld := .mk' 585 0xa1 1 0x100 8 0x40 1 0 .none 1 16 10 .rw false false (fun _ _ => 0x32)

/-- Table CMP-6 (spec/14). MODE 0 CQP, 1 CBR, 2 VBR, 3 reserved; reset is CQP with QP_I 26, QP_P 28, QP_MIN 10, QP_MA … -/
def EN_ES_RC_MODE : Fld := .mk' 586 0xa1 1 0x104 8 0x40 1 0 .none 1 0 2 .rw false false (fun _ _ => 0x0)

/-- Table CMP-6 (spec/14). MODE 0 CQP, 1 CBR, 2 VBR, 3 reserved; reset is CQP with QP_I 26, QP_P 28, QP_MIN 10, QP_MA … -/
def EN_ES_RC_QP_I : Fld := .mk' 587 0xa1 1 0x104 8 0x40 1 0 .none 1 2 6 .rw false false (fun _ _ => 0x1a)

/-- Table CMP-6 (spec/14). MODE 0 CQP, 1 CBR, 2 VBR, 3 reserved; reset is CQP with QP_I 26, QP_P 28, QP_MIN 10, QP_MA … -/
def EN_ES_RC_QP_P : Fld := .mk' 588 0xa1 1 0x104 8 0x40 1 0 .none 1 8 6 .rw false false (fun _ _ => 0x1c)

/-- Table CMP-6 (spec/14). MODE 0 CQP, 1 CBR, 2 VBR, 3 reserved; reset is CQP with QP_I 26, QP_P 28, QP_MIN 10, QP_MA … -/
def EN_ES_RC_QP_MIN : Fld := .mk' 589 0xa1 1 0x104 8 0x40 1 0 .none 1 14 6 .rw false false (fun _ _ => 0xa)

/-- Table CMP-6 (spec/14). MODE 0 CQP, 1 CBR, 2 VBR, 3 reserved; reset is CQP with QP_I 26, QP_P 28, QP_MIN 10, QP_MA … -/
def EN_ES_RC_QP_MAX : Fld := .mk' 590 0xa1 1 0x104 8 0x40 1 0 .none 1 20 6 .rw false false (fun _ _ => 0x33)

/-- Table CMP-6 (spec/14). kb/s, kb/s, kbit -/
def EN_ES_RATE : Fld := .mk' 591 0xa1 1 0x108 8 0x40 1 0 .none 1 0 20 .rw false false (fun _ _ => 0x0)

/-- Table CMP-6 (spec/14). kb/s, kb/s, kbit -/
def EN_ES_MAXRATE : Fld := .mk' 592 0xa1 1 0x10c 8 0x40 1 0 .none 1 0 20 .rw false false (fun _ _ => 0x0)

/-- Table CMP-6 (spec/14). kb/s, kb/s, kbit -/
def EN_ES_VBV : Fld := .mk' 593 0xa1 1 0x110 8 0x40 1 0 .none 1 0 20 .rw false false (fun _ _ => 0x0)

/-- Table CMP-6 (spec/14). 1–100 -/
def EN_ES_JPEG_Q : Fld := .mk' 594 0xa1 1 0x114 8 0x40 1 0 .none 1 0 7 .rw false false (fun _ _ => 0x4b)

/-- Table CMP-6 (spec/14). Larder offset, 4 KiB aligned -/
def EN_BS_BASE : Fld := .mk' 595 0xa1 1 0x118 8 0x40 1 0 .none 1 0 24 .rw false false (fun _ _ => 0x0)

/-- Table CMP-6 (spec/14). KiB, multiple of 4 -/
def EN_BS_SIZE : Fld := .mk' 596 0xa1 1 0x11c 8 0x40 1 0 .none 1 0 12 .rw false false (fun _ _ => 0x0)

/-- Table CMP-6 (spec/14). R493 -/
def EN_BS_WR : Fld := .mk' 597 0xa1 1 0x120 8 0x40 1 0 .none 1 0 32 .ro false false (fun _ _ => 0x0)

/-- Table CMP-6 (spec/14). R494 -/
def EN_BS_RD : Fld := .mk' 598 0xa1 1 0x124 8 0x40 1 0 .none 1 0 32 .rw false false (fun _ _ => 0x0)

/-- Table CMP-6 (spec/14). R487 -/
def EN_ES_CMD_FORCE_IDR : Fld := .mk' 599 0xa1 1 0x128 8 0x40 1 0 .none 1 0 1 .wo false false (fun _ _ => 0x0)

/-- Table CMP-6 (spec/14). R490 -/
def EN_ES_STAT_QUEUED : Fld := .mk' 600 0xa1 1 0x12c 8 0x40 1 0 .none 1 0 2 .ro false false (fun _ _ => 0x0)

/-- Table CMP-6 (spec/14). R492 -/
def EN_ES_STAT_CFG_ERR : Fld := .mk' 601 0xa1 1 0x12c 8 0x40 1 0 .none 1 2 1 .w1c false false (fun _ _ => 0x0)

/-- Table CMP-6 (spec/14). Two reference pictures -/
def EN_REF_BASE : Fld := .mk' 602 0xa1 1 0x130 8 0x40 1 0 .none 1 0 48 .rw false false (fun _ _ => 0x0)

/-- Table PIL-3 (spec/15). Main domain powered -/
def PL_STAT_MAIN_ON : Fld := .mk' 603 0x80 1 0x40 1 0x0 1 0 .none 1 0 1 .ro false false (fun _ _ => 0x0)

/-- Table PIL-3 (spec/15). Pilot firmware running -/
def PL_STAT_PFW_RUN : Fld := .mk' 604 0x80 1 0x40 1 0x0 1 0 .none 1 1 1 .ro false false (fun _ _ => 0x0)

/-- Table PIL-3 (spec/15). R495 -/
def PL_CE_CNT : Fld := .mk' 605 0x80 1 0x44 1 0x0 1 0 .none 1 0 32 .ro false true (fun _ _ => 0x0)

/-- Table PIL-3 (spec/15). R495 -/
def PL_UE_CNT : Fld := .mk' 606 0x80 1 0x48 1 0x0 1 0 .none 1 0 32 .ro false true (fun _ _ => 0x0)

/-- Table PIL-3 (spec/15). Pilot SRAM offset of last UE -/
def PL_UE_ADDR_OFS : Fld := .mk' 607 0x80 1 0x4c 1 0x0 1 0 .none 1 0 19 .ro false false (fun _ _ => 0x0)

/-- Table PIL-3 (spec/15). — -/
def PL_UE_ADDR_VALID : Fld := .mk' 608 0x80 1 0x4c 1 0x0 1 0 .none 1 31 1 .w1c false false (fun _ _ => 0x0)

/-- Table PIL-3 (spec/15). Table PIL-6 -/
def PL_WAKE_EN : Fld := .mk' 609 0x80 1 0x50 1 0x0 1 0 .none 1 0 6 .rw false false (fun _ _ => 0x0)

/-- Table PIL-3 (spec/15). Causes latched since last clear -/
def PL_WAKE_CAUSE : Fld := .mk' 610 0x80 1 0x54 1 0x0 1 0 .none 1 0 6 .w1c false false (fun _ _ => 0x0)

/-- Table PIL-3 (spec/15). Timer addressed by 0x064–0x078 -/
def PL_TMR_SEL : Fld := .mk' 611 0x80 1 0x60 1 0x0 1 0 .none 1 0 4 .rw false false (fun _ _ => 0x0)

/-- Table PIL-3 (spec/15). Due GT -/
def PL_TMR_GT : Fld := .mk' 612 0x80 1 0x64 1 0x0 1 0 .tmr 16 0 64 .rw false false (fun _ _ => 0x0)

/-- Table PIL-3 (spec/15). R521 -/
def PL_TMR_CFG_EN : Fld := .mk' 613 0x80 1 0x6c 1 0x0 1 0 .tmr 16 0 1 .rw false false (fun _ _ => 0x0)

/-- Table PIL-3 (spec/15). 0 WAKE, 1 LEVEL -/
def PL_TMR_CFG_ACTION : Fld := .mk' 614 0x80 1 0x6c 1 0x0 1 0 .tmr 16 1 1 .rw false false (fun _ _ => 0x0)

/-- Table PIL-3 (spec/15). LEVEL_SET bytes 4–9 -/
def PL_TMR_MSG : Fld := .mk' 615 0x80 1 0x70 3 0x4 1 0 .tmr 16 0 32 .rw false false (fun _ _ => 0x0)

/-- Table PIL-3 (spec/15). Messages consumed while the main domain was off -/
def PL_MSG_OFF_CNT : Fld := .mk' 616 0x80 1 0x80 1 0x0 1 0 .none 1 0 32 .ro false true (fun _ _ => 0x0)

/-- Table PIL-4 (spec/15). Front end enable -/
def PA_CTRL_EN : Fld := .mk' 617 0x81 1 0x40 1 0x0 1 0 .none 1 0 1 .rw false false (fun _ _ => 0x0)

/-- Table PIL-4 (spec/15). R518 -/
def PA_CTRL_STREAM_EN : Fld := .mk' 618 0x81 1 0x40 1 0x0 1 0 .none 1 1 1 .rw false false (fun _ _ => 0x0)

/-- Table PIL-4 (spec/15). Channels -/
def PA_CTRL_CH_EN : Fld := .mk' 619 0x81 1 0x40 1 0x0 1 0 .none 1 8 8 .rw false false (fun _ _ => 0x0)

/-- Table PIL-4 (spec/15). R500 -/
def PA_CTRL_LP_MASK : Fld := .mk' 620 0x81 1 0x40 1 0x0 1 0 .none 1 16 8 .rw false false (fun _ _ => 0x0)

/-- Table PIL-4 (spec/15). 0 3.072 MHz, 1 768 kHz -/
def PA_STAT_RATE : Fld := .mk' 621 0x81 1 0x44 1 0x0 1 0 .none 1 0 1 .ro false false (fun _ _ => 0x0)

/-- Table PIL-4 (spec/15). R503 -/
def PA_STAT_XFADE : Fld := .mk' 622 0x81 1 0x44 1 0x0 1 0 .none 1 1 1 .ro false false (fun _ _ => 0x0)

/-- Table PIL-4 (spec/15). R510 -/
def PA_STAT_IN_PROGRESS : Fld := .mk' 623 0x81 1 0x44 1 0x0 1 0 .none 1 2 1 .ro false false (fun _ _ => 0x0)

/-- Table PIL-4 (spec/15). A buffer FROZEN -/
def PA_STAT_FROZEN : Fld := .mk' 624 0x81 1 0x44 1 0x0 1 0 .none 1 3 1 .ro false false (fun _ _ => 0x0)

/-- Table PIL-4 (spec/15). 0 RB0, 1 RB1 -/
def PA_STAT_LIVE_BUF : Fld := .mk' 625 0x81 1 0x44 1 0x0 1 0 .none 1 4 1 .ro false false (fun _ _ => 0x0)

/-- Table PIL-4 (spec/15). R500 -/
def PA_STAT_CFG_ERR : Fld := .mk' 626 0x81 1 0x44 1 0x0 1 0 .none 1 5 1 .w1c false false (fun _ _ => 0x0)

/-- Table PIL-4 (spec/15). Newest sample; reading LO latches HI -/
def PA_ASAMP : Fld := .mk' 627 0x81 1 0x48 1 0x0 1 0 .none 1 0 64 .ro true false (fun _ _ => 0x0)

/-- Table PIL-4 (spec/15). R511 -/
def PA_WAKE_GT : Fld := .mk' 628 0x81 1 0x50 1 0x0 1 0 .none 1 0 64 .ro false false (fun _ _ => 0x0)

/-- Table PIL-4 (spec/15). R511 -/
def PA_WAKE_SAMP : Fld := .mk' 629 0x81 1 0x58 1 0x0 1 0 .none 1 0 64 .ro false false (fun _ _ => 0x0)

/-- Table PIL-4 (spec/15). ms -/
def PA_FREEZE_MAX : Fld := .mk' 630 0x81 1 0x60 1 0x0 1 0 .none 1 0 16 .rw false false (fun _ _ => 0x2710)

/-- Table PIL-4 (spec/15). R514 -/
def PA_FREEZE_REL : Fld := .mk' 631 0x81 1 0x64 1 0x0 1 0 .none 1 0 1 .wo false false (fun _ _ => 0x0)

/-- Table PIL-4 (spec/15). R510; REFRACT in evaluations -/
def PA_DET_CFG_ARM_THR : Fld := .mk' 632 0x81 1 0x68 1 0x0 1 0 .none 1 0 8 .rw false false (fun _ _ => 0x60)

/-- Table PIL-4 (spec/15). R510; REFRACT in evaluations -/
def PA_DET_CFG_DET_THR : Fld := .mk' 633 0x81 1 0x68 1 0x0 1 0 .none 1 8 8 .rw false false (fun _ _ => 0xc0)

/-- Table PIL-4 (spec/15). R510; REFRACT in evaluations -/
def PA_DET_CFG_DET_N : Fld := .mk' 634 0x81 1 0x68 1 0x0 1 0 .none 1 16 4 .rw false false (fun _ _ => 0x3)

/-- Table PIL-4 (spec/15). R510; REFRACT in evaluations -/
def PA_DET_CFG_REFRACT : Fld := .mk' 635 0x81 1 0x68 1 0x0 1 0 .none 1 20 12 .rw false false (fun _ _ => 0x32)

/-- Table PIL-4 (spec/15). Classes that wake -/
def PA_EV_CFG_WAKE_MASK : Fld := .mk' 636 0x81 1 0x6c 1 0x0 1 0 .none 1 0 16 .rw false false (fun _ _ => 0x0)

/-- Table PIL-4 (spec/15). 8 bits per class -/
def PA_EV_THR : Fld := .mk' 637 0x81 1 0x70 4 0x4 1 0 .none 1 0 32 .rw false false (fun _ _ => 0xffffffff)

/-- Table PIL-4 (spec/15). S1.14 -/
def PA_MIX_W_ACT : Fld := .mk' 638 0x81 1 0x80 8 0x4 1 0 .none 1 0 16 .rw false false (fun _ _ => 0x0)

/-- Table PIL-4 (spec/15). S1.14 -/
def PA_MIX_W_LP : Fld := .mk' 639 0x81 1 0x80 8 0x4 1 0 .none 1 16 16 .rw false false (fun _ _ => 0x0)

/-- Table PIL-4 (spec/15). Start programs -/
def PA_SIM_CTRL_WAKE_RUN : Fld := .mk' 640 0x81 1 0xa0 1 0x0 1 0 .none 1 0 1 .rw false false (fun _ _ => 0x0)

/-- Table PIL-4 (spec/15). Start programs -/
def PA_SIM_CTRL_EVENT_RUN : Fld := .mk' 641 0x81 1 0xa0 1 0x0 1 0 .none 1 1 1 .rw false false (fun _ _ => 0x0)

/-- Table PIL-4 (spec/15). Pilot SRAM offsets -/
def PA_SIM_PROG0 : Fld := .mk' 642 0x81 1 0xa4 1 0x0 1 0 .none 1 0 19 .rw false false (fun _ _ => 0x0)

/-- Table PIL-4 (spec/15). Pilot SRAM offsets -/
def PA_SIM_PROG1 : Fld := .mk' 643 0x81 1 0xa8 1 0x0 1 0 .none 1 0 19 .rw false false (fun _ _ => 0x0)

/-- Table PIL-4 (spec/15). R509 -/
def PA_SIM_STAT_LOAD_ERR0 : Fld := .mk' 644 0x81 1 0xac 1 0x0 1 0 .none 1 0 1 .w1c false false (fun _ _ => 0x0)

/-- Table PIL-4 (spec/15). R509 -/
def PA_SIM_STAT_LOAD_ERR1 : Fld := .mk' 645 0x81 1 0xac 1 0x0 1 0 .none 1 1 1 .w1c false false (fun _ _ => 0x0)

/-- Table PIL-4 (spec/15). [3:0] class, [15:8] score, [31] valid; GT latched into 0x0C4–0x0C8 -/
def PA_EV_POP : Fld := .mk' 646 0x81 1 0xc0 1 0x0 1 0 .none 1 0 32 .rc false false (fun _ _ => 0x0)

/-- Table PIL-4 (spec/15). — -/
def PA_EV_GT : Fld := .mk' 647 0x81 1 0xc4 1 0x0 1 0 .none 1 0 64 .ro false false (fun _ _ => 0x0)

/-- Table PIL-5 (spec/15). 64-byte aligned -/
def PA_EXP_DST : Fld := .mk' 648 0x81 1 0xd0 1 0x0 1 0 .none 1 0 48 .rw false false (fun _ _ => 0x0)

/-- Table PIL-5 (spec/15). 0 FROZEN, 1 LIVE, 2 features -/
def PA_EXP_CFG_SRC : Fld := .mk' 649 0x81 1 0xd8 1 0x0 1 0 .none 1 0 2 .rw false false (fun _ _ => 0x0)

/-- Table PIL-5 (spec/15). Samples or frames -/
def PA_EXP_FROM : Fld := .mk' 650 0x81 1 0xdc 1 0x0 1 0 .none 1 0 64 .rw false false (fun _ _ => 0x0)

/-- Table PIL-5 (spec/15). Samples or frames -/
def PA_EXP_LEN : Fld := .mk' 651 0x81 1 0xe4 1 0x0 1 0 .none 1 0 32 .rw false false (fun _ _ => 0x0)

/-- Table PIL-5 (spec/15). Starts an export -/
def PA_EXP_CMD : Fld := .mk' 652 0x81 1 0xe8 1 0x0 1 0 .none 1 0 1 .wo false false (fun _ _ => 0x0)

/-- Table PIL-5 (spec/15). R520 -/
def PA_EXP_STAT_BUSY : Fld := .mk' 653 0x81 1 0xec 1 0x0 1 0 .none 1 0 1 .ro false false (fun _ _ => 0x0)

/-- Table PIL-5 (spec/15). R520 -/
def PA_EXP_STAT_DONE : Fld := .mk' 654 0x81 1 0xec 1 0x0 1 0 .none 1 1 1 .ro false false (fun _ _ => 0x0)

/-- Table PIL-5 (spec/15). R520 -/
def PA_EXP_STAT_ERR : Fld := .mk' 655 0x81 1 0xec 1 0x0 1 0 .none 1 2 1 .ro false false (fun _ _ => 0x0)

/-- Table PIL-5 (spec/15). Larder, 64-byte aligned -/
def PA_STR_RAW_BASE : Fld := .mk' 656 0x81 1 0x100 1 0x0 1 0 .none 1 0 48 .rw false false (fun _ _ => 0x0)

/-- Table PIL-5 (spec/15). Larder -/
def PA_STR_FEAT_BASE : Fld := .mk' 657 0x81 1 0x108 1 0x0 1 0 .none 1 0 48 .rw false false (fun _ _ => 0x0)

/-- Table PIL-5 (spec/15). Ring sizes 2^n -/
def PA_STR_LOG2_RAW_SAMPLES : Fld := .mk' 658 0x81 1 0x110 1 0x0 1 0 .none 1 0 5 .rw false false (fun _ _ => 0x0)

/-- Table PIL-5 (spec/15). Ring sizes 2^n -/
def PA_STR_LOG2_FEAT_RECORDS : Fld := .mk' 659 0x81 1 0x110 1 0x0 1 0 .none 1 8 5 .rw false false (fun _ _ => 0x0)

/-- Table PIL-5 (spec/15). R518 -/
def PA_STR_RAW_WR : Fld := .mk' 660 0x81 1 0x114 1 0x0 1 0 .none 1 0 32 .ro false false (fun _ _ => 0x0)

/-- Table PIL-5 (spec/15). R518 -/
def PA_STR_FEAT_WR : Fld := .mk' 661 0x81 1 0x118 1 0x0 1 0 .none 1 0 32 .ro false false (fun _ _ => 0x0)

/-- Table PIL-5 (spec/15). As referenced -/
def PA_CLIP_CNT : Fld := .mk' 662 0x81 1 0x140 1 0x0 1 0 .none 1 0 32 .ro false true (fun _ _ => 0x0)

/-- Table PIL-5 (spec/15). As referenced -/
def PA_XFADE_CNT : Fld := .mk' 663 0x81 1 0x144 1 0x0 1 0 .none 1 0 32 .ro false true (fun _ _ => 0x0)

/-- Table PIL-5 (spec/15). As referenced -/
def PA_DET_CNT : Fld := .mk' 664 0x81 1 0x148 1 0x0 1 0 .none 1 0 32 .ro false true (fun _ _ => 0x0)

/-- Table PIL-5 (spec/15). As referenced -/
def PA_DET_FROZEN_CNT : Fld := .mk' 665 0x81 1 0x14c 1 0x0 1 0 .none 1 0 32 .ro false true (fun _ _ => 0x0)

/-- Table PIL-5 (spec/15). As referenced -/
def PA_FREEZE_EXPIRE_CNT : Fld := .mk' 666 0x81 1 0x150 1 0x0 1 0 .none 1 0 32 .ro false true (fun _ _ => 0x0)

/-- Table PIL-5 (spec/15). As referenced -/
def PA_SIM_OVERRUN_CNT : Fld := .mk' 667 0x81 1 0x154 1 0x0 1 0 .none 1 0 32 .ro false true (fun _ _ => 0x0)

/-- Table PIL-5 (spec/15). As referenced -/
def PA_EV_LOST_CNT : Fld := .mk' 668 0x81 1 0x158 1 0x0 1 0 .none 1 0 32 .ro false true (fun _ _ => 0x0)

/-- Table PIL-5 (spec/15). As referenced -/
def PA_OFF_DEFER_CNT : Fld := .mk' 669 0x81 1 0x15c 1 0x0 1 0 .none 1 0 32 .ro false true (fun _ _ => 0x0)

/-- Table PIL-5 (spec/15). As referenced -/
def PA_OFF_CANCEL_CNT : Fld := .mk' 670 0x81 1 0x160 1 0x0 1 0 .none 1 0 32 .ro false true (fun _ _ => 0x0)

/-- Table PIL-5 (spec/15). As referenced -/
def PA_STREAM_GAP_CNT : Fld := .mk' 671 0x81 1 0x164 1 0x0 1 0 .none 1 0 32 .ro false true (fun _ _ => 0x0)

/-- Table PWR-6 (spec/16). 0 RUN, 2 WATCH, 3 REST, 4 DEEP, 5 OFF; other values are ignored -/
def PWR_PS_REQ_TARGET : Fld := .mk' 672 0x3 1 0x40 1 0x0 1 0 .none 1 0 3 .wo false false (fun _ _ => 0x0)

/-- Table PWR-6 (spec/16). 0 ACTIVE, 1 TRIMMED, 2 WATCH -/
def PWR_PS_STAT_CUR : Fld := .mk' 673 0x3 1 0x44 1 0x0 1 0 .none 1 0 3 .ro false false (fun _ _ => 0x0)

/-- Table PWR-6 (spec/16). R525 -/
def PWR_PS_STAT_BUSY : Fld := .mk' 674 0x3 1 0x44 1 0x0 1 0 .none 1 4 1 .ro false false (fun _ _ => 0x0)

/-- Table PWR-6 (spec/16). 1 busy, 2 context not FREE, 3 budget (R524), 4 WATCH configuration, 5 block enabled, 6 abo … -/
def PWR_PS_STAT_ERR : Fld := .mk' 675 0x3 1 0x44 1 0x0 1 0 .none 1 8 4 .w1c false false (fun _ _ => 0x0)

/-- Table PWR-6 (spec/16). State before the present one; 3 REST, 4 DEEP, 5 OFF after a wake or power-up -/
def PWR_PS_STAT_PREV : Fld := .mk' 676 0x3 1 0x44 1 0x0 1 0 .none 1 16 3 .ro false false (fun _ _ => 0x0)

/-- Table PWR-6 (spec/16). R552 -/
def PWR_PS_STAT_LAST_TRIP : Fld := .mk' 677 0x3 1 0x44 1 0x0 1 0 .none 1 20 1 .w1c false false (fun _ _ => 0x0)

/-- Table PWR-6 (spec/16). 0 RUN, 1 WATCH -/
def PWR_RESUME_CFG_TARGET : Fld := .mk' 678 0x3 1 0x48 1 0x0 1 0 .none 1 0 1 .rw false false (fun _ _ => 0x0)

/-- Table PWR-6 (spec/16). Logical Kettles to gate in RUN; the write is a request (R525) -/
def PWR_KGATE : Fld := .mk' 679 0x3 1 0x4c 1 0x0 1 0 .none 1 0 16 .rw false false (fun _ _ => 0x0)

/-- Table PWR-6 (spec/16). Logical Kettles gated now -/
def PWR_KGATED : Fld := .mk' 680 0x3 1 0x50 1 0x0 1 0 .none 1 0 16 .ro false false (fun _ _ => 0x0)

/-- Table PWR-6 (spec/16). R527 -/
def PWR_WATCH_CFG_KMASK : Fld := .mk' 681 0x3 1 0x54 1 0x0 1 0 .none 1 0 16 .rw false false (fun _ _ => 0x3)

/-- Table PWR-6 (spec/16). Host core kept in WATCH -/
def PWR_WATCH_CFG_HOST : Fld := .mk' 682 0x3 1 0x54 1 0x0 1 0 .none 1 16 2 .rw false false (fun _ _ => 0x0)

/-- Table PWR-6 (spec/16). R527 -/
def PWR_WATCH_PORTS : Fld := .mk' 683 0x3 1 0x58 1 0x0 1 0 .none 1 0 16 .rw false false (fun _ _ => 0xf)

/-- Table PWR-6 (spec/16). Host cores powered in RUN (R535); bit 0 reads 1 -/
def PWR_HOST_EN : Fld := .mk' 684 0x3 1 0x5c 1 0x0 1 0 .none 1 0 4 .rw false false (fun _ _ => 0x1)

/-- Table PWR-6 (spec/16). R536 -/
def PWR_GRP_OP_REQ_KG0 : Fld := .mk' 685 0x3 1 0x60 1 0x0 1 0 .none 1 0 2 .rw false false (fun _ _ => 0x3)

/-- Table PWR-6 (spec/16). R536 -/
def PWR_GRP_OP_REQ_KG1 : Fld := .mk' 686 0x3 1 0x60 1 0x0 1 0 .none 1 4 2 .rw false false (fun _ _ => 0x3)

/-- Table PWR-6 (spec/16). R536 -/
def PWR_GRP_OP_REQ_KG2 : Fld := .mk' 687 0x3 1 0x60 1 0x0 1 0 .none 1 8 2 .rw false false (fun _ _ => 0x3)

/-- Table PWR-6 (spec/16). Point in force; during a change, the point being left until the change completes (R539) -/
def PWR_GRP_OP_CUR_KG0 : Fld := .mk' 688 0x3 1 0x64 1 0x0 1 0 .none 1 0 2 .ro false false (fun _ _ => 0x3)

/-- Table PWR-6 (spec/16). Point in force; during a change, the point being left until the change completes (R539) -/
def PWR_GRP_OP_CUR_KG1 : Fld := .mk' 689 0x3 1 0x64 1 0x0 1 0 .none 1 4 2 .ro false false (fun _ _ => 0x3)

/-- Table PWR-6 (spec/16). Point in force; during a change, the point being left until the change completes (R539) -/
def PWR_GRP_OP_CUR_KG2 : Fld := .mk' 690 0x3 1 0x64 1 0x0 1 0 .none 1 8 2 .ro false false (fun _ _ => 0x3)

/-- Table PWR-6 (spec/16). R539 -/
def PWR_GRP_OP_CUR_OP_BUSY : Fld := .mk' 691 0x3 1 0x64 1 0x0 1 0 .none 1 16 1 .ro false false (fun _ _ => 0x0)

/-- Table PWR-6 (spec/16). VIN in mV, updated every 100 µs -/
def PWR_VIN_MV : Fld := .mk' 692 0x3 1 0x70 1 0x0 1 0 .none 1 0 16 .ro false false (fun _ _ => 0x0)

/-- Table PWR-6 (spec/16). 10,500 mV; accepted from 9,800 to 11,500 -/
def PWR_VIN_CFG_WARN_MV : Fld := .mk' 693 0x3 1 0x74 1 0x0 1 0 .none 1 0 16 .rw false false (fun _ _ => 0x2904)

/-- Table PWR-6 (spec/16). R545 -/
def PWR_VIN_WARN_CNT : Fld := .mk' 694 0x3 1 0x78 1 0x0 1 0 .none 1 0 32 .ro false true (fun _ _ => 0x0)

/-- Table PWR-6 (spec/16). Signed °C -/
def PWR_TJ_MAX_TEMP : Fld := .mk' 695 0x3 1 0x80 1 0x0 1 0 .none 1 0 8 .ro false false (fun _ _ => 25)

/-- Table PWR-6 (spec/16). 0–17 tile, 18 hub, 19 MEDIA, 20 Pilot; when several sensors share the highest reading, the … -/
def PWR_TJ_MAX_SRC : Fld := .mk' 696 0x3 1 0x80 1 0x0 1 0 .none 1 8 5 .ro false false (fun _ _ => 0)

/-- Table PWR-6 (spec/16). °C; R549 -/
def PWR_THERM_CFG_WARN : Fld := .mk' 697 0x3 1 0x84 1 0x0 1 0 .none 1 0 8 .rw false false (fun _ _ => 95)

/-- Table PWR-6 (spec/16). °C; R549 -/
def PWR_THERM_CFG_EMERG : Fld := .mk' 698 0x3 1 0x84 1 0x0 1 0 .none 1 8 8 .rw false false (fun _ _ => 105)

/-- Table PWR-6 (spec/16). °C; R549 -/
def PWR_THERM_CFG_TRIP : Fld := .mk' 699 0x3 1 0x84 1 0x0 1 0 .none 1 16 8 .rw false false (fun _ _ => 115)

/-- Table PWR-6 (spec/16). R550, R551 -/
def PWR_THERM_STAT_WARN : Fld := .mk' 700 0x3 1 0x88 1 0x0 1 0 .none 1 0 1 .ro false false (fun _ _ => 0x0)

/-- Table PWR-6 (spec/16). R550, R551 -/
def PWR_THERM_STAT_EMERG : Fld := .mk' 701 0x3 1 0x88 1 0x0 1 0 .none 1 1 1 .ro false false (fun _ _ => 0x0)

/-- Table PWR-6 (spec/16). R551 -/
def PWR_THERM_EMERG_CNT : Fld := .mk' 702 0x3 1 0x8c 1 0x0 1 0 .none 1 0 32 .ro false true (fun _ _ => 0x0)

/-- Table PWR-6 (spec/16). R542 -/
def PWR_PAD_HELD : Fld := .mk' 703 0x3 1 0x90 1 0x0 1 0 .none 1 0 24 .ro false false (fun _ _ => 0x0)

/-- Table PWR-6 (spec/16). R543 -/
def PWR_PAD_RELEASE : Fld := .mk' 704 0x3 1 0x94 1 0x0 1 0 .none 1 0 24 .wo false false (fun _ _ => 0x0)

/-- Table PWR-6 (spec/16). R543; transitions completed; R531 -/
def PWR_PAD_ERR_CNT : Fld := .mk' 705 0x3 1 0x98 1 0x0 1 0 .none 1 0 32 .ro false true (fun _ _ => 0x0)

/-- Table PWR-6 (spec/16). R543; transitions completed; R531 -/
def PWR_TRANS_CNT : Fld := .mk' 706 0x3 1 0x9c 1 0x0 1 0 .none 1 0 32 .ro false true (fun _ _ => 0x0)

/-- Table PWR-6 (spec/16). R543; transitions completed; R531 -/
def PWR_ABORT_CNT : Fld := .mk' 707 0x3 1 0xa0 1 0x0 1 0 .none 1 0 32 .ro false true (fun _ _ => 0x0)

/-- Table PWR-6 (spec/16). Device physical start address of a host core powered under R535 -/
def PWR_HOST_START : Fld := .mk' 708 0x3 1 0xa8 1 0x0 1 0 .none 1 0 48 .rw false false (fun _ _ => 0x0)

/-- Table HST-5 (spec/17). Aggregator enable; while 0, no vector is PENDING -/
def IA_CTRL_EN : Fld := .mk' 709 0x7 1 0x40 1 0x0 1 0 .none 1 0 1 .rw false false (fun _ _ => 0x0)

/-- Table HST-5 (spec/17). Line of page 32w + j in bit j (R565) -/
def IA_PAGE_PEND : Fld := .mk' 710 0x7 1 0x80 16 0x4 1 0 .none 1 0 32 .ro false false (fun _ _ => 0x0)

/-- Table HST-5 (spec/17). Page 0x000–0x0FF addressed by ROUTE -/
def IA_ROUTE_SEL : Fld := .mk' 711 0x7 1 0xc0 1 0x0 1 0 .none 1 0 8 .rw false false (fun _ _ => 0x0)

/-- Table HST-5 (spec/17). Vector -/
def IA_ROUTE_VEC : Fld := .mk' 712 0x7 1 0xc4 1 0x0 1 0 .route 256 0 6 .rw false false (fun _ _ => 0x0)

/-- Table HST-5 (spec/17). 0: the page's line reaches no vector -/
def IA_ROUTE_EN : Fld := .mk' 713 0x7 1 0xc4 1 0x0 1 0 .route 256 7 1 .rw false false (fun _ _ => 0x0)

/-- Table HST-5 (spec/17). 0 none, 1 host, 2 MSI-X; 3 treated as 0 -/
def IA_VEC_CFG_DEST : Fld := .mk' 714 0x7 1 0x100 64 0x10 1 0 .none 1 0 2 .rw false false (fun _ _ => 0x0)

/-- Table HST-5 (spec/17). Host cores enabled at the PLIC for this source -/
def IA_VEC_CFG_CORES : Fld := .mk' 715 0x7 1 0x100 64 0x10 1 0 .none 1 4 4 .rw false false (fun _ _ => 0xf)

/-- Table HST-5 (spec/17). R566, 0–1,023 µs -/
def IA_VEC_CFG_COAL_US : Fld := .mk' 716 0x7 1 0x100 64 0x10 1 0 .none 1 16 10 .rw false false (fun _ _ => 0x0)

/-- Table HST-5 (spec/17). R565 -/
def IA_VEC_STAT_PENDING : Fld := .mk' 717 0x7 1 0x104 64 0x10 1 0 .none 1 0 1 .ro false false (fun _ _ => 0x0)

/-- Table HST-5 (spec/17). R566 -/
def IA_VEC_EOI : Fld := .mk' 718 0x7 1 0x108 64 0x10 1 0 .none 1 0 1 .wo false false (fun _ _ => 0x0)

/-- Table HST-5 (spec/17). Messages sent -/
def IA_VEC_MSG_CNT : Fld := .mk' 719 0x7 1 0x10c 64 0x10 1 0 .none 1 0 32 .ro false true (fun _ _ => 0x0)

/-- Table HST-6 (spec/17). — -/
def PCIE_ID_VENDOR : Fld := .mk' 720 0xb0 1 0x40 1 0x0 1 0 .none 1 0 16 .ro false false (fun _ _ => 0x1f8a)

/-- Table HST-6 (spec/17). — -/
def PCIE_ID_DEVICE : Fld := .mk' 721 0xb0 1 0x40 1 0x0 1 0 .none 1 16 16 .ro false false (fun _ _ => 0x1600)

/-- Table HST-6 (spec/17). Data link up -/
def PCIE_LINK_STAT_DL_UP : Fld := .mk' 722 0xb0 1 0x44 1 0x0 1 0 .none 1 0 1 .ro false false (fun _ _ => 0x0)

/-- Table HST-6 (spec/17). 1–4: 2.5 to 16.0 GT/s -/
def PCIE_LINK_STAT_SPEED : Fld := .mk' 723 0xb0 1 0x44 1 0x0 1 0 .none 1 1 3 .ro false false (fun _ _ => 0x0)

/-- Table HST-6 (spec/17). 1, 2 or 4 -/
def PCIE_LINK_STAT_WIDTH : Fld := .mk' 724 0xb0 1 0x44 1 0x0 1 0 .none 1 4 4 .ro false false (fun _ _ => 0x0)

/-- Table HST-6 (spec/17). Limits for training -/
def PCIE_LINK_CFG_MAX_SPEED : Fld := .mk' 725 0xb0 1 0x48 1 0x0 1 0 .none 1 0 3 .rw false false (fun _ _ => 0x4)

/-- Table HST-6 (spec/17). Limits for training -/
def PCIE_LINK_CFG_MAX_WIDTH : Fld := .mk' 726 0xb0 1 0x48 1 0x0 1 0 .none 1 4 3 .rw false false (fun _ _ => 0x4)

/-- Table HST-6 (spec/17). — -/
def PCIE_PERST_CNT : Fld := .mk' 727 0xb0 1 0x4c 1 0x0 1 0 .none 1 0 32 .ro false true (fun _ _ => 0x0)

/-- Table HST-6 (spec/17). — -/
def PCIE_LINK_DOWN_CNT : Fld := .mk' 728 0xb0 1 0x50 1 0x0 1 0 .none 1 0 32 .ro false true (fun _ _ => 0x0)

/-- Table HST-6 (spec/17). — -/
def PCIE_AER_CE_CNT : Fld := .mk' 729 0xb0 1 0x54 1 0x0 1 0 .none 1 0 32 .ro false true (fun _ _ => 0x0)

/-- Table HST-6 (spec/17). — -/
def PCIE_AER_UE_CNT : Fld := .mk' 730 0xb0 1 0x58 1 0x0 1 0 .none 1 0 32 .ro false true (fun _ _ => 0x0)

/-- Table HST-6 (spec/17). — -/
def PCIE_UR_CNT : Fld := .mk' 731 0xb0 1 0x5c 1 0x0 1 0 .none 1 0 32 .ro false true (fun _ _ => 0x0)

/-- Table HST-6 (spec/17). R557 -/
def PCIE_IOMMU_FAULT_CNT : Fld := .mk' 732 0xb0 1 0x60 1 0x0 1 0 .none 1 0 32 .ro false true (fun _ _ => 0x0)

/-- Table HST-6 (spec/17). IOVA of last refusal; HI [31] VALID, W1C -/
def PCIE_IOMMU_FAULT : Fld := .mk' 733 0xb0 1 0x64 1 0x0 1 0 .none 1 0 48 .ro false false (fun _ _ => 0x0)

/-- Table HST-6 (spec/17). MSI-X pending bits -/
def PCIE_PBA : Fld := .mk' 734 0xb0 1 0xf0 1 0x0 1 0 .none 1 0 64 .ro false false (fun _ _ => 0x0)

/-- Table HST-6 (spec/17). Context 16w + j at [2j+1:2j] (Table HST-3); not reset by PERST# -/
def PCIE_DB_SRC : Fld := .mk' 735 0xb0 1 0x100 16 0x4 1 0 .none 1 0 32 .rw false false (fun _ _ => 0x0)

/-- Table HST-6 (spec/17). R562 -/
def PCIE_DB_SRC_DENY_CNT : Fld := .mk' 736 0xb0 1 0x140 1 0x0 1 0 .none 1 0 32 .ro false true (fun _ _ => 0x0)

/-- Table HST-6 (spec/17). Entry v at 0x400 + 16v: address low, address high, data, vector control [0] mask -/
def PCIE_MSIX_ADDR_LO : Fld := .mk' 737 0xb0 1 0x400 64 0x10 1 0 .none 1 0 32 .rw false false (fun _ _ => 0x0)

/-- Table HST-6 (spec/17). Entry v at 0x400 + 16v: address low, address high, data, vector control [0] mask -/
def PCIE_MSIX_ADDR_HI : Fld := .mk' 738 0xb0 1 0x404 64 0x10 1 0 .none 1 0 32 .rw false false (fun _ _ => 0x0)

/-- Table HST-6 (spec/17). Entry v at 0x400 + 16v: address low, address high, data, vector control [0] mask -/
def PCIE_MSIX_DATA : Fld := .mk' 739 0xb0 1 0x408 64 0x10 1 0 .none 1 0 32 .rw false false (fun _ _ => 0x0)

/-- Table HST-6 (spec/17). Entry v at 0x400 + 16v: address low, address high, data, vector control [0] mask -/
def PCIE_MSIX_CTRL : Fld := .mk' 740 0xb0 1 0x40c 64 0x10 1 0 .none 1 0 32 .rw false false (fun _ _ => 0x1)

/-- Table HST-7 (spec/17). Port enable -/
def ETH_MAC_CFG_EN : Fld := .mk' 741 0xb1 2 0x40 1 0x0 1 0 .none 1 0 1 .rw false false (fun _ _ => 0x0)

/-- Table HST-7 (spec/17). 0 auto, 1 100 Mb/s, 2 1000 Mb/s -/
def ETH_MAC_CFG_SPEED : Fld := .mk' 742 0xb1 2 0x40 1 0x0 1 0 .none 1 1 2 .rw false false (fun _ _ => 0x0)

/-- Table HST-7 (spec/17). Accept every destination -/
def ETH_MAC_CFG_PROMISC : Fld := .mk' 743 0xb1 2 0x40 1 0x0 1 0 .none 1 3 1 .rw false false (fun _ _ => 0x0)

/-- Table HST-7 (spec/17). Station address -/
def ETH_MAC_ADDR : Fld := .mk' 744 0xb1 2 0x44 1 0x0 1 0 .none 1 0 48 .rw false false (fun _ _ => 0x0)

/-- Table HST-7 (spec/17). As MAC_CFG.SPEED -/
def ETH_PHY_STAT_LINK : Fld := .mk' 745 0xb1 2 0x4c 1 0x0 1 0 .none 1 0 1 .ro false false (fun _ _ => 0x0)

/-- Table HST-7 (spec/17). As MAC_CFG.SPEED -/
def ETH_PHY_STAT_SPEED : Fld := .mk' 746 0xb1 2 0x4c 1 0x0 1 0 .none 1 1 2 .ro false false (fun _ _ => 0x0)

/-- Table HST-7 (spec/17). 64–9,216 bytes; 1,522 at reset -/
def ETH_MTU : Fld := .mk' 747 0xb1 2 0x50 1 0x0 1 0 .none 1 0 14 .rw false false (fun _ _ => 0x5f2)

/-- Table HST-7 (spec/17). IOVA, 32-byte aligned; writable while EN is 0 -/
def ETH_TX_BASE : Fld := .mk' 748 0xb1 2 0x60 1 0x0 1 0 .none 1 0 48 .rw false false (fun _ _ => 0x0)

/-- Table HST-7 (spec/17). IOVA, 32-byte aligned; writable while EN is 0 -/
def ETH_RX_BASE : Fld := .mk' 749 0xb1 2 0x68 1 0x0 1 0 .none 1 0 48 .rw false false (fun _ _ => 0x0)

/-- Table HST-7 (spec/17). 4–12 -/
def ETH_RING_LOG2_TX : Fld := .mk' 750 0xb1 2 0x70 1 0x0 1 0 .none 1 0 4 .rw false false (fun _ _ => 0x4)

/-- Table HST-7 (spec/17). 4–12 -/
def ETH_RING_LOG2_RX : Fld := .mk' 751 0xb1 2 0x70 1 0x0 1 0 .none 1 8 4 .rw false false (fun _ _ => 0x4)

/-- Table HST-7 (spec/17). Accepted as R199 gives for ring size -/
def ETH_TX_TAIL : Fld := .mk' 752 0xb1 2 0x74 1 0x0 1 0 .none 1 0 16 .wo false false (fun _ _ => 0x0)

/-- Table HST-7 (spec/17). Accepted as R199 gives for ring size -/
def ETH_RX_TAIL : Fld := .mk' 753 0xb1 2 0x7c 1 0x0 1 0 .none 1 0 16 .wo false false (fun _ _ => 0x0)

/-- Table HST-7 (spec/17). R569 -/
def ETH_TX_HEAD : Fld := .mk' 754 0xb1 2 0x78 1 0x0 1 0 .none 1 0 16 .ro false false (fun _ _ => 0x0)

/-- Table HST-7 (spec/17). R569 -/
def ETH_RX_HEAD : Fld := .mk' 755 0xb1 2 0x80 1 0x0 1 0 .none 1 0 16 .ro false false (fun _ _ => 0x0)

/-- Table HST-7 (spec/17). R568 -/
def ETH_TX_FRAMES : Fld := .mk' 756 0xb1 2 0x90 1 0x0 1 0 .none 1 0 32 .ro false false (fun _ _ => 0x0)

/-- Table HST-7 (spec/17). R568 -/
def ETH_RX_FRAMES : Fld := .mk' 757 0xb1 2 0x94 1 0x0 1 0 .none 1 0 32 .ro false false (fun _ _ => 0x0)

/-- Table HST-7 (spec/17). R568 -/
def ETH_RX_CRC_CNT : Fld := .mk' 758 0xb1 2 0x98 1 0x0 1 0 .none 1 0 32 .ro false true (fun _ _ => 0x0)

/-- Table HST-7 (spec/17). R568 -/
def ETH_RX_LEN_CNT : Fld := .mk' 759 0xb1 2 0x9c 1 0x0 1 0 .none 1 0 32 .ro false true (fun _ _ => 0x0)

/-- Table HST-7 (spec/17). R568 -/
def ETH_RX_NODESC_CNT : Fld := .mk' 760 0xb1 2 0xa0 1 0x0 1 0 .none 1 0 32 .ro false true (fun _ _ => 0x0)

/-- Table HST-7 (spec/17). R568 -/
def ETH_PAUSE_RX_CNT : Fld := .mk' 761 0xb1 2 0xa4 1 0x0 1 0 .none 1 0 32 .ro false true (fun _ _ => 0x0)

/-- Table HST-7 (spec/17). R557 -/
def ETH_IOMMU_FAULT_CNT : Fld := .mk' 762 0xb1 2 0xa8 1 0x0 1 0 .none 1 0 32 .ro false true (fun _ _ => 0x0)

/-- Table HST-7 (spec/17). HI [31] VALID, W1C -/
def ETH_IOMMU_FAULT : Fld := .mk' 763 0xb1 2 0xac 1 0x0 1 0 .none 1 0 48 .ro false false (fun _ _ => 0x0)

/-- Table HST-7 (spec/17). Signed ns; writing HI delivers (R572) -/
def ETH_PTP_MEAS : Fld := .mk' 764 0xb1 2 0xc0 1 0x0 1 0 .none 1 0 64 .rw false false (fun _ _ => 0x0)

/-- Table HST-7 (spec/17). Sync ingress time, TAI ns -/
def ETH_PTP_MEAS_TS : Fld := .mk' 765 0xb1 2 0xc8 1 0x0 1 0 .none 1 0 64 .rw false false (fun _ _ => 0x0)

/-- Table HST-7 (spec/17). clockClass -/
def ETH_PTP_QUAL : Fld := .mk' 766 0xb1 2 0xd0 1 0x0 1 0 .none 1 0 8 .rw false false (fun _ _ => 0xff)

/-- Table HST-7 (spec/17). Seconds, 1–255; 0 reads as 1 -/
def ETH_PTP_QUAL_TIMEOUT : Fld := .mk' 767 0xb1 2 0xd0 1 0x0 1 0 .none 1 8 8 .rw false false (fun _ _ => 0x4)

/-- Table HST-7 (spec/17). ETH0 only; 9,600 at reset -/
def ETH_UART_CFG_BAUD : Fld := .mk' 768 0xb1 2 0x600 1 0x0 1 0 .none 1 0 20 .rw false false (fun _ _ => 0x2580)

/-- Table HST-7 (spec/17). [7:0] byte, [8] valid -/
def ETH_UART_RX : Fld := .mk' 769 0xb1 2 0x604 1 0x0 1 0 .none 1 0 9 .rc false false (fun _ _ => 0x0)

/-- Table HST-7 (spec/17). Queues a byte; ignored when full -/
def ETH_UART_TX : Fld := .mk' 770 0xb1 2 0x608 1 0x0 1 0 .none 1 0 8 .wo false false (fun _ _ => 0x0)

/-- Table HST-7 (spec/17). — -/
def ETH_UART_STAT_RX_COUNT : Fld := .mk' 771 0xb1 2 0x60c 1 0x0 1 0 .none 1 0 13 .ro false false (fun _ _ => 0x0)

/-- Table HST-7 (spec/17). — -/
def ETH_UART_STAT_TX_COUNT : Fld := .mk' 772 0xb1 2 0x60c 1 0x0 1 0 .none 1 16 13 .ro false false (fun _ _ => 0x0)

/-- Table HST-7 (spec/17). R573 -/
def ETH_UART_OVF_CNT : Fld := .mk' 773 0xb1 2 0x610 1 0x0 1 0 .none 1 0 32 .ro false true (fun _ _ => 0x0)

/-- Table HST-7 (spec/17). POL 0 = rising edge active -/
def ETH_PPS_CFG_EN : Fld := .mk' 774 0xb1 2 0x620 1 0x0 1 0 .none 1 0 1 .rw false false (fun _ _ => 0x0)

/-- Table HST-7 (spec/17). POL 0 = rising edge active -/
def ETH_PPS_CFG_POL : Fld := .mk' 775 0xb1 2 0x620 1 0x0 1 0 .none 1 1 1 .rw false false (fun _ _ => 0x0)

/-- Table HST-7 (spec/17). Last qualified edge; reading LO latches HI -/
def ETH_PPS_SI : Fld := .mk' 776 0xb1 2 0x624 1 0x0 1 0 .none 1 0 64 .ro true false (fun _ _ => 0x0)

/-- Table HST-7 (spec/17). Last qualified edge; reading LO latches HI -/
def ETH_PPS_GT : Fld := .mk' 777 0xb1 2 0x62c 1 0x0 1 0 .none 1 0 64 .ro true false (fun _ _ => 0x0)

/-- Table HST-7 (spec/17). R574 -/
def ETH_PPS_CNT : Fld := .mk' 778 0xb1 2 0x634 1 0x0 1 0 .none 1 0 32 .ro false true (fun _ _ => 0x0)

/-- Table HST-7 (spec/17). R574 -/
def ETH_PPS_GLITCH_CNT : Fld := .mk' 779 0xb1 2 0x638 1 0x0 1 0 .none 1 0 32 .ro false true (fun _ _ => 0x0)

/-- Table HST-8 (spec/17). 4 KiB aligned -/
def IOM_WIN_IOVA : Fld := .mk' 780 0xb0 3 0x200 8 0x20 1 0 .none 1 0 48 .rw false false (fun _ _ => 0x0)

/-- Table HST-8 (spec/17). 4 KiB aligned -/
def IOM_WIN_PA : Fld := .mk' 781 0xb0 3 0x208 8 0x20 1 0 .none 1 0 48 .rw false false (fun p i => if p = 0 ∧ i = 0 then 0x10000000 else 0)

/-- Table HST-8 (spec/17). Pages of 4 KiB -/
def IOM_WIN_LEN : Fld := .mk' 782 0xb0 3 0x210 8 0x20 1 0 .none 1 0 24 .rw false false (fun p i => if p = 0 ∧ i = 0 then 4096 else 0)

/-- Table HST-8 (spec/17). Permissions -/
def IOM_WIN_CFG_R : Fld := .mk' 783 0xb0 3 0x214 8 0x20 1 0 .none 1 0 1 .rw false false (fun p i => if p = 0 ∧ i = 0 then 1 else 0)

/-- Table HST-8 (spec/17). Permissions -/
def IOM_WIN_CFG_W : Fld := .mk' 784 0xb0 3 0x214 8 0x20 1 0 .none 1 1 1 .rw false false (fun p i => if p = 0 ∧ i = 0 then 1 else 0)

/-- Table HST-8 (spec/17). R558 -/
def IOM_WIN_CFG_EN : Fld := .mk' 785 0xb0 3 0x214 8 0x20 1 0 .none 1 31 1 .rw false false (fun p i => if p = 0 ∧ i = 0 then 1 else 0)

/-- Table HST-9 (spec/17). Host UART enable -/
def HIO_HU_CFG_EN : Fld := .mk' 786 0xb4 1 0x40 1 0x0 1 0 .none 1 0 1 .rw false false (fun _ _ => 0x0)

/-- Table HST-9 (spec/17). Baud, 9,600–3,000,000; 115,200 at reset -/
def HIO_HU_BAUD : Fld := .mk' 787 0xb4 1 0x44 1 0x0 1 0 .none 1 0 22 .rw false false (fun _ _ => 0x1c200)

/-- Table HST-9 (spec/17). [7:0] byte, [8] valid -/
def HIO_HU_RX : Fld := .mk' 788 0xb4 1 0x48 1 0x0 1 0 .none 1 0 9 .rc false false (fun _ _ => 0x0)

/-- Table HST-9 (spec/17). Queues a byte; ignored when full -/
def HIO_HU_TX : Fld := .mk' 789 0xb4 1 0x4c 1 0x0 1 0 .none 1 0 8 .wo false false (fun _ _ => 0x0)

/-- Table HST-9 (spec/17). FIFO levels -/
def HIO_HU_STAT_RX_COUNT : Fld := .mk' 790 0xb4 1 0x50 1 0x0 1 0 .none 1 0 13 .ro false false (fun _ _ => 0x0)

/-- Table HST-9 (spec/17). FIFO levels -/
def HIO_HU_STAT_TX_COUNT : Fld := .mk' 791 0xb4 1 0x50 1 0x0 1 0 .none 1 16 13 .ro false false (fun _ _ => 0x0)

/-- Table HST-9 (spec/17). R575 -/
def HIO_HU_LEVEL_RX_LEVEL : Fld := .mk' 792 0xb4 1 0x54 1 0x0 1 0 .none 1 0 13 .rw false false (fun _ _ => 0x1)

/-- Table HST-9 (spec/17). R575 -/
def HIO_HU_LEVEL_TX_LEVEL : Fld := .mk' 793 0xb4 1 0x54 1 0x0 1 0 .none 1 16 13 .rw false false (fun _ _ => 0x0)

/-- Table HST-9 (spec/17). R575 -/
def HIO_HU_OVF_CNT : Fld := .mk' 794 0xb4 1 0x58 1 0x0 1 0 .none 1 0 32 .ro false true (fun _ _ => 0x0)

/-- Table HST-9 (spec/17). R575 -/
def HIO_HU_FRAME_CNT : Fld := .mk' 795 0xb4 1 0x5c 1 0x0 1 0 .none 1 0 32 .ro false true (fun _ _ => 0x0)

/-- Table HST-9 (spec/17). Output levels -/
def HIO_GPIO_OUT : Fld := .mk' 796 0xb4 1 0x80 1 0x0 1 0 .none 1 0 11 .rw false false (fun _ _ => 0x0)

/-- Table HST-9 (spec/17). 1 drives; every line is an input at reset -/
def HIO_GPIO_OE : Fld := .mk' 797 0xb4 1 0x84 1 0x0 1 0 .none 1 0 11 .rw false false (fun _ _ => 0x0)

/-- Table HST-9 (spec/17). Line n at [2n+1:2n]: 0 none, 1 down, 2 up, 3 treated as 0 -/
def HIO_GPIO_PULL : Fld := .mk' 798 0xb4 1 0x88 1 0x0 1 0 .none 1 0 22 .rw false false (fun _ _ => 0x0)

/-- Table HST-9 (spec/17). Pin levels (R576) -/
def HIO_GPIO_IN : Fld := .mk' 799 0xb4 1 0x8c 1 0x0 1 0 .none 1 0 11 .ro false false (fun _ _ => 0)

/-- Table HST-9 (spec/17). Edge event enables -/
def HIO_GPIO_RISE_EN : Fld := .mk' 800 0xb4 1 0x90 1 0x0 1 0 .none 1 0 11 .rw false false (fun _ _ => 0x0)

/-- Table HST-9 (spec/17). Edge event enables -/
def HIO_GPIO_FALL_EN : Fld := .mk' 801 0xb4 1 0x94 1 0x0 1 0 .none 1 0 11 .rw false false (fun _ _ => 0x0)

/-- Table HST-9 (spec/17). GT of the latest edge event; reading LO latches HI -/
def HIO_GPIO_EDGE_GT : Fld := .mk' 802 0xb4 1 0x98 1 0x0 1 0 .none 1 0 64 .ro true false (fun _ _ => 0x0)

/-- Table FW-12 (spec/18). 0 ROM, 1 WAIT_HOST, 2 LOADING, 3 INIT, 4 READY, 5 HANDOVER, 15 FAULT -/
def FW_STATE_STATE : Fld := .mk' 803 0xd0 1 0x40 1 0x0 1 0 .none 1 0 4 .ro false false (fun _ _ => 0x0)

/-- Table FW-12 (spec/18). 0 none, 1 slot A, 2 slot B, 3 host -/
def FW_STATE_SRC : Fld := .mk' 804 0xd0 1 0x40 1 0x0 1 0 .none 1 4 4 .ro false false (fun _ _ => 0x0)

/-- Table FW-12 (spec/18). Running a trial boot -/
def FW_STATE_TRIAL : Fld := .mk' 805 0xd0 1 0x40 1 0x0 1 0 .none 1 8 1 .ro false false (fun _ _ => 0x0)

/-- Table FW-12 (spec/18). TRIES of the newest record -/
def FW_STATE_TRIES : Fld := .mk' 806 0xd0 1 0x40 1 0x0 1 0 .none 1 9 2 .ro false false (fun _ _ => 0x0)

/-- Table FW-12 (spec/18). R590 -/
def FW_STATE_FALLBACK : Fld := .mk' 807 0xd0 1 0x40 1 0x0 1 0 .none 1 11 1 .ro false false (fun _ _ => 0x0)

/-- Table FW-12 (spec/18). R607, R610 -/
def FW_STATE_LIVE : Fld := .mk' 808 0xd0 1 0x40 1 0x0 1 0 .none 1 12 1 .ro false false (fun _ _ => 0x0)

/-- Table FW-12 (spec/18). R592 -/
def FW_STATE_PILOT_STALE : Fld := .mk' 809 0xd0 1 0x40 1 0x0 1 0 .none 1 13 1 .ro false false (fun _ _ => 0x0)

/-- Table FW-12 (spec/18). 0x00 OK, 0x01 FALLBACK, 0x02 REVERTED, 0x03 host load, 0x30 no image; last host refusal, T … -/
def FW_BOOT_STAT_RESULT : Fld := .mk' 810 0xd0 1 0x44 1 0x0 1 0 .none 1 0 8 .ro false false (fun _ _ => 0x0)

/-- Table FW-12 (spec/18). Check result per slot, 0x00 pass -/
def FW_BOOT_STAT_SLOT_A : Fld := .mk' 811 0xd0 1 0x44 1 0x0 1 0 .none 1 8 8 .ro false false (fun _ _ => 0x0)

/-- Table FW-12 (spec/18). Check result per slot, 0x00 pass -/
def FW_BOOT_STAT_SLOT_B : Fld := .mk' 812 0xd0 1 0x44 1 0x0 1 0 .none 1 16 8 .ro false false (fun _ _ => 0x0)

/-- Table FW-12 (spec/18). Major in LO [15:0], minor LO [31:16], patch HI [15:0], build HI [31:16] -/
def FW_RUN_VER : Fld := .mk' 813 0xd0 1 0x48 1 0x0 1 0 .none 1 0 64 .ro false false (fun _ _ => 0x0)

/-- Table FW-12 (spec/18). R585 -/
def FW_RUN_SVN : Fld := .mk' 814 0xd0 1 0x50 1 0x0 1 0 .none 1 0 7 .ro false false (fun _ _ => 0x0)

/-- Table FW-12 (spec/18). Digest byte 4w + j in [8j+7:8j] -/
def FW_RUN_DIGEST : Fld := .mk' 815 0xd0 1 0x60 12 0x4 1 0 .none 1 0 32 .ro false false (fun _ _ => 0x0)

/-- Table FW-12 (spec/18). ACTIVE of the newest record -/
def FW_NEXT_INFO_SLOT : Fld := .mk' 816 0xd0 1 0x90 1 0x0 1 0 .none 1 0 2 .ro false false (fun _ _ => 0x0)

/-- Table FW-12 (spec/18). Its image version -/
def FW_NEXT_VER : Fld := .mk' 817 0xd0 1 0x94 1 0x0 1 0 .none 1 0 64 .ro false false (fun _ _ => 0x0)

/-- Table FW-12 (spec/18). 0 EMPTY, 1 WRITING, 2 VERIFIED, 3 INVALID -/
def FW_SLOT_STAT_A : Fld := .mk' 818 0xd0 1 0xa0 1 0x0 1 0 .none 1 0 4 .ro false false (fun _ _ => 0x0)

/-- Table FW-12 (spec/18). 0 EMPTY, 1 WRITING, 2 VERIFIED, 3 INVALID -/
def FW_SLOT_STAT_B : Fld := .mk' 819 0xd0 1 0xa0 1 0x0 1 0 .none 1 4 4 .ro false false (fun _ _ => 0x0)

/-- Table FW-12 (spec/18). SEQ of the newest record -/
def FW_BREC_SEQ : Fld := .mk' 820 0xd0 1 0xa4 1 0x0 1 0 .none 1 0 32 .ro false false (fun _ _ => 0x0)

/-- Table FW-12 (spec/18). R586 -/
def FW_HOST_LOAD_OFS : Fld := .mk' 821 0xd0 1 0xb0 1 0x0 1 0 .none 1 0 24 .rw false false (fun _ _ => 0x0)

/-- Table FW-12 (spec/18). R586 -/
def FW_HOST_LOAD_LEN : Fld := .mk' 822 0xd0 1 0xb4 1 0x0 1 0 .none 1 0 25 .rw false false (fun _ _ => 0x0)

/-- Table FW-12 (spec/18). R586 -/
def FW_BOOT_DOORBELL : Fld := .mk' 823 0xd0 1 0xb8 1 0x0 1 0 .none 1 0 1 .wo false false (fun _ _ => 0x0)

/-- Table FW-12 (spec/18). Table FW-7 -/
def FW_MB_ARG : Fld := .mk' 824 0xd0 1 0xc0 6 0x4 1 0 .none 1 0 32 .rw false false (fun _ _ => 0x0)

/-- Table FW-12 (spec/18). R597 -/
def FW_MB_CMD : Fld := .mk' 825 0xd0 1 0xd8 1 0x0 1 0 .none 1 0 8 .wo false false (fun _ _ => 0x0)

/-- Table FW-12 (spec/18). — -/
def FW_MB_STAT_BUSY : Fld := .mk' 826 0xd0 1 0xdc 1 0x0 1 0 .none 1 0 1 .ro false false (fun _ _ => 0x0)

/-- Table FW-12 (spec/18). Table FW-8 -/
def FW_MB_STAT_RESULT : Fld := .mk' 827 0xd0 1 0xdc 1 0x0 1 0 .none 1 8 8 .ro false false (fun _ _ => 0x0)

/-- Table FW-12 (spec/18). Command output -/
def FW_MB_OUT : Fld := .mk' 828 0xd0 1 0xe0 4 0x4 1 0 .none 1 0 32 .ro false false (fun _ _ => 0x0)

/-- Table FW-12 (spec/18). R597 -/
def FW_MB_SRC : Fld := .mk' 829 0xd0 1 0xf0 1 0x0 1 0 .none 1 0 2 .rw false false (fun _ _ => 0x0)

/-- Table FW-12 (spec/18). R597 -/
def FW_MB_DENY_CNT : Fld := .mk' 830 0xd0 1 0xf4 1 0x0 1 0 .none 1 0 32 .ro false true (fun _ _ => 0x0)

/-- Table FW-12 (spec/18). Last handover, HANDOVER = 1 to 0 -/
def FW_LIVE_PAUSE_US : Fld := .mk' 831 0xd0 1 0xf8 1 0x0 1 0 .none 1 0 12 .ro false false (fun _ _ => 0x0)

/-- Table FW-12 (spec/18). Handovers completed -/
def FW_LIVE_CNT : Fld := .mk' 832 0xd0 1 0xfc 1 0x0 1 0 .none 1 0 32 .ro false true (fun _ _ => 0x0)

/-- Table FW-13 (spec/18). Table FW-5 -/
def SEC_FUSE_CFG_BOOT_POLICY : Fld := .mk' 833 0xe0 1 0x40 1 0x0 1 0 .none 1 0 2 .ro false false (fun _ _ => 0)

/-- Table FW-13 (spec/18). Table FW-11 -/
def SEC_FUSE_CFG_JTAG_LOCK : Fld := .mk' 834 0xe0 1 0x40 1 0x0 1 0 .none 1 2 2 .ro false false (fun _ _ => 1)

/-- Table FW-13 (spec/18). 1 L, 2 C -/
def SEC_FUSE_CFG_GRADE : Fld := .mk' 835 0xe0 1 0x40 1 0x0 1 0 .none 1 4 2 .ro false false (fun _ _ => 2)

/-- Table FW-13 (spec/18). R595 -/
def SEC_SVN_FUSED : Fld := .mk' 836 0xe0 1 0x44 1 0x0 1 0 .none 1 0 7 .ro false false (fun _ _ => 0)

/-- Table FW-13 (spec/18). At main power-good -/
def SEC_STRAP_BOOTSEL : Fld := .mk' 837 0xe0 1 0x48 1 0x0 1 0 .none 1 0 1 .ro false false (fun _ _ => 0)

/-- Table FW-13 (spec/18). SHA-384 of the signing public key -/
def SEC_KEY_HASH : Fld := .mk' 838 0xe0 1 0x60 12 0x4 1 0 .none 1 0 32 .ro false false (fun _ _ => 0)

/-- Table FW-13 (spec/18). Cleared only by a main-domain reset -/
def SEC_LOCK_MB_SRC_LOCK : Fld := .mk' 839 0xe0 1 0x90 1 0x0 1 0 .none 1 0 1 .w1s false false (fun _ _ => 0x0)

/-- Table FW-13 (spec/18). R612; check 6 failures since reset -/
def SEC_TAP_DENY_CNT : Fld := .mk' 840 0xe0 1 0x94 1 0x0 1 0 .none 1 0 32 .ro false true (fun _ _ => 0x0)

/-- Table FW-13 (spec/18). R612; check 6 failures since reset -/
def SEC_SIG_FAIL_CNT : Fld := .mk' 841 0xe0 1 0x98 1 0x0 1 0 .none 1 0 32 .ro false true (fun _ _ => 0x0)

/-- Table RPR-5 (spec/19). SPARE tiles remaining -/
def RP_STAT_SPARE_TILES : Fld := .mk' 842 0x1 1 0x40 1 0x0 1 0 .none 1 0 2 .ro false false (fun _ _ => 0x2)

/-- Table RPR-5 (spec/19). R635 -/
def RP_STAT_DEGRADED : Fld := .mk' 843 0x1 1 0x40 1 0x0 1 0 .none 1 2 1 .ro false false (fun _ _ => 0x0)

/-- Table RPR-5 (spec/19). Kettles in service -/
def RP_STAT_IN_SERVICE : Fld := .mk' 844 0x1 1 0x40 1 0x0 1 0 .none 1 4 5 .ro false false (fun _ _ => 0x10)

/-- Table RPR-5 (spec/19). Remap running -/
def RP_RM_STAT_BUSY : Fld := .mk' 845 0x1 1 0x44 1 0x0 1 0 .none 1 0 1 .ro false false (fun _ _ => 0x0)

/-- Table RPR-5 (spec/19). k -/
def RP_RM_STAT_LOGICAL : Fld := .mk' 846 0x1 1 0x44 1 0x0 1 0 .none 1 1 5 .ro false false (fun _ _ => 0x0)

/-- Table RPR-5 (spec/19). p, q -/
def RP_RM_STAT_SRC : Fld := .mk' 847 0x1 1 0x44 1 0x0 1 0 .none 1 6 5 .ro false false (fun _ _ => 0x0)

/-- Table RPR-5 (spec/19). p, q -/
def RP_RM_STAT_DST : Fld := .mk' 848 0x1 1 0x44 1 0x0 1 0 .none 1 11 5 .ro false false (fun _ _ => 0x0)

/-- Table RPR-5 (spec/19). 2 KiB blocks copied -/
def RP_MIG_BLOCKS : Fld := .mk' 849 0x1 1 0x48 1 0x0 1 0 .none 1 0 32 .ro false false (fun _ _ => 0x0)

/-- Table RPR-5 (spec/19). Requests a KETTLE repair of this Kettle; ignored while BUSY -/
def RP_RM_CMD_LOGICAL : Fld := .mk' 850 0x1 1 0x4c 1 0x0 1 0 .none 1 0 5 .wo false false (fun _ _ => 0x0)

/-- Table RPR-5 (spec/19). STATE 0 IN_SERVICE, 1 DRAINING, 2 MIGRATING, 3 OUT; PHYS 0x1F none -/
def RP_KMAP_PHYS : Fld := .mk' 851 0x1 1 0x80 16 0x4 1 0 .none 1 0 5 .ro false false (fun _ i => i)

/-- Table RPR-5 (spec/19). STATE 0 IN_SERVICE, 1 DRAINING, 2 MIGRATING, 3 OUT; PHYS 0x1F none -/
def RP_KMAP_STATE : Fld := .mk' 852 0x1 1 0x80 16 0x4 1 0 .none 1 5 2 .ro false false (fun _ _ => 0)

/-- Table RPR-5 (spec/19). 0 SPARE, 1 IN_USE, 2 RETIRED, 3 FACTORY_BAD -/
def RP_TILE_STAT_STATE : Fld := .mk' 853 0x1 1 0xc0 18 0x4 1 0 .none 1 0 2 .ro false false (fun _ i => if i < 16 then 1 else 0)

/-- Table RPR-5 (spec/19). Units of 0.1 % -/
def RP_TILE_STAT_AGE_MARGIN : Fld := .mk' 854 0x1 1 0xc0 18 0x4 1 0 .none 1 8 8 .ro false false (fun _ _ => 0xff)

/-- Table RPR-5 (spec/19). Spare j at [8j+7:8j]: [7] valid, [6:0] logical column -/
def RP_COLMAP : Fld := .mk' 855 0x1 1 0x110 18 0x4 1 0 .none 1 0 32 .ro false false (fun _ _ => 0x0)

/-- Table RPR-5 (spec/19). Spare j at [7j+6:7j]: [5] valid, [4:0] bank -/
def RP_BANKMAP : Fld := .mk' 856 0x1 1 0x158 18 0x4 1 0 .none 1 0 14 .ro false false (fun _ _ => 0x0)

/-- Table RPR-5 (spec/19). 3,000 cycles: 60 s at 50 Hz, 50 s at 60 Hz -/
def RP_CANARY_CFG_PERIOD_CYC : Fld := .mk' 857 0x1 1 0x1a0 1 0x0 1 0 .none 1 0 16 .rw false false (fun _ _ => 0xbb8)

/-- Table RPR-5 (spec/19). From the firmware image -/
def RP_CANARY_CFG_TEST_SEED : Fld := .mk' 858 0x1 1 0x1a0 1 0x0 1 0 .none 1 16 16 .ro false false (fun _ _ => 0)

/-- Table RPR-5 (spec/19). Tile addressed by 0x1A8–0x1AC -/
def RP_CANARY_SEL : Fld := .mk' 859 0x1 1 0x1a4 1 0x0 1 0 .none 1 0 5 .rw false false (fun _ _ => 0x0)

/-- Table RPR-5 (spec/19). R622; reading LO latches HI -/
def RP_CANARY_PASS_GT : Fld := .mk' 860 0x1 1 0x1a8 1 0x0 1 0 .can 32 0 64 .ro true false (fun _ _ => 0x0)

/-- Table RPR-5 (spec/19). 0.1 % units; FAIL below WARN -/
def RP_AGE_CFG_WARN : Fld := .mk' 861 0x1 1 0x1b0 1 0x0 1 0 .none 1 0 8 .rw false false (fun _ _ => 0x50)

/-- Table RPR-5 (spec/19). 0.1 % units; FAIL below WARN -/
def RP_AGE_CFG_FAIL : Fld := .mk' 862 0x1 1 0x1b0 1 0x0 1 0 .none 1 8 8 .rw false false (fun _ _ => 0x1e)

/-- Table RPR-5 (spec/19). R624 -/
def RP_THR_BANK_CE_THR : Fld := .mk' 863 0x1 1 0x1b4 1 0x0 1 0 .none 1 0 16 .rw false false (fun _ _ => 0x40)

/-- Table RPR-5 (spec/19). R624 -/
def RP_THR_VAULT_UE_THR : Fld := .mk' 864 0x1 1 0x1b4 1 0x0 1 0 .none 1 16 8 .rw false false (fun _ _ => 0x4)

/-- Table RPR-5 (spec/19). As referenced -/
def RP_CANARY_FAIL_CNT : Fld := .mk' 865 0x1 1 0x1c0 1 0x0 1 0 .none 1 0 32 .ro false true (fun _ _ => 0x0)

/-- Table RPR-5 (spec/19). As referenced -/
def RP_CANARY_SKIP_CNT : Fld := .mk' 866 0x1 1 0x1c4 1 0x0 1 0 .none 1 0 32 .ro false true (fun _ _ => 0x0)

/-- Table RPR-5 (spec/19). As referenced -/
def RP_REMAP_CNT : Fld := .mk' 867 0x1 1 0x1c8 1 0x0 1 0 .none 1 0 32 .ro false true (fun _ _ => 0x0)

/-- Table RPR-5 (spec/19). As referenced -/
def RP_COL_REMAP_CNT : Fld := .mk' 868 0x1 1 0x1cc 1 0x0 1 0 .none 1 0 32 .ro false true (fun _ _ => 0x0)

/-- Table RPR-5 (spec/19). As referenced -/
def RP_BANK_REMAP_CNT : Fld := .mk' 869 0x1 1 0x1d0 1 0x0 1 0 .none 1 0 32 .ro false true (fun _ _ => 0x0)

/-- Table RPR-5 (spec/19). As referenced -/
def RP_REPAIR_RERUN_CNT : Fld := .mk' 870 0x1 1 0x1d4 1 0x0 1 0 .none 1 0 32 .ro false true (fun _ _ => 0x0)

/-- Table RPR-5 (spec/19). Newest entry -/
def RP_LEDGER_SEQ : Fld := .mk' 871 0x1 1 0x1d8 1 0x0 1 0 .none 1 0 32 .ro false false (fun _ _ => 0x0)

/-- Table RPR-5 (spec/19). Free entries in the active half -/
def RP_LEDGER_FREE : Fld := .mk' 872 0x1 1 0x1dc 1 0x0 1 0 .none 1 0 16 .ro false false (fun _ _ => 0x4000)

/-- Table SKW-7 (spec/20). Ports train while 1 -/
def SK_CTRL_EN : Fld := .mk' 873 0xc0 1 0x40 1 0x0 1 0 .none 1 0 1 .rw false false (fun _ _ => 0x0)

/-- Table SKW-7 (spec/20). 0 STANDALONE, 1 HEAD, 2 FOLLOWER -/
def SK_STAT_ROLE : Fld := .mk' 874 0xc0 1 0x44 1 0x0 1 0 .none 1 0 2 .ro false false (fun _ _ => 0x0)

/-- Table SKW-7 (spec/20). R641 -/
def SK_STAT_CAB_ID : Fld := .mk' 875 0xc0 1 0x44 1 0x0 1 0 .none 1 4 3 .ro false false (fun _ _ => 0)

/-- Table SKW-7 (spec/20). R645 -/
def SK_STAT_MEMBERS : Fld := .mk' 876 0xc0 1 0x44 1 0x0 1 0 .none 1 8 8 .ro false false (fun _ _ => 0x0)

/-- Table SKW-7 (spec/20). 0 none, 1 RING, 2 CHAIN -/
def SK_STAT_TOPO : Fld := .mk' 877 0xc0 1 0x44 1 0x0 1 0 .none 1 16 2 .ro false false (fun _ _ => 0x0)

/-- Table SKW-7 (spec/20). R674 -/
def SK_CFG_LOSS_US : Fld := .mk' 878 0xc0 1 0x48 1 0x0 1 0 .none 1 0 16 .rw false false (fun _ _ => 0x1f4)

/-- Table SKW-7 (spec/20). N − 1 (R642) -/
def SK_CFG_N_EXPECT : Fld := .mk' 879 0xc0 1 0x48 1 0x0 1 0 .none 1 16 3 .rw false false (fun _ _ => 0x0)

/-- Table SKW-7 (spec/20). Head only: JOIN member (R644) -/
def SK_CMD_JOIN_ID : Fld := .mk' 880 0xc0 1 0x4c 1 0x0 1 0 .none 1 0 3 .wo false false (fun _ _ => 0x0)

/-- Table SKW-7 (spec/20). 1 issues the JOIN -/
def SK_CMD_GO : Fld := .mk' 881 0xc0 1 0x4c 1 0x0 1 0 .none 1 3 1 .wo false false (fun _ _ => 0x0)

/-- Table SKW-7 (spec/20). 0 DOWN, 1 TRAINING, 2 UP, 3 RETRAIN -/
def SK_PT_STAT_STATE : Fld := .mk' 882 0xc0 1 0x80 2 0x40 1 0 .none 1 0 2 .ro false false (fun _ _ => 0x0)

/-- Table SKW-7 (spec/20). 2 or 4 (R659) -/
def SK_PT_STAT_WIDTH : Fld := .mk' 883 0xc0 1 0x80 2 0x40 1 0 .none 1 2 3 .ro false false (fun _ _ => 0x0)

/-- Table SKW-7 (spec/20). Neighbour's CAB_ID -/
def SK_PT_STAT_NEIGH_ID : Fld := .mk' 884 0xc0 1 0x80 2 0x40 1 0 .none 1 8 3 .ro false false (fun _ _ => 0x0)

/-- Table SKW-7 (spec/20). — -/
def SK_PT_STAT_NEIGH_VALID : Fld := .mk' 885 0xc0 1 0x80 2 0x40 1 0 .none 1 11 1 .ro false false (fun _ _ => 0x0)

/-- Table SKW-7 (spec/20). R643 -/
def SK_PT_STAT_WIRING : Fld := .mk' 886 0xc0 1 0x80 2 0x40 1 0 .none 1 12 1 .w1c false false (fun _ _ => 0x0)

/-- Table SKW-7 (spec/20). R672 -/
def SK_PT_LAT_NS : Fld := .mk' 887 0xc0 1 0x84 2 0x40 1 0 .none 1 0 16 .ro false false (fun _ _ => 0x0)

/-- Table SKW-7 (spec/20). R661–R663 -/
def SK_CRC_ERR_CNT : Fld := .mk' 888 0xc0 1 0x88 2 0x40 1 0 .none 1 0 32 .ro false true (fun _ _ => 0x0)

/-- Table SKW-7 (spec/20). R661–R663 -/
def SK_REPLAY_CNT : Fld := .mk' 889 0xc0 1 0x8c 2 0x40 1 0 .none 1 0 32 .ro false true (fun _ _ => 0x0)

/-- Table SKW-7 (spec/20). R661–R663 -/
def SK_RETRAIN_CNT : Fld := .mk' 890 0xc0 1 0x90 2 0x40 1 0 .none 1 0 32 .ro false true (fun _ _ => 0x0)

/-- Table SKW-7 (spec/20). R661–R663 -/
def SK_TX_FLITS : Fld := .mk' 891 0xc0 1 0x94 2 0x40 1 0 .none 1 0 32 .ro false false (fun _ _ => 0x0)

/-- Table SKW-7 (spec/20). R661–R663 -/
def SK_RX_FLITS : Fld := .mk' 892 0xc0 1 0x98 2 0x40 1 0 .none 1 0 32 .ro false false (fun _ _ => 0x0)

/-- Table SKW-7 (spec/20). R664 -/
def SK_PT_CRED0_VCA_AVAIL : Fld := .mk' 893 0xc0 1 0x9c 2 0x40 1 0 .none 1 0 7 .ro false false (fun _ _ => 0x60)

/-- Table SKW-7 (spec/20). R664 -/
def SK_PT_CRED0_VCA_OWED : Fld := .mk' 894 0xc0 1 0x9c 2 0x40 1 0 .none 1 8 7 .ro false false (fun _ _ => 0x0)

/-- Table SKW-7 (spec/20). R664 -/
def SK_PT_CRED0_VCB_AVAIL : Fld := .mk' 895 0xc0 1 0x9c 2 0x40 1 0 .none 1 16 7 .ro false false (fun _ _ => 0x60)

/-- Table SKW-7 (spec/20). R664 -/
def SK_PT_CRED0_VCB_OWED : Fld := .mk' 896 0xc0 1 0x9c 2 0x40 1 0 .none 1 24 7 .ro false false (fun _ _ => 0x0)

/-- Table SKW-7 (spec/20). R664 -/
def SK_PT_CRED1_VCC_AVAIL : Fld := .mk' 897 0xc0 1 0xa0 2 0x40 1 0 .none 1 0 7 .ro false false (fun _ _ => 0x20)

/-- Table SKW-7 (spec/20). R664 -/
def SK_PT_CRED1_VCC_OWED : Fld := .mk' 898 0xc0 1 0xa0 2 0x40 1 0 .none 1 8 7 .ro false false (fun _ _ => 0x0)

/-- Table SKW-7 (spec/20). R664 -/
def SK_PT_CRED1_VCD_AVAIL : Fld := .mk' 899 0xc0 1 0xa0 2 0x40 1 0 .none 1 16 7 .ro false false (fun _ _ => 0x8)

/-- Table SKW-7 (spec/20). R664 -/
def SK_PT_CRED1_VCD_OWED : Fld := .mk' 900 0xc0 1 0xa0 2 0x40 1 0 .none 1 24 7 .ro false false (fun _ _ => 0x0)

/-- Table SKW-7 (spec/20). Head only (R650) -/
def SK_CAB_DOORBELL_CONTEXT : Fld := .mk' 901 0xc0 1 0x100 1 0x0 1 0 .none 1 0 11 .wo false false (fun _ _ => 0x0)

/-- Table SKW-7 (spec/20). Head only (R650) -/
def SK_CAB_DOORBELL_TAIL : Fld := .mk' 902 0xc0 1 0x100 1 0x0 1 0 .none 1 16 16 .wo false false (fun _ _ => 0x0)

/-- Table SKW-7 (spec/20). Head only -/
def SK_CAB_LEASE_CONTEXT : Fld := .mk' 903 0xc0 1 0x104 1 0x0 1 0 .none 1 0 11 .wo false false (fun _ _ => 0x0)

/-- Table SKW-7 (spec/20). Head only -/
def SK_CAB_LEASE_GEN : Fld := .mk' 904 0xc0 1 0x104 1 0x0 1 0 .none 1 16 7 .wo false false (fun _ _ => 0x0)

/-- Table SKW-7 (spec/20). Head only -/
def SK_CAB_CQHEAD_CONTEXT : Fld := .mk' 905 0xc0 1 0x108 1 0x0 1 0 .none 1 0 11 .wo false false (fun _ _ => 0x0)

/-- Table SKW-7 (spec/20). Head only -/
def SK_CAB_CQHEAD_HEAD : Fld := .mk' 906 0xc0 1 0x108 1 0x0 1 0 .none 1 16 16 .wo false false (fun _ _ => 0x0)

/-- Table SKW-7 (spec/20). R652; head only -/
def SK_DEL_NS : Fld := .mk' 907 0xc0 1 0x140 8 0x4 1 0 .none 1 0 16 .ro false false (fun _ _ => 0x0)

/-- Table SKW-7 (spec/20). As referenced -/
def SK_MEMBER_LOST_CNT : Fld := .mk' 908 0xc0 1 0x180 1 0x0 1 0 .none 1 0 32 .ro false true (fun _ _ => 0x0)

/-- Table SKW-7 (spec/20). As referenced -/
def SK_MEMBER_RERUN_CNT : Fld := .mk' 909 0xc0 1 0x184 1 0x0 1 0 .none 1 0 32 .ro false true (fun _ _ => 0x0)

/-- Table SKW-7 (spec/20). As referenced -/
def SK_FAULT_MEMBER_CNT : Fld := .mk' 910 0xc0 1 0x188 1 0x0 1 0 .none 1 0 32 .ro false true (fun _ _ => 0x0)

/-- Table SKW-7 (spec/20). As referenced -/
def SK_TXN_DUP_CNT : Fld := .mk' 911 0xc0 1 0x18c 1 0x0 1 0 .none 1 0 32 .ro false true (fun _ _ => 0x0)

/-- Table SKW-7 (spec/20). As referenced -/
def SK_DEL_DUP_CNT : Fld := .mk' 912 0xc0 1 0x190 1 0x0 1 0 .none 1 0 32 .ro false true (fun _ _ => 0x0)

/-- Table SKW-7 (spec/20). As referenced -/
def SK_SRC_DROP_CNT : Fld := .mk' 913 0xc0 1 0x194 1 0x0 1 0 .none 1 0 32 .ro false true (fun _ _ => 0x0)

/-- Table SKW-7 (spec/20). As referenced -/
def SK_ORPHAN_KILL_CNT : Fld := .mk' 914 0xc0 1 0x198 1 0x0 1 0 .none 1 0 32 .ro false true (fun _ _ => 0x0)

/-- Table REG-1 (spec/21). This page -/
def REG_BLK_ID_PAGE : Fld := .mk' 915 0x0 16384 0x0 1 0x0 1 0 .none 1 0 12 .ro false false (fun _ _ => 0)

/-- Table REG-1 (spec/21). For example 0x010 on every Kettle page and 0x100 on every context page -/
def REG_BLK_ID_KIND : Fld := .mk' 916 0x0 16384 0x0 1 0x0 1 0 .none 1 16 12 .ro false false (fun _ _ => 0)

/-- Table REG-1 (spec/21). Block revision -/
def REG_BLK_VER_REV : Fld := .mk' 917 0x0 16384 0x4 1 0x0 1 0 .none 1 0 8 .ro false false (fun _ _ => 0x0)

/-- Table REG-1 (spec/21). Block major version -/
def REG_BLK_VER_MAJOR : Fld := .mk' 918 0x0 16384 0x4 1 0x0 1 0 .none 1 8 8 .ro false false (fun _ _ => 0x1)

/-- Table REG-1 (spec/21). Silicon stepping -/
def REG_BLK_VER_STEP : Fld := .mk' 919 0x0 16384 0x4 1 0x0 1 0 .none 1 16 8 .ro false false (fun _ _ => 0xb1)

/-- Table REG-1 (spec/21). Capabilities -/
def REG_BLK_CAP0 : Fld := .mk' 920 0x0 16384 0x8 1 0x0 1 0 .none 1 0 32 .ro false false (fun _ _ => 0)

/-- Table REG-1 (spec/21). Capabilities -/
def REG_BLK_CAP1 : Fld := .mk' 921 0x0 16384 0xc 1 0x0 1 0 .none 1 0 32 .ro false false (fun _ _ => 0)

/-- Table REG-1 (spec/21). R697 -/
def REG_BLK_CTRL_CNT_CLEAR : Fld := .mk' 922 0x0 16384 0x10 1 0x0 1 0 .none 1 0 1 .wo false false (fun _ _ => 0x0)

/-- Table REG-1 (spec/21). Block reset in progress (R701) -/
def REG_BLK_STAT_RESET_ACTIVE : Fld := .mk' 923 0x0 16384 0x14 1 0x0 1 0 .none 1 0 1 .ro false false (fun _ _ => 0x0)

/-- Table REG-1 (spec/21). Copy of SHADOW_STAT.PENDING -/
def REG_BLK_STAT_SHADOW_PENDING : Fld := .mk' 924 0x0 16384 0x14 1 0x0 1 0 .none 1 1 1 .ro false false (fun _ _ => 0x0)

/-- Table REG-1 (spec/21). Latched events -/
def REG_EVT_RAW : Fld := .mk' 925 0x0 16384 0x18 1 0x0 1 0 .none 1 0 32 .ro false false (fun _ _ => 0x0)

/-- Table REG-1 (spec/21). Event enables -/
def REG_EVT_EN : Fld := .mk' 926 0x0 16384 0x1c 1 0x0 1 0 .none 1 0 32 .rw false false (fun _ _ => 0x0)

/-- Table REG-1 (spec/21). EVT_RAW AND EVT_EN -/
def REG_EVT_PEND : Fld := .mk' 927 0x0 16384 0x20 1 0x0 1 0 .none 1 0 32 .ro false false (fun _ _ => 0x0)

/-- Table REG-1 (spec/21). Reads EVT_RAW; each 1 clears that EVT_RAW bit -/
def REG_EVT_CLR : Fld := .mk' 928 0x0 16384 0x24 1 0x0 1 0 .none 1 0 32 .w1c false false (fun _ _ => 0x0)

/-- Table REG-1 (spec/21). Reads EVT_RAW; each 1 sets that EVT_RAW bit -/
def REG_EVT_SET : Fld := .mk' 929 0x0 16384 0x28 1 0x0 1 0 .none 1 0 32 .w1s false false (fun _ _ => 0x0)

/-- Table REG-1 (spec/21). R19 -/
def REG_BLK_FAULT_ACCESS_ERR : Fld := .mk' 930 0x0 16384 0x2c 1 0x0 1 0 .none 1 0 1 .w1c false false (fun _ _ => 0x0)

/-- Table REG-1 (spec/21). A write that would have changed a field whose write condition did not hold (R688) -/
def REG_BLK_FAULT_LOCKED_WR : Fld := .mk' 931 0x0 16384 0x2c 1 0x0 1 0 .none 1 1 1 .w1c false false (fun _ _ => 0x0)

/-- Table REG-1 (spec/21). R691 -/
def REG_BLK_FAULT_SHADOW_ERR : Fld := .mk' 932 0x0 16384 0x2c 1 0x0 1 0 .none 1 2 1 .w1c false false (fun _ _ => 0x0)

/-- Table REG-1 (spec/21). Offset of the last faulting access -/
def REG_BLK_FAULT_OFS : Fld := .mk' 933 0x0 16384 0x2c 1 0x0 1 0 .none 1 16 12 .ro false false (fun _ _ => 0x0)

/-- Table REG-1 (spec/21). Table REG-3 -/
def REG_SHADOW_CTRL_COMMIT_AT : Fld := .mk' 934 0x0 16384 0x30 1 0x0 1 0 .none 1 0 2 .rw false false (fun _ _ => 0x0)

/-- Table REG-1 (spec/21). R692 -/
def REG_SHADOW_CTRL_ARM : Fld := .mk' 935 0x0 16384 0x30 1 0x0 1 0 .none 1 2 1 .wo false false (fun _ _ => 0x0)

/-- Table REG-1 (spec/21). R692 -/
def REG_SHADOW_CTRL_DISARM : Fld := .mk' 936 0x0 16384 0x30 1 0x0 1 0 .none 1 3 1 .wo false false (fun _ _ => 0x0)

/-- Table REG-1 (spec/21). Bound stream for modes 1 and 3 -/
def REG_SHADOW_CTRL_STREAM : Fld := .mk' 937 0x0 16384 0x30 1 0x0 1 0 .none 1 8 6 .rw false false (fun _ _ => 0x0)

/-- Table REG-1 (spec/21). A shadow copy differs from its live field -/
def REG_SHADOW_STAT_PENDING : Fld := .mk' 938 0x0 16384 0x34 1 0x0 1 0 .none 1 0 1 .ro false false (fun _ _ => 0x0)

/-- Table REG-1 (spec/21). A commit is armed -/
def REG_SHADOW_STAT_ARMED : Fld := .mk' 939 0x0 16384 0x34 1 0x0 1 0 .none 1 1 1 .ro false false (fun _ _ => 0x0)

/-- Table REG-1 (spec/21). A commit fell late since LATE was last cleared (Table REG-3, R691) -/
def REG_SHADOW_STAT_LATE : Fld := .mk' 940 0x0 16384 0x34 1 0x0 1 0 .none 1 2 1 .w1c false false (fun _ _ => 0x0)

/-- Table REG-1 (spec/21). Commits applied, modulo 2^16 -/
def REG_SHADOW_STAT_COMMIT_CNT : Fld := .mk' 941 0x0 16384 0x34 1 0x0 1 0 .none 1 16 16 .ro false false (fun _ _ => 0x0)

/-- Table REG-1 (spec/21). Mode 2: GT. Mode 3: frame id in LO -/
def REG_SHADOW_ARG_LO : Fld := .mk' 942 0x0 16384 0x38 1 0x0 1 0 .none 1 0 32 .rw false false (fun _ _ => 0x0)

/-- Table REG-1 (spec/21). Mode 2: GT. Mode 3: frame id in LO -/
def REG_SHADOW_ARG_HI : Fld := .mk' 943 0x0 16384 0x3c 1 0x0 1 0 .none 1 0 32 .rw false false (fun _ _ => 0x0)

/-- Table REG-4 (spec/21). R1 -/
def SYS_DEV_ID : Fld := .mk' 944 0x0 1 0x40 1 0x0 1 0 .none 1 0 32 .ro false false (fun _ _ => 0x4c561600)

/-- Table REG-4 (spec/21). Stepping -/
def SYS_REV_ID_STEP : Fld := .mk' 945 0x0 1 0x44 1 0x0 1 0 .none 1 0 8 .ro false false (fun _ _ => 0xb1)

/-- Table REG-4 (spec/21). 1 L, 2 C; copy of SECURITY.FUSE_CFG.GRADE -/
def SYS_REV_ID_GRADE : Fld := .mk' 946 0x0 1 0x44 1 0x0 1 0 .none 1 8 2 .ro false false (fun _ _ => 2)

/-- Table REG-4 (spec/21). 64-bit die identifier, unique per part -/
def SYS_UID_LO : Fld := .mk' 947 0x0 1 0x48 1 0x0 1 0 .none 1 0 32 .ro false false (fun _ _ => 0)

/-- Table REG-4 (spec/21). 64-bit die identifier, unique per part -/
def SYS_UID_HI : Fld := .mk' 948 0x0 1 0x4c 1 0x0 1 0 .none 1 0 32 .ro false false (fun _ _ => 0)

/-- Table REG-4 (spec/21). As FWMBOX.RUN_VER_LO/HI (R585) -/
def SYS_FW_VER_LO : Fld := .mk' 949 0x0 1 0x50 1 0x0 1 0 .none 1 0 32 .ro false false (fun _ _ => 0x0)

/-- Table REG-4 (spec/21). As FWMBOX.RUN_VER_LO/HI (R585) -/
def SYS_FW_VER_HI : Fld := .mk' 950 0x0 1 0x54 1 0x0 1 0 .none 1 0 32 .ro false false (fun _ _ => 0x0)

/-- Table REG-4 (spec/21). As FWMBOX.RUN_SVN -/
def SYS_FW_SVN : Fld := .mk' 951 0x0 1 0x58 1 0x0 1 0 .none 1 0 7 .ro false false (fun _ _ => 0x0)

/-- Table REG-4 (spec/21). As FWMBOX.RUN_DIGESTw -/
def SYS_FW_DIGEST : Fld := .mk' 952 0x0 1 0x60 12 0x4 1 0 .none 1 0 32 .ro false false (fun _ _ => 0x0)

/-- Table REG-4 (spec/21). R698 -/
def SYS_RST_CAUSE_CAUSE : Fld := .mk' 953 0x0 1 0x90 1 0x0 1 0 .none 1 0 3 .ro false false (fun _ _ => 0x1)

/-- Table REG-4 (spec/21). R699 -/
def SYS_SCRATCH : Fld := .mk' 954 0x0 1 0xa0 4 0x4 1 0 .none 1 0 32 .rw false false (fun _ _ => 0x0)

/-- Table REG-4 (spec/21). R694; saturates -/
def SYS_UNMAPPED_CNT : Fld := .mk' 955 0x0 1 0xb0 1 0x0 1 0 .none 1 0 32 .ro false true (fun _ _ => 0x0)

/-- Table REG-4 (spec/21). R694 -/
def SYS_UNMAPPED_LAST_PAGE : Fld := .mk' 956 0x0 1 0xb4 1 0x0 1 0 .none 1 0 14 .ro false false (fun _ _ => 0x0)

/-- Table REG-4 (spec/21). — -/
def SYS_UNMAPPED_LAST_VALID : Fld := .mk' 957 0x0 1 0xb4 1 0x0 1 0 .none 1 31 1 .w1c false false (fun _ _ => 0x0)

/-- Table REG-5 (spec/21). Bit i requests a reset of block i of Table REG-6 -/
def RST_REQ : Fld := .mk' 958 0x2 1 0x200 1 0x0 1 0 .none 1 0 28 .wo false false (fun _ _ => 0x0)

/-- Table REG-5 (spec/21). Bit i: block i in reset -/
def RST_ACTIVE : Fld := .mk' 959 0x2 1 0x204 1 0x0 1 0 .none 1 0 28 .ro false false (fun _ _ => 0x0)

/-- Table REG-5 (spec/21). R700; saturates -/
def RST_DENY_CNT : Fld := .mk' 960 0x2 1 0x208 1 0x0 1 0 .none 1 0 32 .ro false true (fun _ _ => 0x0)

/-- Table REG-5 (spec/21). Last denied index -/
def RST_DENY_LAST_INDEX : Fld := .mk' 961 0x2 1 0x20c 1 0x0 1 0 .none 1 0 5 .ro false false (fun _ _ => 0x0)

/-- Table REG-5 (spec/21). — -/
def RST_DENY_LAST_VALID : Fld := .mk' 962 0x2 1 0x20c 1 0x0 1 0 .none 1 31 1 .w1c false false (fun _ _ => 0x0)

/-- Table HST-6 (spec/17). IOVA of last refusal; HI [31] VALID, W1C -/
def PCIE_IOMMU_FAULT_VALID : Fld := .mk' 963 0xb0 1 0x68 1 0x0 1 0 .none 1 31 1 .w1c false false (fun _ _ => 0x0)

/-- Table HST-7 (spec/17). HI [31] VALID, W1C -/
def ETH_IOMMU_FAULT_VALID : Fld := .mk' 964 0xb1 2 0xb0 1 0x0 1 0 .none 1 31 1 .w1c false false (fun _ _ => 0x0)

/-- Table CSI-7 (spec/09). per-stream counter; saturates -/
def CSI_S_FRAME_CNT : Fld := .mk' 965 0x60 16 0x200 4 0x40 1 0 .none 1 0 32 .ro false true (fun _ _ => 0x0)

/-- Table CSI-7 (spec/09). per-stream counter; saturates -/
def CSI_S_SHORT_CNT : Fld := .mk' 966 0x60 16 0x204 4 0x40 1 0 .none 1 0 32 .ro false true (fun _ _ => 0x0)

/-- Table CSI-7 (spec/09). per-stream counter; saturates -/
def CSI_S_LONG_CNT : Fld := .mk' 967 0x60 16 0x208 4 0x40 1 0 .none 1 0 32 .ro false true (fun _ _ => 0x0)

/-- Table CSI-7 (spec/09). per-stream counter; saturates -/
def CSI_S_STR_CRC_CNT : Fld := .mk' 968 0x60 16 0x20c 4 0x40 1 0 .none 1 0 32 .ro false true (fun _ _ => 0x0)

/-- Table CSI-7 (spec/09). per-stream counter; saturates -/
def CSI_S_LINEFLAG_CNT : Fld := .mk' 969 0x60 16 0x210 4 0x40 1 0 .none 1 0 32 .ro false true (fun _ _ => 0x0)

/-- Table CSI-7 (spec/09). per-stream counter; saturates -/
def CSI_S_DROP_LINE_CNT : Fld := .mk' 970 0x60 16 0x214 4 0x40 1 0 .none 1 0 32 .ro false true (fun _ _ => 0x0)

/-- Table CSI-7 (spec/09). per-stream counter; saturates -/
def CSI_S_DROPPED_CNT : Fld := .mk' 971 0x60 16 0x218 4 0x40 1 0 .none 1 0 32 .ro false true (fun _ _ => 0x0)

/-- Table CSI-7 (spec/09). per-stream counter; saturates -/
def CSI_S_STALE_CNT : Fld := .mk' 972 0x60 16 0x21c 4 0x40 1 0 .none 1 0 32 .ro false true (fun _ _ => 0x0)

/-- Table CSI-7 (spec/09). per-stream counter; saturates -/
def CSI_S_TRIG_LATE_CNT : Fld := .mk' 973 0x60 16 0x220 4 0x40 1 0 .none 1 0 32 .ro false true (fun _ _ => 0x0)

/-- Table CSI-9 (spec/09). IBI payload bytes of the popped entry -/
def SC_IBI_PAY : Fld := .mk' 974 0xb8 1 0x214 1 0x0 1 0 .none 1 0 32 .ro false false (fun _ _ => 0x0)

/-- Table CSI-9 (spec/09). IBI GT of the popped entry -/
def SC_IBI_GT : Fld := .mk' 975 0xb8 1 0x21c 1 0x0 1 0 .none 1 0 64 .ro false false (fun _ _ => 0x0)

end Sys2Proof.Machine.F

namespace Sys2Proof.Machine

/-- The fields of the ORR block, in table order. -/
def fieldsORR : List Fld :=
  [F.ORR_GT, F.ORR_SI, F.ORR_SNAP_TAKE, F.ORR_SNAP_GT, F.ORR_SNAP_SI, F.ORR_MAP_SEQ, F.ORR_MAP_GT, F.ORR_MAP_SI, F.ORR_MAP_NS_PER_CYCLE, F.ORR_MAP_STAT_MAP_VALID, F.ORR_GRID_CTRL_NOMINAL_HZ, F.ORR_ZC_DELAY, F.ORR_ZC_MISS, F.ORR_EPH_MISS, F.ORR_SI_QUAL_SW_PPS_QUAL, F.ORR_REALIGN_GRP, F.ORR_REALIGN_PEND_GRP, F.ORR_OUT_WIDTH_FSYNC_W, F.ORR_OUT_WIDTH_GRID_W, F.ORR_OUT_WIDTH_PPS_W, F.ORR_CH_CTRL_REF_EN, F.ORR_CH_STAT_STATE, F.ORR_CH_STAT_SEL_REF, F.ORR_CH_STAT_SEL_QUAL] ++
  [F.ORR_CH_STAT_DWELL_REF, F.ORR_CH_STAT_DWELL_ACTIVE, F.ORR_CH_DWELL_SWITCH_DWELL, F.ORR_CH_HOLD_HOLDOVER_LIMIT, F.ORR_CH_HOLD_LOST_ERR, F.ORR_CH_PRIO, F.ORR_CH_QUAL0, F.ORR_CH_QUAL1, F.ORR_CH_STEP, F.ORR_CH_STEP_CNT, F.ORR_CH_PHASE_ERR, F.ORR_CH_HOLD_EST, F.ORR_CH_FREQ_OFS, F.ORR_FSYNC_CFG_PHASE, F.ORR_FSYNC_CFG_PERIOD_CYC, F.ORR_FSYNC_CFG_GROUP, F.ORR_FSYNC_CFG_POL, F.ORR_FSYNC_CFG_EN, F.ORR_GRID_OUT_CFG_POL, F.ORR_GRID_OUT_CFG_EN, F.ORR_PPS_OUT_CFG_POL, F.ORR_PPS_OUT_CFG_EN, F.ORR_GRP_OFS, F.ORR_FSYNC_ANC_ANCHOR]

/-- The fields of the CLK block, in table order. -/
def fieldsCLK : List Fld :=
  [F.CLK_PLL_CFG_TARGET_MHZ, F.CLK_PLL_CMD_RELOCK, F.CLK_PLL_STAT_LOCKED, F.CLK_PLL_STAT_ON_BYPASS, F.CLK_PLL_STAT_BYPASS_DIV2, F.CLK_PLL_STAT_FAULT, F.CLK_PLL_STAT_DELIVERED_MHZ, F.CLK_MCLK_TARGET, F.CLK_MCLK_CTRL_EN, F.CLK_MCLK_CTRL_SRC, F.CLK_MCLK_STAT_FREQ, F.CLK_MCLK_FLAG_SLEWING, F.CLK_MCLK_FLAG_RANGE_ERR]

/-- The fields of the KT block, in table order. -/
def fieldsKT : List Fld :=
  [F.KT_CTRL_EN, F.KT_CTRL_HALT, F.KT_ID_LOGICAL, F.KT_STAT_ARRAY, F.KT_STAT_BANK, F.KT_STAT_MODE, F.KT_STAT_STEP_SLOT, F.KT_STAT_ACC_FREE, F.KT_STAT_HALTED, F.KT_SLOT_BUSY, F.KT_SLOT_RUN, F.KT_SLOT_COMMIT, F.KT_SLOT_KILL, F.KT_ISSUE_CYC, F.KT_DRAIN_CYC, F.KT_RIPPLE_STALL_CYC, F.KT_FEED_WAIT_CYC, F.KT_KILL_CYC, F.KT_IDLE_CYC, F.KT_PASS_CNT, F.KT_KILL_CNT, F.KT_CNT_CTRL_FREEZE, F.KT_CNT_CTRL_CLEAR, F.KT_SLOT_STATE] ++
  [F.KT_SLOT_CLASS, F.KT_SLOT_RANK, F.KT_SLOT_ACC_HELD, F.KT_SLOT_STEP_LSB, F.KT_WHISK_STAT_NAN_SEEN, F.KT_WHISK_SAT_CNT, F.KT_PANTRY_CE_CNT, F.KT_PANTRY_UE_CNT, F.KT_PANTRY_UE_ADDR_OFS, F.KT_PANTRY_UE_ADDR_VALID, F.KT_GRANULE_FREE, F.KT_BANK_WAIT_CYC, F.KT_TAG_VIOL_CNT, F.KT_GTAG, F.KT_LD_XFER_BUSY, F.KT_LD_HALO_PEND_COUNT, F.KT_XFER_BYTES, F.KT_HALO_TX_BYTES, F.KT_HALO_WAIT_CYC, F.KT_PAD_VEC_CNT, F.KT_COST_OVERRUN_CNT]

/-- The fields of the VC block, in table order. -/
def fieldsVC : List Fld :=
  [F.VC_CTRL_SR_ALLOW, F.VC_CTRL_SCRUB_EN, F.VC_STAT_STATE, F.VC_STAT_TEMP_BAND, F.VC_STAT_LOGICAL, F.VC_STAT_MIRROR, F.VC_STAT_POISON_PRESENT, F.VC_TEMP, F.VC_SCRUB_PERIOD, F.VC_ECC_CE_CNT, F.VC_ECC_UE_CNT, F.VC_ECC_UE_ADDR_OFS, F.VC_ECC_UE_ADDR_VALID, F.VC_RD_BYTES, F.VC_WR_BYTES, F.VC_SR_ENTRY_CNT, F.VC_SCRUB_PASS_CNT]

/-- The fields of the TV block, in table order. -/
def fieldsTV : List Fld :=
  [F.TV_STAT_LARDER_INIT_DONE, F.TV_CE_CNT, F.TV_UE_CNT, F.TV_LARDER_CE_CNT, F.TV_LARDER_UE_CNT, F.TV_LARDER_UE_ADDR_OFS, F.TV_LARDER_UE_ADDR_VALID, F.TV_ADDR_FAULT_CNT, F.TV_ADDR_FAULT_LO, F.TV_ADDR_FAULT_HI_ADDR, F.TV_ADDR_FAULT_HI_VALID, F.TV_LINK_SEL_LINK, F.TV_LINK_SEL_DIR, F.TV_LINK_FLITS, F.TV_LINK_WAIT_CYC, F.TV_IWIN_CFG_FIRST, F.TV_IWIN_CFG_COUNT_LOG2, F.TV_IWIN_CFG_GRAN_LOG2, F.TV_IWIN_CFG_EN, F.TV_IWIN_OFS, F.TV_IWIN_LEN, F.TV_IWIN_STAT_CFG_ERR]

/-- The fields of the CTX block, in table order. -/
def fieldsCTX : List Fld :=
  [F.CTX_SQ_BASE_LO, F.CTX_SQ_BASE_HI, F.CTX_CQ_BASE_LO, F.CTX_CQ_BASE_HI, F.CTX_RING_CFG_SQ_LOG2, F.CTX_RING_CFG_CQ_LOG2, F.CTX_CFG_PART, F.CTX_CFG_POLICY, F.CTX_CFG_MSIX, F.CTX_LEASE_CFG_LEASE_PERIOD, F.CTX_LEASE_CFG_ORPHAN_HOLD, F.CTX_CMD_CMD, F.CTX_STAT_STATE, F.CTX_STAT_GEN, F.CTX_STAT_CMD_BUSY, F.CTX_STAT_CMD_ERR, F.CTX_DOORBELL_TAIL, F.CTX_SQ_TAIL, F.CTX_SQ_HEAD, F.CTX_CQ_TAIL, F.CTX_CQ_HEAD, F.CTX_LEASE_GEN, F.CTX_LEASE_EXP, F.CTX_LAST_SEQ] ++
  [F.CTX_INFLIGHT, F.CTX_CQ_RESERVED, F.CTX_DB_IGNORED_CNT, F.CTX_DB_BAD_CNT, F.CTX_NOTICE_SKIP_CNT, F.CTX_LEASE_BAD_CNT, F.CTX_SO_SEL, F.CTX_SO_TIME_PERIOD_CYC, F.CTX_SO_TIME_ANCHOR, F.CTX_SO_TIME_PHASE, F.CTX_SO_CMD, F.CTX_SO_STAT_ARMED, F.CTX_SO_SKIP_CNT, F.CTX_SO_DESC]

/-- The fields of the SCH block, in table order. -/
def fieldsSCH : List Fld :=
  [F.SCH_SCHED_STAT_BOOKS_BUSY, F.SCH_SCHED_STAT_FW_RUN, F.SCH_SCHED_STAT_HANDOVER, F.SCH_SCHED_STAT_FLOOR_BREACH, F.SCH_BOOKS_SNAP_TAKE, F.SCH_BOOKS_SNAP_STAT_DONE, F.SCH_SNAP_GT, F.SCH_URG_ADMIT_CNT, F.SCH_URG_FIFO_CNT, F.SCH_URG_KILL_CNT, F.SCH_RERUN_CNT, F.SCH_REFUSED_BUDGET_CNT, F.SCH_SHED_DEADLINE_CNT, F.SCH_SHED_INFEASIBLE_CNT, F.SCH_URG_LATE_START_CNT, F.SCH_URG_START_MAX, F.SCH_TXN_MAX, F.SCH_PART_SEL, F.SCH_PART_KMASK, F.SCH_PART_CFG_OP_FLOOR, F.SCH_PART_CFG_B_SLOTS, F.SCH_PART_URG_BUDGET, F.SCH_PART_CAP, F.SCH_PART_URG_ALLOC] ++
  [F.SCH_PART_ERR_OVERLAP, F.SCH_PART_ERR_BUDGET, F.SCH_PART_VT, F.SCH_BKT_CTX, F.SCH_BKT_CTX_FW, F.SCH_BKT_CLASS, F.SCH_BKT_RATE, F.SCH_BKT_BURST, F.SCH_BKT_LEVEL, F.SCH_CREDITED, F.SCH_DEBITED, F.SCH_REFUNDED, F.SCH_BKT_WAITERS, F.SCH_B_WEIGHT, F.SCH_ACCEPTED_CNT, F.SCH_CLOSED_CNT, F.SCH_KB_SEL, F.SCH_KB_SLOTS0_FREE, F.SCH_KB_SLOTS0_LOADED, F.SCH_KB_SLOTS0_RUNNING, F.SCH_KB_SLOTS0_KILLING, F.SCH_KB_SLOTS1_COMMITTING, F.SCH_KB_GRAN_AVAIL, F.SCH_KB_GRAN_HELD] ++
  [F.SCH_KB_GRAN_SHARED, F.SCH_KB_GRAN_RERUN_RESV, F.SCH_KB_URG_URG_FREE, F.SCH_KB_URG_URG_HELD]

/-- The fields of the SPC block, in table order. -/
def fieldsSPC : List Fld :=
  [F.SPC_SPEC_CTRL_SPEC_HOLD, F.SPC_SPEC_STAT_GRACE, F.SPC_SPEC_STAT_RETRACT_BUSY, F.SPC_CONFIRM_CNT, F.SPC_RETRACT_CNT, F.SPC_RETR_CMD_CNT, F.SPC_GUARD_CNT, F.SPC_NOARENA_CNT, F.SPC_SPEC_RAISE_CNT, F.SPC_SPEC_REVERT_CNT, F.SPC_LAST_RETR_FRAME, F.SPC_LAST_RETR_CAUSE, F.SPC_DOM_SEL, F.SPC_DOM_ARENA_LO_BASE, F.SPC_DOM_ARENA_HI_BASE, F.SPC_DOM_LEN, F.SPC_DOM_PARTMASK, F.SPC_DOM_CFG_EN, F.SPC_DOM_STAT_CFG_ERR, F.SPC_STR_SEL, F.SPC_STR_CFG_DOMAIN, F.SPC_STR_CFG_SPEC_EN, F.SPC_STR_CFG_ACCEPT_CRC, F.SPC_STR_CFG_ACCEPT_SHORT] ++
  [F.SPC_STR_CFG_ACCEPT_LONG, F.SPC_STR_CFG_ACCEPT_LINEFLAG, F.SPC_STR_PERIOD]

/-- The fields of the CSI block, in table order. -/
def fieldsCSI : List Fld :=
  [F.CSI_PHY_CFG_LANES, F.CSI_PHY_CFG_LANE_MAP, F.CSI_PHY_CFG_LANE_POL, F.CSI_PHY_CFG_CLK_POL, F.CSI_PHY_CFG_EN, F.CSI_PHY_RATE_MBPS, F.CSI_PHY_STAT_CLK_HS, F.CSI_PHY_STAT_LANE_HS, F.CSI_PHY_STAT_DESKEW_DONE, F.CSI_PHY_STAT_ULPS, F.CSI_HDR_CORR_CNT, F.CSI_HDR_UNCORR_CNT, F.CSI_GEN_LONG_CNT, F.CSI_CRC_CNT, F.CSI_SOT_ERR_CNT, F.CSI_FS_INFER_CNT, F.CSI_FE_INFER_CNT, F.CSI_POOL_BASE_LO, F.CSI_POOL_BASE_HI, F.CSI_POOL_CFG_NBUF, F.CSI_POOL_CFG_BUF_KIB, F.CSI_POOL_BOOKS_FREE, F.CSI_POOL_BOOKS_CAPTURING, F.CSI_POOL_BOOKS_HELD] ++
  [F.CSI_REF_RELEASE, F.CSI_STR_CTRL_EN, F.CSI_STR_CTRL_DT, F.CSI_STR_CTRL_LINE_POLICY, F.CSI_STR_CTRL_PAD_SRC, F.CSI_STR_CTRL_EMB_EN, F.CSI_STR_CTRL_BIND_HOLD, F.CSI_STR_CTRL_RETAIN, F.CSI_STR_GEOM_WIDTH, F.CSI_STR_GEOM_LINES, F.CSI_LINE_PITCH, F.CSI_BUF_LINES, F.CSI_STR_MAX_WC, F.CSI_PAD_VALUE, F.CSI_EMB_LEN, F.CSI_MAX_AGE, F.CSI_TRIG_MAX, F.CSI_TRIG_LAG, F.CSI_BIND_HOLD_CYC, F.CSI_STR_STAT_CFG_ERR, F.CSI_LAST_FRAME_ID, F.CSI_LAST_CAPT_GT, F.CSI_S_FRAME_CNT, F.CSI_S_SHORT_CNT] ++
  [F.CSI_S_LONG_CNT, F.CSI_S_STR_CRC_CNT, F.CSI_S_LINEFLAG_CNT, F.CSI_S_DROP_LINE_CNT, F.CSI_S_DROPPED_CNT, F.CSI_S_STALE_CNT, F.CSI_S_TRIG_LATE_CNT]

/-- The fields of the AG block, in table order. -/
def fieldsAG : List Fld :=
  [F.AG_MEMBERS, F.AG_CFG_TOL, F.AG_CFG_POLICY, F.AG_CFG_EN, F.AG_MISSING, F.AG_COMPLETE_CNT, F.AG_PARTIAL_CNT, F.AG_DROP_CNT]

/-- The fields of the SC block, in table order. -/
def fieldsSC : List Fld :=
  [F.SC_CFG_MODE, F.SC_CFG_I2C_SPEED, F.SC_CFG_I3C_MHZ, F.SC_PUSH_LO, F.SC_PUSH_HI, F.SC_FLUSH, F.SC_STAT_QUEUED, F.SC_STAT_BUSY, F.SC_NACK_CNT, F.SC_LATE_WR_CNT, F.SC_PUSH_FULL_CNT, F.SC_PROF_SEL, F.SC_PROF_CTRL, F.SC_PROF_DELAY, F.SC_PROF_WIN_WR_OFS, F.SC_PROF_WIN_WR_LATEST, F.SC_IBI_POP, F.SC_IBI_LOST_CNT, F.SC_BAD_BUNDLE_CNT, F.SC_IBI_PAY, F.SC_IBI_GT]

/-- The fields of the SV block, in table order. -/
def fieldsSV : List Fld :=
  [F.SV_CTRL_EN, F.SV_CTRL_HALT, F.SV_CFG_STALL_MAX, F.SV_STAT_BUSY, F.SV_STAT_CUR_CTX, F.SV_STAT_HALTED, F.SV_LOAD, F.SV_PIX, F.SV_STALL_CYC, F.SV_SWITCH_CNT, F.SV_WAIT_MAX, F.SV_SUSPEND_CNT, F.SV_ABANDON_CNT, F.SV_OUT_DROP_CNT, F.SV_PB_ERR_CNT, F.SV_PB_REPLACED_CNT, F.SV_ARM_EMPTY_CNT, F.SV_REL_FID, F.SV_REL_CMD_CTX, F.SV_REL_CMD_OUT, F.SV_CTX_SEL, F.SV_CTX_CFG_EN, F.SV_CTX_CFG_STREAM, F.SV_CTX_CFG_SKIP_RETRACTED] ++
  [F.SV_CTX_CFG_STRIPE_LINES, F.SV_CTX_CFG_START_LEAD, F.SV_CTX_CFG_BAYER, F.SV_SAVE_BASE_LO, F.SV_SAVE_BASE_HI, F.SV_PB_NEXT_LO, F.SV_PB_NEXT_HI, F.SV_CTX_COMMIT_MODE, F.SV_COMMIT_GT, F.SV_COMMIT_FID, F.SV_CTX_STAT_PB_PENDING, F.SV_CTX_STAT_STRIPE_ACTIVE, F.SV_CTX_STAT_SUSPENDED, F.SV_CTX_STAT_CFG_ERR, F.SV_PB_SEQ, F.SV_LAST_FRAME_ID, F.SV_STATS_BASE_LO, F.SV_STATS_BASE_HI, F.SV_STATS_CFG_NSLOT, F.SV_OUT_BASE_LO, F.SV_OUT_BASE_HI, F.SV_OUT_CFG_EN, F.SV_OUT_CFG_FMT, F.SV_OUT_CFG_CONSUMERS] ++
  [F.SV_OUT_CFG_NBUF, F.SV_OUT_CFG_HOST_HOLD, F.SV_OUT_BUF_KIB, F.SV_OUT_PITCH, F.SV_OUT_BOOKS_FREE, F.SV_OUT_BOOKS_WRITING, F.SV_OUT_BOOKS_HELD, F.SV_OUT_LAST_BUF]

/-- The fields of the MD block, in table order. -/
def fieldsMD : List Fld :=
  [F.MD_CTRL_EN, F.MD_CTRL_HALT, F.MD_STAT_BUSY, F.MD_STAT_HALTED, F.MD_LOAD, F.MD_CROP_CNT, F.MD_DEC_REC_CNT, F.MD_DEC_REJECT_CNT, F.MD_CLAMP_CNT, F.MD_OOB_PIX_CNT, F.MD_ABANDON_CNT, F.MD_BIND_SHED_CNT, F.MD_JOB_ERR_CNT, F.MD_NOTIFY_ERR_CNT, F.MD_PG_CTRL_EN, F.MD_PG_CTRL_SIEVE, F.MD_PG_CTRL_CTX, F.MD_PG_CTRL_OUT, F.MD_PG_CTRL_NOTIFY_MODE, F.MD_PG_CTRL_STEP, F.MD_PG_CTRL_ORIGIN, F.MD_PG_SHAPE, F.MD_PG_MESH, F.MD_PG_POOL] ++
  [F.MD_PG_POOL_CFG_NBUF, F.MD_PG_POOL_CFG_BUF_KIB, F.MD_PG_POOL_CFG_HOLD_CYC, F.MD_PG_NOTIFY, F.MD_PG_BAND_BAND_ROWS, F.MD_PG_STAT_READY, F.MD_PG_STAT_ERR_CODE, F.MD_PG_STAT_NBANDS, F.MD_PG_BOOKS_FREE, F.MD_PG_BOOKS_WRITING, F.MD_PG_BOOKS_HELD, F.MD_PG_SEQ, F.MD_PG_REL, F.MD_TAKE_SKIP_CNT, F.MD_PF_SHAPE, F.MD_PF_CFG_BATCH, F.MD_PF_CFG_BUCKET_EN, F.MD_PF_CFG_AUG_EN, F.MD_PF_AUG_FLIP_P, F.MD_PF_AUG_JIT_POS, F.MD_PF_AUG_JIT_SCALE, F.MD_PF_AUG_GAIN_J, F.MD_PF_BKT_MAXDIM, F.MD_PF_BKT_OUTW8] ++
  [F.MD_PF_BKT_OUTH8, F.MD_JQ_BASE, F.MD_JQ_CFG_LOG2, F.MD_JQ_CFG_EN, F.MD_JQ_CFG_NOTIFY_MODE, F.MD_JQ_CFG_STEP, F.MD_JQ_CFG_ORIGIN, F.MD_JQ_TAIL, F.MD_JQ_HEAD, F.MD_JQ_NOTIFY, F.MD_JQ_DONE]

/-- The fields of the OB block, in table order. -/
def fieldsOB : List Fld :=
  [F.OB_CTRL_EN, F.OB_CTRL_HALT, F.OB_STAT_BUSY, F.OB_STAT_HALTED, F.OB_BOOKS_FREE, F.OB_BOOKS_QUEUED, F.OB_BOOKS_RUNNING, F.OB_BOOKS_COMMITTING, F.OB_CUR_CTX, F.OB_CUR_VALID, F.OB_CUR_SEQ, F.OB_SOLVE_CNT, F.OB_ITER_CNT, F.OB_INVALID_AGENT_CNT, F.OB_CONF_OVF_CNT, F.OB_ZONE_LATE_CNT, F.OB_ARG_ERR_CNT, F.OB_KILL_CNT, F.OB_COST_OVERRUN_CNT, F.OB_LOCAL_CE_CNT, F.OB_LOCAL_UE_CNT, F.OB_LAST_TIME_NS, F.OB_TIME_MAX_NS, F.OB_LAST_ERR_CODE] ++
  [F.OB_LAST_ERR_AGENT]

/-- The fields of the BR block, in table order. -/
def fieldsBR : List Fld :=
  [F.BR_CTRL_EN, F.BR_CTRL_PILOT_HB, F.BR_CFG_RETX_US, F.BR_CFG_HB_PERIOD, F.BR_STAT_LINK, F.BR_STAT_FS_STATE, F.BR_STAT_MAINS_FLAGS, F.BR_LAT_NS, F.BR_TX_CREDIT_AVAILABLE, F.BR_TX_CREDIT_OUTSTANDING, F.BR_TX_SEQ_NEXT, F.BR_TX_SEQ_RX_ACK, F.BR_TX_MSG, F.BR_TX_PUSH, F.BR_TX_STAT_QUEUED, F.BR_RX_MSG, F.BR_RX_POP, F.BR_RX_STAT_COUNT, F.BR_MAINS_RMS_RMS, F.BR_MAINS_RMS_FREQ, F.BR_ZC_OFS, F.BR_RX_CRC_CNT, F.BR_RX_GAP_CNT, F.BR_RX_UNKNOWN_CNT] ++
  [F.BR_RX_OVF_CNT, F.BR_RETX_CNT, F.BR_TX_DENY_CNT, F.BR_ARB_BADOUT_CNT, F.BR_DQ_REQ, F.BR_DQ_PUSH, F.BR_DQ_REPLY, F.BR_ARB_SEL, F.BR_ARB_LEVEL_PRESENT_LEVEL, F.BR_ARB_LEVEL_SMIN, F.BR_ARB_SMAX, F.BR_SP_SEL, F.BR_SP_GT, F.BR_SP_PERIOD, F.BR_SP_OUT_OUTPUT, F.BR_SP_OUT_SMIN, F.BR_SP_LIM_SMAX, F.BR_SP_LIM_RAMP_MS, F.BR_SP_CMD_EN]

/-- The fields of the CP block, in table order. -/
def fieldsCP : List Fld :=
  [F.CP_CTRL_EN, F.CP_STAT_BUSY, F.CP_COMPOSED_CNT, F.CP_HELD_CNT, F.CP_BLANK_CNT, F.CP_MASK_BLANK_CNT, F.CP_REUSE_CNT, F.CP_SKIP_CNT, F.CP_BASE_SKIP_CNT, F.CP_POOL_SKIP_CNT, F.CP_LATE_CNT, F.CP_OC_CTRL_EN, F.CP_OC_CTRL_FMT, F.CP_OC_CTRL_SIEVE, F.CP_OC_CTRL_CTX, F.CP_OC_CTRL_OUT, F.CP_OC_CTRL_HOLD_MAX, F.CP_OC_SIZE_W, F.CP_OC_SIZE_H, F.CP_OC_TIME_PERIOD_CYC, F.CP_OC_TIME_ANCHOR, F.CP_OC_TIME_PHASE, F.CP_OC_POOL, F.CP_OC_POOL_CFG_NBUF] ++
  [F.CP_OC_POOL_CFG_BUF_KIB, F.CP_OC_BLANK_Y, F.CP_OC_BLANK_CB, F.CP_OC_BLANK_CR, F.CP_OC_BOOKS_FREE, F.CP_OC_BOOKS_WRITING, F.CP_OC_BOOKS_HELD, F.CP_OC_STAT_CFG_ERR, F.CP_MASK_CFG_MODE, F.CP_MASK_CFG_FILL, F.CP_MASK_CFG_SLOTS, F.CP_MASK_CFG_STRIDE, F.CP_MASK_FILL, F.CP_MASK_BASE, F.CP_MASK_RELOAD, F.CP_MASK_STAT_STATIC_VALID, F.CP_LY_CFG_EN, F.CP_LY_CFG_POLICY, F.CP_LY_CFG_MAX_REUSE, F.CP_LY_POS_X, F.CP_LY_POS_Y, F.CP_LY_SIZE_W, F.CP_LY_SIZE_H, F.CP_LY_BUF0] ++
  [F.CP_LY_BUF1, F.CP_LY_PAL, F.CP_LY_POST, F.CP_LY_STAT_POSTED, F.CP_LY_STAT_IN_USE0, F.CP_LY_STAT_IN_USE1, F.CP_LY_STAT_REUSED]

/-- The fields of the EN block, in table order. -/
def fieldsEN : List Fld :=
  [F.EN_CTRL_EN, F.EN_LOAD, F.EN_AU_CNT, F.EN_AU_DROP_CNT, F.EN_IN_DROP_CNT, F.EN_BS_ERR_CNT, F.EN_ES_CFG_EN, F.EN_ES_CFG_CODEC, F.EN_ES_CFG_OUTPUT, F.EN_ES_CFG_CAVLC, F.EN_ES_CFG_LEVEL_IDC, F.EN_ES_CFG_IDR_PERIOD, F.EN_ES_RC_MODE, F.EN_ES_RC_QP_I, F.EN_ES_RC_QP_P, F.EN_ES_RC_QP_MIN, F.EN_ES_RC_QP_MAX, F.EN_ES_RATE, F.EN_ES_MAXRATE, F.EN_ES_VBV, F.EN_ES_JPEG_Q, F.EN_BS_BASE, F.EN_BS_SIZE, F.EN_BS_WR] ++
  [F.EN_BS_RD, F.EN_ES_CMD_FORCE_IDR, F.EN_ES_STAT_QUEUED, F.EN_ES_STAT_CFG_ERR, F.EN_REF_BASE]

/-- The fields of the PL block, in table order. -/
def fieldsPL : List Fld :=
  [F.PL_STAT_MAIN_ON, F.PL_STAT_PFW_RUN, F.PL_CE_CNT, F.PL_UE_CNT, F.PL_UE_ADDR_OFS, F.PL_UE_ADDR_VALID, F.PL_WAKE_EN, F.PL_WAKE_CAUSE, F.PL_TMR_SEL, F.PL_TMR_GT, F.PL_TMR_CFG_EN, F.PL_TMR_CFG_ACTION, F.PL_TMR_MSG, F.PL_MSG_OFF_CNT]

/-- The fields of the PA block, in table order. -/
def fieldsPA : List Fld :=
  [F.PA_CTRL_EN, F.PA_CTRL_STREAM_EN, F.PA_CTRL_CH_EN, F.PA_CTRL_LP_MASK, F.PA_STAT_RATE, F.PA_STAT_XFADE, F.PA_STAT_IN_PROGRESS, F.PA_STAT_FROZEN, F.PA_STAT_LIVE_BUF, F.PA_STAT_CFG_ERR, F.PA_ASAMP, F.PA_WAKE_GT, F.PA_WAKE_SAMP, F.PA_FREEZE_MAX, F.PA_FREEZE_REL, F.PA_DET_CFG_ARM_THR, F.PA_DET_CFG_DET_THR, F.PA_DET_CFG_DET_N, F.PA_DET_CFG_REFRACT, F.PA_EV_CFG_WAKE_MASK, F.PA_EV_THR, F.PA_MIX_W_ACT, F.PA_MIX_W_LP, F.PA_SIM_CTRL_WAKE_RUN] ++
  [F.PA_SIM_CTRL_EVENT_RUN, F.PA_SIM_PROG0, F.PA_SIM_PROG1, F.PA_SIM_STAT_LOAD_ERR0, F.PA_SIM_STAT_LOAD_ERR1, F.PA_EV_POP, F.PA_EV_GT, F.PA_EXP_DST, F.PA_EXP_CFG_SRC, F.PA_EXP_FROM, F.PA_EXP_LEN, F.PA_EXP_CMD, F.PA_EXP_STAT_BUSY, F.PA_EXP_STAT_DONE, F.PA_EXP_STAT_ERR, F.PA_STR_RAW_BASE, F.PA_STR_FEAT_BASE, F.PA_STR_LOG2_RAW_SAMPLES, F.PA_STR_LOG2_FEAT_RECORDS, F.PA_STR_RAW_WR, F.PA_STR_FEAT_WR, F.PA_CLIP_CNT, F.PA_XFADE_CNT, F.PA_DET_CNT] ++
  [F.PA_DET_FROZEN_CNT, F.PA_FREEZE_EXPIRE_CNT, F.PA_SIM_OVERRUN_CNT, F.PA_EV_LOST_CNT, F.PA_OFF_DEFER_CNT, F.PA_OFF_CANCEL_CNT, F.PA_STREAM_GAP_CNT]

/-- The fields of the PWR block, in table order. -/
def fieldsPWR : List Fld :=
  [F.PWR_PS_REQ_TARGET, F.PWR_PS_STAT_CUR, F.PWR_PS_STAT_BUSY, F.PWR_PS_STAT_ERR, F.PWR_PS_STAT_PREV, F.PWR_PS_STAT_LAST_TRIP, F.PWR_RESUME_CFG_TARGET, F.PWR_KGATE, F.PWR_KGATED, F.PWR_WATCH_CFG_KMASK, F.PWR_WATCH_CFG_HOST, F.PWR_WATCH_PORTS, F.PWR_HOST_EN, F.PWR_GRP_OP_REQ_KG0, F.PWR_GRP_OP_REQ_KG1, F.PWR_GRP_OP_REQ_KG2, F.PWR_GRP_OP_CUR_KG0, F.PWR_GRP_OP_CUR_KG1, F.PWR_GRP_OP_CUR_KG2, F.PWR_GRP_OP_CUR_OP_BUSY, F.PWR_VIN_MV, F.PWR_VIN_CFG_WARN_MV, F.PWR_VIN_WARN_CNT, F.PWR_TJ_MAX_TEMP] ++
  [F.PWR_TJ_MAX_SRC, F.PWR_THERM_CFG_WARN, F.PWR_THERM_CFG_EMERG, F.PWR_THERM_CFG_TRIP, F.PWR_THERM_STAT_WARN, F.PWR_THERM_STAT_EMERG, F.PWR_THERM_EMERG_CNT, F.PWR_PAD_HELD, F.PWR_PAD_RELEASE, F.PWR_PAD_ERR_CNT, F.PWR_TRANS_CNT, F.PWR_ABORT_CNT, F.PWR_HOST_START]

/-- The fields of the IA block, in table order. -/
def fieldsIA : List Fld :=
  [F.IA_CTRL_EN, F.IA_PAGE_PEND, F.IA_ROUTE_SEL, F.IA_ROUTE_VEC, F.IA_ROUTE_EN, F.IA_VEC_CFG_DEST, F.IA_VEC_CFG_CORES, F.IA_VEC_CFG_COAL_US, F.IA_VEC_STAT_PENDING, F.IA_VEC_EOI, F.IA_VEC_MSG_CNT]

/-- The fields of the PCIE block, in table order. -/
def fieldsPCIE : List Fld :=
  [F.PCIE_ID_VENDOR, F.PCIE_ID_DEVICE, F.PCIE_LINK_STAT_DL_UP, F.PCIE_LINK_STAT_SPEED, F.PCIE_LINK_STAT_WIDTH, F.PCIE_LINK_CFG_MAX_SPEED, F.PCIE_LINK_CFG_MAX_WIDTH, F.PCIE_PERST_CNT, F.PCIE_LINK_DOWN_CNT, F.PCIE_AER_CE_CNT, F.PCIE_AER_UE_CNT, F.PCIE_UR_CNT, F.PCIE_IOMMU_FAULT_CNT, F.PCIE_IOMMU_FAULT, F.PCIE_PBA, F.PCIE_DB_SRC, F.PCIE_DB_SRC_DENY_CNT, F.PCIE_MSIX_ADDR_LO, F.PCIE_MSIX_ADDR_HI, F.PCIE_MSIX_DATA, F.PCIE_MSIX_CTRL, F.PCIE_IOMMU_FAULT_VALID]

/-- The fields of the ETH block, in table order. -/
def fieldsETH : List Fld :=
  [F.ETH_MAC_CFG_EN, F.ETH_MAC_CFG_SPEED, F.ETH_MAC_CFG_PROMISC, F.ETH_MAC_ADDR, F.ETH_PHY_STAT_LINK, F.ETH_PHY_STAT_SPEED, F.ETH_MTU, F.ETH_TX_BASE, F.ETH_RX_BASE, F.ETH_RING_LOG2_TX, F.ETH_RING_LOG2_RX, F.ETH_TX_TAIL, F.ETH_RX_TAIL, F.ETH_TX_HEAD, F.ETH_RX_HEAD, F.ETH_TX_FRAMES, F.ETH_RX_FRAMES, F.ETH_RX_CRC_CNT, F.ETH_RX_LEN_CNT, F.ETH_RX_NODESC_CNT, F.ETH_PAUSE_RX_CNT, F.ETH_IOMMU_FAULT_CNT, F.ETH_IOMMU_FAULT, F.ETH_PTP_MEAS] ++
  [F.ETH_PTP_MEAS_TS, F.ETH_PTP_QUAL, F.ETH_PTP_QUAL_TIMEOUT, F.ETH_UART_CFG_BAUD, F.ETH_UART_RX, F.ETH_UART_TX, F.ETH_UART_STAT_RX_COUNT, F.ETH_UART_STAT_TX_COUNT, F.ETH_UART_OVF_CNT, F.ETH_PPS_CFG_EN, F.ETH_PPS_CFG_POL, F.ETH_PPS_SI, F.ETH_PPS_GT, F.ETH_PPS_CNT, F.ETH_PPS_GLITCH_CNT, F.ETH_IOMMU_FAULT_VALID]

/-- The fields of the IOM block, in table order. -/
def fieldsIOM : List Fld :=
  [F.IOM_WIN_IOVA, F.IOM_WIN_PA, F.IOM_WIN_LEN, F.IOM_WIN_CFG_R, F.IOM_WIN_CFG_W, F.IOM_WIN_CFG_EN]

/-- The fields of the HIO block, in table order. -/
def fieldsHIO : List Fld :=
  [F.HIO_HU_CFG_EN, F.HIO_HU_BAUD, F.HIO_HU_RX, F.HIO_HU_TX, F.HIO_HU_STAT_RX_COUNT, F.HIO_HU_STAT_TX_COUNT, F.HIO_HU_LEVEL_RX_LEVEL, F.HIO_HU_LEVEL_TX_LEVEL, F.HIO_HU_OVF_CNT, F.HIO_HU_FRAME_CNT, F.HIO_GPIO_OUT, F.HIO_GPIO_OE, F.HIO_GPIO_PULL, F.HIO_GPIO_IN, F.HIO_GPIO_RISE_EN, F.HIO_GPIO_FALL_EN, F.HIO_GPIO_EDGE_GT]

/-- The fields of the FW block, in table order. -/
def fieldsFW : List Fld :=
  [F.FW_STATE_STATE, F.FW_STATE_SRC, F.FW_STATE_TRIAL, F.FW_STATE_TRIES, F.FW_STATE_FALLBACK, F.FW_STATE_LIVE, F.FW_STATE_PILOT_STALE, F.FW_BOOT_STAT_RESULT, F.FW_BOOT_STAT_SLOT_A, F.FW_BOOT_STAT_SLOT_B, F.FW_RUN_VER, F.FW_RUN_SVN, F.FW_RUN_DIGEST, F.FW_NEXT_INFO_SLOT, F.FW_NEXT_VER, F.FW_SLOT_STAT_A, F.FW_SLOT_STAT_B, F.FW_BREC_SEQ, F.FW_HOST_LOAD_OFS, F.FW_HOST_LOAD_LEN, F.FW_BOOT_DOORBELL, F.FW_MB_ARG, F.FW_MB_CMD, F.FW_MB_STAT_BUSY] ++
  [F.FW_MB_STAT_RESULT, F.FW_MB_OUT, F.FW_MB_SRC, F.FW_MB_DENY_CNT, F.FW_LIVE_PAUSE_US, F.FW_LIVE_CNT]

/-- The fields of the SEC block, in table order. -/
def fieldsSEC : List Fld :=
  [F.SEC_FUSE_CFG_BOOT_POLICY, F.SEC_FUSE_CFG_JTAG_LOCK, F.SEC_FUSE_CFG_GRADE, F.SEC_SVN_FUSED, F.SEC_STRAP_BOOTSEL, F.SEC_KEY_HASH, F.SEC_LOCK_MB_SRC_LOCK, F.SEC_TAP_DENY_CNT, F.SEC_SIG_FAIL_CNT]

/-- The fields of the RP block, in table order. -/
def fieldsRP : List Fld :=
  [F.RP_STAT_SPARE_TILES, F.RP_STAT_DEGRADED, F.RP_STAT_IN_SERVICE, F.RP_RM_STAT_BUSY, F.RP_RM_STAT_LOGICAL, F.RP_RM_STAT_SRC, F.RP_RM_STAT_DST, F.RP_MIG_BLOCKS, F.RP_RM_CMD_LOGICAL, F.RP_KMAP_PHYS, F.RP_KMAP_STATE, F.RP_TILE_STAT_STATE, F.RP_TILE_STAT_AGE_MARGIN, F.RP_COLMAP, F.RP_BANKMAP, F.RP_CANARY_CFG_PERIOD_CYC, F.RP_CANARY_CFG_TEST_SEED, F.RP_CANARY_SEL, F.RP_CANARY_PASS_GT, F.RP_AGE_CFG_WARN, F.RP_AGE_CFG_FAIL, F.RP_THR_BANK_CE_THR, F.RP_THR_VAULT_UE_THR, F.RP_CANARY_FAIL_CNT] ++
  [F.RP_CANARY_SKIP_CNT, F.RP_REMAP_CNT, F.RP_COL_REMAP_CNT, F.RP_BANK_REMAP_CNT, F.RP_REPAIR_RERUN_CNT, F.RP_LEDGER_SEQ, F.RP_LEDGER_FREE]

/-- The fields of the SK block, in table order. -/
def fieldsSK : List Fld :=
  [F.SK_CTRL_EN, F.SK_STAT_ROLE, F.SK_STAT_CAB_ID, F.SK_STAT_MEMBERS, F.SK_STAT_TOPO, F.SK_CFG_LOSS_US, F.SK_CFG_N_EXPECT, F.SK_CMD_JOIN_ID, F.SK_CMD_GO, F.SK_PT_STAT_STATE, F.SK_PT_STAT_WIDTH, F.SK_PT_STAT_NEIGH_ID, F.SK_PT_STAT_NEIGH_VALID, F.SK_PT_STAT_WIRING, F.SK_PT_LAT_NS, F.SK_CRC_ERR_CNT, F.SK_REPLAY_CNT, F.SK_RETRAIN_CNT, F.SK_TX_FLITS, F.SK_RX_FLITS, F.SK_PT_CRED0_VCA_AVAIL, F.SK_PT_CRED0_VCA_OWED, F.SK_PT_CRED0_VCB_AVAIL, F.SK_PT_CRED0_VCB_OWED] ++
  [F.SK_PT_CRED1_VCC_AVAIL, F.SK_PT_CRED1_VCC_OWED, F.SK_PT_CRED1_VCD_AVAIL, F.SK_PT_CRED1_VCD_OWED, F.SK_CAB_DOORBELL_CONTEXT, F.SK_CAB_DOORBELL_TAIL, F.SK_CAB_LEASE_CONTEXT, F.SK_CAB_LEASE_GEN, F.SK_CAB_CQHEAD_CONTEXT, F.SK_CAB_CQHEAD_HEAD, F.SK_DEL_NS, F.SK_MEMBER_LOST_CNT, F.SK_MEMBER_RERUN_CNT, F.SK_FAULT_MEMBER_CNT, F.SK_TXN_DUP_CNT, F.SK_DEL_DUP_CNT, F.SK_SRC_DROP_CNT, F.SK_ORPHAN_KILL_CNT]

/-- The fields of the REG block, in table order. -/
def fieldsREG : List Fld :=
  [F.REG_BLK_ID_PAGE, F.REG_BLK_ID_KIND, F.REG_BLK_VER_REV, F.REG_BLK_VER_MAJOR, F.REG_BLK_VER_STEP, F.REG_BLK_CAP0, F.REG_BLK_CAP1, F.REG_BLK_CTRL_CNT_CLEAR, F.REG_BLK_STAT_RESET_ACTIVE, F.REG_BLK_STAT_SHADOW_PENDING, F.REG_EVT_RAW, F.REG_EVT_EN, F.REG_EVT_PEND, F.REG_EVT_CLR, F.REG_EVT_SET, F.REG_BLK_FAULT_ACCESS_ERR, F.REG_BLK_FAULT_LOCKED_WR, F.REG_BLK_FAULT_SHADOW_ERR, F.REG_BLK_FAULT_OFS, F.REG_SHADOW_CTRL_COMMIT_AT, F.REG_SHADOW_CTRL_ARM, F.REG_SHADOW_CTRL_DISARM, F.REG_SHADOW_CTRL_STREAM, F.REG_SHADOW_STAT_PENDING] ++
  [F.REG_SHADOW_STAT_ARMED, F.REG_SHADOW_STAT_LATE, F.REG_SHADOW_STAT_COMMIT_CNT, F.REG_SHADOW_ARG_LO, F.REG_SHADOW_ARG_HI]

/-- The fields of the SYS block, in table order. -/
def fieldsSYS : List Fld :=
  [F.SYS_DEV_ID, F.SYS_REV_ID_STEP, F.SYS_REV_ID_GRADE, F.SYS_UID_LO, F.SYS_UID_HI, F.SYS_FW_VER_LO, F.SYS_FW_VER_HI, F.SYS_FW_SVN, F.SYS_FW_DIGEST, F.SYS_RST_CAUSE_CAUSE, F.SYS_SCRATCH, F.SYS_UNMAPPED_CNT, F.SYS_UNMAPPED_LAST_PAGE, F.SYS_UNMAPPED_LAST_VALID]

/-- The fields of the RST block, in table order. -/
def fieldsRST : List Fld :=
  [F.RST_REQ, F.RST_ACTIVE, F.RST_DENY_CNT, F.RST_DENY_LAST_INDEX, F.RST_DENY_LAST_VALID]

end Sys2Proof.Machine
end

