-- ==== Sys2Proof/Machine/State.lean ====
section
/-! DEFINITION. The state of the block: every register field (sparse, by key), every memory, every queue and every
piece of internal state the specification names, as plain data; the commands waiting; and the machine after reset. -/

namespace Sys2Proof.Machine

/-- Why the block stops with a fault. -/
inductive Fault where
  /-- The command's operands are not well formed (WellFormed.lean), so it stands for nothing the specification names. No meaning raises it:
  every command has its effect in every state, on operands of any shape. Safe: nothing can be concluded from a stop that never comes. -/
  | illFormed
deriving DecidableEq, Repr

/-- Why the block refuses a command. -/
inductive Refusal where
  /-- The command has no meaning yet. Raised by an arm of exec that stands for no meaning; every arm now has one. Safe. -/
  | notModelled (mnemonic : String)
deriving DecidableEq, Repr

/-- What leaves the block at its pins and buses, in the order it left. -/
inductive Out where
  /-- a pulse on FSYNC0-15 (0-15), GRID_OUT (16) or PPS_OUT (17) -/
  | pulse (output gt : Nat)
  /-- an MSI-X message of a vector -/
  | msix (vec addr data : Nat)
  /-- a barrier message given to the link by the Nearside -/
  | barrierTx (bytes : List Byte)
  /-- a barrier message given to the link by the Farside -/
  | farsideTx (bytes : List Byte)
  /-- a frame transmitted by an Ethernet port, with its egress time -/
  | ethTx (port : Nat) (bytes : List Byte) (si : Nat)
  /-- a byte on a UART line (0 GNSS, 1 host) -/
  | uart (port : Nat) (byte : Byte)
  /-- a frame on the DALI bus -/
  | dali (bytes : List Byte)
  /-- a bus write to a sensor register -/
  | sensor (ctrl : Nat) (bytes : List Byte)
  /-- a flit sent by a Skewer port -/
  | skewer (port : Nat) (flit : List Byte)
  /-- the relay contacts switch -/
  | relay (closed : Bool)
  /-- the TAP instruction in force -/
  | tap (instr : Nat)
deriving DecidableEq, Repr

/-- An armed page commit (R691, R692): what the ARM took. -/
structure Armed where
  page : Nat
  mode : Nat
  stream : Nat
  arg : Nat
  /-- its frame start has come (modes 1 and 3) -/
  due : Bool := false
deriving DecidableEq, Repr

/-- One of the two DPLL channels beyond its registers (Table ORR-2). -/
structure ChanSt where
  /-- consecutive reference events with the phase error below the lock threshold -/
  lockRun : Nat := 0
  /-- MEMS time at the entry to HOLDOVER, and at the start of the dwell (R40, R735) -/
  holdStart : Nat := 0
  dwellStart : Nat := 0
  /-- the quality the dwelling candidate had when its dwell started (R40) -/
  dwellQual : Nat := 255
  /-- the channel has tracked a reference (R44) -/
  tracked : Bool := false
deriving DecidableEq, Repr

/-- The Orrery and the clock blocks beyond their registers. -/
structure OrrerySt where
  /-- consecutive in-window crossings (R36), consecutive misses, the last MAINS_STAT was adverse, MAINS is qualified -/
  zcRun : Nat := 0
  missRun : Nat := 0
  adverse : Bool := false
  qualified : Bool := false
  /-- the prediction of R727: the last in-window crossing and the period it reported, in phase units; `restart`: the
  next stamp restarts the prediction -/
  lastCross : Nat := 0
  period : Nat := 65536
  restart : Bool := true
  /-- the expected crossing judged last (in-window or missing) -/
  judged : Option Nat := none
  grid : ChanSt := {}
  sich : ChanSt := {}
  /-- the NOMINAL_HZ in effect is 60 Hz (R729) -/
  nominal60 : Bool := false
  /-- the GT at which the last phase 0 was processed, and the last SI second -/
  phaseZeroAt : Option Nat := none
  siSecond : Nat := 0
  ppsSecond : Nat := 0
  /-- the highest cycle number GT has entered and given a refill (R49) -/
  refilled : Nat := 0
  /-- quality of SKEW_GRID and SKEW_SI, 255 without a TIME message (R673) -/
  skewGridQ : Nat := 255
  skewSiQ : Nat := 255
  /-- PTP0 and PTP1 have a live reference event (R572), PPS has a qualified edge within 1.5 s (R574) -/
  ptp0Live : Bool := false
  ptp1Live : Bool := false
  ppsLive : Bool := false
  /-- the last pulse of outputs 0-17 on the present GT scale, SI for 17 (R51), and the outputs that a REALIGN holds to
  half a period -/
  lastPulse : List (Nat × Int) := []
  realigned : List Nat := []
  /-- the target each PLL last delivered or was given by a completed relock; PLLs relocking; PLLs whose lock is held -/
  pllTarget : List Nat := [400, 400, 400, 1600, 800]
  relocking : List Nat := []
  lockHeld : List Nat := []
  /-- supply voltage of the three Kettle groups, mV (Table SCO-3) -/
  supply : List Nat := [600, 600, 600]
deriving DecidableEq, Repr

/-- A pass that has issued: its bank, its mode, its first and final issue cycle (R77, R86). -/
structure PassRec where
  slot : Nat
  bank : Nat
  ripple : Bool
  first : Nat
  final : Nat
deriving DecidableEq, Repr

/-- The vectors of a pass that are in the array, to their last accumulator write (R77, R78). -/
structure Flight where
  slot : Nat
  first : Nat
  final : Nat
  /-- the command's last pass, with no Whisk readout (Table KET-1) -/
  ends : Bool
deriving DecidableEq, Repr

/-- A chain's accumulator entries under readout by the Whisk (R95). -/
structure Readout where
  slot : Nat
  cmd : Nat
  first : Nat
  /-- cycles per vector: 4 in BF16, else 1 -/
  per : Nat
  stage : Nat
  /-- blocks held until the last entry is read -/
  blocks : Nat
  rows : List (List Nat)
  /-- the entries are FP32 words -/
  fp : Bool
  addrs : List Nat
  /-- entries read, and entries written -/
  readN : Nat := 0
  written : Nat := 0
  /-- the stage's last chain -/
  lastPass : Bool
deriving DecidableEq, Repr

/-- One of the 32 slots of a Kettle (R72). -/
structure Slot where
  num : Nat
  /-- 1 LOADED, 2 RUNNING, 3 KILLING, 4 COMMITTING (Table KET-8) -/
  st : Nat := 1
  cmd : Nat
  part : Nat
  cls : Nat
  /-- granules held, and their numbers -/
  grans : List Nat := []
  /-- steps issued; next pass: stage and number within it -/
  steps : Nat := 0
  stage : Nat := 0
  pass : Nat := 0
  /-- accumulator blocks the open chain holds (a mask), and its entries so far -/
  blocks : Nat := 0
  acc : List (List Nat) := []
  /-- C-level transfers: the next stage's, one in progress, stages whose first step has issued, stages whose last Whisk
  write is done (R176, R177) -/
  xferNext : Nat := 0
  xferBusy : Bool := false
  issuedStages : Nat := 0
  doneStages : Nat := 0
  /-- halo writes of the part that are not acknowledged: destination tile and slot, and stage; halo rows received per stage;
  the last stage whose rows it has sent (R172 to R174) -/
  haloOut : List (Nat × Nat × Nat) := []
  haloRx : List (Nat × Nat) := []
  haloSent : Nat := 0
  /-- byte ranges of the output buffer written through the write-back window, a write outside it, and the elapsed time of
  the first issue -/
  wrote : List (Nat × Nat) := []
  outside : Bool := false
  startedAt : Option Nat := none
deriving DecidableEq, Repr

/-- A physical tile beyond its registers. -/
structure TileSt where
  num : Nat
  slots : List Slot := []
  /-- the next Kettle cycle that no counter has counted yet (R104) -/
  cyc : Nat := 0
  /-- the slot chosen (R76) and the cycle of the choice; its tile load: start cycle, once started; its flip -/
  chosen : Option Nat := none
  chosenAt : Nat := 0
  load : Option Nat := none
  flip : Option Nat := none
  /-- the cycle from which the row buses are free (R82, R103) -/
  busFree : Nat := 0
  /-- the last issued pass, and the one before it (R87); the other bank's last use when its load was abandoned (R103) -/
  prev : Option PassRec := none
  prev2 : Option PassRec := none
  flights : List Flight := []
  readouts : List Readout := []
  /-- the 256 granule tags that differ from FREE (R112) -/
  tags : List (Nat × Nat) := []
  /-- requests waiting at the banks: bank, cycles waited, the request, in order of arrival (R108); a wait of the present
  cycle has been counted -/
  waiting : List (Nat × Nat × PantryReq) := []
  waited : Bool := false
  /-- the canary runs (R619) -/
  canary : Bool := false
deriving DecidableEq, Repr

/-- A registered recipe: its image, and where firmware placed its constants in the Cellar (R151, R157). -/
structure Recipe where
  id : Nat
  image : List Byte
  constBase : Nat
deriving DecidableEq, Repr

/-- A fence of a descriptor: the command it names (Table CMD-2). -/
structure Fence where
  seq : Nat
  ctx : Nat
deriving DecidableEq, Repr

/-- A submission descriptor (Table CMD-2). -/
structure Desc where
  seq : Nat := 0
  opcode : Nat := 0
  cls : Nat := 0
  specOk : Bool := false
  lateOk : Bool := false
  notifyDefer : Bool := false
  fillBatch : Bool := false
  gen : Nat := 0
  deadline : Nat := 0
  recipe : Nat := 0
  cost : Nat := 0
  arg : Nat := 0
  argLen : Nat := 0
  outLen : Nat := 0
  outAddr : Nat := 0
  fence0 : Option Fence := none
  fence1 : Option Fence := none
  /-- a reserved bit is set -/
  rsvd : Bool := false
deriving DecidableEq, Repr

/-- Where an accepted command stands. -/
inductive Phase where
  /-- in the hand-off queue to firmware (R247) -/
  | handoff
  /-- held in its bucket's FIFO -/
  | held
  /-- debited, awaiting fences or dispatch -/
  | ready
  /-- in the urgent FIFO of its partition (R250) -/
  | urgent
  /-- dispatched -/
  | running
  /-- in commit: not all its writes are acknowledged -/
  | commit
  /-- DONE_PROVISIONAL written -/
  | prov
  /-- handed to the head of the cabinet, or placed by the head on another member (R651, R654) -/
  | away
deriving DecidableEq, Repr

/-- An accepted command without a closing record. -/
structure Cmd where
  /-- the model's own number of the command, and its cabinet context (0-2047; 2048 is FW) -/
  id : Nat
  ctx : Nat
  desc : Desc
  phase : Phase
  /-- the standing order it comes from -/
  order : Option Nat := none
  /-- elapsed time of its consumption, admission GT, and start of service -/
  consumedAt : Nat
  admitGt : Nat
  started : Option Nat := none
  debited : Bool := false
  /-- service has started at least once (R263); NOARENA_CNT has counted it (R279) -/
  everStarted : Bool := false
  noArena : Bool := false
  /-- completion slots still reserved for it (R202) -/
  reserved : Nat := 1
  /-- its frame id (R213), its frame set, and whether it started on provisional input (R285) -/
  frame : Nat := 0xFFFFFFFF
  frames : List Nat := []
  provStart : Bool := false
  /-- reruns; a member rerun (R676); bytes 28-29 of its record -/
  reruns : Nat := 0
  memberRerun : Bool := false
  lossReruns : Nat := 0
  /-- times it was killed for repair (R625) -/
  repairKills : Nat := 0
  kettle : Nat := 0xFFFF
  /-- RERUN_RESV: logical Kettle and granules (R260) -/
  resv : List (Nat × Nat) := []
  /-- start and finish tags of a B-class command, in units of 1/256 CU over the weight (R265) -/
  sTag : Nat := 0
  fTag : Nat := 0
  /-- it entered the urgent FIFO; the bucket covered it (R251) -/
  waitedUrgent : Bool := false
  /-- fill batch: its leader (R180) -/
  batch : Option Nat := none
  /-- its place in the batch (R182) -/
  row : Nat := 0
  released : Bool := false
  /-- the frame the CAPTURE_BIND has bound; the lowest frame count it may bind -/
  bound : Option Nat := none
  bindFrom : Nat := 0
  /-- in commit: the order of entry, provisional, late, writes not acknowledged, drained -/
  commitNo : Nat := 0
  provCommit : Bool := false
  late : Bool := false
  acks : Nat := 0
  drained : Bool := false
  /-- a COPY's or a solve's staged output -/
  staged : List Byte := []
  /-- the fault it ends with once its kill is complete -/
  fault : Option Nat := none
  attempt : Nat := 0
deriving DecidableEq, Repr

/-- An entry of a context's duplicate window (R215): its disposition reads 0xFF until the first record. -/
structure WinEnt where
  seq : Nat
  disp : Nat := 0xFF
  frame : Nat := 0xFFFFFFFF
deriving DecidableEq, Repr

/-- A context beyond its page. -/
structure CtxSt where
  num : Nat
  window : List WinEnt := []
  /-- the end of the orphan hold (R233) -/
  holdEnd : Nat := 0
  /-- finish tag of its previous B-class command (R265) -/
  finish : Nat := 0
  accepted : Nat := 0
  closed : Nat := 0
deriving DecidableEq, Repr

/-- A token bucket (R261, R263). -/
structure Bkt where
  ctx : Nat
  cls : Nat
  burstAtOpen : Nat := 0
  level : Nat := 0
  credited : Nat := 0
  debited : Nat := 0
  refunded : Nat := 0
deriving DecidableEq, Repr

/-- An armed standing order (R234, R736). -/
structure Order where
  /-- number: context * 8 + index; those of FIRMWARE from 2^20 -/
  num : Nat
  ctx : Nat
  desc : Desc
  period : Nat
  anchor : Nat
  phase : Nat
  /-- the next occurrence: its number and its due GT -/
  occ : Nat
  due : Nat
deriving DecidableEq, Repr

/-- Contexts, commands and the scheduler beyond their registers. -/
structure SchedSt where
  nextId : Nat := 0
  cmds : List Cmd := []
  ctxs : List CtxSt := []
  bkts : List Bkt := []
  orders : List Order := []
  /-- a snapshot has been requested (R270) -/
  snapReq : Bool := false
  /-- PART_VT of each partition, in the units of the tags (R265) -/
  vts : List (Nat × Nat) := []
  /-- commits entered so far -/
  commits : Nat := 0
  /-- records written to firmware's internal ring (R236), the latest last -/
  fwRing : List (List Byte) := []
  /-- FW's partition and its F and B RATE and BURST (R237) -/
  fwPart : Nat := 0
  fwF : Nat × Nat := (200, 400)
  fwB : Nat × Nat := (100, 200)
  /-- OP_FLOOR writes that wait for their groups (R537), by partition -/
  floorReq : List (Nat × Nat) := []
deriving DecidableEq, Repr

/-- A camera frame (R273, R320). -/
structure Frame where
  id : Nat
  stream : Nat
  capGt : Nat
  capSi : Nat
  /-- 0 PROVISIONAL, 1 CONFIRMED, 2 RETRACTED; the cause of a retraction -/
  standing : Nat := 0
  cause : Nat := 0
  /-- confirmation deadline (R275), and the GT at which it is stale (R321) -/
  deadline : Nat
  ageGt : Nat
  isOpen : Bool := true
  /-- lines received and the configured count; marks (Table CSI-3, byte 5) -/
  linesRx : Nat := 0
  lines : Nat
  marks : Nat := 0
  /-- lines stored in the present buffer, its index; embedded bytes stored; the pool ran out (R318) -/
  stored : Nat := 0
  buf : Option Nat := none
  emb : Nat := 0
  dropping : Bool := false
  crcErrs : Nat := 0
  flagged : Nat := 0
  firstBuf : Nat := 0
  /-- buffers it has taken -/
  nbufs : Nat := 0
  linePitch : Nat
  /-- every stripe delivered (Table SPC-1); group released, its AG_MISSING, and the group -/
  delivered : Bool := false
  released : Bool := true
  missing : Nat := 0
  group : Nat := 0xFF
  /-- stripes started and delivered by its Sieve context -/
  stripes : Nat := 0
deriving DecidableEq, Repr

/-- A reference on a capture buffer (R310). -/
inductive BufRef where
  | sieve
  | retain
deriving DecidableEq, Repr

/-- A capture buffer that is not FREE (R309). -/
structure CapBuf where
  port : Nat
  idx : Nat
  frame : Nat
  capturing : Bool := true
  firstLine : Nat
  lines : Nat := 0
  nextBuf : Nat := 0xFF
  refs : List BufRef
deriving DecidableEq, Repr

/-- A BIND_HOLD reference: frame, command, context and the GT at which it ends (R329). -/
structure BindHold where
  frame : Nat
  cmd : Nat
  ctx : Nat
  till : Option Nat := none
deriving DecidableEq, Repr

/-- An open alignment window (R323): member streams with their frames. -/
structure AgWin where
  group : Nat
  openGt : Nat
  frames : List (Nat × Nat)
deriving DecidableEq, Repr

/-- A bundle queued at a sensor controller (R330). -/
structure Bundle where
  addr : Nat
  stream : Nat
  /-- 0 NEXT_WINDOW, 1 AT_GT, 2 AT_FRAME -/
  whenK : Nat
  nwr : Nat
  arm : Bool
  m : Nat
  due : Nat
  /-- the frame it goes out in, once known -/
  frame : Option Nat := none
  started : Bool := false
deriving DecidableEq, Repr

/-- A sensor controller: its queue and its bus. -/
structure SensorSt where
  num : Nat
  queue : List Bundle := []
deriving DecidableEq, Repr

/-- Streams, frames, pools, groups, sensors and the provisional arenas beyond their registers. -/
structure CamSt where
  frames : List Frame := []
  /-- per stream: the count of its next frame (R304), and whether any has started since it was enabled -/
  counts : List (Nat × Nat) := []
  bufs : List CapBuf := []
  holds : List BindHold := []
  wins : List AgWin := []
  ctrls : List SensorSt := []
  /-- IBI FIFO: address, payload and GT (R330) -/
  ibi : List (Nat × List Byte × Nat) := []
  /-- arena pages marked PROV (page number) with their last provisional writer (R287) -/
  pages : List (Nat × Nat) := []
  /-- frames whose retraction waits (R299) -/
  retractQ : List Nat := []
deriving DecidableEq, Repr

/-- The applied parameters of a context: the block, and the tables it names (R339a). -/
structure SvParams where
  block : List Byte := []
  /-- static defect entries, x and y; shading nodes, four gains each; three tone curves of 257 -/
  dpc : List (Nat × Nat) := []
  lsc : List Nat := []
  tone : List Nat := []
deriving DecidableEq, Repr

/-- Partial statistics: the histogram, the AWB zones, the AF zones, the dynamic defects. -/
structure SvStats where
  ae : List Nat := List.replicate 256 0
  awb : List Nat := List.replicate 3072 0
  af : List Nat := List.replicate 384 0
  dpc : Nat := 0
deriving DecidableEq, Repr

/-- The frame a Sieve context is on (R344 to R351). -/
structure SvRun where
  frame : Nat
  /-- the next stripe; it has been started and waits again after a suspension -/
  stripe : Nat := 0
  /-- the line-buffer state: lines read, rows after stage 9, partial statistics (log 32) -/
  lines : List (List Byte) := []
  rows : List (List Nat) := []
  stats : SvStats := {}
  /-- PB_SEQ of its first stripe; parameters changed within it; an output was dropped -/
  pbFirst : Nat := 0
  mixed : Bool := false
  dropped : Bool := false
  /-- its output buffers: output and buffer -/
  outs : List (Nat × Nat) := []
deriving DecidableEq, Repr

/-- A pending parameter commit (Table SIV-3): block address, mode, GT, frame id. -/
structure SvPend where
  addr : Nat
  mode : Nat
  gt : Nat
  fid : Nat
deriving DecidableEq, Repr

/-- A Sieve context beyond its registers. -/
structure SvCtx where
  inst : Nat
  num : Nat
  params : SvParams := {}
  pend : Option SvPend := none
  /-- frames of its stream that wait, oldest first -/
  wait : List Nat := []
  run : Option SvRun := none
  suspended : Bool := false
  saved : Bool := false
  /-- the GT at which its next stripe became ready -/
  readyAt : Option Nat := none
deriving DecidableEq, Repr

/-- An output buffer of a Sieve context that is not FREE (R353): the Sieve's reference, the consumers' (bit 0 MANDOLINE,
1 COMPOSITOR, 2 HOST), rows written, and the end of the HOST hold. -/
structure SvBuf where
  inst : Nat
  ctx : Nat
  out : Nat
  idx : Nat
  frame : Nat
  capGt : Nat
  writing : Bool := true
  refs : Nat := 0
  rows : Nat := 0
  hostTill : Nat := 0
deriving DecidableEq, Repr

/-- A Sieve instance: the context whose stripe runs and since when, and the context whose line buffers it holds. -/
structure SvInst where
  num : Nat
  running : Option Nat := none
  startGt : Nat := 0
  loaded : Option Nat := none
deriving DecidableEq, Repr

/-- The Sieves (spec/10). -/
structure SieveSt where
  insts : List SvInst := []
  ctxs : List SvCtx := []
  bufs : List SvBuf := []
deriving DecidableEq, Repr

/-- A tensor buffer of a Mandoline pool that has been taken or bound: its references and what its header says (R382). It is
FREE while it has no reference. -/
structure TBuf where
  prog : Nat
  idx : Nat
  frame : Nat
  j : Nat
  bands : Nat := 0
  /-- 0 WRITING, 1 COMPLETE, 2 ABANDONED -/
  status : Nat := 0
  write : Bool := true
  hold : Bool := false
  holdTill : Nat := 0
  cmds : List Nat := []
  /-- the byte ranges of its bands: band, address, length -/
  ranges : List (Nat × Nat × Nat) := []
deriving DecidableEq, Repr

/-- An enabled frame program beyond its registers: its shape block, its mesh (header and tables) and NEED of each band (R375,
R376). -/
structure MdProg where
  num : Nat
  shape : List Byte
  hdr : List Byte
  nodes : List Byte
  modes : List Byte
  homs : List Byte
  need : List Nat
deriving DecidableEq, Repr

/-- A started job: its ring entry, its profile or schema, its list, the item that is next, each item's code, the result so far
(Table MAN-6), and where accepted items go: bucket and slot. -/
structure MdJob where
  queue : Nat
  entry : List Byte
  prof : List Byte := []
  list : List Byte := []
  next : Nat := 0
  codes : List Nat := []
  places : List (Option (Nat × Nat)) := []
  result : Nat := 1
deriving DecidableEq, Repr

/-- The Mandoline beyond its registers: enabled programs, started jobs, the band in progress (program and taken frame), the taken
frames whose program must abandon them after the band in progress, the queue that had the last turn, and notify writes under
way (address and value). -/
structure MandSt where
  progs : List MdProg := []
  jobs : List MdJob := []
  cur : Option (Nat × Nat) := none
  dropAfter : Bool := false
  turn : Nat := 3
  notifies : List (Nat × Nat) := []
deriving DecidableEq, Repr

/-- A zone that a solve has staged (R420): agent, lamp output, level, ramp, start and stop. -/
structure StagedZone where
  cmd : Nat
  out : Nat
  level : Nat
  ramp : Nat
  start : Nat
  stop : Nat
deriving DecidableEq, Repr

/-- The Orbit engine (spec/12): its queue in dispatch order, the running solve, the solves in commit, zones staged, the
next zone number, and its local store: header, lamp table, agent array and grid of the running solve (R405). -/
structure OrbitSt where
  queue : List Nat := []
  running : Option Nat := none
  committing : List Nat := []
  zones : List StagedZone := []
  nextZone : Nat := 0
  hdr : List Byte := []
  lamps : List Byte := []
  agents : List Byte := []
  grid : List Byte := []
deriving DecidableEq, Repr

/-- A LEVEL_SET that waits in the Farside for its crossing (R452). -/
structure FsPend where
  out : Nat
  num : Nat
  level : Nat
  ramp : Nat
  k : Nat
  spec : Bool
deriving DecidableEq, Repr

/-- An output of the Farside: its ramp (R454), its last level without SPEC (R455), and the DAPC steps sent. -/
structure FsOut where
  out : Nat
  start : Nat := 0
  target : Nat := 0
  ramp : Nat := 0
  t0 : Nat := 0
  base : Nat := 0
  specAt : Option Nat := none
  steps : Nat := 0
  /-- the arc level last sent on the DALI bus -/
  arc : Nat := 0
deriving DecidableEq, Repr

/-- The Farside die (spec/13). -/
structure FarsideSt where
  /-- FS_VIN is up, and at or below 10.0 V (R717) -/
  on : Bool := false
  vinLow : Bool := false
  /-- POWERUP_LEVEL has been applied, and the time of the load (R460) -/
  poweredUp : Bool := false
  loadAt : Nat := 0
  /-- the two copies of the parameter block in its own memory (empty: no valid block), the block in force (empty: ROM
  defaults), the accepted block that takes effect at the next crossing, the staging copy (R468 to R470) -/
  copyA : List Byte := []
  copyB : List Byte := []
  block : List Byte := []
  nextBlock : Option (List Byte) := none
  staging : List Byte := []
  /-- the Nearside number it expects (none: the first good one, R436), the last consumed (RX_ACK), its own next number,
  and the RESET flag of its HEARTBEAT -/
  expect : Option Nat := none
  rxAck : Nat := 0
  txNum : Nat := 0
  resetFlag : Bool := true
  /-- the counters of R430, R431 and R445, and the FS_FAULT count of each code -/
  crcCnt : Nat := 0
  seqErrCnt : Nat := 0
  unknownCnt : Nat := 0
  collisionCnt : Nat := 0
  faultCnt : List (Nat × Nat) := []
  /-- crossing index, measured period in us (0xFFFF none), and the last measurements (R441, R442) -/
  idx : Nat := 0
  period : Nat := 0xFFFF
  rms : Nat := 0
  freq : Nat := 0
  flags : Nat := 0
  lowPct : Nat := 0xFF
  sags : Nat := 0
  sinceMains : Nat := 0
  sinceIo : Nat := 0
  /-- failsafe (R456): crossings since the count restarted; a LEVEL_SET or HEARTBEAT consumed since the last crossing -/
  failsafe : Bool := false
  fsCount : Nat := 0
  heard : Bool := false
  cfgOut : List (Nat × Nat × Nat) := []
  cfgCycles : Option Nat := none
  cfgBackstop : Option Nat := none
  /-- pending LEVEL_SETs and outputs -/
  pend : List FsPend := []
  outs : List FsOut := []
  /-- field inputs, their changes since the last IO_STAT, the relay coil found faulty, the DALI bus in failure -/
  inputs : Nat := 0
  inChanged : Nat := 0
  coilFault : Bool := false
  busFail : Bool := false
deriving DecidableEq, Repr

/-- A Nearside message in the BARRIER block: number, time of its last send start, and its sixteen bytes. -/
structure BrMsg where
  num : Nat
  sentAt : Nat
  bytes : List Byte
deriving DecidableEq, Repr

/-- Who made a live request of the lamp arbiter (R461, R730). -/
inductive ReqKey where
  | ctx (n : Nat)
  | order (n : Nat)
  | zone (n : Nat)
  | boot
deriving DecidableEq, Repr

/-- A live request, with its ramp. -/
structure LampReq where
  key : ReqKey
  out : Nat
  level : Nat
  ramp : Nat
deriving DecidableEq, Repr

/-- A SPEC raise (R292): the command it comes from, and the cycle N it was sent for. -/
structure LampRaise where
  cmd : Nat
  key : ReqKey
  out : Nat
  level : Nat
  ramp : Nat
  sentFor : Option Nat := none
deriving DecidableEq, Repr

/-- The level an output has at the arbiter, and the LEVEL_SET that carried it (R463, R465). -/
structure LampOut where
  out : Nat
  level : Nat
  ramp : Nat
  spec : Bool
  /-- number of the LEVEL_SET once queued, its target cycle, and whether its LEVEL_ACK has arrived -/
  num : Option Nat := none
  cycle : Nat := 0
  acked : Bool := false
deriving DecidableEq, Repr

/-- A confirmed zone or a SPEC zone of the Orbit engine (R422, R461). -/
structure LampZone where
  id : Nat
  out : Nat
  level : Nat
  ramp : Nat
  start : Nat
  stop : Nat
  isOpen : Bool := false
deriving DecidableEq, Repr

/-- The clamp a schedule point has set (R467). -/
structure LampClamp where
  out : Nat
  smin : Nat
  smax : Nat
  ramp : Nat
deriving DecidableEq, Repr

/-- The BARRIER block and the lamp arbiter beyond their registers. -/
structure BarrierSt where
  /-- waiting Nearside messages (type and bytes 4 to 13), and outstanding ones, oldest first -/
  txq : List (List Byte) := []
  outst : List BrMsg := []
  /-- the Farside number expected (none: any), and the 64-entry receive FIFO -/
  rxNext : Option Nat := none
  rxq : List (List Byte) := []
  /-- nothing has been sent since the block's reset (R437) -/
  freshReset : Bool := true
  /-- DALI queries that wait for their reply, by tag; the next tag; replies that wait for a read (bytes 5 to 11) -/
  dqTags : List Nat := []
  dqTag : Nat := 0
  dqReplies : List (List Byte) := []
  /-- the GT cycle of the last HEARTBEAT sent (R458); the last IO_STAT and MAINS_STAT kept by the Pilot (R496) -/
  hbCycle : Nat := 0
  lastIo : List Byte := []
  lastMains : List Byte := []
  /-- the arbiter runs (from READY); its requests, raises, outputs, zones and clamps; the end of the boot hold (R730) -/
  arbOn : Bool := false
  reqs : List LampReq := []
  raises : List LampRaise := []
  lamps : List LampOut := []
  zones : List LampZone := []
  clamps : List LampClamp := []
  bootEnd : Option Nat := none
  /-- schedule points in the Ephemeris: point and GT of the next occurrence (R467) -/
  points : List (Nat × Nat) := []
deriving DecidableEq, Repr

/-- A picture of a Compositor output (R483 to R486): what it is (0 composed, 1 BLANK, 2 HOLD), its boundary GT and buffer, the
base frame with its buffer (Sieve, context, output, buffer), the mask bitmap, whether the mask is static, whether a layer was skipped
or reused, and the layer buffers to draw (layer 0 annotation, 1 status, and buffer index). -/
structure CompPic where
  out : Nat
  kind : Nat
  bGt : Nat
  buf : Nat
  base : Option (Nat × Nat × Nat × Nat) := none
  frame : Nat := 0xFFFFFFFF
  capGt : Nat := 0
  mask : Option (List Byte) := none
  isStatic : Bool := false
  altered : Bool := false
  layers : List (Nat × Nat) := []
  blank : Bool := false
deriving DecidableEq, Repr

/-- A Compositor output beyond its registers: the last boundary judged, its previous picture, the count of holds, the static mask read, a
reload asked for, and for each layer the posted buffer, the content, and the buffers in use. -/
structure CompOut where
  num : Nat
  lastGt : Nat := 0
  prev : Option CompPic := none
  held : Nat := 0
  mask : Option (List Byte) := none
  reload : Bool := true
  posted : List (Nat × Nat) := []
  content : List (Nat × Nat) := []
  inUse : List (Nat × Nat) := []
deriving DecidableEq, Repr

/-- An Encoder session beyond its registers: pictures queued, the one being coded with its type (1 IDR, 2 P, 3 JPEG), whether an IDR is due,
pictures coded since the last IDR, whether a drop has come since the last record, reference pictures written, and the boundary GT of the
picture it started while the Compositor still wrote it. -/
structure EncSes where
  num : Nat
  queue : List CompPic := []
  coding : Option (CompPic × Nat) := none
  needIdr : Bool := true
  since : Nat := 0
  dropped : Bool := false
  refs : Nat := 0
  early : Option Nat := none
deriving DecidableEq, Repr

/-- The Compositor and the Encoder (spec/14): outputs, pictures decided and not started, the picture in progress, holds of it that wait, and
sessions. -/
structure VideoSt where
  outs : List CompOut := []
  waiting : List CompPic := []
  cur : Option CompPic := none
  holds : List CompPic := []
  sessions : List EncSes := []
deriving DecidableEq, Repr

/-- A running Simmer program (R509): slot (0 WAKE, 1 EVENT), its WIN, EVAL and outputs, and the hop number of its last evaluation. -/
structure SimProg where
  slot : Nat
  win : Nat
  eval : Nat
  outs : Nat
  last : Nat
deriving DecidableEq, Repr

/-- An audio export in progress (R520): its source, destination and bytes. -/
structure AudioExport where
  src : Nat
  dst : Nat
  bytes : List Byte
deriving DecidableEq, Repr

/-- The Pilot's audio beyond its registers (spec/15). -/
structure PilSt where
  /-- elapsed time at Pilot power-up, and analysis samples taken since (R499) -/
  t0 : Nat := 0
  done : Nat := 0
  /-- a rate that has been called for, and when (R502); the sample at which the last fade began (R503) -/
  rateReq : Option (Nat × Nat) := none
  fade : Option Nat := none
  /-- the LIVE buffer's samples, newest first, and the first it holds since it became LIVE (R508) -/
  live : List Nat := []
  liveFrom : Nat := 0
  /-- the FROZEN buffer: W and its samples in order -/
  frozen : Option (Nat × List Nat) := none
  /-- GT at which the samples that start a frame or end one arrived; samples whose sum saturated -/
  stamps : List (Nat × Nat) := []
  clips : List Nat := []
  /-- the next feature frame, and the feature ring, newest first: frame number and record (R507) -/
  frame : Nat := 0
  feats : List (Nat × List Byte) := []
  /-- the Simmer: programs, evaluations so far, consecutive ones at or above DET_THR and below ARM_THR, the number of the last
  detection's evaluation, the last scores of the EVENT program, its queued events (class, score, GT) -/
  progs : List SimProg := []
  evals : Nat := 0
  detRun : Nat := 0
  lowRun : Nat := 0
  lastDet : Option Nat := none
  scores : List Nat := []
  events : List (Nat × Nat × Nat) := []
  /-- a deferred OFF request, by its time (R516) -/
  offReq : Option Nat := none
  exporting : Option AudioExport := none
  /-- streaming: the next hop, the next feature frame, and catching up after a main power-up (R519) -/
  hop : Nat := 0
  strFrame : Nat := 0
  catchUp : Bool := false
deriving DecidableEq, Repr

/-- A Kettle group's sequencer (R538 to R540): the operating points its supply and its PLL stand at, forward bias applied, and the step in
progress: 1 supply, 2 body bias, 3 relock, with its value. -/
structure GrpSt where
  supply : Nat := 3
  bias : Bool := false
  pll : Nat := 3
  step : Option (Nat × Nat) := none
deriving DecidableEq, Repr

/-- Power domains and transitions (spec/16). -/
structure PwrSt where
  /-- the Nearside main domain, and the Pilot domain, are powered -/
  mainOn : Bool := true
  pilotOn : Bool := true
  /-- the state: 0 RUN, 2 WATCH, 3 REST, 4 DEEP, 5 OFF; the accepted request under way: target and the state it came from -/
  st : Nat := 0
  trans : Option (Nat × Nat) := none
  /-- logical Kettles gated, or to be gated, in the present or the requested state -/
  gate : Nat := 0
  /-- an enabled wake cause has latched since the entry was accepted; wakes are blocked after a trip (R552); the next cold boot
  reports it -/
  wake : Bool := false
  tripBlock : Bool := false
  tripped : Bool := false
  /-- elapsed time of the main rails' last switch-off; the main rails, and the Pilot rail, are rising -/
  offAt : Nat := 0
  rising : Bool := false
  pilotRising : Bool := false
  /-- RST_CAUSE of the next start, and the state that a resume goes to (0 RUN, 2 WATCH) -/
  cause : Nat := 1
  resume : Nat := 0
  /-- what the resume record holds of the pages that firmware owns: key and value -/
  saved : List (Nat × Nat) := []
  /-- CSI ports powered, and host cores powered, as masks -/
  ports : Nat := 0xFFFF
  hosts : Nat := 1
  groups : List GrpSt := [{}, {}, {}]
  /-- supply outputs folded back (3b AVDDb, 3b + 1 DVDDb, 3b + 2 IOVDDb, 12 MIC_VDD), with the time of the last trial -/
  folded : List (Nat × Nat) := []
deriving DecidableEq, Repr

/-- The host side beyond its registers (spec/17). -/
structure HostSt where
  /-- vectors whose message of the present PENDING episode has been sent or deferred to its PBA bit; the time of each vector's last
  message (R566) -/
  sent : List Nat := []
  lastMsg : List (Nat × Nat) := []
  /-- the FIFOs of the host UART and of the GNSS UART, oldest byte first (R573, R575) -/
  huRx : List Byte := []
  huTx : List Byte := []
  gnRx : List Byte := []
  gnTx : List Byte := []
  /-- the GPIO lines that the board drives, and the level of each line on the board (R576) -/
  pinDrv : Nat := 0
  pinLvl : Nat := 0
  /-- elapsed time of the last qualified PPS edge, and of the last PTP event of each port (R572, R574) -/
  ppsAt : Option Nat := none
  ptpAt : List (Nat × Nat) := []
deriving DecidableEq, Repr

/-- Firmware and boot beyond their registers (spec/18). -/
structure FwSt where
  /-- the mailbox command in progress: its code and its arguments; firmware acts on it -/
  cmd : Option (Nat × List Nat) := none
  acting : Bool := false
  /-- a supply warning stands: BROWNOUT_WARN, VIN_WARN (R603, R604) -/
  brown : Bool := false
  vinLow : Bool := false
  /-- the running image's produced handover format, and the PILOT section that the Pilot controller runs -/
  hver : Nat := 0
  pilotSec : List Byte := []
  /-- the two banks of Sous SRAM, and which one is RUNNING (R580) -/
  banks : List (List Byte) := [[], []]
  running : Nat := 0
  /-- the image loaded into the STANDBY bank that waits for the handover (R606): its slot, header and digest -/
  standby : Option (Nat × List Byte × List Byte) := none
deriving DecidableEq, Repr

/-- An entry of the repair ledger (R637): SEQ, GT, kind (0 COLUMN, 1 BANK, 2 KETTLE_DECIDED, 3 KETTLE_SWITCHED, 4 KETTLE_OUT,
5 RETIRED), physical tile, unit, logical Kettle, and the row of Table RPR-2 that caused it. -/
structure LedgerEnt where
  seq : Nat
  gt : Nat
  kind : Nat
  tile : Nat
  unit : Nat
  logical : Nat
  cause : Nat
deriving DecidableEq, Repr

/-- A column or bank repair that waits for its tile's slots (R616): tile, bank or column, its number. -/
structure UnitRepair where
  tile : Nat
  bank : Bool
  unit : Nat
  cause : Nat
deriving DecidableEq, Repr

/-- Repair beyond its registers (spec/19). -/
structure RepairSt where
  /-- the active half of the ledger, oldest first -/
  ledger : List LedgerEnt := []
  /-- KETTLE repairs that wait (R626), logical Kettle and cause; the cause of the running remap -/
  waiting : List (Nat × Nat) := []
  cause : Nat := 0
  units : List UnitRepair := []
  /-- spare columns and banks that failed: tile, bank or column, spare -/
  badSpares : List (Nat × Bool × Nat) := []
  /-- correctable errors of a bank since boot, by tile * 32 + bank; consecutive refreshes below AGE_FAIL, by tile (R623) -/
  bankCe : List (Nat × Nat) := []
  ageLow : List (Nat × Nat) := []
  /-- the Kettle whose canary runs; whose turn it is; kills in a row; the GT cycle of each Kettle's last start; Kettles whose
  canary is due at once (R619, R620, R624) -/
  canary : Option Nat := none
  turn : Nat := 0
  killed : Nat := 0
  lastRun : List (Nat × Nat) := []
  atOnce : List Nat := []
deriving DecidableEq, Repr

/-- A flit that a Skewer port keeps until it is acknowledged (R662): its number, its 64 bytes, when it was last sent, and how often it
has been resent. -/
structure SkFlit where
  lseq : Nat
  bytes : List Byte
  sentAt : Nat
  resends : Nat := 0
deriving DecidableEq, Repr

/-- A message, or a flit of one that is passed on, which waits for credits at a port: virtual channel, the payloads of its flits, whether
the first of them starts a message, and whether it is passed on (R665). -/
structure SkMsg where
  vc : Nat
  flits : List (List Byte)
  first : Bool := true
  passed : Bool := false
deriving DecidableEq, Repr

/-- A Skewer port beyond its registers (R660 to R664): the next number it sends and the next it expects, the replay buffer, whether the
one NAK of a gap has been sent, when RETRAIN was entered, what waits, and the destination of the message that arrives on each VC. -/
structure SkPort where
  num : Nat
  txSeq : Nat := 0
  rxSeq : Nat := 0
  kept : List SkFlit := []
  nakSent : Bool := false
  retrainAt : Nat := 0
  waiting : List SkMsg := []
  cur : List (Nat × Nat) := []
deriving DecidableEq, Repr

/-- A transaction without its response (R680): destination, TAG, message type (0 RD, 1 WR, 2 DELEGATE, 3 CTX_WR, 4 KILL), the command it
serves with the writes it stands for, the port it left by, and the message. -/
structure SkTxn where
  dest : Nat
  tag : Nat
  type : Nat
  cmd : Option Nat
  units : Nat
  port : Nat
  msg : SkMsg
deriving DecidableEq, Repr

/-- A TAG that has been performed for a source, with the response (R669): its type (5 RD_DATA, 6 WR_ACK, 7 ERR, 8 REPORT) and its data. -/
structure SkDone where
  src : Nat
  tag : Nat
  type : Nat
  data : List Byte
deriving DecidableEq, Repr

/-- A DELEGATE that has been performed (R670): context, SEQ, attempt, the command here, and the latest REPORT sent for it: 0 none,
1 start, 2 commit entered, 3 complete, 4 killed. -/
structure SkDeleg where
  ctx : Nat
  seq : Nat
  attempt : Nat
  id : Nat
  report : Nat := 0
deriving DecidableEq, Repr

/-- A command that the head has placed on another member (R676): its number, the member, and the last REPORT held. -/
structure SkPlaced where
  id : Nat
  member : Nat
  report : Nat := 0
deriving DecidableEq, Repr

/-- The Skewer ring and the cabinet beyond their registers (spec/20). -/
structure SkSt where
  ports : List SkPort := []
  /-- the next TAG for each destination; transactions without a response; what has been performed for each source -/
  tags : List (Nat × Nat) := []
  txns : List SkTxn := []
  done : List SkDone := []
  /-- DELEGATEs performed here; commands placed on others; the partitions of other members' contexts -/
  deleg : List SkDeleg := []
  placed : List SkPlaced := []
  parts : List (Nat × Nat) := []
  /-- the head: last HEARTBEAT of each follower; LOST_ACKs awaited, as lost member and follower -/
  beats : List (Nat × Nat) := []
  acks : List (Nat × Nat) := []
  /-- members whose messages are dropped (R675); the ring is known to be broken (R680) -/
  dropped : List Nat := []
  broken : Bool := false
  /-- elapsed time of the last TIME message, and of the last HEARTBEAT sent -/
  timeAt : Option Nat := none
  hbAt : Nat := 0
deriving DecidableEq, Repr


/-- The whole state. -/
structure State where
  /-- the commands that wait, first in, first out -/
  pending : List Instr := []
  /-- live register fields that differ from their reset values, by key (Field.lean) -/
  regs : List (Nat × Nat) := []
  /-- shadow copies of RWS fields that differ from their reset values (R689) -/
  shad : List (Nat × Nat) := []
  /-- HI halves latched by a read of the LO word (R58), by key -/
  lat : List (Nat × Nat) := []
  /-- every memory of the device by place (Ops.lean, placeOf) -/
  mem : List Host.Cell := []
  /-- poisoned 64-bit words (R118, R126), by place / 8 -/
  poison : List (Nat × Bool) := []
  /-- armed page commits -/
  armed : List Armed := []
  /-- the GT counter (R34) and SI time in TAI ns, and the part of a nanosecond SI has run on -/
  gt : Nat := 0
  si : Nat := 0
  siSub : Nat := 0
  /-- elapsed time in ns, as the MEMS oscillator counts it (R40, R499), and the part of a nanosecond it has run on -/
  now : Nat := 0
  nowSub : Nat := 0
  /-- the model's own: how many free values have been taken -/
  fresh : Nat := 0
  /-- the model's own: what the last register or bus read returned, and whether it was an error response -/
  rdata : Nat := 0
  rerr : Bool := false
  /-- the model's own: what has left the block, the latest first -/
  outs : List Out := []
  /-- the Orrery and the clock blocks -/
  orr : OrrerySt := {}
  /-- CAPTURE entries of the Ephemeris (LAMP entries are the enabled schedule points, STANDING entries the armed standing orders) -/
  captures : List CaptureEnt := []
  /-- the physical tiles that hold anything beyond their registers -/
  tiles : List TileSt := []
  /-- registered recipes -/
  recipes : List Recipe := []
  /-- contexts, commands and the scheduler -/
  sch : SchedSt := {}
  /-- cameras, sensors and provisional results -/
  cam : CamSt := {}
  /-- the Sieves -/
  sv : SieveSt := {}
  /-- tensor buffers in use -/
  tbufs : List TBuf := []
  /-- the Mandoline -/
  md : MandSt := {}
  /-- the Orbit engine -/
  orb : OrbitSt := {}
  /-- the Farside die -/
  fs : FarsideSt := {}
  /-- the BARRIER block and the lamp arbiter -/
  br : BarrierSt := {}
  /-- dynamic mask slots that are VALID: output and slot (R479) -/
  maskValid : List (Nat × Nat) := []
  /-- the Compositor and the Encoder -/
  vid : VideoSt := {}
  /-- the Pilot's audio -/
  pil : PilSt := {}
  /-- power domains and transitions -/
  pwr : PwrSt := {}
  /-- the host side -/
  host : HostSt := {}
  /-- firmware and boot -/
  fw : FwSt := {}
  /-- repair and health -/
  rep : RepairSt := {}
  /-- the Skewer ring and the cabinet -/
  sk : SkSt := {}
deriving DecidableEq, Repr

/-- The machine right after reset: main power-good of a cold start (R726), every register at its reset value, GT at
`0:0000`, memories with nothing listed, and no command waiting. -/
def State.reset : State := {}

end Sys2Proof.Machine
end

