-- ==== Sys2Proof/Machine/Ops.lean ====
section
/-! DEFINITION. The named operations over registers, events, memory and the block's outputs. Every family of commands
reads and writes the state through these. -/

namespace Sys2Proof.Machine

/-! ### Registers -/

/-- The live value of a field: page p and index i counted from the field's first. -/
def State.rd (s : State) (f : Fld) (p : Nat := 0) (i : Nat := 0) : Nat :=
  storeGet (f.rst p i) s.regs (f.key p i)

/-- The live value of a one-bit field. -/
def State.rdB (s : State) (f : Fld) (p : Nat := 0) (i : Nat := 0) : Bool := s.rd f p i == 1

/-- A field given a value; a value wider than the field keeps its low bits. -/
def State.wr (s : State) (f : Fld) (p i v : Nat) : State :=
  { s with regs := storeSet (f.rst p i) s.regs (f.key p i) (v % 2 ^ f.width) }

/-- A one-bit field given a value. -/
def State.wrB (s : State) (f : Fld) (p i : Nat) (b : Bool) : State := s.wr f p i (b2n b)

/-- A 32-bit counter advanced by k; it saturates (R30). -/
def State.inc (s : State) (f : Fld) (p i : Nat) (k : Nat := 1) : State := s.wr f p i (satInc (s.rd f p i) k)

/-- A counter that wraps advanced by k. -/
def State.addW (s : State) (f : Fld) (p i k : Nat) : State := s.wr f p i (s.rd f p i + k)

/-- The shadow copy of an RWS field (R689). -/
def State.rdSh (s : State) (f : Fld) (p i : Nat) : Nat := storeGet (f.rst p i) s.shad (f.key p i)

/-- The shadow copy given a value. -/
def State.wrSh (s : State) (f : Fld) (p i v : Nat) : State :=
  { s with shad := storeSet (f.rst p i) s.shad (f.key p i) (v % 2 ^ f.width) }

/-- An event of a page sets its EVT_RAW bit (R685). -/
def State.raise (s : State) (page bit : Nat) : State :=
  s.wr F.REG_EVT_RAW page 0 (setBit (s.rd F.REG_EVT_RAW page 0) bit)

/-- The field of BLK_FAULT that bit b names. -/
def faultFld (b : Nat) : Fld :=
  if b = 0 then F.REG_BLK_FAULT_ACCESS_ERR else if b = 1 then F.REG_BLK_FAULT_LOCKED_WR else F.REG_BLK_FAULT_SHADOW_ERR

/-- A faulting access (R688): its BLK_FAULT bit is set, its offset goes to OFS, and the FAULT event is raised when the
bit goes from 0 to 1 (R687). -/
def State.accFault (s : State) (page b ofs : Nat) : State :=
  let s1 := if s.rdB (faultFld b) page 0 then s else s.raise page 31
  (s1.wr (faultFld b) page 0 1).wr F.REG_BLK_FAULT_OFS page 0 ofs

/-! ### Outputs and free values -/

/-- Something leaves the block. -/
def State.emit (s : State) (o : Out) : State := { s with outs := o :: s.outs }

/-- The next free value of w bits. -/
def State.freeVal (s : State) (w : Nat) : Nat := Config.freeValue s.fresh % 2 ^ w

/-- A free value has been taken. -/
def State.tookFree (s : State) : State := { s with fresh := s.fresh + 1 }

/-! ### Places and the address map (Table CEL-5) -/

/-- Where an address leads. -/
inductive Loc where
  /-- a byte of memory, by place: the device physical address of its region with the PHYSICAL tile or vault number in
  place of the logical one -/
  | mem (place : Nat)
  /-- a register page and offset -/
  | reg (page ofs : Nat)
  /-- another member's memory or registers (R646) -/
  | remote (m : Nat)
  /-- no such address (R147) -/
  | bad
deriving DecidableEq, Repr

def larderBase : Nat := 0x10000000
def flashBase : Nat := 0x80000000
def pantryBase : Nat := 0x800000000
def pantryStride : Nat := 0x1000000
def pantrySize : Nat := 0x400000
def cellarBase : Nat := 0x1000000000
def vaultSize : Nat := 0x40000000
def iwinBase : Nat := 0x2000000000
def iwinStride : Nat := 0x400000000
/-- Pilot SRAM has no device address; its places follow every other (R495). -/
def pilotBase : Nat := 0x4000000000

/-- The place of offset o of the Pantry of physical tile p, of physical vault p, and of the Pilot SRAM. -/
def pantryPlace (p o : Nat) : Nat := pantryBase + p * pantryStride + o
def vaultPlace (p o : Nat) : Nat := cellarBase + p * vaultSize + o
def pilotPlace (o : Nat) : Nat := pilotBase + o

/-- What a byte of memory that nothing has written reads as: 0xFF in the flash (R581, an erased byte), else 0 (R138 for
the Larder; DESIGN CHOICE, log 4, elsewhere). -/
def memDflt (place : Nat) : Byte := if flashBase ≤ place ∧ place < flashBase + 0x10000000 then 0xFF#8 else 0x00#8

/-- The physical tile that serves logical Kettle k, if one does (KMAP). -/
def State.tileOf (s : State) (k : Nat) : Option Nat :=
  let p := s.rd F.RP_KMAP_PHYS 0 k
  if p < 18 then some p else none

/-- The logical Kettle that physical tile p serves, if it serves one. -/
def State.kettleOf (s : State) (p : Nat) : Option Nat :=
  (List.range 16).find? (fun k => s.rd F.RP_KMAP_PHYS 0 k == p)

/-- Physical tile p is gated: it is RETIRED (R630), or serves a Kettle that is gated or OUT (R635). -/
def State.tileGated (s : State) (p : Nat) : Bool :=
  s.rd F.RP_TILE_STAT_STATE 0 p == 2 ||
  match s.kettleOf p with
  | some k => bitOf (s.rd F.PWR_KGATED 0 0) k || s.rd F.RP_KMAP_STATE 0 k == 3
  | none => false

/-- The byte of logical vault v at offset o. -/
def State.cellarLoc (s : State) (v o : Nat) : Loc :=
  match s.tileOf v with
  | some p => .mem (vaultPlace p o)
  | none => .bad

/-- R131: window w at offset a. -/
def State.windowLoc (s : State) (w a : Nat) : Loc :=
  let n := 2 ^ s.rd F.TV_IWIN_CFG_COUNT_LOG2 0 w
  let g := 256 * 2 ^ s.rd F.TV_IWIN_CFG_GRAN_LOG2 0 w
  if s.rdB F.TV_IWIN_CFG_EN 0 w && decide (a < n * s.rd F.TV_IWIN_LEN 0 w * 2 ^ 20) then
    s.cellarLoc (s.rd F.TV_IWIN_CFG_FIRST 0 w + a / g % n) (s.rd F.TV_IWIN_OFS 0 w * 2 ^ 20 + a / g / n * g + a % g)
  else .bad

/-- Table CEL-5, with the rules of R147, for an address whose bits 47:44 name this device. -/
def State.locLocal (s : State) (a : Nat) : Loc :=
  if a < 0x40000 then .mem a
  else if larderBase ≤ a ∧ a < larderBase + 0x1000000 then .mem a
  else if 0x40000000 ≤ a ∧ a < 0x44000000 then .reg ((a - 0x40000000) / 0x1000) (a % 0x1000)
  else if flashBase ≤ a ∧ a < flashBase + 0x10000000 then .mem a
  else if pantryBase ≤ a ∧ a < pantryBase + 16 * pantryStride then
    if (a - pantryBase) % pantryStride < pantrySize then
      match s.tileOf ((a - pantryBase) / pantryStride) with
      | some p => if s.tileGated p then .bad else .mem (pantryPlace p ((a - pantryBase) % pantryStride))
      | none => .bad
    else .bad
  else if cellarBase ≤ a ∧ a < cellarBase + 16 * vaultSize then
    s.cellarLoc ((a - cellarBase) / vaultSize) ((a - cellarBase) % vaultSize)
  else if iwinBase ≤ a ∧ a < iwinBase + 8 * iwinStride then
    s.windowLoc ((a - iwinBase) / iwinStride) ((a - iwinBase) % iwinStride)
  else .bad

/-- Table CEL-5 and R646: where a 48-bit address leads. -/
def State.locate (s : State) (a : Nat) : Loc :=
  let top := bitsOf a 44 4
  if s.rd F.SK_STAT_ROLE 0 0 = 0 then
    if top = 0 then s.locLocal a else .bad
  else if top = s.rd F.SK_STAT_CAB_ID 0 0 then s.locLocal (a % 2 ^ 44)
  else if top < 8 ∧ bitOf (s.rd F.SK_STAT_MEMBERS 0 0) top then .remote top
  else .bad

/-- The place an address leads to, if it is memory. -/
def State.placeOf (s : State) (a : Nat) : Option Nat :=
  match s.locate a with
  | .mem pl => some pl
  | _ => none

/-! ### Reading and writing memory -/

/-- One byte by place. -/
def State.byteAt (s : State) (place : Nat) : Byte := storeGet (memDflt place) s.mem place

/-- One byte by place given a value. -/
def State.setByte (s : State) (place : Nat) (b : Byte) : State :=
  { s with mem := storeSet (memDflt place) s.mem place b }

/-- n bytes from a place. -/
def State.bytesAt (s : State) (place n : Nat) : List Byte := (List.range n).map (fun k => s.byteAt (place + k))

/-- Bytes written from a place, in rising order. -/
def State.setBytes (s : State) (place : Nat) : List Byte → State
  | [] => s
  | b :: t => (s.setByte place b).setBytes (place + 1) t

/-- The 64-bit word that holds a place is poisoned. -/
def State.isPoison (s : State) (place : Nat) : Bool := storeGet false s.poison (place / 8)

/-- The 64-bit word that holds a place is marked, or cleared of its mark. -/
def State.setPoison (s : State) (place : Nat) (b : Bool) : State :=
  { s with poison := storeSet false s.poison (place / 8) b }

/-- The vault, the Pantry, or neither, that holds a place. -/
def vaultOf (place : Nat) : Option Nat :=
  if cellarBase ≤ place ∧ place < cellarBase + 18 * vaultSize then some ((place - cellarBase) / vaultSize) else none
def pantryOf (place : Nat) : Option Nat :=
  if pantryBase ≤ place ∧ place < pantryBase + 18 * pantryStride then some ((place - pantryBase) / pantryStride) else none

/-- An uncorrectable read at a place (R118, R124, R136, R495): its counter advances, its address is recorded and its event raised. -/
def State.noteUE (s : State) (place : Nat) : State :=
  match vaultOf place, pantryOf place with
  | some p, _ =>
    (((s.inc F.VC_ECC_UE_CNT p 0).wr F.VC_ECC_UE_ADDR_OFS p 0 ((place - cellarBase) % vaultSize)).wr
      F.VC_ECC_UE_ADDR_VALID p 0 1).raise (0x30 + p) 1
  | none, some p =>
    (((s.inc F.KT_PANTRY_UE_CNT p 0).wr F.KT_PANTRY_UE_ADDR_OFS p 0 ((place - pantryBase) % pantryStride)).wr
      F.KT_PANTRY_UE_ADDR_VALID p 0 1).raise (0x10 + p) 6
  | none, none =>
    if larderBase ≤ place ∧ place < larderBase + 0x1000000 then
      (((s.inc F.TV_LARDER_UE_CNT 0 0).wr F.TV_LARDER_UE_ADDR_OFS 0 0 (place - larderBase)).wr
        F.TV_LARDER_UE_ADDR_VALID 0 0 1).raise 0x50 3
    else if pilotBase ≤ place then
      ((s.inc F.PL_UE_CNT 0 0).wr F.PL_UE_ADDR_OFS 0 0 (place - pilotBase)).wr F.PL_UE_ADDR_VALID 0 0 1
    else s

/-- A correctable error at a place (R117, R124, R136, R495). The corrected data is delivered and written back. -/
def State.noteCE (s : State) (place : Nat) : State :=
  match vaultOf place, pantryOf place with
  | some p, _ => (s.inc F.VC_ECC_CE_CNT p 0).raise (0x30 + p) 0
  | none, some p => (s.inc F.KT_PANTRY_CE_CNT p 0).raise (0x10 + p) 5
  | none, none =>
    if larderBase ≤ place ∧ place < larderBase + 0x1000000 then (s.inc F.TV_LARDER_CE_CNT 0 0).raise 0x50 2
    else if pilotBase ≤ place then s.inc F.PL_CE_CNT 0 0
    else s

/-- A refused access (R147): counted, its address recorded, its event raised. -/
def State.addrFault (s : State) (a : Nat) : State :=
  ((((s.inc F.TV_ADDR_FAULT_CNT 0 0).wr F.TV_ADDR_FAULT_LO 0 0 a).wr F.TV_ADDR_FAULT_HI_ADDR 0 0 (a / 2 ^ 32)).wr
    F.TV_ADDR_FAULT_HI_VALID 0 0 1).raise 0x50 4

/-- The places of n bytes from an address, if all of them are memory of this device. -/
def State.places (s : State) (a : Nat) : Nat → Option (List Nat)
  | 0 => some []
  | n + 1 =>
    match s.placeOf a, s.places (a + 1) n with
    | some p, some t => some (p :: t)
    | _, _ => none

/-- What a read of n bytes at an address answers: the bytes, and whether one lies in a poisoned word; none where an
access of it gives an error response. -/
def State.peek (s : State) (a n : Nat) : Option (List Byte × Bool) :=
  (s.places a n).map (fun ps => (ps.map s.byteAt, ps.any s.isPoison))

/-- The effects of a read on counters: bytes read from a vault, the first uncorrectable word, or the address fault. -/
def State.noteRead (s : State) (a n : Nat) : State :=
  match s.places a n with
  | none => s.addrFault a
  | some ps =>
    let s1 := match ps.head?.bind vaultOf with
      | some p => s.addW F.VC_RD_BYTES p 0 n
      | none => s
    match ps.find? s.isPoison with
    | some pl => s1.noteUE pl
    | none => s1

/-- Whether the word of a place is covered whole by the places written. -/
def wholeWord (ps : List Nat) (place : Nat) : Bool :=
  (List.range 8).all (fun k => ps.contains (place / 8 * 8 + k))

/-- Bytes stored at their places. A word that was poisoned stays so unless it is written whole (R111, R126); data
poisoned in transit marks every word it fills (R144). -/
def State.putPlaces (s : State) (all : List Nat) (bad : Bool) : List Nat → List Byte → State
  | p :: ps, b :: bs =>
    let s1 := s.setByte p b
    let s2 := if bad then s1.setPoison p true else if wholeWord all p then s1.setPoison p false else s1
    s2.putPlaces all bad ps bs
  | _, _ => s

/-- A Boot ROM or flash place: a write there gives an error response (R147, R582). -/
def readOnlyPlace (place : Nat) : Bool :=
  decide (place < 0x40000) || decide (flashBase ≤ place ∧ place < flashBase + 0x10000000)

/-- A write of bytes at an address: performed, or refused with nothing changed but the fault's record (R147). -/
def State.poke (s : State) (a : Nat) (bs : List Byte) (bad : Bool := false) : State :=
  match s.places a bs.length with
  | none => s.addrFault a
  | some ps =>
    if ps.any readOnlyPlace then s.addrFault a
    else
      let s1 := match ps.head?.bind vaultOf with
        | some p => s.addW F.VC_WR_BYTES p 0 bs.length
        | none => s
      let s2 := match ps.find? (fun p => s.isPoison p && !wholeWord ps p) with
        | some pl => s1.noteUE pl
        | none => s1
      s2.putPlaces ps bad ps bs

/-- Whether a write at an address is performed. -/
def State.pokeOk (s : State) (a n : Nat) : Bool :=
  match s.places a n with
  | none => false
  | some ps => !ps.any readOnlyPlace

/-- Memory from a place to below another lost: it reads as if nothing had written it. -/
def State.forget (s : State) (lo hi : Nat) : State :=
  { s with mem := s.mem.filter (fun c => !(decide (lo ≤ c.1) && decide (c.1 < hi))),
           poison := s.poison.filter (fun c => !(decide (lo / 8 ≤ c.1) && decide (c.1 < hi / 8))) }

/-! ### Time -/

/-- What one phase unit of GT adds to SI time, in units of 1 / 19,660,800 ns: a cycle lasts 20 ms at 50 Hz and 1/60 s
at 60 Hz (R13, Table SCO-5). -/
def State.siPerUnit (s : State) : Nat := if s.orr.nominal60 then 5000000000 else 6000000000

/-- MAP_STAT.MAP_VALID (R56): 0 while the SI channel is FREE or LOST. -/
def State.mapValid (s : State) : Bool := s.rd F.ORR_CH_STAT_STATE 0 1 != 0 && s.rd F.ORR_CH_STAT_STATE 0 1 != 4

/-! ### Wake causes -/

/-- A wake cause of Table PIL-6 that WAKE_EN enables latches (R496). -/
def State.wakeLatch (s : State) (c : Nat) : State :=
  if bitOf (s.rd F.PL_WAKE_EN 0 0) c then
    let t := { s with pwr := { s.pwr with wake := true } }
    (t.wr F.PL_WAKE_CAUSE 0 0 (setBit (t.rd F.PL_WAKE_CAUSE 0 0) c)).raise 0x080 0
  else s

/-! ### Domains -/

/-- A page whose domain is powered (R33, Table PWR-2): the Pilot pages follow the Pilot domain, a Kettle page its tile, a port its own
switch, the blocks that are off in WATCH the state, every other page the main domain. -/
def State.pageOn (s : State) (page : Nat) : Bool :=
  if page = 0x080 ∨ page = 0x081 ∨ page = 0x090 then s.pwr.pilotOn
  else if 0x010 ≤ page ∧ page ≤ 0x021 then s.pwr.mainOn && !s.tileGated (page - 0x010)
  else if 0x060 ≤ page ∧ page ≤ 0x06F then s.pwr.mainOn && bitOf s.pwr.ports (page - 0x060)
  else if page ∈ [0x071, 0x078, 0x07C, 0x0A0, 0x0A1, 0x0B0, 0x0B2, 0x0C0] then s.pwr.mainOn && s.pwr.st != 2
  else s.pwr.mainOn

/-- The mapped pages are exactly those of Table REG-7 (R702). -/
def mappedPage (page : Nat) : Bool :=
  decide (page ≤ 0x007) || (decide (0x010 ≤ page) && decide (page ≤ 0x021)) || (decide (0x030 ≤ page) && decide (page ≤ 0x041))
    || [0x050, 0x070, 0x071, 0x078, 0x07C, 0x080, 0x081, 0x090, 0x0A0, 0x0A1, 0x0B0, 0x0B1, 0x0B2, 0x0B4, 0x0B8, 0x0C0,
        0x0D0, 0x0E0].contains page
    || (decide (0x060 ≤ page) && decide (page ≤ 0x06F)) || (decide (0x100 ≤ page) && decide (page ≤ 0x1FF))

/-! ### Lists of records -/

/-- The records that satisfy p replaced by f of them. -/
def updWhere {α : Type} (p : α → Bool) (f : α → α) (l : List α) : List α := l.map (fun x => if p x then f x else x)

/-- Replace position k. -/
def setAt {α : Type} : List α → Nat → α → List α
  | [], _, _ => []
  | _ :: t, 0, x => x :: t
  | h :: t, k + 1, x => h :: setAt t k x

/-- Map position k. -/
def modAt {α : Type} (f : α → α) : List α → Nat → List α
  | [], _ => []
  | h :: t, 0 => f h :: t
  | h :: t, k + 1 => h :: modAt f t k

end Sys2Proof.Machine
end

