-- ==== Sys2Proof/Machine/Skew.lean ====
section
/-! DEFINITION. The Skewer link layer (spec/20, R641 to R645, R658 to R668): flits, CRC, numbers, replay, credits, routes, messages and
transactions. -/

namespace Sys2Proof.Machine

/-- The SKEWER page. -/
def skPage : Nat := 0x0C0

/-- The block is there and powered (R3). -/
def State.skOn (s : State) : Bool := s.pageOn skPage && s.rd F.SEC_FUSE_CFG_GRADE 0 0 != 1

def State.skRole (s : State) : Nat := s.rd F.SK_STAT_ROLE 0 0
def State.skMe (s : State) : Nat := s.rd F.SK_STAT_CAB_ID 0 0
def State.skMember (s : State) (m : Nat) : Bool := bitOf (s.rd F.SK_STAT_MEMBERS 0 0) m

/-- The members of the cabinet but this one. -/
def State.skOthers (s : State) : List Nat := (List.range 8).filter (fun m => s.skMember m && m != s.skMe)

def State.skPort (s : State) (n : Nat) : SkPort := (s.sk.ports.find? (fun p => p.num == n)).getD { num := n }
def State.setSkPort (s : State) (p : SkPort) : State :=
  { s with sk := { s.sk with ports := p :: s.sk.ports.filter (fun x => x.num != p.num) } }
def State.skUp (s : State) (n : Nat) : Bool := s.rd F.SK_PT_STAT_STATE 0 n == 2

/-! ### States of the ports and the ring -/

/-- SK_STAT.TOPO (R680): RING while both ports are UP and no break is known, else CHAIN; none for a standalone device. -/
def State.skTopo (s : State) : State :=
  let v := if s.skRole = 0 then 0 else if s.skUp 0 && s.skUp 1 && !s.sk.broken then 1 else 2
  if v = s.rd F.SK_STAT_TOPO 0 0 then s else (s.wr F.SK_STAT_TOPO 0 0 v).raise skPage 4

/-- SK_STAT.ROLE changes. -/
def State.skSetRole (s : State) (r : Nat) : State :=
  if r = s.skRole then s else ((s.wr F.SK_STAT_ROLE 0 0 r).raise skPage 3).skTopo

/-- A port changes state. -/
def State.skGo (s : State) (n st : Nat) : State :=
  if s.rd F.SK_PT_STAT_STATE 0 n = st then s else ((s.wr F.SK_PT_STAT_STATE 0 n st).raise skPage 0).skTopo

/-! ### Credits (R664, Table SKW-3) -/

def availFld (vc : Nat) : Fld := [F.SK_PT_CRED0_VCA_AVAIL, F.SK_PT_CRED0_VCB_AVAIL, F.SK_PT_CRED1_VCC_AVAIL].getD vc F.SK_PT_CRED1_VCD_AVAIL
def owedFld (vc : Nat) : Fld := [F.SK_PT_CRED0_VCA_OWED, F.SK_PT_CRED0_VCB_OWED, F.SK_PT_CRED1_VCC_OWED].getD vc F.SK_PT_CRED1_VCD_OWED
def credLimit (vc : Nat) : Nat := [96, 96, 32].getD vc 8

/-- Credits come back: both terms move together. -/
def State.skCredit (s : State) (n vc k : Nat) : State :=
  let a := min k (s.rd (owedFld vc) 0 n)
  (s.wr (availFld vc) 0 n (s.rd (availFld vc) 0 n + a)).wr (owedFld vc) 0 n (s.rd (owedFld vc) 0 n - a)

/-- A flit takes a credit. -/
def State.skTake (s : State) (n vc : Nat) : State :=
  (s.wr (availFld vc) 0 n (s.rd (availFld vc) 0 n - 1)).wr (owedFld vc) 0 n (s.rd (owedFld vc) 0 n + 1)

/-! ### Flits (Table SKW-2) -/

/-- The 64 bytes of a flit. -/
def skFlit (w0 ack nak crVc crCnt : Nat) (payload : List Byte) : List Byte :=
  let body := toBytes 2 w0 ++ toBytes 2 (ack % 4096 + nak * 4096 + crVc * 8192) ++ toBytes 4 crCnt ++ (payload ++ List.replicate 52 0#8).take 52
  body ++ toBytes 4 (crc32c body)

/-- The last number received in order at a port. -/
def SkPort.ack (p : SkPort) : Nat := (p.rxSeq + 4095) % 4096

/-- An IDLE flit, with ACK, NAK and returned credits (R660, R661). -/
def State.skIdle (s : State) (n nak crVc crCnt : Nat) : State := s.emit (.skewer n (skFlit 32768 (s.skPort n).ack nak crVc crCnt []))

/-- A non-IDLE flit leaves a port and is kept (R662). -/
def State.skSendFlit (s : State) (n vc : Nat) (first : Bool) (payload : List Byte) : State :=
  let p := s.skPort n
  let bs := skFlit (p.txSeq + vc * 4096 + b2n first * 16384) p.ack 0 0 0 payload
  let t := (((s.emit (.skewer n bs)).skTake n vc).inc F.SK_TX_FLITS 0 n)
  t.setSkPort { p with txSeq := (p.txSeq + 1) % 4096, kept := p.kept ++ [({ lseq := p.txSeq, bytes := bs, sentAt := s.now } : SkFlit)] }

/-- The flits of a message leave in order. -/
def State.skSendAll (s : State) (n vc : Nat) (first : Bool) : List (List Byte) → State
  | [] => s
  | p :: t => (s.skSendFlit n vc first p).skSendAll n vc false t

/-- R665: a message may enter the ring: credits for it and, for one that starts here, for one more message of 6 flits. -/
def State.skMay (s : State) (n : Nat) (m : SkMsg) : Bool :=
  s.skUp n && decide ((s.skPort n).kept.length + m.flits.length ≤ 512)
    && decide (m.flits.length + (if m.passed then 0 else 6) ≤ s.rd (availFld m.vc) 0 n)

/-- The waiting messages of a port in order, VCD ahead of the others; one that must wait holds back its own VC alone. -/
def State.skPumpFrom (s : State) (n : Nat) (blocked : List Nat) : List SkMsg → State
  | [] => s
  | m :: t =>
    if blocked.contains m.vc || !s.skMay n m then
      let p := s.skPort n
      (s.setSkPort { p with waiting := p.waiting ++ [m] }).skPumpFrom n (m.vc :: blocked) t
    else (s.skSendAll n m.vc m.first m.flits).skPumpFrom n blocked t
def State.skPump (s : State) (n : Nat) : State :=
  let p := s.skPort n
  let w := p.waiting.filter (fun m => m.vc == 3) ++ p.waiting.filter (fun m => m.vc != 3)
  (s.setSkPort { p with waiting := [] }).skPumpFrom n [] w

/-- A message is given to a port. -/
def State.skGive (s : State) (n : Nat) (m : SkMsg) : State :=
  let p := s.skPort n
  (s.setSkPort { p with waiting := p.waiting ++ [m] }).skPump n

/-! ### Routes (R666, R680) -/

/-- The hops to a member through a port (1 is east) in a ring of n. -/
def skHops (n me dest port : Nat) : Nat := if port = 1 then (dest + n - me) % n else (me + n - dest) % n

/-- A direction is whole as far as is known: the port is UP, and no member on the way is outside the cabinet. -/
def State.skWay (s : State) (dest port : Nat) : Bool :=
  let n := s.rd F.SK_CFG_N_EXPECT 0 0 + 1
  let me := s.skMe
  s.skUp port && (List.range (skHops n me dest port)).all (fun i =>
    i = 0 || (let h := if port = 1 then (me + i) % n else (me + n - i) % n; h == dest || !s.sk.broken || s.skMember h))

/-- The port by which a message to a member leaves: the shorter way, port 1 on a tie; the only way left of a chain. -/
def State.skRoute (s : State) (dest : Nat) : Option Nat :=
  let n := s.rd F.SK_CFG_N_EXPECT 0 0 + 1
  let near := if skHops n s.skMe dest 1 ≤ skHops n s.skMe dest 0 then 1 else 0
  if s.skWay dest near then some near else if s.skWay dest (1 - near) then some (1 - near) else none

/-! ### Messages (Tables SKW-4, SKW-5) -/

/-- The VC of a type, in the order of Table SKW-5: 0 RD, 1 WR, 2 DELEGATE, 3 CTX_WR, 4 KILL; 5 RD_DATA, 6 WR_ACK, 7 ERR, 8 REPORT;
9 HANDOFF, 10 HEARTBEAT, 11 MEMBER_LOST, 12 LOST_ACK, 13 JOIN; 14 TIME, 15 ECHO. -/
def skVc (type : Nat) : Nat := if type < 5 then 0 else if type < 9 then 1 else if type < 14 then 2 else 3

/-- The code of a type in byte 0, which Table SKW-5 does not give (log 68). -/
def skType (type : Nat) : Byte := BitVec.ofNat 8 (Config.freeFun 70 [type])

/-- Payloads of 52 bytes. -/
def chunk52 : Nat → List Byte → List (List Byte)
  | 0, _ => []
  | n + 1, bs => if bs = [] then [] else bs.take 52 :: chunk52 n (bs.drop 52)

/-- A message: its header, then its data; an address field is bytes 8 to 15. -/
def State.skMsg (s : State) (dest type tag len addr : Nat) (data : List Byte) : SkMsg :=
  { vc := skVc type
    flits := chunk52 6 ([skType type, BitVec.ofNat 8 (s.skMe + dest * 16)] ++ toBytes 2 tag ++ toBytes 4 len ++ toBytes 8 addr ++ data) }

/-- Data whose layout is not given: n free bytes. Their values are those of the present count of free values. -/
def State.remoteBytes (s : State) (n : Nat) : List Byte := (List.range n).map (fun k => BitVec.ofNat 8 (Config.freeValue (s.fresh + k)))

/-- A message sent by the present route; without one it is lost. -/
def State.skSend (s : State) (dest type tag len addr : Nat) (data : List Byte) : State :=
  match s.skRoute dest with
  | some n => s.skGive n (s.skMsg dest type tag len addr data)
  | none => s

/-- A message whose data layout is not given: n free bytes of data. -/
def State.skNote (s : State) (dest type addr n : Nat) : State :=
  let t := s.skSend dest type 0 n addr (s.remoteBytes n)
  { t with fresh := t.fresh + n }

/-- A transaction: the next TAG for its destination; it is remembered until its response. -/
def State.skRequest (s : State) (dest type : Nat) (cmd : Option Nat) (units len addr : Nat) (data : List Byte) : State :=
  let tag := storeGet 0 s.sk.tags dest
  let m := s.skMsg dest type tag len addr data
  let t : State := { s with sk := { s.sk with
    tags := storeSet 0 s.sk.tags dest ((tag + 1) % 65536)
    txns := s.sk.txns ++ [({ dest, tag, type, cmd, units, port := (s.skRoute dest).getD 2, msg := m } : SkTxn)] } }
  match s.skRoute dest with
  | some n => t.skGive n m
  | none => t

/-- A read of another member's memory: requests of at most 256 bytes. Its data are free values (log 21). -/
def State.skRead (s : State) (dest : Nat) (cmd : Option Nat) (a n : Nat) : State :=
  let t := (List.range (ceilDiv n 256)).foldl (fun t i => t.skRequest dest 0 cmd 0 (min 256 (n - 256 * i)) (a + 256 * i) []) s
  { t with fresh := t.fresh + n }

/-- A write to another member's memory: messages of at most 256 bytes, each with the number of 64-byte writes that it stands for. -/
def State.skWrite (s : State) (dest : Nat) (cmd : Option Nat) (a : Nat) (bs : List Byte) : State :=
  (List.range (ceilDiv bs.length 256)).foldl (fun t i =>
    let d := (bs.drop (256 * i)).take 256
    t.skRequest dest 1 cmd (ceilDiv d.length 64) d.length (a + 256 * i) d) s

/-- A response. -/
def State.skReply (s : State) (dest type tag : Nat) (data : List Byte) : State := s.skSend dest type tag data.length 0 data

/-! ### Replay (R661 to R663) -/

/-- A port retrains. -/
def State.skRetrain (s : State) (n : Nat) : State :=
  let p := s.skPort n
  ((s.setSkPort { p with retrainAt := s.now }).inc F.SK_RETRAIN_CNT 0 n).skGo n 3

/-- Every kept flit is sent again in order; one that has been resent 8 times makes the port RETRAIN. -/
def State.skResend (s : State) (n : Nat) : State :=
  let p := s.skPort n
  if p.kept = [] then s
  else if p.kept.any (fun f => decide (8 ≤ f.resends)) then s.skRetrain n
  else
    let t := p.kept.foldl (fun u f => u.emit (.skewer n f.bytes)) s
    (t.setSkPort { p with kept := p.kept.map (fun f => { f with sentAt := s.now, resends := f.resends + 1 }) }).inc F.SK_REPLAY_CNT 0 n

/-- ACK passes the kept flits up to the number it names. -/
def State.skAcked (s : State) (n a : Nat) : State :=
  let p := s.skPort n
  match p.kept.findIdx? (fun f => f.lseq == a) with
  | some i => s.setSkPort { p with kept := p.kept.drop (i + 1) }
  | none => s

/-- An in-order flit: one for this member is consumed, another goes on by the other port; its credit goes back. -/
def State.skArrive (s : State) (n vc : Nat) (first : Bool) (payload : List Byte) : State :=
  let p := s.skPort n
  let dest := if first then leAt payload 1 1 / 16 % 8 else storeGet s.skMe p.cur vc
  let t := s.setSkPort { p with rxSeq := (p.rxSeq + 1) % 4096, nakSent := false, cur := storePut vc dest p.cur }
  let u := t.skIdle n 0 vc 1
  if dest = u.skMe then u else u.skGive (1 - n) { vc, flits := [payload], first, passed := true }

/-- FLIT_RECEIVE (R661, R662): CRC and number are checked, ACK, NAK and credits taken. -/
def State.flitIn (s : State) (n : Nat) (bs : List Byte) : State :=
  if !(s.skOn && s.skUp n) then s
  else if bs.length ≠ 64 ∨ leAt bs 60 4 ≠ crc32c (bs.take 60) then
    let t := s.inc F.SK_CRC_ERR_CNT 0 n
    let p := t.skPort n
    if p.nakSent then t else (t.setSkPort { p with nakSent := true }).skIdle n 1 0 0
  else
    let w0 := leAt bs 0 2
    let w1 := leAt bs 2 2
    let s1 := (s.skAcked n (w1 % 4096)).skCredit n (bitsOf w1 13 2) (leAt bs 4 1)
    let s2 := if bitOf w1 12 then s1.skResend n else s1
    let s3 := if bitOf w0 15 then s2
      else if w0 % 4096 = (s2.skPort n).rxSeq then (s2.inc F.SK_RX_FLITS 0 n).skArrive n (bitsOf w0 12 2) (bitOf w0 14) ((bs.drop 8).take 52)
      else s2
    (s3.skPump 0).skPump 1

/-- FLIT_RECEIVE. -/
def execFlitReceive (port : Fin 2) (bytes : List Byte) (s : State) : Host.Outcome State Fault Refusal := .next (s.flitIn port.val bytes)

/-- REPLAY_TIMEOUT: ACK has not passed the oldest kept flit within 4 us of its send. -/
def State.replayDue (s : State) (n : Nat) : State :=
  if s.skOn && s.skUp n && (s.skPort n).kept.head?.any (fun f => decide (f.sentAt + 4000 ≤ s.now)) then s.skResend n else s

/-- REPLAY_TIMEOUT. -/
def execReplayTimeout (port : Fin 2) (s : State) : Host.Outcome State Fault Refusal := .next (s.replayDue port.val)

/-- R680: the transactions that left by a port and have no response go out again by the present route, with their TAGs. -/
def State.skReroute (s : State) (n : Nat) : State :=
  (s.sk.txns.filter (fun x => x.port == n)).foldl (fun t x =>
    match t.skRoute x.dest with
    | some q => ({ t with sk := { t.sk with txns := updWhere (fun y => y.dest == x.dest && y.tag == x.tag) (fun y => { y with port := q }) t.sk.txns } }
        : State).skGive q x.msg
    | none => t) s

/-- A port goes DOWN: its replay buffer is discarded (R663), the ring is a chain (R680). -/
def State.skDown (s : State) (n : Nat) : State :=
  if s.rd F.SK_PT_STAT_STATE 0 n = 0 then s
  else
    let t := s.setSkPort { num := n }
    ((t.wr F.SK_PT_STAT_NEIGH_VALID 0 n 0).skGo n 0).skReroute n

/-- RETRAIN_TIMEOUT: not UP within 10 ms of RETRAIN. -/
def State.retrainDue (s : State) (n : Nat) : State :=
  if s.skOn && s.rd F.SK_PT_STAT_STATE 0 n == 3 && decide ((s.skPort n).retrainAt + 10000000 ≤ s.now) then s.skDown n else s

/-- RETRAIN_TIMEOUT. -/
def execRetrainTimeout (port : Fin 2) (s : State) : Host.Outcome State Fault Refusal := .next (s.retrainDue port.val)

/-! ### Training (R643, R658, R659) -/

/-- The lanes of a whole pair or of all four: the width a port can run at. -/
def skWidth (lanes : Nat) : Nat := if lanes % 16 = 15 then 4 else if lanes % 4 = 3 ∨ bitsOf lanes 2 2 = 3 then 2 else 0

/-- The neighbour that R642 requires at a port. -/
def State.skWants (s : State) (n : Nat) : Nat :=
  let k := s.rd F.SK_CFG_N_EXPECT 0 0 + 1
  if n = 1 then (s.skMe + 1) % k else (s.skMe + k - 1) % k

/-- PORT_TRAINED: the port knows its neighbour and its lanes. A first training sets credits and numbers; after RETRAIN the link resumes from
the first unacknowledged flit. -/
def State.portTrained (s : State) (n neigh lanes : Nat) : State :=
  let st := s.rd F.SK_PT_STAT_STATE 0 n
  if !(s.skOn && (st == 1 || st == 3)) then s
  else
    let s1 := (s.wr F.SK_PT_STAT_NEIGH_ID 0 n neigh).wr F.SK_PT_STAT_NEIGH_VALID 0 n 1
    if neigh = s.skMe ∨ neigh ≠ s.skWants n then ((s1.wr F.SK_PT_STAT_WIRING 0 n 1).raise skPage 1).skGo n 1
    else if skWidth lanes = 0 then s1.skDown n
    else
      let s2 := s1.wr F.SK_PT_STAT_WIDTH 0 n (skWidth lanes)
      let s3 := if st = 3 then
          let p := s2.skPort n
          let t := (s2.setSkPort { p with kept := p.kept.map (fun f => { f with resends := 0, sentAt := s2.now }) }).skGo n 2
          p.kept.foldl (fun u f => u.emit (.skewer n f.bytes)) t
        else
          ((List.range 4).foldl (fun t vc => (t.wr (availFld vc) 0 n (credLimit vc)).wr (owedFld vc) 0 n 0) (s2.setSkPort { num := n })).skGo n 2
      s3.skPump n

/-- PORT_TRAINED. -/
def execPortTrained (port : Fin 2) (neigh : Fin 8) (lanes : BitVec 4) (s : State) : Host.Outcome State Fault Refusal :=
  .next (s.portTrained port.val neigh.val lanes.toNat)

/-- LANE_FAIL: the port retrains at the pair that is whole; with none it is DOWN. -/
def State.laneFail (s : State) (n lanes : Nat) : State :=
  if !(s.skOn && s.skUp n) then s else if skWidth lanes = 0 then s.skDown n else s.skRetrain n

/-- LANE_FAIL. -/
def execLaneFail (port : Fin 2) (lanes : BitVec 4) (s : State) : Host.Outcome State Fault Refusal := .next (s.laneFail port.val lanes.toNat)

/-- SK_CTRL.EN: ports train while it is 1. -/
def State.skCtrl (s : State) (v : Nat) : State :=
  let t := s.wr F.SK_CTRL_EN 0 0 v
  if v % 2 = 1 then (List.range 2).foldl (fun u n => if u.rd F.SK_PT_STAT_STATE 0 n = 0 then u.skGo n 1 else u) t else (t.skDown 0).skDown 1

/-- R672: the head's TIME messages at GRID phase 0, in each direction. -/
def State.skTime (s : State) : State :=
  if s.skOn && s.skRole == 1 then
    let d := toBytes 8 s.gt ++ toBytes 8 s.si ++ toBytes 1 (s.rd F.ORR_CH_STAT_SEL_QUAL 0 0) ++ toBytes 1 (s.rd F.ORR_CH_STAT_SEL_QUAL 0 1)
    (List.range 2).foldl (fun t n => if t.skUp n then t.skGive n (t.skMsg (t.rd F.SK_PT_STAT_NEIGH_ID 0 n) 14 0 18 0 d) else t) s
  else s

end Sys2Proof.Machine
end

