-- ==== Sys2Proof/Machine/Farside.lean ====
section
/-! DEFINITION. The Farside die: its receiver, its outputs, failsafe and power-up, mains sensing, DALI and the field
inputs (spec/13, R426 to R470, R717). -/

namespace Sys2Proof.Machine

open Host

/-! ### Messages -/

/-- One step of the CRC-16 of R427 over a byte: polynomial 0x1021, no reflection. -/
def crc16Bits : Nat → Nat → Nat
  | 0, c => c
  | n + 1, c => crc16Bits n (if 0x8000 ≤ c then (2 * c) % 0x10000 ^^^ 0x1021 else 2 * c)

/-- R427: CRC-16 with initial value 0xFFFF and no final XOR. -/
def crc16 (bs : List Byte) : Nat := bs.foldl (fun c b => crc16Bits 8 (c ^^^ (b.toNat * 256))) 0xFFFF

/-- R427: a message from its type, number and bytes 4 to 13. -/
def brFrame (ty num : Nat) (body : List Byte) : List Byte :=
  let m := [0x5A#8, BitVec.ofNat 8 ty] ++ toBytes 2 num ++ body
  m ++ toBytes 2 (crc16 m)

/-- R427, R430: sync and CRC are right. -/
def brGood (m : List Byte) : Bool :=
  decide (m.length = 16) && leAt m 0 1 == 0x5A && leAt m 14 2 == crc16 (m.take 14)

/-- The Farside sends a message: its own number, RX_ACK in bytes 12 and 13 (R428, R429, R439). -/
def State.fsSend (s : State) (ty : Nat) (body : List Byte) : State :=
  let t := s.emit (.farsideTx (brFrame ty s.fs.txNum (body ++ toBytes 2 s.fs.rxAck)))
  { t with fs := { t.fs with txNum := (t.fs.txNum + 1) % 65536 } }

/-- A field of the parameter block in force, or its ROM default (Table FAR-4). -/
def State.fsField (s : State) (ofs n dflt : Nat) : Nat :=
  if s.fs.block.isEmpty then dflt else leAt s.fs.block ofs n

/-- Table FAR-3: a valid output index. -/
def outValid (i : Nat) : Bool := decide (i ≤ 80) || i == 96 || (decide (100 ≤ i) && decide (i ≤ 103)) || i == 112

/-- The indices of Table FAR-3. -/
def outIndices : List Nat := List.range 81 ++ [96, 100, 101, 102, 103, 112]

/-- A valid output that OUT_EN enables (Table FAR-4). -/
def State.outEnabled (s : State) (i : Nat) : Bool :=
  outValid i && (s.fs.block.isEmpty || bitOf (leAt s.fs.block 0x10 16) i)

/-- FAILSAFE_CYCLES and SPEC_BACKSTOP in force (R456, R459). -/
def State.fsCycles (s : State) : Nat := s.fs.cfgCycles.getD (s.fsField 0x20 2 150)
def State.fsBackstop (s : State) : Nat := s.fs.cfgBackstop.getD (s.fsField 0x22 2 122)

/-- Crossings left before failsafe. -/
def State.fsLeft (s : State) : Nat := s.fsCycles - s.fs.fsCount

/-- HEARTBEAT of the Farside (Table FAR-2). -/
def State.fsHeartbeat (s : State) (echo : Bool) : State :=
  s.fsSend 0x86 ([BitVec.ofNat 8 (if s.fs.failsafe then 2 else 1),
    BitVec.ofNat 8 (b2n echo + 2 * b2n s.fs.resetFlag + 4 * b2n (!s.fs.block.isEmpty))]
    ++ toBytes 2 s.fsLeft ++ toBytes 4 (s.fsField 4 4 0))

/-- FS_FAULT (Tables FAR-2 and FAR-5): the count of the code saturates at 16 bits. -/
def State.fsFault (s : State) (code detail : Nat) : State :=
  let n := min (storeGet 0 s.fs.faultCnt code + 1) 0xFFFF
  let t := { s with fs := { s.fs with faultCnt := storePut code n s.fs.faultCnt } }
  t.fsSend 0x87 ([BitVec.ofNat 8 code, BitVec.ofNat 8 detail] ++ toBytes 2 n ++ toBytes 4 t.fs.idx)

/-- LEVEL_ACK (Table FAR-2): 0 APPLIED, 1 APPLIED_LATE, 2 REJECTED, 3 SUPERSEDED. -/
def State.fsAck (s : State) (num out result idx : Nat) : State :=
  s.fsSend 0x83 (toBytes 2 num ++ [BitVec.ofNat 8 out, BitVec.ofNat 8 result] ++ toBytes 4 idx)

/-- MAINS_STAT (Table FAR-2). -/
def State.fsMainsStat (s : State) : State :=
  let t := s.fsSend 0x82 (toBytes 2 s.fs.rms ++ toBytes 2 s.fs.freq ++
    [BitVec.ofNat 8 s.fs.flags, BitVec.ofNat 8 s.fs.lowPct] ++ toBytes 2 s.fs.sags)
  { t with fs := { t.fs with sinceMains := 0, lowPct := 0xFF } }

/-! ### Levels -/

/-- Table FAR-3: the arc level of p per mille: the n with 1 + 253/3 (log10 (p/10) + 1) within half of it. -/
def arcSearch (p : Nat) : Nat → Nat → Nat
  | 0, n => n
  | k + 1, n => if 10 ^ (6 * (n + 1) - 9) ≤ p ^ 506 then arcSearch p k (n + 1) else n

/-- 0 is OFF; 1 per mille is arc level 1 and 1000 per mille is 254. -/
def arcLevel (p : Nat) : Nat := if p = 0 then 0 else arcSearch p 253 1

/-- The state of an output of the Farside. -/
def State.fsOut (s : State) (o : Nat) : FsOut := (s.fs.outs.find? (fun x => x.out == o)).getD { out := o }

/-- The value at a time of an output's linear ramp, in per mille (R447, R449, R454). -/
def FsOut.levelAt (x : FsOut) (time : Nat) : Nat :=
  let e := time - x.t0
  let d := x.ramp * 1000000
  if d ≤ e then x.target
  else ((x.start : Int) + roundAway (((x.target : Int) - x.start) * e) d).toNat

/-- An output gets a new level (R454): the ramp starts from the present instantaneous level; the relay takes no ramp
and switches at once, at the crossing (R450, Table FAR-3). -/
def State.fsApply (s : State) (o level ramp : Nat) (spec : Bool) (idx : Nat) : State :=
  let x := s.fsOut o
  let y : FsOut := { x with start := x.levelAt s.now, target := level, ramp := if o = 112 then 0 else ramp, t0 := s.now,
                            base := if spec then x.base else level, specAt := if spec then some idx else none, steps := 0 }
  let t := { s with fs := { s.fs with outs := y :: s.fs.outs.filter (fun z => z.out != o) } }
  if o = 112 ∧ !s.fs.coilFault then t.emit (.relay (decide (0 < level))) else t

/-! ### The receiver -/

/-- R457: a consumed LEVEL_SET or HEARTBEAT restarts the failsafe count at the next crossing and leaves FAILSAFE. -/
def State.fsHeard (s : State) : State :=
  let t := { s with fs := { s.fs with heard := true } }
  if t.fs.failsafe then ({ t with fs := { t.fs with failsafe := false } }).fsFault 5 0 else t

/-- R430, R431, R436, R437: the Farside receives a message and consumes it where it is the one expected; `k` is what
the message then does. A HEARTBEAT with RESYNC is taken whatever its number. -/
def State.fsReceive (s : State) (m : List Byte) (k : State → State) : State :=
  if !s.fs.on then s
  else if !brGood m then { s with fs := { s.fs with crcCnt := satInc s.fs.crcCnt } }
  else
    let n := leAt m 2 2
    let resync := leAt m 1 1 == 3 && bitOf (leAt m 4 1) 0
    if resync || s.fs.expect.getD n == n then
      let t := { s with fs := { s.fs with expect := some ((n + 1) % 65536), rxAck := n } }
      let t2 := k t
      -- R432: with nothing else to carry the new RX_ACK, a HEARTBEAT does
      if t2.fs.txNum = s.fs.txNum then t2.fsHeartbeat false else t2
    else if serialLt 16 n (s.fs.expect.getD n) then s.fsHeartbeat false
    else ({ s with fs := { s.fs with seqErrCnt := satInc s.fs.seqErrCnt } }).fsFault 3 0

/-- R452: what a LEVEL_SET consumed by the Farside does. -/
def State.fsLevelSet (s : State) (m : List Byte) : State :=
  let s1 := s.fsHeard
  let o := leAt m 4 1
  let num := leAt m 2 2
  let lv := leAt m 6 2
  if !s1.outEnabled o || decide (1000 < lv) then s1.fsAck num o 2 0
  else
    let old := s1.fs.pend.find? (fun p => p.out == o)
    let s2 := match old with
      | some p => s1.fsAck p.num o 3 0
      | none => s1
    let p : FsPend := { out := o, num, level := lv, ramp := leAt m 8 2, k := leAt m 10 4, spec := bitOf (leAt m 5 1) 0 }
    { s2 with fs := { s2.fs with pend := s2.fs.pend.filter (fun q => q.out != o) ++ [p] } }

/-- A message of the given type arrives; one of another type is no such arrival. -/
def State.fsArrive (s : State) (m : List Byte) (ty : Nat) (k : State → State) : State :=
  if brGood m && leAt m 1 1 != ty then s else s.fsReceive m k

/-- LEVEL_SET. -/
def execLevelSet (m : List Byte) (s : State) : Outcome State Fault Refusal :=
  .next (s.fsArrive m 0x01 (fun t => t.fsLevelSet m))

/-- R445, R446: a request that sets or changes arc power is refused: DAPC (a clear selector bit outside the special
commands) and commands 0x00 to 0x1F. -/
def dqRefused (m : List Byte) : Bool :=
  let a := leAt m 6 1
  let special := decide (0xA0 ≤ a ∧ a ≤ 0xCB)
  let kind := leAt m 5 1
  !special && (a % 2 == 0 || (kind != 3 && decide (leAt m 7 1 < 0x20)))

/-- R446, R448: a DALI_QUERY consumed by the Farside: the DTRs set first, a CONFIG command sent twice, and the reply,
whose status (0 REPLY, 1 NO_REPLY, 2 FRAMING) and bytes the bus gives. -/
def State.fsQuery (s : State) (m : List Byte) (status : Nat) (data : List Byte) : State :=
  let tag := leAt m 4 1
  let reply (t : State) (st : Nat) (d : List Byte) : State :=
    t.fsSend 0x84 ([BitVec.ofNat 8 tag, BitVec.ofNat 8 st, BitVec.ofNat 8 d.length] ++ (d ++ List.replicate 5 0#8).take 5)
  if dqRefused m then reply s 4 []
  else if s.fs.busFail then reply s 3 []
  else
    let dtr := if bitOf (leAt m 11 1) 7 then
      [Out.dali [0xA3#8, BitVec.ofNat 8 (leAt m 8 1)], Out.dali [0xC3#8, BitVec.ofNat 8 (leAt m 9 1)],
       Out.dali [0xC5#8, BitVec.ofNat 8 (leAt m 10 1)]] else []
    let f := Out.dali [BitVec.ofNat 8 (leAt m 6 1), BitVec.ofNat 8 (leAt m 7 1)]
    let kind := leAt m 5 1
    let frames := if kind = 1 then [f, f] else if kind = 3 then List.replicate (leAt m 11 1 % 8) f else [f]
    reply ((dtr ++ frames).foldl State.emit s) status (if status = 0 then data.take 5 else [])

/-- DALI_QUERY. -/
def execDaliQuery (m : List Byte) (status : Fin 3) (data : List Byte) (s : State) : Outcome State Fault Refusal :=
  .next (s.fsArrive m 0x02 (fun t => t.fsQuery m status data))

/-- R436, R437, R438, R457: a Nearside HEARTBEAT consumed by the Farside. -/
def State.fsNsHeartbeat (s : State) (m : List Byte) : State :=
  let s1 := s.fsHeard
  let s2 := if bitOf (leAt m 4 1) 0 then { s1 with fs := { s1.fs with resetFlag := false } } else s1
  s2.fsHeartbeat (bitOf (leAt m 4 1) 1)

/-- NS_HEARTBEAT. -/
def execNsHeartbeat (m : List Byte) (s : State) : Outcome State Fault Refusal :=
  .next (s.fsArrive m 0x03 (fun t => t.fsNsHeartbeat m))

/-- R459: a FAILSAFE_CFG consumed by the Farside; a value out of range is not applied and CFG_REJECT is sent. -/
def State.fsFailsafeCfg (s : State) (m : List Byte) : State :=
  let o := leAt m 4 1
  let a := leAt m 5 2
  let b := leAt m 7 2
  if o = 0xFF then
    if 10 ≤ a ∧ 2 ≤ b then { s with fs := { s.fs with cfgCycles := some a, cfgBackstop := some b } } else s.fsFault 6 0x04
  else if outValid o && decide (a ≤ 1000) then
    { s with fs := { s.fs with cfgOut := (o, a, b) :: s.fs.cfgOut.filter (fun c => c.1 != o) } }
  else s.fsFault 6 0x04

/-- FAILSAFE_CFG. -/
def execFailsafeCfg (m : List Byte) (s : State) : Outcome State Fault Refusal :=
  .next (s.fsArrive m 0x04 (fun t => t.fsFailsafeCfg m))

/-! ### The parameter block (R468 to R470) -/

/-- START clears the staging copy. -/
def State.fsParamStart (s : State) : State := { s with fs := { s.fs with staging := List.replicate 1024 0#8 } }

/-- A chunk writes 8 bytes of the staging copy. -/
def State.fsParamChunk (s : State) (m : List Byte) : State :=
  let st := if s.fs.staging.isEmpty then List.replicate 1024 0#8 else s.fs.staging
  let k := 8 * bitsOf (leAt m 4 2) 3 7
  { s with fs := { s.fs with staging := st.take k ++ (m.drop 6).take 8 ++ st.drop (k + 8) } }

/-- Table FAR-4: every field of a block is in its range and every reserved byte is zero. -/
def paramInRange (b : List Byte) : Bool :=
  let zero (lo n : Nat) : Bool := ((b.drop lo).take n).all (fun x => x == 0#8)
  decide (100 ≤ leAt b 8 2 ∧ leAt b 8 2 ≤ 277) && (leAt b 0xA 1 == 50 || leAt b 0xA 1 == 60)
    && decide (10 ≤ leAt b 0x20 2) && decide (2 ≤ leAt b 0x22 2) && decide (leAt b 0x24 2 ≤ 1000)
    && decide (leAt b 0x28 2 ≤ 1000)
    && (List.range 4).all (fun i => decide (100 ≤ leAt b (0x30 + 2 * i) 2 ∧ leAt b (0x30 + 2 * i) 2 ≤ 25000))
    && decide (30 ≤ leAt b 0x3C 1 ∧ leAt b 0x3C 1 ≤ 250) && decide (leAt b 0x38 1 < 16) && decide (leAt b 0x3A 1 < 4)
    && decide (leAt b 0x3B 1 < 2) && zero 0xE 2 && zero 0x3D 3 && zero 0x4C (0x320 - 0x4C) && zero 0x3E0 0x20
    && (List.range 128).all (fun i => outValid i || !bitOf (leAt b 0x10 16) i)

/-- R468: the key digest and the signature of a staged block pass. SHA-384 and ECDSA P-384 are functions of the bytes
that the specification names and does not spell out (log 7). -/
def paramSigned (b : List Byte) : Bool := Config.freeFun 1 (b.map BitVec.toNat) % 2 == 1

/-- R468, R469: COMMIT checks the staged block. -/
def State.fsParamCommit (s : State) : State :=
  let b := s.fs.staging
  if b.isEmpty || !(leAt b 0 4 == 0x42505346) then s.fsFault 8 3
  else if !paramSigned b then s.fsFault 8 1
  else if leAt b 4 4 < s.fsField 4 4 0 then s.fsFault 8 2
  else if !paramInRange b then s.fsFault 8 3
  else
    -- written over the older copy; it takes effect at the next crossing
    let older := if s.fs.copyA.isEmpty then true else if s.fs.copyB.isEmpty then false
      else decide (leAt s.fs.copyA 4 4 < leAt s.fs.copyB 4 4)
    let t := { s with fs := { s.fs with nextBlock := some b, copyA := if older then b else s.fs.copyA,
                                        copyB := if older then s.fs.copyB else b } }
    t.fsFault 8 0

/-- PARAM_WRITE_START, PARAM_WRITE_CHUNK, PARAM_COMMIT: a PARAM_WRITE consumed by the Farside (Table FAR-2). START comes
before the chunk and COMMIT after it. -/
def State.fsParam (s : State) (m : List Byte) (start chunk commit : Bool) : State :=
  let c := leAt m 4 2
  let s1 := if start && bitOf c 0 then s.fsParamStart else s
  let s2 := if chunk then s1.fsParamChunk m else s1
  if commit && bitOf c 1 then s2.fsParamCommit else s2

/-- PARAM_WRITE_START. -/
def execParamWriteStart (m : List Byte) (s : State) : Outcome State Fault Refusal :=
  .next (if bitOf (leAt m 4 2) 0 then s.fsArrive m 0x05 (fun t => t.fsParam m true true true) else s)

/-- PARAM_WRITE_CHUNK. -/
def execParamWriteChunk (m : List Byte) (s : State) : Outcome State Fault Refusal :=
  .next (if bitOf (leAt m 4 2) 0 || bitOf (leAt m 4 2) 1 then s else s.fsArrive m 0x05 (fun t => t.fsParam m false true false))

/-- PARAM_COMMIT. -/
def execParamCommit (m : List Byte) (s : State) : Outcome State Fault Refusal :=
  .next (if bitOf (leAt m 4 2) 1 && !bitOf (leAt m 4 2) 0 then s.fsArrive m 0x05 (fun t => t.fsParam m false true true)
    else s)

/-- UNKNOWN_TYPE: an in-order message of a type the Farside does not know is consumed, counted and reported (R431). -/
def execUnknownType (m : List Byte) (s : State) : Outcome State Fault Refusal :=
  .next (if 1 ≤ leAt m 1 1 ∧ leAt m 1 1 ≤ 5 then s
    else s.fsReceive m (fun t =>
      ({ t with fs := { t.fs with unknownCnt := satInc t.fs.unknownCnt } }).fsFault 1 (leAt m 1 1)))

/-! ### Power (R459, R460, R717) -/

/-- R460: FS_VIN rises above 10.0 V. The newest valid block is loaded, the relay is open and every output at 0. -/
def State.fsPowerup (s : State) : State :=
  if s.fs.on then s
  else
    let newest := if s.fs.copyA.isEmpty then s.fs.copyB else if s.fs.copyB.isEmpty then s.fs.copyA
      else if leAt s.fs.copyA 4 4 < leAt s.fs.copyB 4 4 then s.fs.copyB else s.fs.copyA
    let f : FarsideSt := { on := true, copyA := s.fs.copyA, copyB := s.fs.copyB, block := newest, loadAt := s.now }
    let t := ({ s with fs := f }).fsFault 14 0
    if newest.isEmpty then t.fsFault 7 0 else t

/-- FS_POWERUP. -/
def execFsPowerup (s : State) : Outcome State Fault Refusal := .next s.fsPowerup

/-- R717: FS_VIN at or below 10.0 V. -/
def State.fsVinLow (s : State) : State :=
  if s.fs.on && !s.fs.vinLow then ({ s with fs := { s.fs with vinLow := true } }).fsFault 13 0 else s

/-- FS_VIN_LOW. -/
def execFsVinLow (s : State) : Outcome State Fault Refusal := .next s.fsVinLow

/-- R717, R459, R470: FS_VIN below 9.0 V: the Farside stops and releases every output; what it held in volatile form is
lost, and the copies of its block stay. -/
def State.fsVinStop (s : State) : State :=
  if s.fs.on then
    let t := { s with fs := { copyA := s.fs.copyA, copyB := s.fs.copyB } }
    t.emit (.relay false)
  else s

/-- FS_VIN_STOP. -/
def execFsVinStop (s : State) : Outcome State Fault Refusal := .next s.fsVinStop

/-! ### Crossings (R440, R441, R453 to R457) -/

/-- R460: POWERUP_LEVEL is applied to every enabled output. -/
def State.fsPowerLevel (s : State) (due : Bool) : State :=
  if due && !s.fs.poweredUp then
    let t := { s with fs := { s.fs with poweredUp := true } }
    (outIndices.filter t.outEnabled).foldl (fun u o => u.fsApply o (u.fsField 0x28 2 1000) 0 false u.fs.idx) t
  else s

/-- R456: every output goes to its failsafe level with its failsafe ramp, pending LEVEL_SETs are discarded, and
FAILSAFE_ENTERED is sent. -/
def State.fsEnterFailsafe (s : State) : State :=
  let t := { s with fs := { s.fs with failsafe := true, pend := [] } }
  let u := (outIndices.filter t.outEnabled).foldl
    (fun u o =>
      let c := ((u.fs.cfgOut.find? (fun c => c.1 == o)).map (fun c => c.2)).getD
        (u.fsField 0x24 2 1000, u.fsField 0x26 2 0)
      u.fsApply o c.1 c.2 false u.fs.idx) t
  u.fsFault 4 0

/-- R453: a LEVEL_SET is due at a crossing: its K is at or before the crossing's index in 32-bit serial arithmetic. -/
def kDue (k idx : Nat) : Bool := !serialLt 32 idx k

/-- R453 step 4: due LEVEL_SETs are applied and acknowledged. -/
def State.fsApplyDue (s : State) : State :=
  (s.fs.pend.filter (fun p => kDue p.k s.fs.idx)).foldl
    (fun t p =>
      let u := t.fsApply p.out p.level p.ramp p.spec t.fs.idx
      let v := { u with fs := { u.fs with pend := u.fs.pend.filter (fun q => q.out != p.out) } }
      v.fsAck p.num p.out (if p.k = v.fs.idx then 0 else 1) v.fs.idx) s

/-- R455: SPEC levels that have stood for SPEC_BACKSTOP crossings revert. -/
def State.fsBackstopRun (s : State) : State :=
  (s.fs.outs.filter (fun x => match x.specAt with
      | some i => decide (s.fsBackstop ≤ (s.fs.idx + 2 ^ 32 - i) % 2 ^ 32)
      | none => false)).foldl
    (fun t x => t.fsApply x.out x.base 0 false t.fs.idx) s

/-- R451: IO_STAT (Table FAR-2). -/
def State.fsIoStat (s : State) : State :=
  let relay := if s.fs.coilFault then 2 else b2n (decide (0 < (s.fsOut 112).target))
  let t := s.fsSend 0x85 ([BitVec.ofNat 8 s.fs.inputs, BitVec.ofNat 8 s.fs.inChanged, BitVec.ofNat 8 relay, 0#8]
    ++ toBytes 4 s.fs.idx)
  { t with fs := { t.fs with sinceIo := 0, inChanged := 0 } }

/-- R453: what happens at a crossing, real or flywheel, in order. -/
def State.fsCrossing (s : State) (real : Bool) : State :=
  let s0 := { s with fs := { s.fs with idx := (s.fs.idx + 1) % 2 ^ 32, sinceMains := s.fs.sinceMains + 1,
                                       sinceIo := s.fs.sinceIo + 1 } }
  let s1 := match s0.fs.nextBlock with
    | some b => { s0 with fs := { s0.fs with block := b, nextBlock := none } }
    | none => s0
  let s2 := s1.fsPowerLevel (real || decide (s1.fs.loadAt + 100000000 ≤ s1.now))
  let s3 := { s2 with fs := { s2.fs with fsCount := if s2.fs.heard then 0 else s2.fs.fsCount + 1, heard := false } }
  let s4 := if !s3.fs.failsafe && decide (s3.fsCycles ≤ s3.fs.fsCount) then s3.fsEnterFailsafe else s3
  let s5 := s4.fsApplyDue.fsBackstopRun
  let s6 := if 10 ≤ s5.fs.sinceMains then s5.fsMainsStat else s5
  if 50 ≤ s6.fs.sinceIo then s6.fsIoStat else s6

/-- R440, R442, R443: a rising zero crossing, with the period since the previous one (0xFFFF none), the age of the
ZC_STAMP at its send start in us, and the RMS and frequency of the cycle it ends. A cycle of full voltage is good and
clears BROWNOUT_WARN. -/
def State.fsZeroCrossing (s : State) (period age rms freq : Nat) : State :=
  if s.fs.on then
    let good := decide (s.fsField 0xB 1 80 * s.fsField 8 2 230 * 10 ≤ rms * 100)
    let s1 := { s with fs := { s.fs with period, rms, freq, flags := if good then clrBit s.fs.flags 4 else s.fs.flags } }
    let s2 := s1.fsCrossing true
    s2.fsSend 0x81 (toBytes 4 s2.fs.idx ++ toBytes 2 age ++ toBytes 2 period)
  else s

/-- ZERO_CROSSING. -/
def execZeroCrossing (period age rms freq : BitVec 16) (s : State) : Outcome State Fault Refusal :=
  .next (s.fsZeroCrossing period.toNat age.toNat rms.toNat freq.toNat)

/-- FLYWHEEL_CROSSING (R441): no ZC_STAMP is sent. -/
def execFlywheelCrossing (s : State) : Outcome State Fault Refusal :=
  .next (if s.fs.on then s.fsCrossing false else s)

/-! ### Mains flags (R442, R443) -/

/-- R442: the flags that a half-cycle RMS, a cycle RMS (0.1 V) and a frequency (mHz) give. BROWNOUT_WARN stays. -/
def State.fsFlags (s : State) (half rms freq : Nat) : Nat :=
  let nom := s.fsField 8 2 230 * 10
  let nomF := s.fsField 0xA 1 50 * 1000
  let outage := decide (half * 100 < s.fsField 0xC 1 30 * nom)
  let sag := decide (rms * 100 < s.fsField 0xB 1 80 * nom)
  let swell := decide (110 * nom < rms * 100)
  let fr := decide (freq * 100 < 95 * nomF) || decide (105 * nomF < freq * 100)
  b2n outage + 2 * b2n sag + 4 * b2n swell + 8 * b2n fr + 16 * b2n (bitOf s.fs.flags 4)

/-- R442: new measurements; MAINS_STAT is sent when a flag changes. -/
def State.fsMeasure (s : State) (half rms freq : Nat) : State :=
  if s.fs.on then
    let f := s.fsFlags half rms freq
    let pct := half * 10 / s.fsField 8 2 230
    let t := { s with fs := { s.fs with rms, freq, flags := f, lowPct := min s.fs.lowPct pct,
                                        sags := if bitOf f 1 && !bitOf s.fs.flags 1 then min (s.fs.sags + 1) 0xFFFF
                                                else s.fs.sags } }
    if f = s.fs.flags then t else t.fsMainsStat
  else s

/-- MAINS_FLAG_CHANGE. -/
def execMainsFlagChange (half rms freq : BitVec 16) (s : State) : Outcome State Fault Refusal :=
  .next (s.fsMeasure half.toNat rms.toNat freq.toNat)

/-- R443: samples fell short of the expected sine for 1 ms. -/
def State.fsBrownout (s : State) : State :=
  if s.fs.on && !bitOf s.fs.flags 4 then ({ s with fs := { s.fs with flags := setBit s.fs.flags 4 } }).fsMainsStat else s

/-- BROWNOUT_WARN. -/
def execBrownoutWarn (s : State) : Outcome State Fault Refusal := .next s.fsBrownout

/-! ### DALI (R445 to R448) -/

/-- The address byte of a DAPC frame (IEC 62386-102): short address, group, broadcast. PRESUMED (log 8). -/
def daliAddr (o : Nat) : Nat := if o < 64 then 2 * o else if o < 80 then 0x80 + 2 * (o - 64) else 0xFE

/-- R447: the DAPC of one interval of output o's ramp: the ramp's value at the end of the interval, or at its actual
send time where the bus has delayed it; the last carries the target. -/
def State.fsDapc (s : State) (o : Nat) (delayed : Bool) : State :=
  let x := s.fsOut o
  let step := s.fsField 0x3C 1 40
  let total := max 1 (ceilDiv x.ramp step)
  if s.fs.on && !s.fs.busFail && s.outEnabled o && decide (o ≤ 80) && decide (x.steps < total)
      && decide (x.t0 + x.steps * step * 1000000 ≤ s.now) then
    let lv := if x.steps + 1 = total then x.target
      else if delayed then x.levelAt s.now else x.levelAt (x.t0 + (x.steps + 1) * step * 1000000)
    let a := arcLevel lv
    let t := s.emit (.dali [BitVec.ofNat 8 (daliAddr o), BitVec.ofNat 8 a])
    { t with fs := { t.fs with outs := { x with steps := x.steps + 1, arc := a } :: t.fs.outs.filter (fun z => z.out != o) } }
  else s

/-- DAPC_STEP. -/
def execDapcStep (o : Fin 81) (delayed : Bool) (s : State) : Outcome State Fault Refusal := .next (s.fsDapc o delayed)

/-- DALI_BUS_FAIL (R448). -/
def execDaliBusFail (s : State) : Outcome State Fault Refusal :=
  .next (if s.fs.on && !s.fs.busFail then ({ s with fs := { s.fs with busFail := true } }).fsFault 9 0 else s)

/-- R448: the bus recovers: the present level of every DALI output is sent again. -/
def State.fsBusOk (s : State) : State :=
  if s.fs.on && s.fs.busFail then
    let t := ({ s with fs := { s.fs with busFail := false } }).fsFault 10 0
    ((t.fs.outs.filter (fun x => decide (x.out ≤ 80))).map (fun x => x.out)).foldl
      (fun u o => u.emit (.dali [BitVec.ofNat 8 (daliAddr o), BitVec.ofNat 8 (arcLevel ((u.fsOut o).levelAt u.now))])) t
  else s

/-- DALI_BUS_RECOVER. -/
def execDaliBusRecover (s : State) : Outcome State Fault Refusal := .next s.fsBusOk

/-- DALI_COLLISION (R445). -/
def execDaliCollision (s : State) : Outcome State Fault Refusal :=
  .next (if s.fs.on then { s with fs := { s.fs with collisionCnt := satInc s.fs.collisionCnt } } else s)

/-! ### Field inputs and the relay coil (R451) -/

/-- A debounced change of IN0 and IN1: IO_STAT is sent. The inputs are reported with their polarity bits. -/
def State.fsInput (s : State) (v : Nat) : State :=
  let w := v ^^^ (s.fsField 0x3A 1 0 % 4)
  if s.fs.on && w != s.fs.inputs then
    ({ s with fs := { s.fs with inputs := w, inChanged := s.fs.inChanged ||| (w ^^^ s.fs.inputs) } }).fsIoStat
  else s

/-- FIELD_INPUT_CHANGE. -/
def execFieldInputChange (v : BitVec 2) (s : State) : Outcome State Fault Refusal := .next (s.fsInput v.toNat)

/-- RELAY_COIL_FAULT: IO_STAT reports relay state 2 with FS_FAULT RELAY_FAULT. -/
def execRelayCoilFault (s : State) : Outcome State Fault Refusal :=
  .next (if s.fs.on && !s.fs.coilFault then
      (({ s with fs := { s.fs with coilFault := true } }).fsFault 11 0).fsIoStat else s)

end Sys2Proof.Machine
end

