-- ==== Sys2Proof/Machine/Shadow.lean ====
section
/-! DEFINITION. Reaching a register page, and its shadow copies and commits (spec/21, R683 to R694). -/

namespace Sys2Proof.Machine

/-- The block of Table REG-6 that a page belongs to. -/
def resetBlockOf (page : Nat) : Option Nat :=
  if 0x060 ≤ page ∧ page ≤ 0x06F then some (page - 0x060)
  else if page = 0x0B8 then some 16 else if page = 0x070 then some 17 else if page = 0x071 then some 18
  else if page = 0x078 then some 19 else if page = 0x07C then some 20 else if page = 0x0A0 then some 21
  else if page = 0x0A1 then some 22 else if page = 0x0B0 then some 23 else if page = 0x0B1 then some 24
  else if page = 0x0B2 then some 25 else if page = 0x090 then some 26 else if page = 0x081 then some 27
  else none

/-- The page's block is in reset (R701). -/
def State.inReset (s : State) (page : Nat) : Bool :=
  match resetBlockOf page with
  | some i => bitOf (s.rd F.RST_ACTIVE 0 0) i
  | none => false

/-- An access to an unmapped page reads zero, writes nothing, is counted and recorded (R694). -/
def State.unmapped (s : State) (page : Nat) : State :=
  ((s.inc F.SYS_UNMAPPED_CNT 0 0).wr F.SYS_UNMAPPED_LAST_PAGE 0 0 page).wr F.SYS_UNMAPPED_LAST_VALID 0 0 1

/-- The live registers of the page are out of reach: its block is in reset (R701), or its ports are fused off (R3). -/
def State.liveOff (s : State) (page : Nat) : Bool :=
  s.inReset page || (page == 0x0C0 && s.rd F.SEC_FUSE_CFG_GRADE 0 0 == 1)

/-- An access to a register that is not 32 bits wide and naturally aligned (R19): no effect, reads zero, ACCESS_ERR. -/
def State.badAccess (s : State) (page ofs : Nat) : State :=
  if !mappedPage page then s.unmapped page
  else if !s.pageOn page then s
  else if 0x040 ≤ ofs ∧ s.liveOff page = true then s
  else s.accFault page 0 ofs

/-- A write that reaches a live register of a page: it is performed only where the page is mapped (R694), its domain on
(R33), its block not in reset (R701) and its ports not fused off (R3). -/
def State.reach (s : State) (page : Nat) (k : State → State) : State :=
  if !mappedPage page then s.unmapped page
  else if !s.pageOn page then s
  else if s.inReset page then s
  else if page = 0x0C0 ∧ s.rd F.SEC_FUSE_CFG_GRADE 0 0 = 1 then s
  else k s

/-- The RWS fields of a page, each with its indexes. -/
def rwsFields (page : Nat) : List (Fld × Nat) :=
  if page = 0x004 then
    [F.ORR_FSYNC_CFG_PHASE, F.ORR_FSYNC_CFG_PERIOD_CYC, F.ORR_FSYNC_CFG_GROUP, F.ORR_FSYNC_CFG_POL, F.ORR_FSYNC_CFG_EN,
      F.ORR_FSYNC_ANC_ANCHOR].flatMap (fun f => (List.range 16).map (fun i => (f, i)))
  else if page = 0x0A0 then
    [F.CP_OC_TIME_PERIOD_CYC, F.CP_OC_TIME_ANCHOR, F.CP_OC_TIME_PHASE].flatMap
      (fun f => (List.range 8).map (fun i => (f, i)))
  else []

/-- SHADOW_STAT.PENDING: a shadow copy of the page differs from its live field. -/
def State.shadowPending (s : State) (page : Nat) : Bool :=
  (rwsFields page).any (fun x => s.rdSh x.1 0 x.2 != s.rd x.1 0 x.2)

/-- A pulse group has an enabled output (R51). -/
def State.groupHasOutput (s : State) (g : Nat) : Bool :=
  if g < 4 then
    (List.range 16).any (fun n => s.rdB F.ORR_FSYNC_CFG_EN 0 n && s.rd F.ORR_FSYNC_CFG_GROUP 0 n == g)
  else if g = 4 then s.rdB F.ORR_GRID_OUT_CFG_EN 0 0
  else s.rdB F.ORR_PPS_OUT_CFG_EN 0 0

/-- A group's REALIGN is done: its offset is zero, its pending bit clear, and the event raised. -/
def State.realignDone (s : State) (g : Nat) : State :=
  ((s.wr F.ORR_GRP_OFS 0 g 0).wr F.ORR_REALIGN_PEND_GRP 0 0 (clrBit (s.rd F.ORR_REALIGN_PEND_GRP 0 0) g)).raise 0x004 5

/-- R51: a group that has lost its last enabled output while a REALIGN is pending is realigned at once. -/
def State.realignLost (s : State) : State :=
  (List.range 6).foldl
    (fun t g => if bitOf (t.rd F.ORR_REALIGN_PEND_GRP 0 0) g && !t.groupHasOutput g then t.realignDone g else t) s

/-- Every shadow copy of the page becomes live (R690), COMMIT_CNT advances and SHADOW_COMMITTED is set (R687); an armed
commit of the page is done with. -/
def State.commitPage (s : State) (page : Nat) : State :=
  let s1 := (rwsFields page).foldl (fun t x => t.wr x.1 0 x.2 (t.rdSh x.1 0 x.2)) s
  let s2 := { s1 with armed := s1.armed.filter (fun a => a.page != page) }
  let s3 := (s2.addW F.REG_SHADOW_STAT_COMMIT_CNT page 0 1).raise page 30
  if page = 0x004 then s3.realignLost else s3

/-- A commit that falls late (R691). -/
def State.commitLate (s : State) (page : Nat) : State :=
  (s.commitPage page).wr F.REG_SHADOW_STAT_LATE page 0 1

/-- R690, R693: the commit moments of mode 2 that lie in a range of GT a forward step skips, in ascending order of
their GT, fall at the step. -/
def State.commitRange (s : State) (lo hi : Nat) : State :=
  let due := s.armed.filter (fun a => a.mode == 2 && decide (lo < a.arg) && decide (a.arg ≤ hi))
  (due.mergeSort (fun a b => decide (a.arg ≤ b.arg))).foldl (fun t a => t.commitPage a.page) s

end Sys2Proof.Machine
end

