-- ==== Sys2Proof/Machine/Barrier.lean ====
section
/-! DEFINITION. The Nearside BARRIER block: its transmitter, its credits, its receiver and FIFO, and the DALI query
registers (spec/13, R427 to R438, Table FAR-6). -/

namespace Sys2Proof.Machine

open Host

/-- Table FW-12: firmware runs from INIT to HANDOVER, and acts on commands from READY. -/
def State.fwRun (s : State) : Bool :=
  s.pwr.mainOn && decide (3 ≤ s.rd F.FW_STATE_STATE 0 0) && decide (s.rd F.FW_STATE_STATE 0 0 ≤ 5)
def State.fwReady (s : State) : Bool := s.pwr.mainOn && s.rd F.FW_STATE_STATE 0 0 == 4

/-- The registers that show the block's queues: credits, numbers and FIFO head (R433, Table FAR-6). Both terms of the
credit equation move together. -/
def State.brSync (s : State) : State :=
  let n := s.br.outst.length
  let h := s.br.rxq.headD []
  let s1 := (((s.wr F.BR_TX_CREDIT_AVAILABLE 0 0 (8 - n)).wr F.BR_TX_CREDIT_OUTSTANDING 0 0 n).wr
    F.BR_TX_STAT_QUEUED 0 0 s.br.txq.length).wr F.BR_RX_STAT_COUNT 0 0 s.br.rxq.length
  (List.range 4).foldl (fun t i => t.wr F.BR_RX_MSG 0 i (leAt h (4 * i) 4)) s1

/-- One waiting message sent, where the link is UP and a credit is available (R429, R433). A LEVEL_SET's number is noted
with its output (R465). -/
def State.brSendOne (s : State) : State :=
  match s.br.txq with
  | [] => s
  | b :: rest =>
    if s.rd F.BR_STAT_LINK 0 0 = 2 ∧ s.br.outst.length < 8 ∧ s.pwr.pilotOn then
      let n := s.rd F.BR_TX_SEQ_NEXT 0 0
      let m := brFrame (leAt b 0 1) n (b.drop 1)
      let t := (s.emit (.barrierTx m)).wr F.BR_TX_SEQ_NEXT 0 0 (n + 1)
      { t with br := { t.br with txq := rest, outst := t.br.outst ++ [{ num := n, sentAt := t.now, bytes := m }],
                                 freshReset := false,
                                 lamps := if leAt b 0 1 = 1 then
                                     updWhere (fun l => l.out == leAt b 1 1) (fun l => { l with num := some n }) t.br.lamps
                                   else t.br.lamps } }
    else s

/-- Waiting messages leave while credits last: at most eight. -/
def State.brPump (s : State) : State :=
  s.brSendOne.brSendOne.brSendOne.brSendOne.brSendOne.brSendOne.brSendOne.brSendOne.brSync

/-- A Nearside message (type, bytes 4 to 13) queued; a full queue of 32 ignores it (Table FAR-6). -/
def State.brQueue (s : State) (ty : Nat) (body : List Byte) : State :=
  if 32 ≤ s.br.txq.length then s
  else ({ s with br := { s.br with txq := s.br.txq ++ [BitVec.ofNat 8 ty :: body] } }).brPump

/-- A Nearside HEARTBEAT queued, ahead of the waiting messages where it must come first (Table FAR-2). -/
def State.brHeartbeat (s : State) (resync echo front : Bool) : State :=
  let b : List Byte := 0x03#8 :: BitVec.ofNat 8 (b2n resync + 2 * b2n echo) :: List.replicate 9 0#8
  if 32 ≤ s.br.txq.length then s
  else ({ s with br := { s.br with txq := if front then b :: s.br.txq else s.br.txq ++ [b],
                                   hbCycle := s.gt / 65536 } }).brPump

/-- Every outstanding message is sent again, in order and with its number (R429, R434, R436). -/
def State.brResend (s : State) : State :=
  let t := s.br.outst.foldl (fun u m => u.emit (.barrierTx m.bytes)) s
  { t with br := { t.br with outst := t.br.outst.map (fun m => { m with sentAt := t.now }) } }

/-- RX_ACK a: the outstanding messages up to it are done with (R428, R433); one that names no outstanding message
acknowledges nothing. -/
def State.brAck (s : State) (a : Nat) : State :=
  match s.br.outst.findIdx? (fun m => m.num == a) with
  | some i => (({ s with br := { s.br with outst := s.br.outst.drop (i + 1) } }).wr F.BR_TX_SEQ_RX_ACK 0 0 a).brPump
  | none => s

/-- Table FAR-1: a type of either column. -/
def brKnown (ty : Nat) : Bool := (decide (1 ≤ ty) && decide (ty ≤ 5)) || (decide (0x81 ≤ ty) && decide (ty ≤ 0x87))

/-- A message enters the receive FIFO, or is dropped where it is full; while the main domain is off the Pilot
controller consumes it at once (R496). -/
def State.brFifo (s : State) (m : List Byte) : State :=
  if !s.pwr.mainOn then s.inc F.PL_MSG_OFF_CNT 0 0
  else if 64 ≤ s.br.rxq.length then (s.inc F.BR_RX_OVF_CNT 0 0).raise 0x090 8
  else (({ s with br := { s.br with rxq := s.br.rxq ++ [m] } }).raise 0x090 0).brSync

/-- R428, R430, R435: the Nearside receives a Farside message; `k` is what a message of a known type then does. -/
def State.brReceive (s : State) (m : List Byte) (k : State → State) : State :=
  if !s.pwr.pilotOn || s.rd F.BR_STAT_LINK 0 0 != 2 then s
  else if !brGood m then (s.inc F.BR_RX_CRC_CNT 0 0).raise 0x090 1
  else
    let n := leAt m 2 2
    let s1 := if s.br.rxNext.getD n == n then s else (s.inc F.BR_RX_GAP_CNT 0 0).raise 0x090 2
    let s2 := { s1 with br := { s1.br with rxNext := some ((n + 1) % 65536) } }
    if !brKnown (leAt m 1 1) then s2.inc F.BR_RX_UNKNOWN_CNT 0 0
    else (k (s2.brAck (leAt m 12 2))).brFifo m

/-- A Farside message of the given type arrives; one of another type is no such arrival. -/
def State.brArrive (s : State) (m : List Byte) (ty : Nat) (k : State → State) : State :=
  if brGood m && leAt m 1 1 != ty then s else s.brReceive m k

/-! ### Commands -/

/-- RX_UNKNOWN (R435). -/
def execRxUnknown (m : List Byte) (s : State) : Outcome State Fault Refusal :=
  .next (if brGood m && brKnown (leAt m 1 1) then s else s.brReceive m id)

/-- FS_FAULT: the report is received; firmware reads it from the FIFO (R439). -/
def execFsFault (m : List Byte) (s : State) : Outcome State Fault Refusal :=
  .next (s.brArrive m 0x87 id)

/-- R451, R496: an IO_STAT; a change flag is the wake cause FIELD_INPUT. -/
def State.brIoStat (s : State) (m : List Byte) : State :=
  let t := { s with br := { s.br with lastIo := m } }
  if leAt m 5 1 = 0 then t else t.wakeLatch 3

/-- IO_STAT. -/
def execIoStat (m : List Byte) (s : State) : Outcome State Fault Refusal :=
  .next (s.brArrive m 0x85 (fun t => t.brIoStat m))

/-- R446: a DALI_REPLY: it answers the query whose tag it carries and waits in DQ_REPLY. -/
def State.brDaliReply (s : State) (m : List Byte) : State :=
  let tag := leAt m 4 1
  if s.br.dqTags.contains tag then
    ({ s with br := { s.br with dqTags := s.br.dqTags.erase tag,
                                dqReplies := s.br.dqReplies ++ [(m.drop 5).take 7] } }).raise 0x090 7
  else s

/-- DALI_REPLY. -/
def execDaliReply (m : List Byte) (s : State) : Outcome State Fault Refusal :=
  .next (s.brArrive m 0x84 (fun t => t.brDaliReply m))

/-- R434: RX_ACK has not passed an outstanding message within RETX_US of its send start. -/
def State.brRetx (s : State) : State :=
  if s.rd F.BR_STAT_LINK 0 0 = 2 ∧
      s.br.outst.any (fun m => decide (m.sentAt + s.rd F.BR_CFG_RETX_US 0 0 * 1000 ≤ s.now)) = true then
    s.brResend.inc F.BR_RETX_CNT 0 0
  else s

/-- BARRIER_RETX. -/
def execBarrierRetx (s : State) : Outcome State Fault Refusal := .next s.brRetx

/-- R437, R438, R727: the link comes up with a measured one-way latency of at most 9.0 us. The first message after a
reset of the block is a HEARTBEAT with RESYNC; outstanding messages are resent. -/
def State.brLinkUp (s : State) (lat : Nat) : State :=
  if s.rd F.BR_STAT_LINK 0 0 = 1 ∧ s.pwr.pilotOn = true ∧ s.fs.on = true ∧ lat ≤ 9000 then
    let s1 := (s.wr F.BR_STAT_LINK 0 0 2).wr F.BR_LAT_NS 0 0 lat
    let s2 := { s1 with br := { s1.br with rxNext := none }, orr := { s1.orr with restart := true } }
    s2.brResend.brHeartbeat s2.br.freshReset true true
  else s

/-- BARRIER_LINK_UP. -/
def execBarrierLinkUp (lat : BitVec 16) (s : State) : Outcome State Fault Refusal := .next (s.brLinkUp lat.toNat)

/-- R438: the link loses its partner: LINK is DOWN and the event is raised. -/
def State.brLinkDown (s : State) : State :=
  if s.rd F.BR_STAT_LINK 0 0 = 0 then s else (s.wr F.BR_STAT_LINK 0 0 0).raise 0x090 6

/-- BARRIER_LINK_DOWN. -/
def execBarrierLinkDown (s : State) : Outcome State Fault Refusal := .next s.brLinkDown

/-- BR_CTRL.EN (Table FAR-6): set, a DOWN link trains; clear, the link goes DOWN. -/
def State.brEnable (s : State) (v : Nat) : State :=
  let t := s.wr F.BR_CTRL_EN 0 0 v
  if v % 2 = 1 then (if t.rd F.BR_STAT_LINK 0 0 = 0 then t.wr F.BR_STAT_LINK 0 0 1 else t) else t.brLinkDown

/-- An initiator that may write TX_MSG, TX_PUSH and the SP registers: Sous firmware and the Pilot controller. -/
def brTrusted (src : Src) : Bool := src == .sous || src == .pilot

/-- A guarded write of the page: performed, or ignored and counted in TX_DENY_CNT (Table FAR-6). -/
def State.brGuard (s : State) (src : Src) (k : State → State) : State :=
  if brTrusted src then k s else s.inc F.BR_TX_DENY_CNT 0 0

/-- TX_PUSH: TX_MSG (byte 1 in TX_MSG0 [7:0], then bytes 4 to 13) is queued (R433). -/
def State.brPush (s : State) : State :=
  let w (i : Nat) := s.rd F.BR_TX_MSG 0 i
  s.brQueue (w 0 % 256) ((toBytes 3 (w 0 / 256)) ++ toBytes 4 (w 1) ++ toBytes 3 (w 2))

/-- BARRIER_TX_PUSH. -/
def execBarrierTxPush (src : Src) (v : Word) (s : State) : Outcome State Fault Refusal :=
  .next (s.reach 0x090 (fun t => t.brGuard src (fun u => if bitOf v.toNat 0 then u.brPush else u)))

/-- R435: the head of the receive FIFO is dropped. -/
def State.rxPop (s : State) : State := ({ s with br := { s.br with rxq := s.br.rxq.tail } }).brSync

/-- BARRIER_RX_POP. -/
def execBarrierRxPop (v : Word) (s : State) : Outcome State Fault Refusal :=
  .next (s.reach 0x090 (fun t => if bitOf v.toNat 0 then t.rxPop else t))

/-- R446: DQ_PUSH queues the request of DQ_REQ with a tag of the device's own; at most four wait. -/
def State.brDqPush (s : State) : State :=
  if 4 ≤ s.br.dqTags.length then s
  else
    let tag := s.br.dqTag
    let b := BitVec.ofNat 8 tag :: (toBytes 4 (s.rd F.BR_DQ_REQ 0 0)).tail ++ toBytes 4 (s.rd F.BR_DQ_REQ 0 1)
      ++ [0#8, 0#8]
    ({ s with br := { s.br with dqTags := s.br.dqTags ++ [tag], dqTag := (tag + 1) % 256 } }).brQueue 0x02 b

/-- DQ_PUSH. -/
def execDqPush (v : Word) (s : State) : Outcome State Fault Refusal :=
  .next (s.reach 0x090 (fun t => if bitOf v.toNat 0 then t.brDqPush else t))

/-- R458: firmware, or the Pilot controller while the main domain is off and PILOT_HB is 1, sends a HEARTBEAT. -/
def State.brHbSend (s : State) : State :=
  if s.pwr.pilotOn && (s.fwRun || (!s.pwr.mainOn && s.rdB F.BR_CTRL_PILOT_HB 0 0)) && s.rd F.BR_STAT_LINK 0 0 == 2 then
    s.brHeartbeat false false false
  else s

/-- HB_PERIOD_SEND. -/
def execHbPeriodSend (s : State) : Outcome State Fault Refusal := .next s.brHbSend

/-- Table REG-6, R437, R701: what a reset of the BARRIER block clears beyond its registers. -/
def State.brReset (s : State) : State :=
  { s with br := { s.br with txq := [], outst := [], rxNext := none, rxq := [], freshReset := true, dqTags := [],
                             dqReplies := [], points := [] } }

end Sys2Proof.Machine
end

