-- ==== Sys2Proof/Machine/Lamp.lean ====
section
/-! DEFINITION. The lamp arbiter: requests, raises, zones and the schedule, and the LEVEL_SETs they give (spec/13, R461 to
R467; spec/08, R291 to R295; R521, R730, R731). -/

namespace Sys2Proof.Machine

open Host

/-- R462: min(SMAX, max(SMIN, L)). -/
def lampClamp (smin smax l : Nat) : Nat := min smax (max smin l)

/-- SMIN, SMAX and ramp of an output: 0, 1000 and none where no point has set them (R461). -/
def State.clampOf (s : State) (o : Nat) : LampClamp :=
  (s.br.clamps.find? (fun c => c.out == o)).getD { out := o, smin := 0, smax := 1000, ramp := 0 }

/-- The present level of an output at the arbiter; 0 before its first LEVEL_SET. -/
def State.lampLevel (s : State) (o : Nat) : Nat := ((s.br.lamps.find? (fun l => l.out == o)).map (fun l => l.level)).getD 0

/-- The highest of a list of levels with their ramps; none gives 0. -/
def topLevel : List (Nat × Nat) → Nat × Nat
  | [] => (0, 0)
  | (l, r) :: t => let x := topLevel t; if x.1 ≤ l then (l, r) else x

/-- R463: a LEVEL_SET for cycle C + 1, with K = C + 1 + ZC_OFS. -/
def State.lampSend (s : State) (o level ramp : Nat) (spec : Bool) : State :=
  let c := (s.gt / 65536 + 1) % 2 ^ 48
  let k := (c + s.rd F.BR_ZC_OFS 0 0) % 2 ^ 32
  let l : LampOut := { out := o, level, ramp, spec, num := none, cycle := c, acked := false }
  let t := { s with br := { s.br with lamps := l :: s.br.lamps.filter (fun x => x.out != o) } }
  t.brQueue 0x01 ([BitVec.ofNat 8 o, BitVec.ofNat 8 (b2n spec)] ++ toBytes 2 level ++ toBytes 2 (min ramp 65535)
    ++ toBytes 4 k)

/-- R462, R463: the arbiter evaluates an output and sends a LEVEL_SET where its level has changed, or where the same level
is now decided without SPEC (R464). SPEC is set only when a raise decides the level. -/
def State.lampEval (s : State) (o : Nat) : State :=
  if s.br.arbOn && s.outEnabled o then
    let conf := (s.br.reqs.filter (fun r => r.out == o)).map (fun r => (min r.level 1000, r.ramp))
    let spec := (s.br.raises.filter (fun r => r.out == o)).map (fun r => (min r.level 1000, r.ramp))
    let cl := s.clampOf o
    let top := topLevel (conf ++ spec)
    let lv := lampClamp cl.smin cl.smax top.1
    let isSpec := decide (lampClamp cl.smin cl.smax (topLevel conf).1 < lv)
    let ramp := if lv = top.1 then top.2 else cl.ramp
    let old := s.br.lamps.find? (fun l => l.out == o)
    let send := match old with
      | none => true
      | some x => x.level != lv || (x.spec && !isSpec)
    if send then
      let t := s.lampSend o lv ramp isSpec
      let n := (t.gt / 65536 + 1) % 2 ^ 48
      let t1 := if isSpec then t.inc F.SPC_SPEC_RAISE_CNT 0 0 else t
      { t1 with br := { t1.br with raises := updWhere (fun r => r.out == o && r.sentFor == none)
                                    (fun r => { r with sentFor := some n }) t1.br.raises } }
    else s
  else s

/-- R462: a request for an output that is invalid or not enabled is discarded and counted. -/
def State.lampBad (s : State) : State := s.inc F.BR_ARB_BADOUT_CNT 0 0

/-- R461, R730: a confirmed request; it replaces the latest of the same source for that output. A standing order's first
result ends the boot hold of the output. -/
def State.lampRequest (s : State) (key : ReqKey) (o level ramp : Nat) : State :=
  if s.outEnabled o then
    let isOrder := match key with
      | .order _ => true
      | _ => false
    let keep := s.br.reqs.filter (fun r => !(r.out == o && (r.key == key || (isOrder && r.key == .boot))))
    let gone := (s.br.reqs.filter (fun r => isOrder && r.key == key && r.out != o)).map (fun r => r.out)
    let keep2 := keep.filter (fun r => !(isOrder && r.key == key))
    let t := { s with br := { s.br with reqs := keep2 ++ [({ key, out := o, level, ramp } : LampReq)] } }
    (gone ++ [o]).foldl State.lampEval t
  else s.lampBad

/-- A request withdrawn: of a context that reaches FREE (R461), of a standing order whose result is not VALID (R731), of a
zone that closes. -/
def State.lampWithdraw (s : State) (key : ReqKey) : State :=
  let outs := (s.br.reqs.filter (fun r => r.key == key)).map (fun r => r.out)
  outs.foldl State.lampEval { s with br := { s.br with reqs := s.br.reqs.filter (fun r => r.key != key) } }

/-- R291, R292: a SPEC request raises the output where its level is above the present one; otherwise it is discarded. -/
def State.lampSpec (s : State) (cmd : Nat) (key : ReqKey) (o level ramp : Nat) : State :=
  if s.outEnabled o then
    if s.lampLevel o < min level 1000 then
      ({ s with br := { s.br with raises := s.br.raises ++ [({ cmd, key, out := o, level := min level 1000, ramp } : LampRaise)] } }).lampEval o
    else s
  else s.lampBad

/-- R293, R464: the command of a raise is confirmed: the raise becomes a confirmed request. -/
def State.lampConfirm (s : State) (cmd : Nat) : State :=
  let rs := s.br.raises.filter (fun r => r.cmd == cmd)
  rs.foldl (fun t r => t.lampRequest r.key r.out r.level r.ramp)
    { s with br := { s.br with raises := s.br.raises.filter (fun r => r.cmd != cmd) } }

/-- SPEC_HOLD in cycles: its default is 100 at 50 Hz and 120 at 60 Hz (R294). -/
def State.specHold (s : State) : Nat :=
  let h := s.rd F.SPC_SPEC_CTRL_SPEC_HOLD 0 0
  if h = 0 then (if s.orr.nominal60 then 120 else 100) else h

/-- R293: a raise sent for cycle N expires: the arbiter recomputes without it for cycle N + SPEC_HOLD. -/
def State.raiseExpire (s : State) (cmd o : Nat) : State :=
  match s.br.raises.find? (fun r => r.cmd == cmd && r.out == o) with
  | some r =>
    match r.sentFor with
    | some n =>
      if n + s.specHold ≤ s.gt / 65536 + 1 then
        let t := { s with br := { s.br with raises := s.br.raises.filter (fun x => !(x.cmd == cmd && x.out == o)) } }
        ((t.lampEval o).inc F.SPC_SPEC_REVERT_CNT 0 0).raise 0x006 2
      else s
    | none => s
  | none => s

/-- SPEC_RAISE_EXPIRE: the raise of a command on an output. -/
def execSpecRaiseExpire (cmd : Nat) (o : BitVec 7) (s : State) : Outcome State Fault Refusal :=
  .next (s.raiseExpire cmd o.toNat)

/-- R465: the LEVEL_SET of an output is sent again, for the next cycle. -/
def State.lampResend (s : State) (o : Nat) : State :=
  match s.br.lamps.find? (fun l => l.out == o) with
  | some l => s.lampSend o l.level l.ramp l.spec
  | none => s

/-- R436, R456, R465, R496: a Farside HEARTBEAT: its state, the event of FAILSAFE or RESET, the resends, and the wake
cause FAILSAFE. -/
def State.brFsHeartbeat (s : State) (m : List Byte) : State :=
  let st := leAt m 4 1
  let rst := bitOf (leAt m 5 1) 1
  let s1 := if st = 2 ∧ s.rd F.BR_STAT_FS_STATE 0 0 ≠ 2 then s.raise 0x090 4 else s
  let s2 := s1.wr F.BR_STAT_FS_STATE 0 0 st
  let s3 := if st = 2 then s2.wakeLatch 4 else s2
  let s4 := if rst then ((s3.raise 0x090 5).brResend).brHeartbeat true false true else s3
  if (st == 2 || rst) && s4.br.arbOn then
    ((s4.br.lamps.map (fun l => l.out)).filter s4.outEnabled).foldl State.lampResend s4
  else s4

/-- FS_HEARTBEAT. -/
def execFsHeartbeat (m : List Byte) (s : State) : Outcome State Fault Refusal :=
  .next (s.brArrive m 0x86 (fun t => t.brFsHeartbeat m))

/-- R465: a LEVEL_ACK that names the latest LEVEL_SET of its output. -/
def State.brLevelAck (s : State) (m : List Byte) : State :=
  { s with br := { s.br with lamps := updWhere (fun l => l.out == leAt m 6 1 && l.num == some (leAt m 4 2))
                                        (fun l => { l with acked := true }) s.br.lamps } }

/-- LEVEL_ACK. -/
def execLevelAck (m : List Byte) (s : State) : Outcome State Fault Refusal :=
  .next (s.brArrive m 0x83 (fun t => t.brLevelAck m))

/-- R465: no LEVEL_ACK within 2 cycles of the target cycle. -/
def State.ackTimeout (s : State) (o : Nat) : State :=
  match s.br.lamps.find? (fun l => l.out == o) with
  | some l => if s.br.arbOn && !l.acked && decide (l.cycle + 2 ≤ s.gt / 65536) then s.lampResend o else s
  | none => s

/-- LEVEL_ACK_TIMEOUT. -/
def execLevelAckTimeout (o : BitVec 7) (s : State) : Outcome State Fault Refusal := .next (s.ackTimeout o.toNat)

/-! ### Zones (R422, R461) -/

/-- A confirmed zone reaches its start GT and becomes a live request. -/
def State.zoneOpen (s : State) (id : Nat) : State :=
  match s.br.zones.find? (fun z => z.id == id) with
  | some z =>
    if !z.isOpen && decide (z.start ≤ s.gt) && decide (s.gt < z.stop) then
      ({ s with br := { s.br with zones := updWhere (fun x => x.id == id) (fun x => { x with isOpen := true })
                                            s.br.zones } }).lampRequest (.zone id) z.out z.level z.ramp
    else s
  | none => s

/-- ZONE_OPEN. -/
def execZoneOpen (id : Nat) (s : State) : Outcome State Fault Refusal := .next (s.zoneOpen id)

/-- A zone reaches its end and stops being a request. -/
def State.zoneClose (s : State) (id : Nat) : State :=
  match s.br.zones.find? (fun z => z.id == id) with
  | some z =>
    if z.stop ≤ s.gt then
      ({ s with br := { s.br with zones := s.br.zones.filter (fun x => x.id != id) } }).lampWithdraw (.zone id)
    else s
  | none => s

/-- ZONE_CLOSE. -/
def execZoneClose (id : Nat) (s : State) : Outcome State Fault Refusal := .next (s.zoneClose id)

/-! ### Schedule points (R467) -/

/-- R67, R467: a schedule point's occurrence that is due sets SMIN and SMAX of its output; an occurrence one full period or
more late is skipped. Points due at the same GT fire in point order. -/
def State.schedulePoint (s : State) (i : Nat) : State :=
  match s.br.points.find? (fun p => p.1 == i) with
  | some (_, due) =>
    let first := s.br.points.all (fun p => !(decide (p.2 < due)) && !(p.2 == due && decide (p.1 < i)))
    if due ≤ s.gt ∧ first = true ∧ s.fwReady = true then
      let per := s.rd F.BR_SP_PERIOD 0 i * 65536
      let rest := s.br.points.filter (fun p => p.1 != i)
      let next := if per = 0 then rest else (i, due + per) :: rest
      let t := { s with br := { s.br with points := next } }
      if per ≠ 0 ∧ due + per ≤ s.gt then t.inc F.ORR_EPH_MISS 0 0
      else
        let o := s.rd F.BR_SP_OUT_OUTPUT 0 i
        if t.outEnabled o then
          let c : LampClamp := { out := o, smin := s.rd F.BR_SP_OUT_SMIN 0 i, smax := s.rd F.BR_SP_LIM_SMAX 0 i,
                                 ramp := s.rd F.BR_SP_LIM_RAMP_MS 0 i }
          (({ t with br := { t.br with clamps := c :: t.br.clamps.filter (fun x => x.out != o) } }).lampEval o)
        else t.lampBad
    else s
  | none => s

/-- SCHEDULE_POINT. -/
def execSchedulePoint (i : Fin 32) (s : State) : Outcome State Fault Refusal := .next (s.schedulePoint i)

/-- R467: SP_CMD.EN takes the selected point into the Ephemeris, or out of it. A period below 0x1000 phase units cannot
arise, as it is counted in cycles (R68). -/
def State.spEnable (s : State) (i v : Nat) : State :=
  let t := s.wr F.BR_SP_CMD_EN 0 i v
  let rest := t.br.points.filter (fun p => p.1 != i)
  { t with br := { t.br with points := if v % 2 = 1 then (i, t.rd F.BR_SP_GT 0 i) :: rest else rest } }

/-- SP_ENABLE: a write of SP_CMD of the point that SP_SEL addresses. -/
def execSpEnable (src : Src) (v : Word) (s : State) : Outcome State Fault Refusal :=
  .next (s.reach 0x090 (fun t => t.brGuard src (fun u => u.spEnable (u.rd F.BR_SP_SEL 0 0) v.toNat)))

/-! ### The boot hold (R730) -/

/-- From READY the arbiter holds a firmware request for each enabled output. -/
def State.lampBoot (s : State) (level hold : Nat) : State :=
  let outs := outIndices.filter s.outEnabled
  let t := { s with br := { s.br with arbOn := true, bootEnd := some (s.gt + hold * 65536),
                                      reqs := s.br.reqs ++ outs.map (fun o => ({ key := .boot, out := o, level, ramp := 0 } : LampReq)) } }
  outs.foldl State.lampEval t

/-- LAMP_BOOT_HOLD cycles have passed. -/
def State.lampBootEnd (s : State) : State :=
  match s.br.bootEnd with
  | some e => if e ≤ s.gt then ({ s with br := { s.br with bootEnd := none } }).lampWithdraw .boot else s
  | none => s

/-- LAMP_BOOT_HOLD_END. -/
def execLampBootHoldEnd (s : State) : Outcome State Fault Refusal := .next s.lampBootEnd

/-- The registers that show the arbiter's outputs (Table FAR-6): present level, SMIN and SMAX of output o. -/
def State.arbView (s : State) (o : Nat) : Nat × Nat × Nat := (s.lampLevel o, (s.clampOf o).smin, (s.clampOf o).smax)

end Sys2Proof.Machine
end

