-- ==== Sys2Proof/Machine/Slots.lean ====
section
/-! DEFINITION. Kettle slots and granules as the scheduler books them: placing a command, killing it, freeing its slot
(spec/03, R71 to R73, R101 to R103; spec/04, R112; spec/07, R257 to R260). -/

namespace Sys2Proof.Machine

/-- The tile's record, and its update. -/
def State.tile (s : State) (p : Nat) : TileSt := (s.tiles.find? (fun t => t.num == p)).getD { num := p }
def State.setTile (s : State) (t : TileSt) : State :=
  { s with tiles := t :: s.tiles.filter (fun x => x.num != t.num) }

/-- A slot of a tile that is not FREE. -/
def State.slot (s : State) (p n : Nat) : Option Slot := (s.tile p).slots.find? (fun x => x.num == n)

/-- A slot's record replaced. -/
def State.setSlot (s : State) (p : Nat) (x : Slot) : State :=
  let t := s.tile p
  s.setTile { t with slots := x :: t.slots.filter (fun y => y.num != x.num) }

/-- A slot's record updated. -/
def State.updSlot (s : State) (p n : Nat) (f : Slot → Slot) : State :=
  let t := s.tile p
  s.setTile { t with slots := updWhere (fun y => y.num == n) f t.slots }

/-- The command with a number. -/
def State.cmd (s : State) (id : Nat) : Option Cmd := s.sch.cmds.find? (fun c => c.id == id)

/-- A command's record updated. -/
def State.updCmd (s : State) (id : Nat) (f : Cmd → Cmd) : State :=
  { s with sch := { s.sch with cmds := updWhere (fun c => c.id == id) f s.sch.cmds } }

/-- The slots that hold a command: tile and slot number. -/
def State.slotsOf (s : State) (id : Nat) : List (Nat × Nat) :=
  s.tiles.flatMap (fun t => (t.slots.filter (fun x => x.cmd == id)).map (fun x => (t.num, x.num)))

/-! ### Granules (R112, Table SCH-5) -/

/-- The tag of a granule: 0x3F FREE. -/
def TileSt.tag (t : TileSt) (g : Nat) : Nat := storeGet 0x3F t.tags g

/-- GRANULE_FREE (R115). -/
def TileSt.granuleFree (t : TileSt) : Nat := 256 - t.tags.length

/-- Granules tagged SHARED. -/
def TileSt.shared (t : TileSt) : Nat := (t.tags.filter (fun x => x.2 == 0x3E)).length

/-- Granules held by non-urgent, and by urgent, commands of a tile; a canary holds eight (R619). -/
def TileSt.held (t : TileSt) : Nat :=
  ((t.slots.filter (fun x => x.cls != 0)).map (fun x => x.grans.length)).sum + (if t.canary then 8 else 0)
def TileSt.urgHeld (t : TileSt) : Nat := ((t.slots.filter (fun x => x.cls == 0)).map (fun x => x.grans.length)).sum

/-- RERUN_RESV of logical Kettle k, and of one command on it (R260). -/
def State.resvOf (s : State) (k : Nat) : Nat :=
  (s.sch.cmds.map (fun c => ((c.resv.filter (fun r => r.1 == k)).map (fun r => r.2)).sum)).sum
def Cmd.resvOn (c : Cmd) (k : Nat) : Nat := ((c.resv.filter (fun r => r.1 == k)).map (fun r => r.2)).sum

/-- AVAIL and URG_FREE of a logical Kettle (Table SCH-5). -/
def State.granAvail (s : State) (k : Nat) : Nat :=
  match s.tileOf k with
  | some p => 224 - (s.tile p).held - (s.tile p).shared - s.resvOf k
  | none => 0
def State.urgFree (s : State) (k : Nat) : Nat :=
  match s.tileOf k with
  | some p => 32 - (s.tile p).urgHeld
  | none => 0

/-- The n lowest-numbered granules tagged FREE. -/
def TileSt.freeGranules (t : TileSt) (n : Nat) : List Nat :=
  ((List.range 256).filter (fun g => t.tag g == 0x3F)).take n

/-- Granules tagged for a slot. -/
def TileSt.tagAll (t : TileSt) (gs : List Nat) (v : Nat) : TileSt :=
  { t with tags := gs.foldl (fun m g => storeSet 0x3F m g v) t.tags }

/-! ### Placing and freeing -/

/-- A free slot of a tile that a class may take: 0 to 3 for U, 4 to 31 for F and B (R244); the lowest is taken. -/
def State.freeSlot (s : State) (p cls : Nat) : Option Nat :=
  (if cls = 0 then List.range 4 else (List.range 28).map (fun i => i + 4)).find? (fun n => (s.slot p n).isNone)

/-- R619: the canary's slot; it takes the highest, whose tag marks its granules. -/
def canarySlot : Nat := 31

/-- The canary leaves a tile: its granules are FREE again. -/
def TileSt.endCanary (t : TileSt) : TileSt :=
  if t.canary then { t with canary := false, tags := t.tags.filter (fun x => x.2 != canarySlot) } else t

/-- R620: a dispatch kills the canary of the tile; after 8 kills in a row it is skipped and the next Kettle's turn comes. -/
def State.killCanary (s : State) (p : Nat) : State :=
  let t := s.tile p
  if t.canary then
    let u := s.setTile t.endCanary
    let n := u.rep.killed + 1
    if 8 ≤ n then
      { (u.inc F.RP_CANARY_SKIP_CNT 0 0) with rep := { u.rep with canary := none, killed := 0, turn := (u.rep.turn + 1) % 16 } }
    else { u with rep := { u.rep with canary := none, killed := n } }
  else s

/-- R72: a command's part is written into a FREE slot, which becomes LOADED, and its granules are tagged for it. A canary
on the Kettle is killed (R620). -/
def State.slotDispatch (s0 : State) (p n : Nat) (c : Cmd) (part grans : Nat) : State :=
  let s := s0.killCanary p
  let t := s.tile p
  let gs := t.freeGranules grans
  let x : Slot := { num := n, cmd := c.id, part, cls := c.desc.cls, grans := gs }
  let t2 := t.tagAll gs n
  s.setTile { t2 with slots := x :: t2.slots }

/-- The slot's granules go back to FREE. -/
def TileSt.release (t : TileSt) (x : Slot) : TileSt :=
  { t.tagAll x.grans 0x3F with slots := t.slots.filter (fun y => y.num != x.num) }

/-- R259, R260: a slot is freed; a FREE slot has no C-level transfer in progress (Table LAD-10; DEDUCED, log 72). Where its command was killed for rerun, the freeing transaction books its granules as
RERUN_RESV, and with its last slot free the command is ready again with its rerun count advanced. -/
def State.slotFree (s : State) (p n : Nat) : State :=
  match s.slot p n with
  | none => s
  | some x =>
    let s1 := (s.setTile ((s.tile p).release x)).wr F.KT_LD_XFER_BUSY p 0 (clrBit (s.rd F.KT_LD_XFER_BUSY p 0) n)
    match s1.cmd x.cmd with
    | some c =>
      if x.st ≠ 4 ∧ c.phase = .running then
        let k := (s1.kettleOf p).getD 31
        let s2 := s1.updCmd c.id (fun c => { c with resv := if x.cls = 0 then c.resv else (k, x.grans.length) :: c.resv })
        if (s2.slotsOf c.id).isEmpty then
          (s2.updCmd c.id (fun c => { c with phase := if x.cls = 0 then .urgent else .ready, reruns := c.reruns + 1,
                                             started := none })).inc F.SCH_RERUN_CNT 0 0
        else s2
      else s1
    | none => s1

/-- Accumulator blocks a slot holds (a mask): those of its open chain and of its chains under readout (R92). -/
def TileSt.blocksOf (t : TileSt) (x : Slot) : Nat :=
  (t.readouts.filter (fun r => r.slot == x.num)).foldl (fun m r => m ||| r.blocks) x.blocks

/-- R101 to R103: what a kill does in the array. No vector of the slot issues from the present cycle; its readouts are
cancelled and their blocks wait for its last vector; its next step's tile load is abandoned and the row buses are free. -/
def TileSt.stop (t : TileSt) (x : Slot) : TileSt :=
  let n := x.num
  let mine := t.chosen == some n
  let cut (final : Nat) : Nat := if t.cyc ≤ final then t.cyc - 1 else final
  { t with
      slots := updWhere (fun y => y.num == n) (fun y => { y with st := 3, blocks := t.blocksOf x }) t.slots
      prev := t.prev.map (fun r => if r.slot = n then { r with final := cut r.final } else r)
      flights := updWhere (fun f => f.slot == n) (fun f => { f with final := cut f.final }) t.flights
      readouts := t.readouts.filter (fun r => r.slot != n)
      busFree := if mine && t.load.isSome then min t.busFree t.cyc else t.busFree
      chosen := if mine then none else t.chosen
      load := if mine then none else t.load
      flip := if mine then none else t.flip }

/-- A counter of Table KET-7 advances unless CNT_CTRL.FREEZE is 1. -/
def State.ktCount (s : State) (f : Fld) (p : Nat) : State := if s.rdB F.KT_CNT_CTRL_FREEZE p 0 then s else s.inc f p 0

/-- R101, R102: a kill reaches a slot. LOADED becomes FREE; RUNNING becomes KILLING; COMMITTING and KILLING are not affected
(R73). -/
def State.killSlot (s : State) (p n : Nat) : State :=
  match s.slot p n with
  | none => s
  | some x =>
    if x.st = 1 then
      let t := s.tile p
      let t2 := if t.chosen = some n then { t.stop x with slots := t.slots, prev := t.prev } else t
      ((s.setTile t2).ktCount F.KT_KILL_CNT p).slotFree p n
    else if x.st = 2 then (s.setTile ((s.tile p).stop x)).ktCount F.KT_KILL_CNT p
    else s

/-- Every slot of a command is killed: all parts with any one of them (R168). -/
def State.killCmd (s : State) (id : Nat) : State := (s.slotsOf id).foldl (fun t x => t.killSlot x.1 x.2) s

/-! ### Kettles in service -/

/-- Logical Kettle k is in service (Table RPR-3, R528). -/
def State.inService (s : State) (k : Nat) : Bool :=
  s.rd F.RP_KMAP_STATE 0 k == 0 && !bitOf (s.rd F.PWR_KGATED 0 0) k && (s.tileOf k).isSome

/-- Dispatch to Kettle k goes on: it is in service and is not to be gated (R528). -/
def State.dispatchable (s : State) (k : Nat) : Bool := s.inService k && !bitOf s.pwr.gate k

/-- The Kettles of a partition (R238). -/
def State.partKettles (s : State) (part : Nat) : List Nat :=
  (List.range 16).filter (fun k => bitOf (s.rd F.SCH_PART_KMASK 0 part) k)

/-- The operating-point factor, as a fraction (Table SCO-3): 1, 5/4, 5/3, 5/2. -/
def opFactor (op : Nat) : Nat × Nat := if op = 0 then (1, 1) else if op = 1 then (5, 4) else if op = 2 then (5, 3) else (5, 2)

/-- The operating point of the group of a tile (R536). -/
def State.opOf (s : State) (p : Nat) : Nat :=
  s.rd (if p / 6 = 0 then F.PWR_GRP_OP_CUR_KG0 else if p / 6 = 1 then F.PWR_GRP_OP_CUR_KG1 else F.PWR_GRP_OP_CUR_KG2) 0 0

/-- R240: PART_CAP for a floor: n times floor(T / f). -/
def State.capAt (s : State) (part floor : Nat) : Nat :=
  let f := opFactor floor
  let t := if s.orr.nominal60 then 16666 else 20000
  ((s.partKettles part).filter s.inService).length * (t * f.2 / f.1)

/-- The OP_FLOOR in force: that before a raise that still waits (R537). -/
def State.floorOf (s : State) (part : Nat) : Nat :=
  ((s.sch.floorReq.find? (fun x => x.1 == part)).map (fun x => x.2)).getD (s.rd F.SCH_PART_CFG_OP_FLOOR 0 part)

/-- PART_CAP (R240). -/
def State.partCap (s : State) (part : Nat) : Nat := s.capAt part (s.floorOf part)

end Sys2Proof.Machine
end

