-- ==== Sys2Proof/Machine/Sched.lean ====
section
/-! DEFINITION. Contexts, token buckets, completion records and the closing of a command (spec/06, R194 to R236; spec/07,
R261 to R268). -/

namespace Sys2Proof.Machine

/-! ### Contexts and buckets -/

/-- FW's number (R237): it lies outside contexts 0 to 2047. -/
def fwCtx : Nat := 2048

/-- The local page of a context, where its rings live on this device (R648). -/
def State.localPage (s : State) (ctx : Nat) : Option Nat :=
  if ctx = fwCtx then none
  else if s.rd F.SK_STAT_ROLE 0 0 = 0 then (if ctx < 256 then some ctx else none)
  else if ctx / 256 = s.rd F.SK_STAT_CAB_ID 0 0 then some (ctx % 256) else none

/-- The cabinet context number of page c. -/
def State.cabCtx (s : State) (c : Nat) : Nat :=
  if s.rd F.SK_STAT_ROLE 0 0 = 0 then c else s.rd F.SK_STAT_CAB_ID 0 0 * 256 + c

/-- A context's record beyond its page, and its update. -/
def State.ctx (s : State) (n : Nat) : CtxSt := (s.sch.ctxs.find? (fun c => c.num == n)).getD { num := n }
def State.setCtx (s : State) (c : CtxSt) : State :=
  { s with sch := { s.sch with ctxs := c :: s.sch.ctxs.filter (fun x => x.num != c.num) } }

/-- The number under which a bucket is kept: that of its home page for U, the cabinet number for F and B (R648, R649). -/
def bktKey (ctx cls : Nat) : Nat := if ctx = fwCtx then fwCtx else if cls = 0 then ctx % 256 else ctx

/-- A bucket, and its update. -/
def State.bkt (s : State) (ctx cls : Nat) : Bkt :=
  (s.sch.bkts.find? (fun b => b.ctx == bktKey ctx cls && b.cls == cls)).getD { ctx := bktKey ctx cls, cls }
def State.setBkt (s : State) (b : Bkt) : State :=
  { s with sch := { s.sch with bkts := b :: s.sch.bkts.filter (fun x => !(x.ctx == b.ctx && x.cls == b.cls)) } }

/-- RATE and BURST of a bucket; FW's come from the firmware parameters (R237). -/
def State.bktRate (s : State) (ctx cls : Nat) : Nat :=
  if ctx = fwCtx then (if cls = 1 then s.sch.fwF.1 else if cls = 2 then s.sch.fwB.1 else 0)
  else s.rd F.SCH_BKT_RATE 0 (bktKey ctx cls * 4 + cls)
def State.bktBurst (s : State) (ctx cls : Nat) : Nat :=
  if ctx = fwCtx then (if cls = 1 then s.sch.fwF.2 else if cls = 2 then s.sch.fwB.2 else 0)
  else s.rd F.SCH_BKT_BURST 0 (bktKey ctx cls * 4 + cls)

/-- The partition of a context; that of another member's context came with its first HANDOFF or DELEGATE. -/
def State.partOf (s : State) (ctx : Nat) : Nat :=
  if ctx = fwCtx then s.sch.fwPart
  else
    match s.localPage ctx with
    | some p => s.rd F.CTX_CFG_PART p 0
    | none => storeGet 0 s.sk.parts ctx

/-- R263: admission debits COST. -/
def State.debit (s : State) (ctx cls cost : Nat) : State :=
  let b := s.bkt ctx cls
  s.setBkt { b with level := b.level - cost, debited := (b.debited + cost) % 2 ^ 64 }

/-- R263: a debited command that closes without start of service has its COST refunded. LEVEL stays at or below BURST
(R261), and REFUNDED books the amount that LEVEL takes (Table SCH-5). -/
def State.refund (s : State) (ctx cls cost : Nat) : State :=
  let b := s.bkt ctx cls
  let add := min cost (s.bktBurst ctx cls - b.level)
  s.setBkt { b with level := b.level + add, refunded := (b.refunded + add) % 2 ^ 64 }

/-! ### Frame ids -/

/-- The fences of a command. -/
def Desc.fences (d : Desc) : List Fence := d.fence0.toList ++ d.fence1.toList

/-- The command a fence names, if it is in flight. -/
def State.fenceCmd (s : State) (f : Fence) : Option Cmd :=
  s.sch.cmds.find? (fun c => c.ctx == f.ctx && c.desc.seq == f.seq && c.order.isNone)

/-- R213: the frame id of a command: the frame it binds, else that of the target of FENCE0, else of FENCE1. -/
def State.frameIdOf (s : State) (c : Cmd) : Nat :=
  match c.bound with
  | some f => f
  | none =>
    if c.frame ≠ 0xFFFFFFFF then c.frame else
    let tgt (f : Option Fence) : Nat := match f with
      | none => 0xFFFFFFFF
      | some f =>
        match s.fenceCmd f, (s.ctx f.ctx).window.find? (fun w => w.seq == f.seq) with
        | some d, _ => d.frame
        | none, some w => w.frame
        | none, none => 0xFFFFFFFF
    if c.desc.opcode = 7 then 0xFFFFFFFF
    else if tgt c.desc.fence0 = 0xFFFFFFFF then tgt c.desc.fence1 else tgt c.desc.fence0

/-! ### Completion records -/

/-- A context's rings hold 2^LOG2 entries. -/
def State.sqSize (s : State) (c : Nat) : Nat := 2 ^ s.rd F.CTX_RING_CFG_SQ_LOG2 c 0
def State.cqSize (s : State) (c : Nat) : Nat := 2 ^ s.rd F.CTX_RING_CFG_CQ_LOG2 c 0
def State.sqBase (s : State) (c : Nat) : Nat := s.rd F.CTX_SQ_BASE_LO c 0 + s.rd F.CTX_SQ_BASE_HI c 0 * 2 ^ 32
def State.cqBase (s : State) (c : Nat) : Nat := s.rd F.CTX_CQ_BASE_LO c 0 + s.rd F.CTX_CQ_BASE_HI c 0 * 2 ^ 32

/-- R202: free completion slots. -/
def State.cqFree (s : State) (c : Nat) : Nat :=
  s.cqSize c - (s.rd F.CTX_CQ_TAIL c 0 + 65536 - s.rd F.CTX_CQ_HEAD c 0) % 65536 - s.rd F.CTX_CQ_RESERVED c 0

/-- Elapsed ns as phase units at the nominal cycle length, rounded down (Table CMD-4). -/
def State.nsToUnits (s : State) (ns : Nat) : Nat := ns * 19660800 / s.siPerUnit

/-- The 32 bytes of a record (Table CMD-4), without the ring's phase bit. -/
def State.recordBytes (s : State) (c : Cmd) (disp b20 : Nat) (phase : Nat) : List Byte :=
  let q := s.nsToUnits ((c.started.getD s.now) - c.consumedAt)
  let flags := b2n (decide (0 < c.reruns)) + 2 * b2n c.provStart + 4 * b2n c.memberRerun + 8 * b2n c.order.isSome
  toBytes 4 c.desc.seq ++ toBytes 2 c.ctx ++ [BitVec.ofNat 8 disp, BitVec.ofNat 8 flags] ++ toBytes 8 s.gt
    ++ toBytes 4 (min q 0xFFFFFFFF) ++ toBytes 4 b20 ++ toBytes 4 c.frame ++ toBytes 2 c.kettle
    ++ [BitVec.ofNat 8 (min c.reruns 255), BitVec.ofNat 8 (phase + 2 * c.desc.gen)]

/-- Service time in ns from the start of service, saturating (Table CMD-4). -/
def State.serviceNs (s : State) (c : Cmd) : Nat :=
  match c.started with
  | some t => min (s.now - t) 0xFFFFFFFF
  | none => 0

/-- The address field of a REPORT, a HANDOFF or a DELEGATE: context and SEQ (Table SKW-4). -/
def Cmd.skAddr (c : Cmd) : Nat := c.ctx + c.desc.seq * 2 ^ 32

/-- R654: a delegated command's REPORT to the head: 1 start, 2 commit entered, 3 complete, 4 killed. -/
def State.skReport (s : State) (c : Cmd) (what : Nat) : State :=
  if s.skRole = 2 ∧ s.sk.deleg.any (fun d => d.id == c.id) = true then
    ({ s with sk := { s.sk with deleg := updWhere (fun d => d.id == c.id) (fun d => { d with report := what }) s.sk.deleg } } : State).skNote
      0 8 c.skAddr 32
  else s

/-- R204, R205: a record written at CQ_TAIL, which then advances; the phase bit inverts with each pass through the ring.
FW's records go to firmware's internal ring (R236); the home member of any other context writes its record, which the head sends it
the word of (R655). -/
def State.putRecord (s : State) (c : Cmd) (disp b20 : Nat) : State :=
  match s.localPage c.ctx with
  | some p =>
    let tail := s.rd F.CTX_CQ_TAIL p 0
    let n := s.cqSize p
    let bs := s.recordBytes c disp b20 (1 - tail / n % 2)
    ((s.poke (s.cqBase p + tail % n * 32) bs).wr F.CTX_CQ_TAIL p 0 (tail + 1)).raise (0x100 + p) 0
  | none =>
    let bs := s.recordBytes c disp b20 0
    if c.ctx = fwCtx then { s with sch := { s.sch with fwRing := s.sch.fwRing ++ [bs] } }
    else if s.skRole = 1 then s.skSend (c.ctx / 256) 8 0 32 c.skAddr bs
    else s.skReport c 3

/-- A reserved completion slot of a command is released (R203). -/
def State.unreserve (s : State) (ctx k : Nat) : State :=
  match s.localPage ctx with
  | some p => s.wr F.CTX_CQ_RESERVED p 0 (s.rd F.CTX_CQ_RESERVED p 0 - k)
  | none => s

/-- The window records the latest disposition of an accepted sequence number (R215); a standing order's occurrence enters
no window (R234). -/
def State.windowPut (s : State) (c : Cmd) (disp : Nat) : State :=
  if c.order.isSome then s
  else
    let x := s.ctx c.ctx
    s.setCtx { x with window := updWhere (fun w => w.seq == c.desc.seq) (fun w => { w with disp, frame := c.frame }) x.window }

/-- A record of a command, which a follower's home reports to the head as well (R657): DEFER_NOTICE takes no reservation (R219); any other releases one slot of it. -/
def State.record (s : State) (c0 : Cmd) (disp b20 : Nat) : State :=
  let c := { c0 with frame := s.frameIdOf c0 }
  let s0 := (s.putRecord c disp b20).windowPut c disp
  let s1 := if s0.skRole = 2 ∧ (s0.localPage c.ctx).isSome = true ∧ c.phase ≠ .away then s0.skNote 0 8 c.skAddr 32 else s0
  if disp = 0x10 then s1
  else (s1.unreserve c.ctx (min 1 c.reserved)).updCmd c.id (fun x => { x with reserved := x.reserved - 1 })

/-! ### Closing -/

/-- A context whose last accepted command has closed while it is CLOSING becomes FREE (R194): its standing orders are
deleted, its lamp requests withdrawn (R461) and its bound references released (R329). -/
def State.ctxFree (s : State) (p : Nat) : State :=
  let n := s.cabCtx p
  let s1 := (s.wr F.CTX_STAT_STATE p 0 0).raise (0x100 + p) 3
  let s2 := (List.range 8).foldl (fun t i => t.wr F.CTX_SO_STAT_ARMED p i 0) s1
  let s3 := { s2 with sch := { s2.sch with orders := s2.sch.orders.filter (fun o => o.ctx != n) },
                      cam := { s2.cam with holds := updWhere (fun h => h.ctx == n) (fun h => { h with till := some 0 }) s2.cam.holds } }
  s3.lampWithdraw (.ctx n)

/-- The CLOSING test of a context. -/
def State.ctxMaybeFree (s : State) (ctx : Nat) : State :=
  match s.localPage ctx with
  | some p =>
    if s.rd F.CTX_STAT_STATE p 0 = 3 ∧ s.sch.cmds.all (fun c => c.ctx != ctx) = true then s.ctxFree p else s
  | none => s

/-- R479: the dynamic mask slots whose first 64 bytes lie in a range: output and slot. -/
def State.maskSlotsIn (s : State) (a n : Nat) : List (Nat × Nat) :=
  (List.range 8).flatMap (fun o =>
    if s.rd F.CP_MASK_CFG_MODE 0 o = 2 then
      ((List.range (s.rd F.CP_MASK_CFG_SLOTS 0 o)).filter (fun i =>
        let b := s.rd F.CP_MASK_BASE 0 o + i * s.rd F.CP_MASK_CFG_STRIDE 0 o * 1024
        decide (a ≤ b ∧ b + 64 ≤ a + n))).map (fun i => (o, i))
    else [])

/-- R479: slots whose range a command's output meets become invalid when it is accepted. -/
def State.maskInvalidate (s : State) (c : Cmd) : State :=
  let gone := (List.range 8).flatMap (fun o =>
    if s.rd F.CP_MASK_CFG_MODE 0 o = 2 then
      ((List.range (s.rd F.CP_MASK_CFG_SLOTS 0 o)).filter (fun i =>
        let b := s.rd F.CP_MASK_BASE 0 o + i * s.rd F.CP_MASK_CFG_STRIDE 0 o * 1024
        decide (b < c.desc.outAddr + c.desc.outLen ∧ c.desc.outAddr < b + 64))).map (fun i => (o, i))
    else [])
  { s with maskValid := s.maskValid.filter (fun x => !gone.contains x) }

/-- R479: slots covered by a command that closes DONE, DONE_LATE or CONFIRMED become VALID. -/
def State.maskValidate (s : State) (c : Cmd) : State :=
  let now := s.maskSlotsIn c.desc.outAddr c.desc.outLen
  { s with maskValid := now ++ s.maskValid.filter (fun x => !now.contains x) }

/-- R382, R383: a command's references on tensor buffers end with its closing record. -/
def State.tensorUnref (s : State) (id : Nat) : State :=
  { s with tbufs := s.tbufs.map (fun b => { b with cmds := b.cmds.filter (fun c => c != id) }) }

/-- R731: the first 8 bytes of a firmware standing order's output: level, ramp, output, VALID. -/
def State.orderResult (s : State) (c : Cmd) : Option (Nat × Nat × Nat × Bool) :=
  (s.peek c.desc.outAddr 8).map (fun x => (leAt x.1 0 2, leAt x.1 2 2, leAt x.1 4 1, bitOf (leAt x.1 5 1) 0))

/-- R731: a firmware standing order's result reaches the arbiter at DONE, DONE_LATE or CONFIRMED as a confirmed request,
at DONE_PROVISIONAL as a SPEC request; VALID clear withdraws it. -/
def State.lampOrder (s : State) (c : Cmd) (spec : Bool) : State :=
  if c.ctx = fwCtx ∧ c.order.isSome = true ∧ c.desc.opcode ≠ 6 then
    match s.orderResult c, c.order with
    | some (lv, ramp, out, valid), some o =>
      if !valid then s.lampWithdraw (.order o)
      else if spec then s.lampSpec c.id (.order o) out lv ramp else s.lampRequest (.order o) out lv ramp
    | _, _ => s
  else s

/-- The counters that a closing record advances (Table SCH-7, Table SPC-4). -/
def State.closeCount (s : State) (disp : Nat) : State :=
  if disp = 0x20 then s.inc F.SCH_REFUSED_BUDGET_CNT 0 0
  else if disp = 0x30 then s.inc F.SCH_SHED_DEADLINE_CNT 0 0
  else if disp = 0x31 then s.inc F.SCH_SHED_INFEASIBLE_CNT 0 0
  else if disp = 0x04 then s.inc F.SPC_RETR_CMD_CNT 0 0
  else if disp = 0x52 then s.inc F.SK_FAULT_MEMBER_CNT 0 0
  else s

/-- Dispositions that deliver a confirmed output. -/
def dispGood (d : Nat) : Bool := d == 0 || d == 1 || d == 3

/-- R218: the closing record of a command, and all that ends with it: its reservation, its count in the books, the refund of
R263, its references, its reservation of granules, its slots that are not yet free. -/
def State.close1 (s : State) (id disp : Nat) : State :=
  match s.cmd id with
  | none => s
  | some c =>
    let s1 := if dispGood disp then s.lampOrder c false else s
    let s2 := (s1.record c disp (s1.serviceNs c)).unreserve c.ctx (c.reserved - min 1 c.reserved)
    let s3 := if c.debited = true ∧ c.everStarted = false then s2.refund c.ctx c.desc.cls c.desc.cost else s2
    let x := s3.ctx c.ctx
    let s4 := s3.setCtx { x with closed := (x.closed + 1) % 2 ^ 32 }
    let s5 := match s4.localPage c.ctx with
      | some p => s4.wr F.CTX_INFLIGHT p 0 (s4.rd F.CTX_INFLIGHT p 0 - 1)
      | none => s4
    let s6 := (s5.closeCount disp).tensorUnref id
    let s7 := if dispGood disp then s6.maskValidate c else s6
    let s8 := { s7 with sch := { s7.sch with cmds := s7.sch.cmds.filter (fun y => y.id != id) } }
    s8.ctxMaybeFree c.ctx

/-- R212: the commands that fence on a closed command and have not been dispatched. -/
def State.dependents (s : State) (ctx seq : Nat) : List Nat :=
  (s.sch.cmds.filter (fun x => (x.phase == .handoff || x.phase == .held || x.phase == .ready)
    && x.desc.fences.any (fun f => f.ctx == ctx && f.seq == seq))).map (fun x => x.id)

/-- A list of commands closes, and with a target closed otherwise than DONE, DONE_LATE, CONFIRMED or RETRACTED the
commands that fence on it close SHED_INFEASIBLE (R212). -/
def State.closeAll : Nat → List (Nat × Nat) → State → State
  | 0, _, s => s
  | _ + 1, [], s => s
  | n + 1, (id, disp) :: t, s =>
    match s.cmd id with
    | none => State.closeAll n t s
    | some c =>
      let s1 := s.close1 id disp
      let deps := if dispGood disp || disp == 4 || c.order.isSome then [] else (s1.dependents c.ctx c.desc.seq).map (fun d => (d, 0x31))
      State.closeAll n (t ++ deps) s1

/-- The closing of a command with all that follows from it. -/
def State.close (s : State) (id disp : Nat) : State :=
  State.closeAll (3 * s.sch.cmds.length + 1) [(id, disp)] s

/-- R231: a member leaves its fill batch; its rows stay, and another member stands for the batch where it was the one that
did. -/
def State.leaveBatch (s : State) (id : Nat) : State :=
  match s.sch.cmds.find? (fun c => c.batch == some id && c.id != id) with
  | some h =>
    let t := { s with sch := { s.sch with cmds := updWhere (fun c => c.batch == some id) (fun c => { c with batch := some h.id }) s.sch.cmds } }
    { t with tiles := t.tiles.map (fun x => { x with
        slots := updWhere (fun y => y.cmd == id) (fun y => { y with cmd := h.id }) x.slots
        readouts := updWhere (fun y => y.cmd == id) (fun y => { y with cmd := h.id }) x.readouts }) }
  | none => s

/-- The command shares its slots with other members of a batch. -/
def State.inBatch (s : State) (c : Cmd) : Bool :=
  match c.batch with
  | some b => s.sch.cmds.any (fun x => x.batch == some b && x.id != c.id)
  | none => false

/-- OB_STAT: BUSY while a solve runs; HALTED with HALT set and no solve running, and its event when it becomes 1 (Table ORB-7). -/
def State.orbStat (s : State) : State :=
  let busy := s.orb.running.isSome
  let h := s.rdB F.OB_CTRL_HALT 0 0 && !busy
  let t := if h && !s.rdB F.OB_STAT_HALTED 0 0 then s.raise 0x07C 6 else s
  (t.wrB F.OB_STAT_BUSY 0 0 busy).wrB F.OB_STAT_HALTED 0 0 h

/-- A solve leaves the Orbit engine (R402): its staging buffer is discarded, and a kill of one that ran is counted. -/
def State.orbDrop (s : State) (id : Nat) : State :=
  let held := s.orb.running == some id || s.orb.committing.contains id
  let t := { s with orb := { s.orb with queue := s.orb.queue.filter (fun x => x != id),
                                        running := if s.orb.running = some id then none else s.orb.running,
                                        committing := s.orb.committing.filter (fun x => x != id),
                                        zones := s.orb.zones.filter (fun z => z.cmd != id) } }
  if held then (t.inc F.OB_KILL_CNT 0 0).orbStat else t

/-- A KILL to the member that a command was handed to or placed on (R669). -/
def State.skKill (s : State) (c : Cmd) : State :=
  let m := ((s.sk.placed.find? (fun x => x.id == c.id)).map (fun x => x.member)).getD 0
  ({ s with sk := { s.sk with placed := s.sk.placed.filter (fun x => x.id != c.id) } } : State).skRequest m 4 none 0 0 c.skAddr []

/-- A command that is not in commit ends with a disposition: its slots are killed, or it is withdrawn, and its closing
record is written (R230, R257, Table SPC-3). -/
def State.killClose (s : State) (id disp : Nat) : State :=
  match s.cmd id with
  | some c =>
    if c.phase = .away then (s.skKill c).close id disp
    else if s.inBatch c && c.phase == .running then (s.leaveBatch id).close id disp
    else ((s.orbDrop id).close id disp).killCmd id
  | none => s

/-! ### Fences and frame sets -/

/-- What a fence's target has done: none pending; some true resolved; some false closed otherwise (R211, R212). A target
that has left the window has closed long since; the head waits for the report of a target on another member (R657). -/
def State.fenceState (s : State) (f : Fence) : Option Bool :=
  match (s.ctx f.ctx).window.find? (fun w => w.seq == f.seq) with
  | some w => if w.disp = 0xFF ∨ w.disp = 0x10 then none else some (w.disp ≤ 3)
  | none =>
    if s.sch.cmds.any (fun c => c.ctx == f.ctx && c.desc.seq == f.seq && c.order.isNone) then none
    else if s.skRole = 1 ∧ (s.localPage f.ctx).isNone = true ∧ f.ctx ≠ fwCtx then none else some true

/-- Both fences are resolved. -/
def State.fencesDone (s : State) (d : Desc) : Bool := d.fences.all (fun f => s.fenceState f == some true)

/-- A fence's target closed with a disposition other than DONE, DONE_LATE or CONFIRMED. -/
def State.fenceBroken (s : State) (d : Desc) : Bool := d.fences.any (fun f => s.fenceState f == some false)

/-- The frame with an id, and its update. -/
def State.frame (s : State) (id : Nat) : Option Frame := s.cam.frames.find? (fun f => f.id == id)
def State.updFrame (s : State) (id : Nat) (g : Frame → Frame) : State :=
  { s with cam := { s.cam with frames := updWhere (fun f => f.id == id) g s.cam.frames } }

/-- A frame is still PROVISIONAL. -/
def State.isProvisional (s : State) (id : Nat) : Bool :=
  match s.frame id with
  | some f => f.standing == 0
  | none => false

/-- The frame set of a command (R279): the frames it binds, those of its bound tensor buffers (R383), and the frame sets of
the fence targets that have written DONE_PROVISIONAL, limited to frames still PROVISIONAL. -/
def State.frameSet (s : State) (c : Cmd) : List Nat :=
  let own := c.bound.toList ++ c.frames
  let tens := (s.tbufs.filter (fun b => b.cmds.contains c.id)).map (fun b => b.frame)
  let fen := c.desc.fences.flatMap (fun f =>
    match s.fenceCmd f with
    | some d => if d.phase = .prov then d.bound.toList ++ d.frames else []
    | none => [])
  ((own ++ tens ++ fen).filter s.isProvisional).eraseDups

/-- The speculation domain of a stream, and whether it may be speculated on (Table SPC-4). -/
def State.domOfStream (s : State) (st : Nat) : Nat := s.rd F.SPC_STR_CFG_DOMAIN 0 st
def State.arenaBase (s : State) (d : Nat) : Nat :=
  s.rd F.SPC_DOM_ARENA_LO_BASE 0 d * 4096 + s.rd F.SPC_DOM_ARENA_HI_BASE 0 d * 2 ^ 32
def State.arenaLen (s : State) (d : Nat) : Nat := s.rd F.SPC_DOM_LEN 0 d * 4096

/-- The domain a command's frame set belongs to, where it is one. -/
def State.domOfSet (s : State) (fs : List Nat) : Option Nat :=
  match fs with
  | [] => none
  | f :: _ =>
    let d := s.domOfStream (f / 2 ^ 26)
    if fs.all (fun g => s.domOfStream (g / 2 ^ 26) == d && s.rdB F.SPC_STR_CFG_SPEC_EN 0 (g / 2 ^ 26)) then some d else none

/-- R279's conditions but the arena, and the arena's. -/
def State.specOther (s : State) (c : Cmd) : Bool :=
  let fs := s.frameSet c
  c.desc.cls == 1 && c.desc.specOk && decide (fs.length ≤ 8) &&
    (match s.domOfSet fs with
     | some d => s.rdB F.SPC_DOM_CFG_EN 0 d && bitOf (s.rd F.SPC_DOM_PARTMASK 0 d) (s.partOf c.ctx)
     | none => false)
def State.specArena (s : State) (c : Cmd) : Bool :=
  match s.domOfSet (s.frameSet c) with
  | some d => decide (s.arenaBase d ≤ c.desc.outAddr ∧ c.desc.outAddr + c.desc.outLen ≤ s.arenaBase d + s.arenaLen d)
  | none => false

/-- R279, R281: a command may start service now: its frame set is empty, or it may start on provisional input. -/
def State.mayStart (s : State) (c : Cmd) : Bool := (s.frameSet c).isEmpty || (s.specOther c && s.specArena c)

/-- Start of service of a command (Table CMD-4): the time, the frame set it starts with (R285), its frame id. -/
def State.startService (s : State) (id : Nat) : State :=
  match s.cmd id with
  | some c =>
    let fs := s.frameSet c
    (s.updCmd id (fun x => { x with started := some s.now, everStarted := true, frames := fs, provStart := x.provStart || !fs.isEmpty,
                                     frame := s.frameIdOf c })).skReport c 1
  | none => s

end Sys2Proof.Machine
end

