-- ==== Sys2Proof/Machine/Recipe.lean ====
section
/-! DEFINITION. The recipe container as the device reads it: headers, stages, loop nests, window equations, part tables,
Whisk lists, and the checks of registration (spec/05, R148 to R192). -/

namespace Sys2Proof.Machine

open Host

/-! ### CRC-32C -/

/-- Bytes o to o + n - 1 of a list taken as zero. -/
def zeroAt (bs : List Byte) (o n : Nat) : List Byte := bs.take o ++ List.replicate n 0#8 ++ bs.drop (o + n)

/-! ### The container (Tables LAD-6, LAD-7) -/

/-- n bytes of the image at an offset. -/
def Recipe.at (r : Recipe) (o n : Nat) : Nat := leAt r.image o n

def Recipe.flags (r : Recipe) : Nat := r.at 0x06 2
def Recipe.fillOk (r : Recipe) : Bool := bitOf r.flags 0
def Recipe.urgentOk (r : Recipe) : Bool := bitOf r.flags 1
def Recipe.nStages (r : Recipe) : Nat := r.at 0x18 2
def Recipe.nParts (r : Recipe) : Nat := r.at 0x1A 1
def Recipe.nOut (r : Recipe) : Nat := r.at 0x1B 1
def Recipe.granules (r : Recipe) : Nat := r.at 0x1C 2
def Recipe.fillRows (r : Recipe) : Nat := r.at 0x1E 1
def Recipe.cost (r : Recipe) : Nat := r.at 0x20 4
def Recipe.fillWait (r : Recipe) : Nat := r.at 0x24 4
def Recipe.fillRowIn (r : Recipe) : Nat := r.at 0x28 2
def Recipe.fillRowOut (r : Recipe) : Nat := r.at 0x2A 2
def Recipe.wbBase (r : Recipe) : Nat := r.at 0x2C 4
def Recipe.argLen (r : Recipe) : Nat := r.at 0x40 4
def Recipe.outLen (r : Recipe) : Nat := r.at 0x44 4

/-- Part j's place in the output buffer: offset and length. -/
def Recipe.partOut (r : Recipe) (j : Nat) : Nat × Nat := (r.at (r.at 0x34 4 + 8 * j) 4, r.at (r.at 0x34 4 + 8 * j + 4) 4)

/-- The output coverage regions: offset and length. -/
def Recipe.regions (r : Recipe) : List (Nat × Nat) :=
  (List.range (min r.nOut 8)).map (fun i => (r.at (0x48 + 8 * i) 4, r.at (0x4C + 8 * i) 4))

/-- Stage i's record: its offset, and a field of it. -/
def Recipe.stageAt (r : Recipe) (i o n : Nat) : Nat := r.at (r.at 0x30 4 + 32 * i + o) n
def Recipe.lead (r : Recipe) (i : Nat) : Nat := r.stageAt i 12 4 % 4
def Recipe.halo (r : Recipe) (i : Nat) : Bool := bitOf (r.stageAt i 12 4) 2
def Recipe.fill (r : Recipe) (i : Nat) : Bool := bitOf (r.stageAt i 12 4) 3
def Recipe.finalStage (r : Recipe) (i : Nat) : Bool := bitOf (r.stageAt i 12 4) 4
def Recipe.hasC (r : Recipe) (i : Nat) : Bool := r.stageAt i 4 4 != 0xFFFFFFFF
def Recipe.hasPart (r : Recipe) (i : Nat) : Bool := r.stageAt i 16 4 != 0xFFFFFFFF

/-- A part table entry (Table LAD-5). -/
structure PartEnt where
  oy0 : Nat
  ohPart : Nat
  iy0 : Int
  ihLocal : Nat
  b2Adj : Int
  sendUp : Nat
  sendDn : Nat
deriving DecidableEq, Repr

/-- Part j's entry in stage i, if the stage has a part table. -/
def Recipe.part (r : Recipe) (i j : Nat) : Option PartEnt :=
  if r.hasPart i then
    let o := r.stageAt i 16 4 + 16 * j
    some { oy0 := r.at o 2, ohPart := r.at (o + 2) 2, iy0 := toS 16 (r.at (o + 4) 2), ihLocal := r.at (o + 6) 2,
           b2Adj := toS 32 (r.at (o + 8) 4), sendUp := r.at (o + 12) 1, sendDn := r.at (o + 13) 1 }
  else none

/-! ### Loop nests (Tables LAD-1, LAD-2, LAD-4) -/

/-- A loop record. -/
structure Loop where
  count : Nat
  /-- 0 VEC, 1 OUT, 2 RED, 3 GEN -/
  role : Nat
  /-- 0 NONE, 1 OPOS, 2 KY, 3 KX, 4 SLC, 5 GRP -/
  axis : Nat
  s0 : Int
  s1 : Int
  s2 : Int
  rsvd : Nat
deriving DecidableEq, Repr

/-- Loop record l of the descriptor at an offset. -/
def Recipe.loop (r : Recipe) (o l : Nat) : Loop :=
  let b := o + 32 + 16 * l
  let w := r.at b 4
  { count := w % 65536, role := bitsOf w 16 2, axis := bitsOf w 18 3, s0 := toS 32 (r.at (b + 4) 4),
    s1 := toS 32 (r.at (b + 8) 4), s2 := toS 32 (r.at (b + 12) 4), rsvd := bitsOf w 21 11 }

/-- Header fields of the descriptor at an offset. -/
def Recipe.nkind (r : Recipe) (o : Nat) : Nat := r.at o 4 % 16
def Recipe.nloop (r : Recipe) (o : Nat) : Nat := bitsOf (r.at o 4) 4 3
def Recipe.nwin (r : Recipe) (o : Nat) : Bool := bitOf (r.at o 4) 7
def Recipe.nfmt (r : Recipe) (o : Nat) : Nat := bitsOf (r.at o 4) 8 2
def Recipe.nripple (r : Recipe) (o : Nat) : Bool := bitOf (r.at o 4) 10
def Recipe.norder (r : Recipe) (o i : Nat) : Nat := bitsOf (r.at o 4) (12 + 3 * i) 3
def Recipe.nbase (r : Recipe) (o s : Nat) : Nat := r.at (o + 4 + 8 * s) 6
def Recipe.nspace (r : Recipe) (o s : Nat) : Nat := bitsOf (r.at (o + 8 + 8 * s) 4) 16 3
def Recipe.run64 (r : Recipe) (o : Nat) : Nat := r.at (o + 28) 2
def Recipe.partRow64 (r : Recipe) (o : Nat) : Nat := r.at (o + 30) 2

/-- The loops in nesting order, the outermost first (R150). -/
def Recipe.loops (r : Recipe) (o : Nat) : List Loop := (List.range (r.nloop o)).map (fun i => r.loop o (r.norder o i))

/-- The indices of iteration n over loops with these counts, the last loop fastest. -/
def digits : List Nat → Nat → List Nat
  | [], _ => []
  | c :: cs, n => (n / cs.prod % c) :: digits cs n

/-- Base plus the sum of index times stride. -/
def affine (base : Int) : List Int → List Nat → Int
  | s :: ss, i :: is => affine (base + s * (i : Int)) ss is
  | _, _ => base

/-- Slice size (R158), lanes per slice, and bytes per physical row of a stationary tile (R155), by format. -/
def fmtSlice (f : Nat) : Nat := if f = 3 then 128 else 64
def fmtKV (f : Nat) : Nat := if f = 2 then 128 else 64
def fmtRow (f : Nat) : Nat := if f = 1 then 64 else if f = 3 then 256 else 128

/-- A nest with its counts as they run: the loops of one role, and all others. -/
structure Nest where
  ofs : Nat
  fmt : Nat
  ripple : Bool
  win : Bool
  outer : List Loop
  vec : List Loop
  part : Option PartEnt
deriving DecidableEq, Repr

/-- The P-level nest of stage i for part j; in a stage with the FILL flag every VEC count is the batch's rows (R184); rows 0:
no batch. -/
def Recipe.nest (r : Recipe) (i j rows : Nat) : Nest :=
  let o := r.stageAt i 0 4
  let ls := r.loops o
  { ofs := o, fmt := r.nfmt o, ripple := r.nripple o, win := r.nwin o, outer := ls.filter (fun l => l.role != 0),
    vec := (ls.filter (fun l => l.role == 0)).map (fun l => if r.fill i && rows != 0 then { l with count := rows } else l),
    part := r.part i j }

/-- M (R153), and the passes of the stage. -/
def Nest.m (n : Nest) : Nat := (n.vec.map (fun l => l.count)).prod
def Nest.passes (n : Nest) : Nat := (n.outer.map (fun l => l.count)).prod

/-- The indices of the outer loops in pass q, and of the VEC loops in vector m (R166). -/
def Nest.qIdx (n : Nest) (q : Nat) : List Nat := digits (n.outer.map (fun l => l.count)) q
def Nest.mIdx (n : Nest) (m : Nat) : List Nat := digits (n.vec.map (fun l => l.count)) m

/-- R154: pass q overwrites; pass q is its chain's final pass. -/
def Nest.first (n : Nest) (q : Nat) : Bool := (n.outer.zip (n.qIdx q)).all (fun x => x.1.role != 2 || x.2 == 0)
def Nest.last (n : Nest) (q : Nat) : Bool := (n.outer.zip (n.qIdx q)).all (fun x => x.1.role != 2 || x.2 + 1 == x.1.count)

/-- R155: the start of the stationary tile of pass q. -/
def Recipe.tileStart (r : Recipe) (n : Nest) (q : Nat) : Int :=
  affine (r.nbase n.ofs 1 : Int) (n.outer.map (fun l => l.s1)) (n.qIdx q)

/-- R156: the stream 2 address of vector m of pass q, with the part's adjustment. -/
def Recipe.outAddr (r : Recipe) (n : Nest) (q m : Nat) : Int :=
  affine ((r.nbase n.ofs 2 : Int) + ((n.part.map (fun p => p.b2Adj)).getD 0))
    (n.outer.map (fun l => l.s2) ++ n.vec.map (fun l => l.s2)) (n.qIdx q ++ n.mIdx m)

/-! ### Window unrolling (Table LAD-4, R160 to R163) -/

/-- Bits of word 32 + k of the window extension. -/
def Recipe.winW (r : Recipe) (o k : Nat) : Nat := r.at (o + 128 + 4 * k) 4

/-- An axis value: the sum of index times STRIDE0 over the loops of an axis. -/
def axisSum (ax : Nat) : List Loop → List Nat → Int
  | l :: ls, i :: is => (if l.axis = ax then l.s0 * (i : Int) else 0) + axisSum ax ls is
  | _, _ => 0

/-- What feeds the lanes of a vector. -/
inductive VecSrc where
  /-- a slice read at a Pantry offset, of which the first n lanes are not forced to zero (R163) -/
  | slice (addr : Int) (lanes : Nat)
  /-- PAD_VALUE in every lane below n, zero above (R162, R163) -/
  | pad (value lanes : Nat)
deriving DecidableEq, Repr

/-- Stream 0 of vector m of pass q (R150, R160 to R163). -/
def Recipe.vecSrc (r : Recipe) (n : Nest) (q m : Nat) : VecSrc :=
  let ls := n.outer ++ n.vec
  let idx := n.qIdx q ++ n.mIdx m
  let kv := fmtKV n.fmt
  if !n.win then .slice (affine (r.nbase n.ofs 0 : Int) (ls.map (fun l => l.s0)) idx) kv
  else
    let w := r.winW n.ofs
    let ih : Int := (w 0 % 65536 : Nat)
    let iw : Int := (w 0 / 65536 : Nat)
    let oh := match n.part with
      | some p => p.ohPart
      | none => w 1 % 65536
    let ow := w 1 / 65536
    let sy : Int := (bitsOf (w 2) 0 4 + 1 : Nat)
    let sx : Int := (bitsOf (w 2) 4 4 + 1 : Nat)
    let dy : Int := (bitsOf (w 2) 8 4 + 1 : Nat)
    let dx : Int := (bitsOf (w 2) 12 4 + 1 : Nat)
    let sN : Int := (bitsOf (w 2) 24 6 + 1 : Nat)
    let p := (axisSum 1 ls idx).toNat
    let b : Int := (p / (oh * ow) : Nat)
    let rr := p % (oh * ow)
    let oy : Int := (((n.part.map (fun p => p.oy0)).getD 0) + rr / ow : Nat)
    let ox : Int := (rr % ow : Nat)
    let iy := oy * sy + axisSum 2 ls idx * dy - (bitsOf (w 3) 0 5 : Nat)
    let ix := ox * sx + axisSum 3 ls idx * dx - (bitsOf (w 3) 10 5 : Nat)
    let s := axisSum 4 ls idx
    let g := axisSum 5 ls idx
    let lanes := min kv (((w 4 / 65536 : Nat) : Int) - s * kv).toNat
    let inside := decide (0 ≤ iy ∧ iy < ih ∧ 0 ≤ ix ∧ ix < iw)
    if inside || bitOf (w 3) 20 then
      let iy' := clampI 0 (ih - 1) iy
      let ix' := clampI 0 (iw - 1) ix
      .slice ((r.nbase n.ofs 0 : Int) + b * (w 7 : Nat) + (iy' - ((n.part.map (fun p => p.iy0)).getD 0)) * (w 5 : Nat)
        + ix' * (w 6 % 65536 : Nat) + (g * sN + s) * (fmtSlice n.fmt : Nat)) lanes
    else .pad (w 4 % 65536) lanes

/-! ### Whisk lists (Table LAD-8) -/

/-- A Whisk list entry. -/
structure WhiskOp where
  op : Nat
  outFmt : Nat
  table : Nat
  tailLo : Bool
  tailHi : Bool
  relu : Bool
  rsvd : Bool
  param : Nat
  shift : Nat
  qmin : Int
  qmax : Int
  poolH : Nat
  poolW : Nat
deriving DecidableEq, Repr

/-- The entries of stage i's list: at most four, ended by OP 0. -/
def Recipe.whisk (r : Recipe) (i : Nat) : List WhiskOp :=
  ((List.range 4).map (fun k =>
    let v := r.at (r.stageAt i 8 4 + 8 * k) 8
    ({ op := bitsOf v 0 8, outFmt := bitsOf v 8 2, table := bitsOf v 10 2, tailLo := bitOf v 12, tailHi := bitOf v 13,
       relu := bitOf v 14, rsvd := bitOf v 15, param := bitsOf v 16 16 * 64, shift := bitsOf v 32 6,
       qmin := toS 8 (bitsOf v 40 8), qmax := toS 8 (bitsOf v 48 8), poolH := bitsOf v 56 4, poolW := bitsOf v 60 4 }
      : WhiskOp))).takeWhile (fun w => w.op != 0)

/-- Bytes of one result row of 128 columns in a format: INT8, INT4, BF16, FP32. -/
def outRow (fmt : Nat) : Nat := if fmt = 0 then 128 else if fmt = 1 then 64 else if fmt = 2 then 256 else 512

/-- The output format of a stage: that of its list's last entry. -/
def Recipe.stageFmt (r : Recipe) (i : Nat) : Nat := ((r.whisk i).getLast?.map (fun w => w.outFmt)).getD 0

/-! ### C-level transfers (R151, R152, R170) -/

/-- The counts of a stage's C-level loops for part j: the outermost runs IH_LOCAL times in a stage with a part table. -/
def Recipe.cCounts (r : Recipe) (i j : Nat) : List Nat :=
  let ls := (r.loops (r.stageAt i 4 4)).map (fun l => l.count)
  match r.part i j, ls with
  | some p, _ :: t => p.ihLocal :: t
  | _, l => l

/-- The source address (before the space is resolved) and the Pantry destination of C-level iteration n. -/
def Recipe.cMove (r : Recipe) (i j n : Nat) : Int × Int :=
  let o := r.stageAt i 4 4
  let ls := r.loops o
  let idx := digits (r.cCounts i j) n
  let adv : Int := match r.part i j with
    | some p => p.iy0 * (r.partRow64 o * 64 : Nat)
    | none => 0
  (affine ((r.nbase o 0 : Int) + adv) (ls.map (fun l => l.s0)) idx, affine (r.nbase o 1 : Int) (ls.map (fun l => l.s1)) idx)

/-- Iterations, and bytes moved, by a stage's C-level transfer. -/
def Recipe.cIters (r : Recipe) (i j : Nat) : Nat := (r.cCounts i j).prod
def Recipe.cBytes (r : Recipe) (i j : Nat) : Nat := r.cIters i j * r.run64 (r.stageAt i 4 4) * 64

/-! ### Registration (Table LAD-9) -/

/-- An offset and length inside the image. -/
def Recipe.inside (r : Recipe) (o n : Nat) : Bool := decide (o + n ≤ r.image.length)

/-- A multiple of k. -/
def mulOf (k : Nat) (a : Int) : Bool := a % (k : Int) == 0

/-- Bytes from a Pantry offset lie inside the Pantry. -/
def inPantry (a : Int) (n : Nat) : Bool := decide (0 ≤ a ∧ a + (n : Int) ≤ 0x400000)

/-- Reserved bits, ORDER, bases and counts that hold for every descriptor (Table LAD-3). -/
def Recipe.nestForm (r : Recipe) (o : Nat) : Bool :=
  let n := r.nloop o
  let w0 := r.at o 4
  decide (o % 32 = 0) && r.inside o 128 && decide (1 ≤ n ∧ n ≤ 6) && !bitOf w0 11 && bitsOf w0 30 2 == 0
    && (List.range n).all (fun l => ((List.range n).filter (fun i => r.norder o i == l)).length == 1)
    && (List.range (6 - n)).all (fun i => r.norder o (n + i) == 7)
    && (List.range 3).all (fun s => bitsOf (r.at (o + 8 + 8 * s) 4) 19 13 == 0)
    && (r.loops o).all (fun l => decide (1 ≤ l.count) && l.rsvd == 0 && decide (l.axis ≤ 5))

/-- A C-level descriptor is valid for part j (Table LAD-3). -/
def Recipe.cValid (r : Recipe) (i j : Nat) : Bool :=
  let o := r.stageAt i 4 4
  r.nestForm o && r.nkind o == 1 && !r.nwin o && r.nfmt o == 0 && !r.nripple o && r.run64 o != 0
    && decide (r.nspace o 0 ≤ 2) && decide (r.nspace o 1 ≤ 2) && decide (r.nspace o 2 ≤ 2)
    && (r.loops o).all (fun l => l.role == 3 && l.axis == 0 && mulOf 64 l.s0 && mulOf 64 l.s1 && mulOf 64 l.s2)
    && mulOf 64 (r.nbase o 0 : Nat) && mulOf 64 (r.nbase o 1 : Nat)
    && (List.range (r.cIters i j)).all (fun n => inPantry (r.cMove i j n).2 (r.run64 o * 64))

/-- Extremes of the window (R165). -/
def Recipe.winValid (r : Recipe) (i : Nat) : Bool :=
  let o := r.stageAt i 0 4
  let w := r.winW o
  let sl := fmtSlice (r.nfmt o)
  let dim (v : Nat) : Bool := decide (1 ≤ v ∧ v ≤ 8192)
  let cin := w 4 / 65536
  let s := bitsOf (w 2) 24 6 + 1
  r.inside o 160 && dim (w 0 % 65536) && dim (w 0 / 65536) && dim (w 1 % 65536) && dim (w 1 / 65536)
    && bitsOf (w 2) 30 2 == 0 && bitsOf (w 3) 21 11 == 0 && bitsOf (w 6) 16 16 == 0
    && decide (1 ≤ cin) && s == ceilDiv cin (fmtKV (r.nfmt o))
    && (r.loops o).all (fun l => if l.role = 0 then l.axis == 1
        else if l.axis = 2 ∨ l.axis = 3 ∨ l.axis = 4 then l.role == 2 else if l.axis = 5 then l.role == 1 else true)
    && mulOf sl (r.nbase o 0 : Nat) && w 5 % sl == 0 && w 6 % 65536 % sl == 0 && w 7 % sl == 0
    && decide ((w 1 % 65536 - 1) * (bitsOf (w 2) 0 4 + 1) + bitsOf (w 2) 16 4 * (bitsOf (w 2) 8 4 + 1)
        ≤ w 0 % 65536 - 1 + bitsOf (w 3) 0 5 + bitsOf (w 3) 5 5)
    && decide ((w 1 / 65536 - 1) * (bitsOf (w 2) 4 4 + 1) + bitsOf (w 2) 20 4 * (bitsOf (w 2) 12 4 + 1)
        ≤ w 0 / 65536 - 1 + bitsOf (w 3) 10 5 + bitsOf (w 3) 15 5)

/-- Every RED loop lies inside every OUT loop, and VEC loops lie innermost: roles by nesting position. -/
def rolesOk (rs : List Nat) : Bool :=
  let outs := rs.takeWhile (fun x => x == 1)
  let rest := rs.dropWhile (fun x => x == 1)
  let reds := rest.takeWhile (fun x => x == 2)
  let vecs := rest.dropWhile (fun x => x == 2)
  decide (outs.length + reds.length + vecs.length = rs.length) && vecs.all (fun x => x == 0)
    && decide (1 ≤ vecs.length ∧ vecs.length ≤ 2)

/-- A P-level descriptor is valid for part j (Table LAD-3, R165), with a batch's rows or, with rows 0, the counts it declares. -/
def Recipe.pValid (r : Recipe) (i j rows : Nat) : Bool :=
  let o := r.stageAt i 0 4
  let n := r.nest i j rows
  r.nestForm o && r.nkind o == 2 && (List.range 3).all (fun s => r.nspace o s == 0) && r.at (o + 28) 4 == 0
    && rolesOk ((r.loops o).map (fun l => l.role)) && decide (1 ≤ n.m ∧ n.m ≤ 512)
    && (r.loops o).all (fun l => (l.role != 0 || l.s1 == 0) && (l.role != 2 || l.s2 == 0))
    && (if r.nwin o then r.winValid i else (r.loops o).all (fun l => l.axis == 0))
    && (List.range n.passes).all (fun q =>
        mulOf 64 (r.tileStart n q) && inPantry (r.tileStart n q) (64 * fmtRow n.fmt)
        && (List.range n.m).all (fun m =>
            (match r.vecSrc n q m with
             | .slice a _ => inPantry a (fmtSlice n.fmt) && (n.win || mulOf (fmtSlice n.fmt) a)
             | .pad _ _ => true)
            && (!n.last q || (mulOf 64 (r.outAddr n q m) && inPantry (r.outAddr n q m) (outRow (r.stageFmt i))))))

/-- R171: a part's local buffer holds the input rows it needs. -/
def Recipe.partRows (r : Recipe) (i : Nat) (p : PartEnt) : Bool :=
  let o := r.stageAt i 0 4
  if r.nwin o then
    let w := r.winW o
    let sy : Int := (bitsOf (w 2) 0 4 + 1 : Nat)
    let pt : Int := (bitsOf (w 3) 0 5 : Nat)
    let ihm : Int := (w 0 % 65536 : Nat) - 1
    let lo := clampI 0 ihm ((p.oy0 : Int) * sy - pt)
    let hi := clampI 0 ihm (((p.oy0 : Int) + (p.ohPart : Int) - 1) * sy + (bitsOf (w 2) 16 4 * (bitsOf (w 2) 8 4 + 1) : Nat) - pt)
    decide (p.iy0 ≤ lo ∧ hi ≤ p.iy0 + (p.ihLocal : Int) - 1)
  else true

/-- R175: the parts of a stage tile its output rows: each begins where the one before it ends, and together they cover OH. -/
def Recipe.partsTile (r : Recipe) (i : Nat) : Bool :=
  let es := (List.range r.nParts).filterMap (fun j => r.part i j)
  let ends := es.foldl (fun (acc : Bool × Nat) e => (acc.1 && e.oy0 == acc.2 && decide (1 ≤ e.ohPart), acc.2 + e.ohPart)) (true, 0)
  ends.1 && (!r.nwin (r.stageAt i 0 4) || ends.2 == r.winW (r.stageAt i 0 4) 1 % 65536)

/-- A stage is valid (Tables LAD-3, LAD-5, LAD-7, LAD-8, R171, R175). -/
def Recipe.stageValid (r : Recipe) (i : Nat) : Bool :=
  let so := r.at 0x30 4 + 32 * i
  r.inside so 32 && bitsOf (r.stageAt i 12 4) 5 27 == 0 && r.at (so + 20) 4 == 0 && r.at (so + 24) 8 == 0
    && decide (r.hasPart i = decide (1 < r.nParts)) && (!r.halo i || (decide (i ≠ 0) && r.nwin (r.stageAt i 0 4)))
    && (!r.hasPart i || (r.inside (r.stageAt i 16 4) (16 * r.nParts) && r.partsTile i
        && (List.range r.nParts).all (fun j => r.at (r.stageAt i 16 4 + 16 * j + 14) 2 == 0
            && (match r.part i j with
                | some p => r.partRows i p
                | none => true))))
    && r.inside (r.stageAt i 8 4) 8 && decide (1 ≤ (r.whisk i).length)
    && r.inside (r.stageAt i 8 4) (8 * (r.whisk i).length)
    && (r.whisk i).all (fun w => decide (w.op ≤ 11) && !w.rsvd
        && ((w.op != 6 && w.op != 7) || decide (1 ≤ w.poolH ∧ w.poolH ≤ 8 ∧ 1 ≤ w.poolW ∧ w.poolW ≤ 8)))
    && (List.range r.nParts).all (fun j => r.pValid i j 0 && (!r.fill i || !r.fillOk || r.pValid i j (64 / max 1 r.fillRows * r.fillRows))
        && (!r.hasC i || r.cValid i j))

/-- Regions do not overlap. -/
def disjointAll : List (Nat × Nat) → Bool
  | [] => true
  | (a, n) :: t => t.all (fun x => decide (a + n ≤ x.1 ∨ x.1 + x.2 ≤ a)) && disjointAll t

/-- Every check of registration (Table LAD-9, R157, R165, R171, R175, R253). -/
def Recipe.valid (r : Recipe) : Bool :=
  r.inside 0 256 && r.at 0 4 == 0x4352564C && r.at 4 2 == 0x0102 && decide (r.flags < 4)
    && r.at 8 4 == r.image.length && decide (r.image.length % 32 = 0) && r.at 0x0C 4 == crc32c (zeroAt r.image 0x0C 4)
    && r.at 0x10 4 != 0 && decide (1 ≤ r.nStages ∧ r.nStages ≤ 4096) && decide (1 ≤ r.nParts ∧ r.nParts ≤ 16)
    && decide (1 ≤ r.nOut ∧ r.nOut ≤ 8) && decide (1 ≤ r.granules ∧ r.granules ≤ 224)
    && (if r.fillOk then decide (1 ≤ r.fillRows ∧ r.fillRows ≤ 64) else r.fillRows == 0)
    && r.at 0x1F 1 == 0 && decide (r.fillWait ≤ 0x4000) && (List.range 15).all (fun k => r.at (0x88 + 8 * k) 8 == 0)
    && r.inside (r.at 0x30 4) (32 * r.nStages) && r.inside (r.at 0x34 4) (8 * r.nParts)
    && r.inside (r.at 0x38 4) (r.at 0x3C 4)
    && r.regions.all (fun x => decide (x.1 % 64 = 0 ∧ x.2 % 64 = 0 ∧ x.1 + x.2 ≤ r.outLen)) && disjointAll r.regions
    && (List.range r.nStages).all r.stageValid
    && (!r.urgentOk || !r.hasC 0 || (List.range r.nParts).all (fun j => decide (r.cBytes 0 j ≤ 65536)))

/-- The registered recipe with an id. -/
def State.recipe (s : State) (id : Nat) : Option Recipe := s.recipes.find? (fun r => r.id == id)

/-- R157: firmware reads an image and registers it, its constants placed in the Cellar at constBase (R151), or refuses it.
A recipe registered again under its id replaces the earlier one. -/
def State.recipeRegister (s : State) (addr constBase : Nat) : State :=
  if s.rd F.FW_STATE_STATE 0 0 ≠ 4 then s
  else
    match s.peek (addr + 8) 4 with
    | some (lb, false) =>
      match s.peek addr (ofBytes lb) with
      | some (img, false) =>
        let r : Recipe := { id := leAt img 0x10 4, image := img, constBase }
        let consts := (img.drop (r.at 0x38 4)).take (r.at 0x3C 4)
        if r.valid && s.pokeOk constBase consts.length then
          let t := s.poke constBase consts
          { t with recipes := r :: t.recipes.filter (fun x => x.id != r.id) }
        else s
      | _ => s.noteRead addr (ofBytes lb)
    | _ => s.noteRead (addr + 8) 4

/-- RECIPE_REGISTER. -/
def execRecipeRegister (addr constBase : Addr) (s : State) : Outcome State Fault Refusal :=
  .next (s.recipeRegister addr.toNat constBase.toNat)

end Sys2Proof.Machine
end

