-- ==== Sys2Proof/Machine/Accept.lean ====
section
/-! DEFINITION. Reading, accepting and admitting descriptors; contexts and their leases (spec/06, R194 to R219, R227 to R233;
spec/07, R247 to R251, R261 to R267). -/

namespace Sys2Proof.Machine

open Host

/-! ### The descriptor (Table CMD-2, R208) -/

/-- A fence word: VALID gives the fence, and bits 62:43 are reserved. -/
def parseFence (v : Nat) : Option Fence :=
  if bitOf v 63 then some { seq := bitsOf v 0 32, ctx := bitsOf v 32 11 } else none

/-- A reserved bit of the descriptor is set. -/
def descRsvd (bs : List Byte) : Bool :=
  let op := leAt bs 4 1
  let arg := leAt bs 24 8
  bitsOf (leAt bs 5 1) 2 6 != 0 || bitsOf (leAt bs 6 1) 4 4 != 0 || bitOf (leAt bs 7 1) 7 || leAt bs 46 2 != 0
    || bitsOf (leAt bs 48 8) 43 20 != 0 || bitsOf (leAt bs 56 8) 43 20 != 0
    || (if op = 4 ∨ op = 5 then false
        else if op = 6 then bitsOf arg 40 24 != 0
        else if op = 7 then bitsOf arg 6 2 != 0 || bitsOf arg 9 55 != 0
        else bitsOf arg 48 16 != 0)

/-- The 64 bytes of a descriptor. -/
def parseDesc (bs : List Byte) : Desc :=
  let f := leAt bs 6 1
  { seq := leAt bs 0 4, opcode := leAt bs 4 1, cls := bitsOf (leAt bs 5 1) 0 2, specOk := bitOf f 0, lateOk := bitOf f 1,
    notifyDefer := bitOf f 2, fillBatch := bitOf f 3, gen := bitsOf (leAt bs 7 1) 0 7, deadline := leAt bs 8 8,
    recipe := leAt bs 16 4, cost := leAt bs 20 4, arg := leAt bs 24 8, argLen := leAt bs 32 4, outLen := leAt bs 36 4,
    outAddr := leAt bs 40 6, fence0 := parseFence (leAt bs 48 8), fence1 := parseFence (leAt bs 56 8),
    rsvd := descRsvd bs }

/-! ### Malformed descriptors (R214) -/

/-- An address of the regions of Table CEL-5, whatever serves it now. -/
def State.inMapLocal (s : State) (a : Nat) : Bool :=
  decide (a < 0x40000) || decide (larderBase ≤ a ∧ a < larderBase + 0x1000000) || decide (0x40000000 ≤ a ∧ a < 0x44000000)
    || decide (flashBase ≤ a ∧ a < flashBase + 0x10000000)
    || decide (pantryBase ≤ a ∧ a < pantryBase + 16 * pantryStride ∧ (a - pantryBase) % pantryStride < pantrySize)
    || decide (cellarBase ≤ a ∧ a < cellarBase + 16 * vaultSize)
    || (decide (iwinBase ≤ a ∧ a < iwinBase + 8 * iwinStride) &&
        let w := (a - iwinBase) / iwinStride
        s.rdB F.TV_IWIN_CFG_EN 0 w && decide ((a - iwinBase) % iwinStride
          < 2 ^ s.rd F.TV_IWIN_CFG_COUNT_LOG2 0 w * s.rd F.TV_IWIN_LEN 0 w * 2 ^ 20))

/-- An address of the map of this device or, in a cabinet, of one of its members (R646). -/
def State.inMap (s : State) (a : Nat) : Bool :=
  if s.rd F.SK_STAT_ROLE 0 0 = 0 then s.inMapLocal a
  else decide (a / 2 ^ 44 < 8) && bitOf (s.rd F.SK_STAT_MEMBERS 0 0) (a / 2 ^ 44) && s.inMapLocal (a % 2 ^ 44)

/-- A range of n bytes lies in the map. Every boundary of the map is a multiple of 256 KiB. -/
def State.rangeInMap (s : State) (a n : Nat) : Bool :=
  n == 0 || (decide (a + n ≤ 2 ^ 48) && s.inMap a && s.inMap (a + n - 1)
    && (List.range ((a + n - 1) / 0x40000 - a / 0x40000)).all (fun k => s.inMap ((a / 0x40000 + k + 1) * 0x40000)))

/-- The class is permitted for the opcode (Table CMD-3). -/
def classPermitted (op cls : Nat) : Bool :=
  decide (op ≤ 8) && decide (cls ≤ 2) && (cls != 0 || (op != 3 && op != 4 && op != 7 && op != 8))

/-- A fence names a command that is in flight or in its context's window. -/
def State.fenceNames (s : State) (f : Fence) : Bool :=
  (s.fenceCmd f).isSome || (s.ctx f.ctx).window.any (fun w => w.seq == f.seq)

/-- A fill-batched command (R180). -/
def fillBatched (d : Desc) (r : Recipe) : Bool := d.fillBatch && d.cls != 0 && r.fillOk

/-- Kettles in service. -/
def State.nService (s : State) : Nat := ((List.range 16).filter s.inService).length

/-- An admission check of Table LAD-9 fails, or the recipe is not registered. -/
def State.recipeBad (s : State) (d : Desc) : Bool :=
  match s.recipe d.recipe with
  | none => true
  | some r =>
    decide (d.argLen < r.argLen) || decide (d.outLen < r.outLen)
      || decide (d.cost < if fillBatched d r then ceilDiv (r.cost * r.fillRows) 64 else r.cost)
      || (d.cls == 0 && (!r.urgentOk || decide (1 < r.nParts) || decide (32 < r.granules)))
      || decide (s.nService < r.nParts)

/-- R214: the descriptor is malformed. -/
def State.malformed (s : State) (d : Desc) : Bool :=
  !classPermitted d.opcode d.cls || d.rsvd
    || (d.cls == 0 && (d.specOk || d.fence0.isSome || d.fence1.isSome))
    || (d.cls == 1 && d.deadline == 0)
    || d.fences.any (fun f => !s.fenceNames f)
    || (if d.opcode = 1 then !s.rangeInMap d.arg d.argLen || !s.rangeInMap d.outAddr d.outLen || s.recipeBad d
        else if d.opcode = 2 then !s.rangeInMap d.arg d.outLen || !s.rangeInMap d.outAddr d.outLen || d.outLen % 64 != 0
          || decide ((if d.cls = 0 then 0x80000 else 0x200000) < d.outLen)
        else if d.opcode = 5 then !s.rangeInMap d.outAddr d.outLen || d.outAddr % 8 != 0 || d.outLen != 8
        else if d.opcode = 7 then !s.rangeInMap d.outAddr d.outLen
        else if d.opcode = 8 then !s.rangeInMap d.arg d.argLen || !s.rangeInMap d.outAddr d.outLen || decide (d.argLen < 256)
          || decide (d.outLen < 256) || d.arg % 64 != 0 || d.outAddr % 64 != 0
        else false)

/-! ### Tensor buffers (R383, R384) -/

/-- The address of buffer b of a program's pool, and its size. -/
def State.tbufAddr (s : State) (p b : Nat) : Nat := s.rd F.MD_PG_POOL 0 p + b * s.rd F.MD_PG_POOL_CFG_BUF_KIB 0 p * 1024
def State.tbufLen (s : State) (p : Nat) : Nat := s.rd F.MD_PG_POOL_CFG_BUF_KIB 0 p * 1024

/-- The argument range of a command that has one. DEDUCED (log 20): a COPY's is what it reads. -/
def Desc.argRange (d : Desc) : Nat × Nat :=
  if d.opcode = 1 ∨ d.opcode = 8 then (d.arg, d.argLen) else if d.opcode = 2 then (d.arg, max d.argLen d.outLen) else (0, 0)

/-- The buffers of enabled programs that a range overlaps: program and index. -/
def State.tbufsOf (s : State) (a n : Nat) : List (Nat × Nat) :=
  (List.range 16).flatMap (fun p =>
    if s.rdB F.MD_PG_CTRL_EN 0 p then
      ((List.range (s.rd F.MD_PG_POOL_CFG_NBUF 0 p)).filter (fun b =>
        decide (a < s.tbufAddr p b + s.tbufLen p ∧ s.tbufAddr p b < a + n ∧ 0 < n))).map (fun b => (p, b))
    else [])

/-- R383: an accepted command takes one reference on each buffer its argument range overlaps. -/
def State.tensorBind (s : State) (id : Nat) (d : Desc) : State :=
  (s.tbufsOf d.argRange.1 d.argRange.2).foldl (fun t x =>
    if t.tbufs.any (fun b => b.prog == x.1 && b.idx == x.2) then
      { t with tbufs := updWhere (fun b => b.prog == x.1 && b.idx == x.2) (fun b => { b with cmds := id :: b.cmds }) t.tbufs }
    else
      { t with tbufs := ({ prog := x.1, idx := x.2, frame := 0xFFFFFFFF, j := 0, write := false, cmds := [id] } : TBuf) :: t.tbufs }) s

/-- R384: how a bound command closes without service, if it does. -/
def State.bindShed (s : State) (c : Cmd) : Option Nat :=
  let bs := s.tbufs.filter (fun b => b.cmds.contains c.id)
  let bad (b : TBuf) : Option Nat :=
    if (s.frame b.frame).any (fun f => f.standing == 2) then some 0x04
    else if b.status = 2 ∨ (b.ranges = [] ∧ b.status = 0) ∨ b.ranges.any (fun x => decide (b.bands ≤ x.1)
        && decide (x.2.1 < c.desc.argRange.1 + c.desc.argRange.2 ∧ c.desc.argRange.1 < x.2.1 + x.2.2)) = true then some 0x31
    else if c.desc.cls = 0 ∧ s.isProvisional b.frame = true then some 0x31
    else none
  bs.findSome? bad

/-! ### Admission (R265, R267, "The decision order") -/

/-- Commands held in a bucket's FIFO, in order. -/
def State.waiters (s : State) (ctx cls : Nat) : List Cmd :=
  s.sch.cmds.filter (fun c => c.phase == .held && c.desc.cls == cls && bktKey c.ctx c.desc.cls == bktKey ctx cls)

/-- PART_VT of a partition, in 1/256 CU over the weight. -/
def State.vt (s : State) (part : Nat) : Nat := storeGet 0 s.sch.vts part

/-- R265: a command that has been debited is ready; a B-class one takes its tags. -/
def State.makeReady (s : State) (id : Nat) : State :=
  match s.cmd id with
  | some c =>
    if c.desc.cls = 2 then
      let x := s.ctx c.ctx
      let w := if c.ctx = fwCtx then 1 else max 1 (s.rd F.SCH_B_WEIGHT 0 c.ctx)
      let st := max (s.vt (s.partOf c.ctx)) x.finish
      let fi := st + c.desc.cost * 256 / w
      (s.setCtx { x with finish := fi }).updCmd id (fun y => { y with phase := .ready, sTag := st, fTag := fi, debited := true })
    else s.updCmd id (fun y => { y with phase := .ready, debited := true })
  | none => s

/-- R219, R267: a DEFER_NOTICE with the shortfall where a completion slot is free, or its skip. -/
def State.deferNotice (s : State) (id short : Nat) : State :=
  match s.cmd id with
  | some c =>
    match s.localPage c.ctx with
    | some p =>
      if 0 < s.cqFree p then s.record c 0x10 short
      else (s.inc F.CTX_NOTICE_SKIP_CNT p 0).raise (0x100 + p) 5
    | none => s.record c 0x10 short
  | none => s

/-- A Kettle is urgent-ready for a command (R249, R255): no LOADED or RUNNING U-class slot, urgent granules enough, and a
slot of 0 to 3 FREE. -/
def State.urgentReady (s : State) (k need : Nat) : Bool :=
  match s.tileOf k with
  | some p => s.dispatchable k && (s.tile p).slots.all (fun x => x.cls != 0 || x.st == 3 || x.st == 4)
      && decide (need ≤ s.urgFree k) && (s.freeSlot p 0).isSome
  | none => false

/-- Accumulator blocks of a tile held by non-U commands. -/
def State.nonUBlocks (s : State) (p : Nat) : Nat :=
  (((s.tile p).slots.filter (fun x => x.cls != 0)).map (fun x => popcount 8 ((s.tile p).blocksOf x))).sum

/-- The least of a list by a key, the earliest among equals. -/
def leastBy {α : Type} (f : α → Nat) : List α → Option α
  | [] => none
  | x :: t => match leastBy f t with
    | none => some x
    | some y => if f y < f x then some y else some x

/-- Granules each part of a command needs. -/
def State.needGrans (s : State) (d : Desc) : Nat := ((s.recipe d.recipe).map Recipe.granules).getD 0

/-- A U-class RUN_RECIPE placed on Kettle k, or the state as it is. -/
def State.placeU (s : State) (id k : Nat) : State :=
  match s.cmd id, s.tileOf k with
  | some c, some p =>
    match s.freeSlot p 0 with
    | some n =>
      (s.slotDispatch p n c 0 (s.needGrans c.desc)).updCmd id (fun y => { y with phase := .running, resv := [] })
    | none => s
  | _, _ => s

/-- R249, R250: the fast path dispatches a U-class command, or it enters the partition's urgent FIFO; with no Kettle of the
partition in service it closes FAULT_REPAIR (R636). A command of another opcode runs on no Kettle and waits for nothing. -/
def State.fastDispatch (s : State) (id : Nat) : State :=
  match s.cmd id with
  | some c =>
    if c.desc.opcode ≠ 1 then s.updCmd id (fun y => { y with phase := .ready })
    else
      let ks := s.partKettles (s.partOf c.ctx)
      if !ks.any s.inService then s.close id 0x51
      else
        match leastBy (fun k => s.nonUBlocks ((s.tileOf k).getD 0)) (ks.filter (fun k => s.urgentReady k (s.needGrans c.desc))) with
        | some k => s.placeU id k
        | none => ((s.updCmd id (fun y => { y with phase := .urgent, waitedUrgent := true })).inc F.SCH_URG_FIFO_CNT 0 0).raise 0x005 1
  | none => s

/-- How a command whose fence target has closed badly closes itself (R212, R296). -/
def State.fenceShed (s : State) (d : Desc) : Option Nat :=
  if d.fences.any (fun f => (s.ctx f.ctx).window.any (fun w => w.seq == f.seq && w.disp == 4)) then some 0x04
  else if s.fenceBroken d then some 0x31 else none

/-- "The decision order": admission of an accepted command that is not malformed. -/
def State.admission (s : State) (id : Nat) : State :=
  match s.cmd id with
  | some c =>
    let d := c.desc
    let b := s.bkt c.ctx d.cls
    if s.bktBurst c.ctx d.cls < d.cost then s.close id 0x20
    else if d.cls = 0 then
      if b.level < d.cost then s.close id 0x20
      else
        let t := ((s.debit c.ctx 0 d.cost).updCmd id (fun y => { y with debited := true })).inc F.SCH_URG_ADMIT_CNT 0 0
        match t.bindShed c with
        | some disp => (t.inc F.MD_BIND_SHED_CNT 0 0).close id disp
        | none => t.fastDispatch id
    else
      match s.fenceShed d with
      | some disp => s.close id disp
      | none =>
        if b.level < d.cost ∨ (s.waiters c.ctx d.cls).isEmpty = false then
          let t := s.updCmd id (fun y => { y with phase := .held })
          if d.notifyDefer then t.deferNotice id (d.cost - b.level) else t
        else (s.debit c.ctx d.cls d.cost).makeReady id
  | none => s

/-- R266: at a refill a bucket's held commands are released in FIFO order while LEVEL covers them; a held F-class command
at or past its DEADLINE is never released. -/
def State.releaseHeld (s : State) (ctx cls : Nat) : Nat → State
  | 0 => s
  | n + 1 =>
    match s.waiters ctx cls with
    | c :: _ =>
      if c.desc.cost ≤ (s.bkt ctx cls).level ∧ (cls = 2 ∨ s.gt < c.desc.deadline) then
        ((s.debit ctx cls c.desc.cost).makeReady c.id).releaseHeld ctx cls n
      else s
    | [] => s

/-! ### Acceptance (R215 to R218) -/

/-- A command that exists only for a record: refused, stale, or a duplicate. -/
def State.ghost (s : State) (ctx : Nat) (d : Desc) : Cmd :=
  { id := 0, ctx, desc := d, phase := .handoff, consumedAt := s.now, admitGt := s.gt, reserved := 0 }

/-- A new command in flight: counted accepted, its completion slots reserved (R202, R203). -/
def State.newCmd (s : State) (ctx : Nat) (d : Desc) (order : Option Nat) : State × Nat :=
  let id := s.sch.nextId
  let need := if d.specOk then 2 else 1
  let c : Cmd := { id, ctx, desc := d, phase := .handoff, order, consumedAt := s.now, admitGt := s.gt, reserved := need }
  let t := { s with sch := { s.sch with nextId := id + 1, cmds := s.sch.cmds ++ [c] } }
  let x := t.ctx ctx
  let t1 := t.setCtx { x with accepted := (x.accepted + 1) % 2 ^ 32 }
  let t2 := match t1.localPage ctx with
    | some p => (t1.wr F.CTX_INFLIGHT p 0 (t1.rd F.CTX_INFLIGHT p 0 + 1)).wr F.CTX_CQ_RESERVED p 0 (t1.rd F.CTX_CQ_RESERVED p 0 + need)
    | none => t1
  (t2, id)

/-- R214 and admission of a new command: malformed ones close; mask slots and tensor buffers follow its acceptance; a
U-class command is served by the fast path, any other goes to the hand-off queue. -/
def State.judgeNew (s : State) (id : Nat) (d : Desc) : State :=
  match s.cmd id with
  | some c =>
    if s.malformed d then s.close id 0x23
    else
      let t := (s.maskInvalidate c).tensorBind id d
      if d.cls = 0 then t.admission id else t
  | none => s

/-- R215: a descriptor of context page p passes the GEN step, the SEQ step, and acceptance. -/
def State.accept (s : State) (p : Nat) (d : Desc) : State :=
  let ctx := s.cabCtx p
  let last := s.rd F.CTX_LAST_SEQ p 0
  let x := s.ctx ctx
  let g := s.ghost ctx d
  let gf := { g with frame := s.frameIdOf g }
  if d.gen ≠ s.rd F.CTX_STAT_GEN p 0 then s.putRecord gf 0x22 0
  else if !serialLt 32 last d.seq then
    match x.window.find? (fun w => w.seq == d.seq) with
    | some w => s.putRecord { g with frame := match s.fenceCmd { seq := d.seq, ctx } with
        | some c => s.frameIdOf c
        | none => w.frame } 0x40 w.disp
    | none => s.putRecord gf 0x21 0
  else
    let s1 := (s.wr F.CTX_LAST_SEQ p 0 d.seq).setCtx { x with
      window := ({ seq := d.seq } : WinEnt) :: x.window.filter (fun w => decide ((d.seq + 2 ^ 32 - w.seq) % 2 ^ 32 < 64)) }
    let r := s1.newCmd ctx d none
    r.1.judgeNew r.2 d

/-- SQ_HEAD passes the entry read. -/
def State.passEntry (s : State) (p : Nat) : State := s.wr F.CTX_SQ_HEAD p 0 (s.rd F.CTX_SQ_HEAD p 0 + 1)

/-- The descriptors in the hand-off queue (R247). -/
def State.handoffs (s : State) : List Cmd := s.sch.cmds.filter (fun c => c.phase == .handoff)

/-- R201, R202, R248, R734: the next descriptor of context page p is read once its completion slots are free and, for a
descriptor that is not U-class, the hand-off queue has room. -/
def State.consume (s : State) (p : Nat) : State :=
  if s.pwr.mainOn && s.rd F.CTX_STAT_STATE p 0 == 1 && s.rd F.CTX_SQ_HEAD p 0 != s.rd F.CTX_SQ_TAIL p 0 then
    let a := s.sqBase p + s.rd F.CTX_SQ_HEAD p 0 % s.sqSize p * 64
    match s.peek a 64 with
    | some (bs, false) =>
      let d := parseDesc bs
      if s.cqFree p < (if d.specOk then 2 else 1) then s
      else if d.cls ≠ 0 ∧ 1024 ≤ s.handoffs.length then s
      else ((s.noteRead a 64).passEntry p).accept p d
    | _ =>
      if s.cqFree p = 0 then s
      else ((s.noteRead a 64).passEntry p).putRecord (s.ghost (s.cabCtx p) {}) 0x50 0
  else s

/-- DESCRIPTOR_CONSUME. -/
def execDescriptorConsume (c : BitVec 8) (s : State) : Outcome State Fault Refusal := .next (s.consume c.toNat)

/-- R248: firmware takes the oldest entry of the hand-off queue and admits it; a follower passes it to the head's firmware (R651). -/
def State.handoffTake (s : State) : State :=
  if s.skRole = 2 then
    match s.handoffs.find? (fun c => c.ctx != fwCtx) with
    | some c => (s.skNote 0 9 c.skAddr 64).updCmd c.id (fun x => { x with phase := .away })
    | none => s
  else if s.fwReady then
    match s.handoffs with
    | c :: _ => s.admission c.id
    | [] => s
  else s

/-- HAND_OFF_TAKE. -/
def execHandOffTake (s : State) : Outcome State Fault Refusal := .next s.handoffTake

/-- R250: a Kettle that is urgent-ready takes the command at the head of the urgent FIFO of its partition. -/
def State.urgFifoDispatch (s : State) (k : Nat) : State :=
  match s.sch.cmds.find? (fun c => c.phase == .urgent && (s.partKettles (s.partOf c.ctx)).contains k) with
  | some c => if s.urgentReady k (s.needGrans c.desc) then s.placeU c.id k else s
  | none => s

/-- URG_FIFO_DISPATCH. -/
def execUrgFifoDispatch (k : Fin 16) (s : State) : Outcome State Fault Refusal := .next (s.urgFifoDispatch k.val)

/-! ### Context commands (R194 to R198, Table CMD-1, Table CMD-7) -/

/-- A source that DB_SRC of a context permits (R562, Table HST-3). -/
def State.dbPermits (s : State) (src : Src) (c : Nat) : Bool :=
  let v := bitsOf (s.rd F.PCIE_DB_SRC 0 (c / 16)) (2 * (c % 16)) 2
  v == 0 || src == .sous || (v == 1 && src == .host) || (v == 2 && src == .pcie)

/-- A write to a context page (R562): performed for a permitted source, else counted. -/
def State.ctxWrite (s : State) (src : Src) (c : Nat) (k : State → State) : State :=
  s.reach (0x100 + c) (fun t => if t.dbPermits src c then k t else (t.inc F.PCIE_DB_SRC_DENY_CNT 0 0).raise 0x0B0 5)

/-- A doorbell or lease is ignored or bad: counted, and event 4 for a doorbell. -/
def State.dbBad (s : State) (c : Nat) : State := (s.inc F.CTX_DB_BAD_CNT c 0).raise (0x100 + c) 4

/-- R199, R200: a doorbell write. -/
def State.doorbell (s : State) (c v : Nat) : State :=
  let t := v % 65536
  if s.rd F.CTX_STAT_STATE c 0 ≠ 1 then (s.inc F.CTX_DB_IGNORED_CNT c 0).raise (0x100 + c) 4
  else if (t + 65536 - s.rd F.CTX_SQ_TAIL c 0) % 65536 ≤ s.sqSize c ∧ (t + 65536 - s.rd F.CTX_SQ_HEAD c 0) % 65536 ≤ s.sqSize c then
    s.wr F.CTX_SQ_TAIL c 0 t
  else s.dbBad c

/-- DOORBELL. -/
def execDoorbell (src : Src) (c : BitVec 8) (v : Word) (s : State) : Outcome State Fault Refusal :=
  .next (s.ctxWrite src c.toNat (fun t => t.doorbell c.toNat v.toNat))

/-- R206: a CQ_HEAD write between head and tail. -/
def State.cqHead (s : State) (c v : Nat) : State :=
  let h := s.rd F.CTX_CQ_HEAD c 0
  if (v % 65536 + 65536 - h) % 65536 ≤ (s.rd F.CTX_CQ_TAIL c 0 + 65536 - h) % 65536 then s.wr F.CTX_CQ_HEAD c 0 v
  else s.dbBad c

/-- CQ_HEAD_WRITE. -/
def execCqHeadWrite (src : Src) (c : BitVec 8) (v : Word) (s : State) : Outcome State Fault Refusal :=
  .next (s.ctxWrite src c.toNat (fun t => t.cqHead c.toNat v.toNat))

/-- LEASE_PERIOD and ORPHAN_HOLD in cycles (Table CMD-6, R233). -/
def State.leasePeriod (s : State) (c : Nat) : Nat :=
  let p := s.rd F.CTX_LEASE_CFG_LEASE_PERIOD c 0
  if p = 0 then 50 else p
def State.orphanHold (s : State) (c : Nat) : Nat :=
  let p := s.rd F.CTX_LEASE_CFG_ORPHAN_HOLD c 0
  if p = 0 then 500 else p

/-- The lease runs from this GT. -/
def State.leaseRun (s : State) (c : Nat) : State := s.wr F.CTX_LEASE_EXP c 0 (s.gt + s.leasePeriod c * 65536)

/-- R227, R228: a LEASE write. -/
def State.lease (s : State) (c v : Nat) : State :=
  if s.rd F.CTX_STAT_STATE c 0 = 1 ∧ v % 128 = s.rd F.CTX_STAT_GEN c 0 ∧ s.gt < s.rd F.CTX_LEASE_EXP c 0 then s.leaseRun c
  else s.inc F.CTX_LEASE_BAD_CNT c 0

/-- LEASE. -/
def execLease (src : Src) (c : BitVec 8) (v : Word) (s : State) : Outcome State Fault Refusal :=
  .next (s.ctxWrite src c.toNat (fun t => t.lease c.toNat v.toNat))

/-- Ring bytes: base and length. -/
def State.rings (s : State) (c : Nat) : List (Nat × Nat) := [(s.sqBase c, s.sqSize c * 64), (s.cqBase c, s.cqSize c * 32)]

/-- A range lies wholly in the Larder or in one logical vault's linear range of this device. -/
def State.ringPlaced (s : State) (a n : Nat) : Bool :=
  let b := if s.rd F.SK_STAT_ROLE 0 0 = 0 then a else a % 2 ^ 44
  let here := s.rd F.SK_STAT_ROLE 0 0 = 0 || a / 2 ^ 44 == s.rd F.SK_STAT_CAB_ID 0 0
  here && (decide (larderBase ≤ b ∧ b + n ≤ larderBase + 0x1000000)
    || (decide (cellarBase ≤ b ∧ b + n ≤ cellarBase + 16 * vaultSize)
        && (b - cellarBase) / vaultSize == (b + n - 1 - cellarBase) / vaultSize))

def overlaps (a b : Nat × Nat) : Bool := decide (a.1 < b.1 + b.2 ∧ b.1 < a.1 + a.2)

/-- R197: the ring configuration is valid. -/
def State.ringsOk (s : State) (c : Nat) : Bool :=
  let sq := s.rd F.CTX_RING_CFG_SQ_LOG2 c 0
  let cq := s.rd F.CTX_RING_CFG_CQ_LOG2 c 0
  decide (4 ≤ sq ∧ sq ≤ 12 ∧ 4 ≤ cq ∧ cq ≤ 12) && s.sqBase c % 64 == 0 && s.cqBase c % 32 == 0
    && (s.rings c).all (fun r => s.ringPlaced r.1 r.2)
    && !overlaps (s.sqBase c, s.sqSize c * 64) (s.cqBase c, s.cqSize c * 32)
    && ((List.range 256).filter (fun d => d != c && s.rd F.CTX_STAT_STATE d 0 != 0)).all (fun d =>
        (s.rings d).all (fun r => (s.rings c).all (fun q => !overlaps r q)))

/-- PART_URG_ALLOC: the U rates of a partition's OPEN and ORPHANED contexts (R243). -/
def State.urgAlloc (s : State) (part : Nat) : Nat :=
  (((List.range 256).filter (fun d => (s.rd F.CTX_STAT_STATE d 0 == 1 || s.rd F.CTX_STAT_STATE d 0 == 2)
    && s.rd F.CTX_CFG_PART d 0 == part)).map (fun d => s.bktRate (s.cabCtx d) 0)).sum

/-- R195: the next GEN. -/
def genNext (g : Nat) : Nat := if g ≥ 127 then 1 else g + 1

/-- CTX_CMD acted on (R196): with an error code, or with none. -/
def State.cmdActed (s : State) (c err : Nat) : State :=
  let t := (s.wr F.CTX_STAT_CMD_BUSY c 0 0).raise (0x100 + c) 6
  if err = 0 then t else t.wr F.CTX_STAT_CMD_ERR c 0 err

/-- Firmware acts on a CTX_CMD write; until it runs, CMD_BUSY stays 1 (R196). -/
def State.ctxCmd (s : State) (c : Nat) (k : State → State) : State :=
  if s.fwReady then k s else s.wr F.CTX_STAT_CMD_BUSY c 0 1

/-- A bucket at OPEN (R263): full, its books at zero. -/
def State.bktOpen (s : State) (ctx cls : Nat) : State :=
  s.setBkt { ctx := bktKey ctx cls, cls, burstAtOpen := s.bktBurst ctx cls, level := s.bktBurst ctx cls }

/-- OPEN (Table CMD-1, R197, R243). -/
def State.ctxOpen (s : State) (c : Nat) : State :=
  let ctx := s.cabCtx c
  let part := s.rd F.CTX_CFG_PART c 0
  if s.rd F.CTX_STAT_STATE c 0 ≠ 0 then s.cmdActed c 2
  else if !s.ringsOk c then s.cmdActed c 1
  else if s.rd F.SCH_PART_URG_BUDGET 0 part < s.urgAlloc part + s.bktRate ctx 0 then s.cmdActed c 4
  else
    let s1 := (s.wr F.CTX_STAT_STATE c 0 1).wr F.CTX_STAT_GEN c 0 (genNext (s.rd F.CTX_STAT_GEN c 0))
    let s2 := ((((s1.wr F.CTX_LAST_SEQ c 0 0).wr F.CTX_SQ_TAIL c 0 0).wr F.CTX_SQ_HEAD c 0 0).wr F.CTX_CQ_TAIL c 0 0).wr
      F.CTX_CQ_HEAD c 0 0
    let x := s2.ctx ctx
    let s3 := s2.setCtx { x with window := [], finish := 0 }
    ((((s3.bktOpen ctx 0).bktOpen ctx 1).bktOpen ctx 2).leaseRun c).cmdActed c 0

/-- CTX_OPEN. -/
def execCtxOpen (src : Src) (c : BitVec 8) (s : State) : Outcome State Fault Refusal :=
  .next (s.ctxWrite src c.toNat (fun t => t.ctxCmd c.toNat (fun u => u.ctxOpen c.toNat)))

/-- R230: every command of a context that is not in commit is killed or withdrawn and closes SHED_ABANDONED. -/
def State.abandon (s : State) (ctx : Nat) : State :=
  ((s.sch.cmds.filter (fun x => x.ctx == ctx && x.phase != .commit && x.phase != .prov)).map (fun x => x.id)).foldl
    (fun t id => t.killClose id 0x32) s

/-- POLICY applied to the work of a context (R229, R230). -/
def State.applyPolicy (s : State) (c : Nat) : State :=
  if s.rdB F.CTX_CFG_POLICY c 0 then s.abandon (s.cabCtx c) else s

/-- CLOSE (Table CMD-1). -/
def State.ctxClose (s : State) (c : Nat) : State :=
  let st := s.rd F.CTX_STAT_STATE c 0
  if st ≠ 1 ∧ st ≠ 2 then s.cmdActed c 2
  else (((s.wr F.CTX_STAT_STATE c 0 3).cmdActed c 0).applyPolicy c).ctxMaybeFree (s.cabCtx c)

/-- CTX_CLOSE. -/
def execCtxClose (src : Src) (c : BitVec 8) (s : State) : Outcome State Fault Refusal :=
  .next (s.ctxWrite src c.toNat (fun t => t.ctxCmd c.toNat (fun u => u.ctxClose c.toNat)))

/-- ADOPT (R232): valid while ORPHANED and before the hold ends. -/
def State.ctxAdopt (s : State) (c : Nat) : State :=
  if s.rd F.CTX_STAT_STATE c 0 ≠ 2 then s.cmdActed c 2
  else if (s.ctx (s.cabCtx c)).holdEnd ≤ s.gt then s.cmdActed c 3
  else
    ((((s.wr F.CTX_STAT_STATE c 0 1).wr F.CTX_STAT_GEN c 0 (genNext (s.rd F.CTX_STAT_GEN c 0))).leaseRun c).raise
      (0x100 + c) 2).cmdActed c 0

/-- CTX_ADOPT. -/
def execCtxAdopt (src : Src) (c : BitVec 8) (s : State) : Outcome State Fault Refusal :=
  .next (s.ctxWrite src c.toNat (fun t => t.ctxCmd c.toNat (fun u => u.ctxAdopt c.toNat)))

/-- R228, R233: GT has reached the lease expiry of an OPEN context: ORPHANED, its hold runs from the expiry, POLICY is
applied. -/
def State.leaseExpire (s : State) (c : Nat) : State :=
  if s.rd F.CTX_STAT_STATE c 0 = 1 ∧ s.rd F.CTX_LEASE_EXP c 0 ≤ s.gt ∧ s.fwReady = true then
    let x := s.ctx (s.cabCtx c)
    let t := (s.wr F.CTX_STAT_STATE c 0 2).setCtx { x with holdEnd := s.rd F.CTX_LEASE_EXP c 0 + s.orphanHold c * 65536 }
    (t.raise (0x100 + c) 1).applyPolicy c
  else s

/-- LEASE_EXPIRE. -/
def execLeaseExpire (c : BitVec 8) (s : State) : Outcome State Fault Refusal := .next (s.leaseExpire c.toNat)

/-- R233: the hold has ended: CLOSING, and every remaining command is treated as under ABANDON. -/
def State.orphanEnd (s : State) (c : Nat) : State :=
  if s.rd F.CTX_STAT_STATE c 0 = 2 ∧ (s.ctx (s.cabCtx c)).holdEnd ≤ s.gt ∧ s.fwReady = true then
    ((s.wr F.CTX_STAT_STATE c 0 3).abandon (s.cabCtx c)).ctxMaybeFree (s.cabCtx c)
  else s

/-- ORPHAN_HOLD_END. -/
def execOrphanHoldEnd (c : BitVec 8) (s : State) : Outcome State Fault Refusal := .next (s.orphanEnd c.toNat)

/-! ### Standing orders (R234 to R237, R736) -/

/-- The first due GT of a cadence after now: cycle c with (c - anchor) mod period = 0, at the phase. -/
def nextDue (gt period anchor phase : Nat) : Nat :=
  let p := if period = 0 then 1 else period
  let c0 := gt / 65536
  let c1 := if gt % 65536 < phase then c0 else c0 + 1
  (c1 + (anchor % p + p - c1 % p) % p) * 65536 + phase

/-- An order armed: its occurrences are counted from 1. -/
def State.orderArm (s : State) (num ctx : Nat) (d : Desc) (period anchor phase : Nat) : State :=
  let p := if period = 0 then 1 else period
  let o : Order := { num, ctx, desc := d, period := p, anchor := anchor % p, phase, occ := 1, due := nextDue s.gt p anchor phase }
  { s with sch := { s.sch with orders := o :: s.sch.orders.filter (fun x => x.num != num) } }

/-- An order disarmed. -/
def State.orderDrop (s : State) (num : Nat) : State :=
  { s with sch := { s.sch with orders := s.sch.orders.filter (fun x => x.num != num) } }

/-- The number of a context's order, and of a firmware order. -/
def soNum (ctx i : Nat) : Nat := ctx * 8 + i
def fwSoNum (n : Nat) : Nat := 2 ^ 20 + n

/-- SO_CMD = ARM takes template and timing (R736); a template of class U is refused (R236). -/
def State.soArm (s : State) (c : Nat) : State :=
  if s.rd F.CTX_STAT_STATE c 0 = 1 then
    let i := s.rd F.CTX_SO_SEL c 0
    let d := parseDesc ((List.range 16).flatMap (fun w => toBytes 4 (s.rd F.CTX_SO_DESC c (w * 8 + i))))
    if d.cls = 0 then s
    else (s.orderArm (soNum (s.cabCtx c) i) (s.cabCtx c) d (s.rd F.CTX_SO_TIME_PERIOD_CYC c i) (s.rd F.CTX_SO_TIME_ANCHOR c i)
      (s.rd F.CTX_SO_TIME_PHASE c i)).wr F.CTX_SO_STAT_ARMED c i 1
  else s.accFault (0x100 + c) 1 0x0C8

/-- SO_ARM. -/
def execSoArm (src : Src) (who : SoWho) (s : State) : Outcome State Fault Refusal :=
  match who with
  | .ctx c => .next (s.ctxWrite src c.toNat (fun t => t.soArm c.toNat))
  | .firmware n tmpl per anc ph =>
    let d := parseDesc tmpl
    .next (if s.fwReady && d.cls != 0 && tmpl.length == 64 then s.orderArm (fwSoNum n) fwCtx d per.toNat anc.toNat ph.toNat else s)

/-- SO_CMD = DISARM. -/
def State.soDisarm (s : State) (c : Nat) : State :=
  if s.rd F.CTX_STAT_STATE c 0 = 1 then
    let i := s.rd F.CTX_SO_SEL c 0
    (s.orderDrop (soNum (s.cabCtx c) i)).wr F.CTX_SO_STAT_ARMED c i 0
  else s.accFault (0x100 + c) 1 0x0C8

/-- SO_DISARM. -/
def execSoDisarm (src : Src) (who : SoWho) (s : State) : Outcome State Fault Refusal :=
  match who with
  | .ctx c => .next (s.ctxWrite src c.toNat (fun t => t.soDisarm c.toNat))
  | .firmware n _ _ _ _ => .next (if s.fwReady then s.orderDrop (fwSoNum n) else s)

/-- An occurrence is skipped for its owner's state or for want of completion slots (R235). -/
def State.soSkips (s : State) (o : Order) : Bool :=
  match s.localPage o.ctx with
  | some p => s.rd F.CTX_STAT_STATE p 0 != 1 || decide (s.cqFree p < (if o.desc.specOk then 2 else 1))
  | none => false

/-- R67, R234, R235: a standing order's occurrence that is due: skipped if a full period or more late, or by R235; else a
command is created from the template and judged. -/
def State.occurrence (s : State) (num : Nat) : State :=
  match s.sch.orders.find? (fun o => o.num == num) with
  | some o =>
    if o.due ≤ s.gt ∧ s.fwReady = true then
      let per := o.period * 65536
      let t := { s with sch := { s.sch with orders := updWhere (fun x => x.num == num)
                                              (fun x => { x with occ := x.occ + 1, due := x.due + per }) s.sch.orders } }
      if o.due + per ≤ s.gt then t.inc F.ORR_EPH_MISS 0 0
      else if t.soSkips o then
        match t.localPage o.ctx with
        | some p => t.inc F.CTX_SO_SKIP_CNT p (num % 8)
        | none => t
      else
        let d := { o.desc with seq := o.occ % 2 ^ 32, deadline := (o.due + o.desc.deadline) % 2 ^ 64 }
        let r := t.newCmd o.ctx d (some num)
        let u := r.1.judgeNew r.2 d
        u.admission r.2
    else s
  | none => s

/-- STANDING_OCCURRENCE. -/
def execStandingOccurrence (num : Nat) (s : State) : Outcome State Fault Refusal := .next (s.occurrence num)

end Sys2Proof.Machine
end

