-- ==== Sys2Proof/Machine/Place.lean ====
section
/-! DEFINITION. Dispatching commands, running those that use no Kettle, and commit: coverage, drains, side effects and closing
records (spec/06, R209 to R226; spec/05, R180 to R193; spec/07, R262 to R265; spec/08, R279 to R287). -/

namespace Sys2Proof.Machine

open Host

/-! ### Eligibility -/

/-- The members of a fill batch, in order (R182). -/
def State.members (s : State) (b : Nat) : List Cmd :=
  (s.sch.cmds.filter (fun c => c.batch == some b)).mergeSort (fun x y => decide (x.row ≤ y.row))

/-- The command's recipe makes it a member of fill batches (R180). -/
def State.batchable (s : State) (c : Cmd) : Bool :=
  c.desc.opcode == 1 && (match s.recipe c.desc.recipe with
    | some r => fillBatched c.desc r
    | none => false)

/-- Ready for dispatch (R211, R281, R384): debited, its fences resolved, its buffers readable, its frame set no bar, its batch
released (R183). -/
def State.eligible (s : State) (c : Cmd) : Bool :=
  c.phase == .ready && s.fencesDone c.desc && (s.bindShed c).isNone && s.mayStart c && (!s.batchable c || c.released)

/-- R279: a ready command that only its OUT_ADDR keeps from starting on provisional input is counted, once. -/
def State.countNoArena (s : State) : State :=
  (s.sch.cmds.filter (fun c => c.phase == .ready && s.fencesDone c.desc && !(s.frameSet c).isEmpty && s.specOther c
    && !s.specArena c && !c.noArena)).foldl
    (fun t c => ((t.updCmd c.id (fun x => { x with noArena := true })).inc F.SPC_NOARENA_CNT 0 0).raise 0x006 3) s

/-- R265: of a partition's eligible B-class commands, the one of lowest finish tag. -/
def State.headB (s : State) (part : Nat) : Option Cmd :=
  leastBy (fun c => c.fTag) (s.sch.cmds.filter (fun c => c.desc.cls == 2 && s.partOf c.ctx == part && s.eligible c))

/-- The command may be dispatched now: a B-class one must be its partition's next. -/
def State.mayDispatch (s : State) (c : Cmd) : Bool :=
  s.eligible c && (c.desc.cls != 2 || (match s.headB (s.partOf c.ctx) with
    | some h => h.id == c.id
    | none => false))

/-- R265: PART_VT becomes the start tag of a B-class command as it is dispatched. -/
def State.advanceVt (s : State) (c : Cmd) : State :=
  if c.desc.cls = 2 then { s with sch := { s.sch with vts := storeSet 0 s.sch.vts (s.partOf c.ctx) c.sTag } } else s

/-! ### Placing on Kettles (R168, R244, R260, R264) -/

/-- A Kettle can take a part of a command: dispatched to, a slot of 4 to 31 FREE, granules enough counting the command's
own RERUN_RESV, and for B-class fewer than B_SLOTS B-class commands. -/
def State.canTake (s : State) (c : Cmd) (k : Nat) : Bool :=
  match s.tileOf k with
  | some p => s.dispatchable k && (s.freeSlot p 1).isSome && decide (s.needGrans c.desc ≤ s.granAvail k + c.resvOn k)
      && (c.desc.cls != 2 || decide (((s.tile p).slots.filter (fun x => x.cls == 2)).length
            < s.rd F.SCH_PART_CFG_B_SLOTS 0 (s.partOf c.ctx)))
  | none => false

/-- The Kettles of the command's partition that can take it. -/
def State.candidates (s : State) (c : Cmd) : List Nat := (s.partKettles (s.partOf c.ctx)).filter (s.canTake c)

/-- The parts a command runs in. -/
def State.partsOf (s : State) (d : Desc) : Nat := ((s.recipe d.recipe).map Recipe.nParts).getD 1

/-- R168, R260: all parts dispatched in one transaction, part j to the j-th Kettle; RERUN_RESV is released. A batch's members
go with it. -/
def State.place (s : State) (c : Cmd) (ks : List Nat) : State :=
  let t := (s.advanceVt c).updCmd c.id (fun x => { x with resv := [] })
  let u := (ks.zip (List.range ks.length)).foldl (fun t x =>
    match t.tileOf x.1 with
    | some p =>
      match t.freeSlot p 1 with
      | some n => t.slotDispatch p n c x.2 (t.needGrans c.desc)
      | none => t
    | none => t) t
  { u with sch := { u.sch with cmds := updWhere (fun x => x.id == c.id || (c.batch.isSome && x.batch == c.batch))
                                        (fun x => { x with phase := .running }) u.sch.cmds } }

/-! ### F-class dispatch (R264) -/

/-- The operating-point factor of Kettle k in twelfths (Table SCO-3). -/
def State.f12 (s : State) (k : Nat) : Nat :=
  let f := opFactor (match s.tileOf k with
    | some p => s.opOf p
    | none => 3)
  12 * f.1 / f.2

/-- The COST a placement is judged by: the batch's declared cost, or the descriptor's. -/
def State.placeCost (s : State) (c : Cmd) : Nat :=
  if c.batch.isSome then ((s.recipe c.desc.recipe).map Recipe.cost).getD c.desc.cost else c.desc.cost

/-- R[k] in twelfths of a ns: what the F-class commands on Kettle k with a DEADLINE at or before d's have left. -/
def State.loadAhead (s : State) (k deadline : Nat) : Nat :=
  match s.tileOf k with
  | some p =>
    (((s.tile p).slots.filter (fun x => x.cls == 1 && (x.st == 1 || x.st == 2))).map (fun x =>
      match s.cmd x.cmd with
      | some c => if c.desc.deadline ≤ deadline then s.placeCost c * 1000 * s.f12 k - 12 * s.serviceNs c else 0
      | none => 0)).sum
  | none => 0

/-- A duration of x12 / (12 (1 - u)) + 8 us from now falls after a GT: u = num / den. -/
def State.fallsAfter (s : State) (x12 num den deadline : Nat) : Bool :=
  decide (((deadline : Int) - s.gt) * (s.siPerUnit * 12 * (den - num) : Nat) < (((x12 * den + 96000 * (den - num)) * 19660800 : Nat) : Int))

/-- R264: one ready F-class command is placed, closes SHED_INFEASIBLE, or stays ready. -/
def State.dispatchF (s : State) (id : Nat) : State :=
  match s.cmd id with
  | none => s
  | some c =>
    if !(s.eligible c) || c.desc.cls != 1 || c.desc.opcode != 1 || (c.batch.isSome && c.batch != some c.id) then s
    else
      let part := s.partOf c.ctx
      let cap := max 1 (s.partCap part)
      let bud := min (s.rd F.SCH_PART_URG_BUDGET 0 part) (cap - 1)
      let need (k : Nat) : Nat := s.placeCost c * 1000 * s.f12 k
      let n := s.partsOf c.desc
      let ks := s.candidates c
      let team := if c.batch.isSome then s.members c.id else [c]
      if ks.length < n then
        let floor := (leastBy (fun x => x) ((s.partKettles part).map need)).getD (s.placeCost c * 1000 * 12)
        (team.filter (fun m => !m.desc.lateOk && s.fallsAfter floor 0 1 m.desc.deadline)).foldl (fun t m => t.killClose m.id 0x31) s
      else
        let est (k : Nat) : Nat := s.loadAhead k c.desc.deadline + need k
        let best := (ks.mergeSort (fun a b => decide (est a < est b ∨ (est a = est b ∧ a ≤ b)))).take n
        let worst := (best.map est).foldl max 0
        let out := team.filter (fun m => !m.desc.lateOk && s.fallsAfter worst bud cap m.desc.deadline)
        let t := out.foldl (fun t m => (if t.inBatch m then t.leaveBatch m.id else t).close m.id 0x31) s
        match t.sch.cmds.find? (fun x => x.id == c.id || (c.batch.isSome && x.batch.isSome && team.any (fun m => m.id == x.id)
            && x.batch == some x.id)) with
        | some h => t.place h best
        | none => t

/-! ### Placing on other members (R652 to R654) -/

/-- The head places a command on another member: a DELEGATE, which its REPORTs answer. -/
def State.delegate (s : State) (c : Cmd) (m : Nat) : State :=
  let t := (s.advanceVt c).updCmd c.id (fun x => { x with phase := .away, resv := [] })
  let u : State := { t with sk := { t.sk with placed := ({ id := c.id, member := m } : SkPlaced) :: t.sk.placed.filter (fun x => x.id != c.id) } }
  let v := u.skRequest m 2 (some c.id) 0 160 c.skAddr (u.remoteBytes 160)
  { v with fresh := v.fresh + 160 }

/-- One ready F-class command. What the Kettles of other members have before them is not in this device's state, so that in a cabinet the
head's choice of a member is free (log 69). -/
def State.dispatchFor (s : State) (id : Nat) : State :=
  match s.cmd id with
  | some c =>
    if s.skRole = 1 ∧ s.skOthers ≠ [] ∧ s.eligible c = true ∧ c.desc.opcode = 1 ∧ c.batch.isNone = true ∧ (s.frameSet c).isEmpty = true then
      let ms := s.skMe :: s.skOthers
      let m := ms.getD (s.freeVal 8 % ms.length) s.skMe
      if m = s.skMe then s.tookFree.dispatchF id else s.tookFree.delegate c m
    else s.dispatchF id
  | none => s

/-- R264: firmware evaluates the ready F-class commands in ascending DEADLINE, ties by admission. -/
def State.dispatchAllF (s : State) : State :=
  if s.fwReady then
    let l := (s.sch.cmds.filter (fun c => c.desc.cls == 1 && c.desc.opcode == 1 && c.phase == .ready)).mergeSort
      (fun a b => decide (a.desc.deadline ≤ b.desc.deadline))
    (l.map (fun c => c.id)).foldl State.dispatchFor s.countNoArena
  else s

/-- F_DISPATCH. -/
def execFDispatch (s : State) : Outcome State Fault Refusal := .next s.dispatchAllF

/-- R244, R265: the partition dispatches its B-class command of lowest finish tag to Kettles of firmware's choice, all of one member
(Table SKW-1 numbers them). -/
def State.dispatchB (s : State) (part : Nat) (ks : List Nat) : State :=
  if s.fwReady then
    match s.headB part with
    | some c =>
      let m := ks.headD 0 / 16
      if c.desc.opcode = 1 ∧ (c.batch.isSome → c.batch = some c.id) ∧ ks.length = s.partsOf c.desc ∧ ks.Nodup
          ∧ ks.all (fun k => k / 16 == m) = true then
        if m = (if s.skRole = 0 then 0 else s.skMe) then
          if ks.all (fun k => (s.candidates c).contains (k % 16)) then s.place c (ks.map (fun k => k % 16)) else s
        else if s.skRole = 1 ∧ s.skMember m = true ∧ c.batch.isNone = true ∧ (s.frameSet c).isEmpty = true then s.delegate c m
        else s
      else s
    | none => s
  else s

/-- B_DISPATCH. -/
def execBDispatch (part : Fin 16) (ks : List (Fin 128)) (s : State) : Outcome State Fault Refusal :=
  .next (s.dispatchB part.val (ks.map (fun k => k.val)))

/-! ### Fill batches (R180 to R183) -/

/-- R181: two requests may share a batch. -/
def State.compatible (s : State) (a b : Cmd) : Bool :=
  a.desc.recipe == b.desc.recipe && a.desc.cls == b.desc.cls && s.partOf a.ctx == s.partOf b.ctx
    && ((s.frameSet a).isEmpty == (s.frameSet b).isEmpty)
    && ((s.frameSet a).isEmpty || s.domOfSet (s.frameSet a) == s.domOfSet (s.frameSet b))

/-- The members that a batch led by a command would have: the eligible ones compatible with it, in admission order. -/
def State.batchOf (s : State) (c : Cmd) : List Cmd :=
  match s.recipe c.desc.recipe with
  | some r =>
    (s.sch.cmds.filter (fun x => s.batchable x && !x.released && s.eligible { x with released := true } && s.compatible c x
      && decide (c.id ≤ x.id))).take (64 / max 1 r.fillRows)
  | none => []

/-- R183: the batch is due for release: full, at FILL_WAIT after its first admission, or at an F-class member's deadline less
the batch's declared cost. -/
def State.batchDue (s : State) (c : Cmd) (ms : List Cmd) : Bool :=
  match s.recipe c.desc.recipe with
  | some r =>
    decide (64 / max 1 r.fillRows ≤ ms.length) || decide (c.admitGt + r.fillWait ≤ s.gt)
      || (c.desc.cls == 1 && ms.any (fun m => decide (((m.desc.deadline : Int) - s.gt) * (s.siPerUnit * 12 : Nat)
            ≤ ((r.cost * 1000 * s.f12 ((s.partKettles (s.partOf c.ctx)).headD 0) * 19660800 : Nat) : Int))))
  | none => false

/-- A batch is released for dispatch: rows are taken in admission order (R182). -/
def State.releaseBatch (s : State) (id : Nat) : State :=
  match s.cmd id with
  | some c =>
    let ms := s.batchOf c
    if s.fwReady && (ms.head?.map (fun m => m.id)) == some id && s.batchDue c ms then
      (ms.zip (List.range ms.length)).foldl (fun t x =>
        t.updCmd x.1.id (fun y => { y with batch := some id, row := x.2, released := true })) s
    else s
  | none => s

/-- FILL_BATCH_RELEASE. -/
def execFillBatchRelease (id : Nat) (s : State) : Outcome State Fault Refusal := .next (s.releaseBatch id)

/-! ### What a command reads and writes outside its Kettle -/

/-- The domain whose arena holds an address. -/
def State.arenaOf (s : State) (a : Nat) : Option Nat :=
  (List.range 16).find? (fun d => s.rdB F.SPC_DOM_CFG_EN 0 d && decide (s.arenaBase d ≤ a ∧ a < s.arenaBase d + s.arenaLen d))

/-- R289: a range meets a PROV page that a command of speculation domain dom may not touch. -/
def State.guarded (s : State) (a n : Nat) (dom : Option Nat) : Bool :=
  s.cam.pages.any (fun p => decide (p.1 * 4096 < a + n ∧ a < p.1 * 4096 + 4096) && (dom.isNone || s.arenaOf (p.1 * 4096) != dom))

/-- A guard refusal is counted (R289). -/
def State.guardRefuse (s : State) : State := (s.inc F.SPC_GUARD_CNT 0 0).raise 0x006 1

/-- The domain in which a command has provisional standing. -/
def State.cmdDom (s : State) (c : Cmd) : Option Nat :=
  match c.frames with
  | [] => none
  | f :: _ => if c.provStart then some (s.domOfStream (f / 2 ^ 26)) else none

/-- What a command's own read finds: bytes, or the disposition it ends with (R118, R147, R289). -/
inductive ReadResult where
  | bytes (bs : List Byte)
  | fault (disp : Nat)
deriving DecidableEq, Repr

/-- The address names a member that has been lost (R678). -/
def State.lostAddr (s : State) (a : Nat) : Bool := s.skRole != 0 && s.sk.dropped.contains (bitsOf a 44 4)

/-- A command (or none) reads n bytes; from a register, with a width no register takes, they are zero (R19). -/
def State.cmdRead (s : State) (who : Option Nat) (dom : Option Nat) (a n : Nat) : State × ReadResult :=
  match s.locate a with
  | .remote m => (s.skRead m who a n, .bytes (s.remoteBytes n))
  | .reg pg o => (s.badAccess pg o, .bytes (List.replicate n 0#8))
  | _ =>
    if s.lostAddr a then (s.noteRead a n, .fault 0x52)
    else if s.guarded a n dom then (s.guardRefuse, .fault 0x53)
    else
      match s.peek a n with
      | some (bs, bad) => (s.noteRead a n, if bad then .fault 0x50 else .bytes bs)
      | none => (s.noteRead a n, .fault 0x53)

/-- A command writes bytes: to memory, to another member, or, with a width no register takes, to a register (R19). Whether
the access was performed; one to a lost member is discarded. -/
def State.cmdWrite (s : State) (who : Option Nat) (a : Nat) (bs : List Byte) (bad : Bool) : State × Bool :=
  if bs = [] then (s, true)
  else if s.lostAddr a then (s, true)
  else
    match s.locate a with
    | .remote m => (s.skWrite m who a bs, true)
    | .reg pg o => (s.badAccess pg o, true)
    | _ => (s.poke a bs bad, s.pokeOk a bs.length)

/-! ### Commit (R191, R221 to R226, R282, R287) -/

/-- The slots of a command or of the batch it is in: tile and slot. -/
def State.teamSlots (s : State) (c : Cmd) : List (Nat × Slot) :=
  let b := c.batch.getD c.id
  s.tiles.flatMap (fun t => (t.slots.filter (fun x => x.cmd == b)).map (fun x => (t.num, x)))

/-- Every 64-byte block of a range is covered by one of the ranges written. -/
def covered (wrote : List (Nat × Nat)) (o n : Nat) : Bool :=
  (List.range (n / 64)).all (fun k => wrote.any (fun w => decide (w.1 ≤ o + 64 * k ∧ o + 64 * k + 64 ≤ w.1 + w.2)))

/-- The place of a command's output in the window's output space: a batch member's rows (R185). -/
def State.rowBase (s : State) (c : Cmd) : Nat :=
  match c.batch, s.recipe c.desc.recipe with
  | some _, some r => c.row * r.fillRows * r.fillRowOut
  | _, _ => 0

/-- R191: every coverage bit is set and nothing was written outside the regions. -/
def State.coverage (s : State) (c : Cmd) : Bool :=
  match s.recipe c.desc.recipe with
  | some r =>
    let sl := s.teamSlots c
    sl.all (fun x => !x.2.outside)
      && r.regions.all (fun g => covered (sl.flatMap (fun x => x.2.wrote)) (s.rowBase c + g.1) g.2)
  | none => false

/-- The writes of a command's commit: address, bytes, poison (Table CMD-3, R185). -/
def State.commitWrites (s : State) (c : Cmd) : List (Nat × List Byte × Bool) :=
  let d := c.desc
  if d.opcode = 1 then
    match s.recipe d.recipe with
    | some r =>
      (s.teamSlots c).map (fun x =>
        let po := r.partOut x.2.part
        let n := if c.batch.isSome then r.fillRows * r.fillRowOut else po.2
        let from_ := pantryPlace x.1 (r.wbBase + (if c.batch.isSome then s.rowBase c else 0))
        (d.outAddr + po.1, s.bytesAt from_ n, (List.range n).any (fun k => s.isPoison (from_ + k))))
    | none => []
  else if d.opcode = 5 then [(d.outAddr, toBytes 8 d.arg, false)]
  else if d.opcode = 2 ∨ d.opcode = 7 ∨ d.opcode = 8 then [(d.outAddr, c.staged, false)]
  else []

/-- Pages of the domain's arena that a range meets. -/
def pagesOf (a n : Nat) : List Nat := if n = 0 then [] else (List.range ((a + n - 1) / 4096 - a / 4096 + 1)).map (fun k => a / 4096 + k)

/-- R287: a provisional commit marks the arena pages it writes, and is their last provisional writer. -/
def State.markProv (s : State) (id a n : Nat) : State :=
  let ps := (pagesOf a n).filter (fun p => (s.arenaOf (p * 4096)).isSome)
  { s with cam := { s.cam with pages := ps.map (fun p => (p, id)) ++ s.cam.pages.filter (fun x => !ps.contains x.1) } }

/-- The blocks of 64 bytes that n bytes fill: one write, and one acknowledgement, each. -/
def writeCount (n : Nat) : Nat := ceilDiv n 64

/-- A committed command's writes are issued. An ordinary commit may not write a PROV page (R289); a write that the device
refuses leaves a fault to close with. -/
def State.drain (s : State) (id : Nat) : State :=
  match s.cmd id with
  | some c =>
    let ws := s.commitWrites c
    let t := ws.foldl (fun t w =>
      if !c.provCommit && t.guarded w.1 w.2.1.length none then
        t.guardRefuse.updCmd id (fun x => { x with fault := some 0x53 })
      else
        let r := t.cmdWrite (some id) w.1 w.2.1 w.2.2
        let u := if r.2 then r.1 else r.1.updCmd id (fun x => { x with fault := some 0x53 })
        if c.provCommit then u.markProv id w.1 w.2.1.length else u) s
    t.updCmd id (fun x => { x with drained := true, acks := (ws.map (fun w => writeCount w.2.1.length)).sum })
  | none => s

/-- R225: a commit in progress that entered earlier, with a destination that overlaps. -/
def State.commitBlocked (s : State) (c : Cmd) : Bool :=
  s.sch.cmds.any (fun x => x.phase == .commit && decide (x.commitNo < c.commitNo) && x.desc.outLen != 0 && c.desc.outLen != 0
    && overlaps (x.desc.outAddr, x.desc.outLen) (c.desc.outAddr, c.desc.outLen))

/-- The drains that no earlier commit holds back are issued, in the order of commit entry. -/
def State.drainReady (s : State) : State :=
  let l := (s.sch.cmds.filter (fun x => x.phase == .commit && !x.drained)).mergeSort (fun a b => decide (a.commitNo ≤ b.commitNo))
  l.foldl (fun t c => if t.commitBlocked c then t else t.drain c.id) s

/-- R420, R422, R423: the zones of a solve reach the arbiter. -/
def State.zonesGive (s : State) (id : Nat) (spec : Bool) : State :=
  (s.orb.zones.filter (fun z => z.cmd == id)).foldl (fun t z =>
    if z.stop ≤ t.gt then t.inc F.OB_ZONE_LATE_CNT 0 0
    else
      let n := t.orb.nextZone
      if spec then t.lampSpec id (.zone n) z.out z.level z.ramp |> fun u =>
        { u with orb := { u.orb with nextZone := n + 1 },
                 br := { u.br with zones := u.br.zones ++ [({ id := n, out := z.out, level := z.level, ramp := z.ramp,
                                                              start := 2 ^ 64, stop := z.stop, isOpen := true } : LampZone)] } }
      else { t with orb := { t.orb with nextZone := n + 1 },
                    br := { t.br with zones := t.br.zones ++ [({ id := n, out := z.out, level := z.level, ramp := z.ramp,
                                                                 start := z.start, stop := z.stop } : LampZone)] } }) s

/-- The lamp request of a LAMP_REQUEST. -/
def State.lampOp (s : State) (c : Cmd) (spec : Bool) : State :=
  let lv := bitsOf c.desc.arg 0 16
  let ramp := bitsOf c.desc.arg 16 16
  let out := bitsOf c.desc.arg 32 8
  let key : ReqKey := match c.order with
    | some o => if c.ctx = fwCtx then .order o else .ctx c.ctx
    | none => .ctx c.ctx
  if spec then s.lampSpec c.id key out lv ramp else s.lampRequest key out lv ramp

/-- R222, R282: the command enters commit. Its standing and its lateness are decided here; a late one without LATE_OK is shed
(R262); the side effect of an ordinary commit reaches the arbiter now, the drain starts unless an earlier one holds it back. -/
def State.enterOne (s : State) (id : Nat) : State :=
  match s.cmd id with
  | some c =>
    let late := c.desc.cls == 1 && decide (c.desc.deadline < s.gt)
    if late && !c.desc.lateOk then s.killClose id 0x30
    else
      let fs := s.frameSet c
      let n := s.sch.commits + 1
      let t := { s with sch := { s.sch with commits := n } }
      let u := t.updCmd id (fun x => { x with phase := .commit, commitNo := n, provCommit := !fs.isEmpty, late, frames := fs,
                                              frame := s.frameIdOf c })
      let v := if fs.isEmpty ∧ c.desc.opcode = 6 then (u.skReport c 2).lampOp c false
        else if fs.isEmpty ∧ c.desc.opcode = 8 then (u.skReport c 2).zonesGive id false else u.skReport c 2
      v.drainReady
  | none => s

/-- Every part of the command has reached COMMITTING (R222). -/
def State.partsDone (s : State) (c : Cmd) : Bool :=
  let sl := s.teamSlots c
  !sl.isEmpty && sl.all (fun x => x.2.st == 4)

/-- A command's slots are freed. -/
def State.freeSlots (s : State) (b : Nat) : State := (s.slotsOf b).foldl (fun t x => t.slotFree x.1 x.2) s

/-- A RUN_RECIPE whose parts have all reached COMMITTING: coverage is checked for it, or for each member of its batch, and
commit is entered; else it ends FAULT_RECIPE and drains nothing (R191). -/
def State.enterRecipe (s : State) (id : Nat) : State :=
  match s.cmd id with
  | some c =>
    if c.desc.opcode = 1 ∧ c.phase = .running ∧ s.partsDone c = true then
      let team := if c.batch.isSome then s.members (c.batch.getD id) else [c]
      if team.all s.coverage then (team.map (fun m => m.id)).foldl State.enterOne s
      else ((team.map (fun m => m.id)).foldl (fun t i => t.close i 0x53) s).freeSlots (c.batch.getD id)
    else s
  | none => s

/-- The engine's output is staged, or the action is done: a running command that uses no Kettle may enter commit. -/
def State.actionDone (s : State) (c : Cmd) : Bool :=
  if c.desc.opcode = 4 then decide (c.desc.arg ≤ s.gt)
  else if c.desc.opcode = 7 then c.started.isSome
  else if c.desc.opcode = 8 then s.orb.committing.contains c.id
  else c.started.isSome

/-- COMMIT_ENTER: the command enters commit (R222). -/
def State.commitEnter (s : State) (id : Nat) : State :=
  match s.cmd id with
  | some c =>
    if c.desc.opcode = 1 then s.enterRecipe id
    else if c.phase = .running ∧ s.actionDone c = true then s.enterOne id else s
  | none => s

/-- COMMIT_ENTER. -/
def execCommitEnter (id : Nat) (s : State) : Outcome State Fault Refusal := .next (s.commitEnter id)

/-- RUN_RECIPE: the recipe's parts have run, and the opcode's write-back windows are drained at commit (R222). -/
def execRunRecipe (id : Nat) (s : State) : Outcome State Fault Refusal := .next (s.enterRecipe id)

/-- R193, R400: service beyond the declared cost is counted where part 0 ran, or at the engine, which also records the time of the
solve to its first record (Table ORB-7). -/
def State.costCheck (s : State) (c : Cmd) : State :=
  if c.desc.opcode = 1 then
    match s.recipe c.desc.recipe, c.kettle with
    | some r, k =>
      let p := k % 32
      if k ≠ 0xFFFF ∧ r.cost * 1000 * s.f12 ((s.kettleOf p).getD 16) < 12 * s.serviceNs c then
        (s.inc F.KT_COST_OVERRUN_CNT p 0).raise (0x10 + p) 8
      else s
    | none, _ => s
  else if c.desc.opcode = 8 then
    let n := s.serviceNs c
    let t := (s.wr F.OB_LAST_TIME_NS 0 0 n).wr F.OB_TIME_MAX_NS 0 0 (max n (s.rd F.OB_TIME_MAX_NS 0 0))
    if c.desc.cost * 1000 < n then (t.inc F.OB_COST_OVERRUN_CNT 0 0).raise 0x07C 5 else t
  else s

/-- A solve's slot of the engine's queue is free again. -/
def State.orbDone (s : State) (id : Nat) : State :=
  { s with orb := { s.orb with committing := s.orb.committing.filter (fun x => x != id) } }

/-- R284, R287: a command that has written DONE_PROVISIONAL closes once its whole frame set is confirmed: CONFIRMED or
DONE_LATE; its pages become CLEAR, its SPEC requests confirmed. -/
def State.settle (s : State) (id : Nat) : State :=
  match s.cmd id with
  | some c =>
    if c.phase = .prov ∧ c.frames.all (fun f => (s.frame f).any (fun x => x.standing == 1)) = true then
      let t := { s with cam := { s.cam with pages := s.cam.pages.filter (fun p => p.2 != id) } }
      let u := t.lampConfirm id
      let v := { u with orb := { u.orb with zones := u.orb.zones.filter (fun z => z.cmd != id) } }
      v.close id (if c.late then 1 else 3)
    else s
  | none => s

/-- BIND_HOLD (R329): BIND_HOLD_CYC cycles run from the commit of the bind. -/
def State.bindCommit (s : State) (c : Cmd) : State :=
  match c.bound with
  | some f =>
    let st := f / 2 ^ 26
    let n := max 1 (s.rd F.CSI_BIND_HOLD_CYC (st / 4) (st % 4))
    { s with cam := { s.cam with holds := updWhere (fun h => h.cmd == c.id && h.till.isNone)
                                          (fun h => { h with till := some (s.gt + n * 65536) }) s.cam.holds } }
  | none => s

/-- R143, R222, R282: every write of the commit has been acknowledged; during a live handover an F-class or B-class record is held (R609). An ordinary commit closes DONE or DONE_LATE; a provisional
one writes DONE_PROVISIONAL, hands over its SPEC requests, and closes with its frame set. The slots are FREE after the record. -/
def State.commitComplete (s : State) (id : Nat) : State :=
  match s.cmd id with
  | some c =>
    if c.phase = .commit ∧ c.drained = true ∧ c.acks = 0 ∧ (c.desc.cls = 0 ∨ s.rdB F.SCH_SCHED_STAT_HANDOVER 0 0 = false) then
      let s0 := (s.costCheck c).bindCommit c
      let b := c.batch.getD id
      let s1 :=
        if c.provCommit ∧ c.fault = none then
          let t := (s0.record c 0x02 (s0.serviceNs c)).updCmd id (fun x => { x with phase := .prov })
          let u := if c.desc.opcode = 6 then t.lampOp c true else if c.desc.opcode = 8 then t.zonesGive id true else t.lampOrder c true
          u.settle id
        else
          let t := s0.close id (c.fault.getD (if c.late then 1 else 0))
          { t with orb := { t.orb with zones := t.orb.zones.filter (fun z => z.cmd != id) } }
      let s2 := if s1.sch.cmds.any (fun x => x.phase == .commit && x.batch.getD x.id == b) then s1 else s1.freeSlots b
      (s2.orbDone id).drainReady
    else s
  | none => s

/-- COMMIT_COMPLETE. -/
def execCommitComplete (id : Nat) (s : State) : Outcome State Fault Refusal := .next (s.commitComplete id)

/-- R143, R144: n writes of a commit are acknowledged. A flit error on the way is corrected and counted, or poisons the
8-byte word of the output that it fills; the writer is not told. -/
def State.writeAck (s : State) (id n : Nat) (ce : Bool) (ue : Option Nat) : State :=
  match s.cmd id with
  | some c =>
    if c.phase = .commit ∧ c.drained = true ∧ 0 < c.acks then
      let t := s.updCmd id (fun x => { x with acks := x.acks - n })
      let u := if ce then (t.inc F.TV_CE_CNT 0 0).raise 0x050 0 else t
      match ue with
      | some o =>
        let v := (u.inc F.TV_UE_CNT 0 0).raise 0x050 1
        match (if o < c.desc.outLen then v.placeOf (c.desc.outAddr + o) else none) with
        | some pl => v.setPoison pl true
        | none => v
      | none => u
    else s
  | none => s

/-- TRIVET_WRITE_ACK. -/
def execTrivetWriteAck (id n : Nat) (ce : Bool) (ue : Option Nat) (s : State) : Outcome State Fault Refusal :=
  .next (s.writeAck id n ce ue)

/-! ### Opcodes that use no Kettle -/

/-- Start of the action of a command that may be dispatched, of the opcode given; the head sends FENCE, WAIT_GT, SIGNAL, LAMP_REQUEST and
CAPTURE_BIND to their home member (R653). -/
def State.startAction (s : State) (id op : Nat) (k : State → Cmd → State) : State :=
  match s.cmd id with
  | some c =>
    if c.desc.opcode = op ∧ s.mayDispatch c = true ∧ (c.desc.cls = 0 ∨ s.fwReady = true) then
      if s.skRole = 1 ∧ 3 ≤ op ∧ op ≤ 7 ∧ c.ctx ≠ fwCtx ∧ (s.localPage c.ctx).isNone = true then s.delegate c (c.ctx / 256)
      else k ((s.advanceVt c).updCmd id (fun x => { x with phase := .running, resv := [] })) c
    else s
  | none => s

/-- The action starts and is done at once: service starts and the command enters commit. -/
def State.actNow (s : State) (c : Cmd) : State := (s.startService c.id).enterOne c.id

/-- NOP. -/
def execNop (id : Nat) (s : State) : Outcome State Fault Refusal := .next (s.startAction id 0 State.actNow)

/-- FENCE: it completes once its fences are resolved (R211). -/
def execFence (id : Nat) (s : State) : Outcome State Fault Refusal := .next (s.startAction id 3 State.actNow)

/-- SIGNAL (R221). -/
def execSignal (id : Nat) (s : State) : Outcome State Fault Refusal := .next (s.startAction id 5 State.actNow)

/-- LAMP_REQUEST (R461). -/
def execLampRequest (id : Nat) (s : State) : Outcome State Fault Refusal := .next (s.startAction id 6 State.actNow)

/-- COPY reads its whole source before it enters commit (R210). -/
def State.copyRun (s : State) (c : Cmd) : State :=
  let t := s.startService c.id
  match t.cmd c.id with
  | some d =>
    let r := t.cmdRead (some c.id) (t.cmdDom d) c.desc.arg c.desc.outLen
    match r.2 with
    | .bytes bs => (r.1.updCmd c.id (fun x => { x with staged := bs })).enterOne c.id
    | .fault disp => r.1.close c.id disp
  | none => s

/-- COPY. -/
def execCopy (id : Nat) (s : State) : Outcome State Fault Refusal := .next (s.startAction id 2 State.copyRun)

/-- WAIT_GT (R209): its action starts; with the target reached it enters commit at once. -/
def State.waitRun (s : State) (c : Cmd) : State :=
  let t := s.startService c.id
  if c.desc.arg ≤ t.gt then t.enterOne c.id else t

/-- WAIT_GT. -/
def execWaitGt (id : Nat) (s : State) : Outcome State Fault Refusal := .next (s.startAction id 4 State.waitRun)

/-- WAIT_GT_REACHED: GT is at or after the target of a waiting WAIT_GT (R209). -/
def execWaitGtReached (id : Nat) (s : State) : Outcome State Fault Refusal :=
  .next (match s.cmd id with
    | some c => if c.desc.opcode = 4 ∧ c.phase = .running ∧ c.desc.arg ≤ s.gt then s.enterOne id else s
    | none => s)

/-- R398: what the engine has left to do before a candidate, in ns. -/
def State.orbAhead (s : State) (deadline : Nat) : Nat :=
  let run := match s.orb.running.bind s.cmd with
    | some c => c.desc.cost * 1000 - s.serviceNs c
    | none => 0
  run + ((s.orb.queue.filterMap s.cmd).map (fun c => if c.desc.cls = 1 ∧ c.desc.deadline ≤ deadline then c.desc.cost * 1000 else 0)).sum

/-- Free slots of the engine's queue (R401). -/
def State.orbFree (s : State) : Nat := 8 - s.orb.queue.length - (if s.orb.running.isSome then 1 else 0) - s.orb.committing.length

/-- ORBIT_SOLVE (R398): dispatched to the engine's queue, shed as infeasible, or left ready. -/
def State.orbDispatch (s : State) (id : Nat) : State :=
  match s.cmd id with
  | some c =>
    if c.desc.opcode = 8 ∧ s.mayDispatch c = true ∧ s.fwReady = true then
      let f := c.desc.cls == 1 && !c.desc.lateOk
      if s.orbFree = 0 then
        if f && s.fallsAfter (c.desc.cost * 12000) 0 1 c.desc.deadline then s.close id 0x31 else s
      else if f && s.fallsAfter (12 * s.orbAhead c.desc.deadline + c.desc.cost * 12000) 0 1 c.desc.deadline then s.close id 0x31
      else
        let t := (s.advanceVt c).updCmd id (fun x => { x with phase := .running, resv := [] })
        { t with orb := { t.orb with queue := t.orb.queue ++ [id] } }
    else s
  | none => s

/-- ORBIT_SOLVE. -/
def execOrbitSolve (id : Nat) (s : State) : Outcome State Fault Refusal := .next (s.orbDispatch id)

/-! ### Deadlines (R262, R266) -/

/-- GT has reached the DEADLINE of an F-class command that is not in commit: held, it is shed; otherwise without LATE_OK it is
killed or withdrawn and shed; with LATE_OK it runs on. -/
def State.deadline (s : State) (id : Nat) : State :=
  match s.cmd id with
  | some c =>
    if c.desc.cls = 1 ∧ c.desc.deadline ≤ s.gt ∧ c.phase ≠ .commit ∧ c.phase ≠ .prov
        ∧ (c.phase = .held ∨ c.desc.lateOk = false) ∧ s.fwReady = true then
      s.killClose id 0x30
    else s
  | none => s

/-- DEADLINE. -/
def execDeadline (id : Nat) (s : State) : Outcome State Fault Refusal := .next (s.deadline id)

end Sys2Proof.Machine
end

