-- ==== Sys2Proof/Machine/Books.lean ====
section
/-! DEFINITION. Refills, the books and their snapshot, and the partition registers (spec/07, R238 to R243, R263, R266, R269 to
R271; spec/02, R49). -/

namespace Sys2Proof.Machine

open Host

/-- R263: one bucket's refill; only what is added is booked as CREDITED. -/
def State.refillBkt (s : State) (b : Bkt) : State :=
  let lv := min (s.bktBurst b.ctx b.cls) (b.level + s.bktRate b.ctx b.cls)
  (s.setBkt { b with level := lv, credited := (b.credited + (lv - b.level)) % 2 ^ 64 }).releaseHeld b.ctx b.cls
    (s.waiters b.ctx b.cls).length

/-- A bucket belongs to a context that is not FREE, or to FW; the head keeps one for every context of another member that has handed
it a command (R648, log 70). -/
def State.bktLive (s : State) (b : Bkt) : Bool :=
  if b.ctx = fwCtx then true
  else if b.cls = 0 then s.rd F.CTX_STAT_STATE b.ctx 0 != 0
  else match s.localPage b.ctx with
    | some p => s.rd F.CTX_STAT_STATE p 0 != 0
    | none => true

/-- R49: GT has entered a cycle number for the first time: every bucket is refilled and held commands released (R266). -/
def State.refill (s : State) : State :=
  if s.orr.refilled < s.gt / 65536 ∧ s.fwReady = true then
    (s.sch.bkts.filter s.bktLive).foldl (fun t b => t.refillBkt (t.bkt b.ctx b.cls))
      { s with orr := { s.orr with refilled := s.orr.refilled + 1 } }
  else s

/-- REFILL. -/
def execRefill (s : State) : Outcome State Fault Refusal := .next s.refill

/-- BOOKS_SNAP.TAKE requests a snapshot (R270). -/
def State.snapRequest (s : State) : State := { s with sch := { s.sch with snapReq := true } }

/-- BOOKS_SNAP. -/
def execBooksSnap (s : State) : Outcome State Fault Refusal := .next (s.reach 0x005 State.snapRequest)

/-- The slot counts of a tile by state 1 to 4. -/
def TileSt.count (t : TileSt) (st : Nat) : Nat := (t.slots.filter (fun x => x.st == st)).length

/-- The Kettle books of logical Kettle k copied (Table SCH-10). -/
def State.snapKettle (s : State) (k : Nat) : State :=
  match s.tileOf k with
  | some p =>
    let t := s.tile p
    let s1 := ((((s.wr F.SCH_KB_SLOTS0_FREE 0 k (32 - t.slots.length)).wr F.SCH_KB_SLOTS0_LOADED 0 k (t.count 1)).wr
      F.SCH_KB_SLOTS0_RUNNING 0 k (t.count 2)).wr F.SCH_KB_SLOTS0_KILLING 0 k (t.count 3)).wr F.SCH_KB_SLOTS1_COMMITTING 0 k (t.count 4)
    let s2 := (((s1.wr F.SCH_KB_GRAN_AVAIL 0 k (s.granAvail k)).wr F.SCH_KB_GRAN_HELD 0 k t.held).wr
      F.SCH_KB_GRAN_SHARED 0 k t.shared).wr F.SCH_KB_GRAN_RERUN_RESV 0 k (s.resvOf k)
    (s2.wr F.SCH_KB_URG_URG_FREE 0 k (s.urgFree k)).wr F.SCH_KB_URG_URG_HELD 0 k t.urgHeld
  | none => s

/-- A bucket's books copied (Table SCH-9). -/
def State.snapBkt (s : State) (b : Bkt) : State :=
  let i := b.ctx * 4 + b.cls
  ((((s.wr F.SCH_BKT_LEVEL 0 i b.level).wr F.SCH_CREDITED 0 i b.credited).wr F.SCH_DEBITED 0 i b.debited).wr
    F.SCH_REFUNDED 0 i b.refunded).wr F.SCH_BKT_WAITERS 0 i (s.waiters b.ctx b.cls).length

/-- R270: BOOKS_BUSY is 0 and a snapshot is requested: every book value is copied with the GT, DONE is set. -/
def State.snapCapture (s : State) : State :=
  if s.sch.snapReq && !s.rdB F.SCH_SCHED_STAT_BOOKS_BUSY 0 0 then
    let s1 := (List.range 16).foldl State.snapKettle s
    let s2 := s1.sch.bkts.foldl State.snapBkt s1
    let s3 := s2.sch.ctxs.foldl (fun t c => (t.wr F.SCH_ACCEPTED_CNT 0 c.num c.accepted).wr F.SCH_CLOSED_CNT 0 c.num c.closed) s2
    let s4 := (List.range 16).foldl (fun t p => (t.wr F.SCH_PART_URG_ALLOC 0 p (t.urgAlloc p)).wr F.SCH_PART_VT 0 p (t.vt p)) s3
    (({ s4 with sch := { s4.sch with snapReq := false } }).wr F.SCH_SNAP_GT 0 0 s4.gt).wr F.SCH_BOOKS_SNAP_STAT_DONE 0 0 1
      |>.raise 0x005 0
  else s

/-- BOOKS_SNAP_CAPTURE. -/
def execBooksSnapCapture (s : State) : Outcome State Fault Refusal := .next s.snapCapture

/-! ### Partitions -/

/-- A refused partition write: PART_ERR and its event. -/
def State.partErr (s : State) (f : Fld) (part : Nat) : State := (s.wr f 0 part 1).raise 0x005 4

/-- R239: a PART_KMASK write that would place a Kettle in two partitions is ignored. R242: one that would leave
PART_URG_BUDGET above floor(PART_CAP / 4) is refused. -/
def State.kmaskWrite (s : State) (part v : Nat) : State :=
  if (List.range 16).any (fun q => q != part && (s.rd F.SCH_PART_KMASK 0 q &&& (v % 65536)) != 0) then
    s.partErr F.SCH_PART_ERR_OVERLAP part
  else
    let t := s.wr F.SCH_PART_KMASK 0 part v
    if t.partCap part / 4 < t.rd F.SCH_PART_URG_BUDGET 0 part then s.partErr F.SCH_PART_ERR_BUDGET part else t

/-- PART_KMASK_WRITE: of the partition that PART_SEL addresses. -/
def execPartKmaskWrite (v : Word) (s : State) : Outcome State Fault Refusal :=
  .next (s.reach 0x005 (fun t => t.kmaskWrite (t.rd F.SCH_PART_SEL 0 0) v.toNat))

/-- R242: a PART_URG_BUDGET write above floor(PART_CAP / 4) is refused. -/
def State.budgetWrite (s : State) (part v : Nat) : State :=
  if s.partCap part / 4 < v % 2 ^ 24 then s.partErr F.SCH_PART_ERR_BUDGET part else s.wr F.SCH_PART_URG_BUDGET 0 part v

/-- PART_URG_BUDGET_WRITE. -/
def execPartUrgBudgetWrite (v : Word) (s : State) : Outcome State Fault Refusal :=
  .next (s.reach 0x005 (fun t => t.budgetWrite (t.rd F.SCH_PART_SEL 0 0) v.toNat))

end Sys2Proof.Machine
end

