-- ==== Sys2Proof/Machine/Fp.lean ====
section
/-! DEFINITION. Exact fractions, and binary floating point as exact values with one rounding to nearest, ties to even: half,
BF16, FP32 and FP64 (R81, R99, R368 to R373, R395; the formats are those of IEEE 754-2019). -/

namespace Sys2Proof.Machine

/-- A fraction n / d with d above zero, not reduced. -/
structure Q where
  n : Int
  d : Nat
deriving DecidableEq, Repr

/-- An integer as a fraction, and the arithmetic of fractions. -/
def Q.ofInt (i : Int) : Q := { n := i, d := 1 }
def Q.ofNat (i : Nat) : Q := { n := i, d := 1 }
def Q.add (a b : Q) : Q := { n := a.n * b.d + b.n * a.d, d := a.d * b.d }
def Q.neg (a : Q) : Q := { n := -a.n, d := a.d }
def Q.sub (a b : Q) : Q := a.add b.neg
def Q.mul (a b : Q) : Q := { n := a.n * b.n, d := a.d * b.d }
/-- The reciprocal of a fraction other than zero. -/
def Q.inv (a : Q) : Q := if 0 ≤ a.n then { n := a.d, d := a.n.toNat } else { n := -(a.d : Int), d := (-a.n).toNat }
def Q.div (a b : Q) : Q := a.mul b.inv
def Q.lt (a b : Q) : Bool := decide (a.n * b.d < b.n * a.d)
def Q.le (a b : Q) : Bool := decide (a.n * b.d ≤ b.n * a.d)
def Q.eqv (a b : Q) : Bool := decide (a.n * b.d = b.n * a.d)
def Q.floor (a : Q) : Int := a.n / (a.d : Int)
def Q.max (a b : Q) : Q := if a.lt b then b else a

/-- The nearest integer, a tie going up. -/
def Q.round (a : Q) : Int := (2 * a.n + a.d) / (2 * (a.d : Int))

/-- The nearest integer, a tie going to the even one. -/
def Q.roundEven (a : Q) : Int :=
  let f := a.floor
  let r := 2 * (a.n - f * a.d)
  if r < a.d then f else if (a.d : Int) < r then f + 1 else if f % 2 = 0 then f else f + 1

/-- a times 2 to the power k. -/
def Q.scale2 (a : Q) (k : Int) : Q :=
  if 0 ≤ k then { n := a.n * 2 ^ k.toNat, d := a.d } else { n := a.n, d := a.d * 2 ^ (-k).toNat }

/-- A floating-point value: a NaN, an infinity, or a number with its sign (a zero keeps one). -/
inductive Fp where
  | nan
  | inf (neg : Bool)
  | num (neg : Bool) (v : Q)
deriving DecidableEq, Repr

/-- A binary format: exponent bits, fraction bits. -/
structure Fmt where
  e : Nat
  m : Nat
deriving DecidableEq, Repr

def half : Fmt := { e := 5, m := 10 }
def bf16 : Fmt := { e := 8, m := 7 }
def f32 : Fmt := { e := 8, m := 23 }
def f64 : Fmt := { e := 11, m := 52 }

/-- The bias of a format. -/
def Fmt.bias (f : Fmt) : Int := 2 ^ (f.e - 1) - 1

/-- The value of a word. -/
def Fmt.dec (f : Fmt) (w : Nat) : Fp :=
  let neg := bitOf w (f.e + f.m)
  let ex := bitsOf w f.m f.e
  let fr := w % 2 ^ f.m
  let sg (v : Q) : Fp := .num neg (if neg then v.neg else v)
  if ex = 2 ^ f.e - 1 then (if fr = 0 then .inf neg else .nan)
  else if ex = 0 then sg ((Q.ofNat fr).scale2 (1 - f.bias - f.m))
  else sg ((Q.ofNat (2 ^ f.m + fr)).scale2 ((ex : Int) - f.bias - f.m))

/-- The canonical NaN of a format (R81: 0x7FC0_0000 in FP32). -/
def Fmt.qnan (f : Fmt) : Nat := (2 ^ f.e - 1) * 2 ^ f.m + 2 ^ (f.m - 1)

/-- The exponent of a fraction above zero: the greatest k with 2^k at or below it. -/
def Q.expo (a : Q) : Int :=
  let k : Int := (a.n.toNat.log2 : Int) - (a.d.log2 : Int)
  if (Q.ofNat 1).scale2 k |>.le a then k else k - 1

/-- The word nearest to a value; `ftz` makes a subnormal result a zero of its sign (R81). -/
def Fmt.enc (f : Fmt) (ftz : Bool) : Fp → Nat
  | .nan => f.qnan
  | .inf neg => b2n neg * 2 ^ (f.e + f.m) + (2 ^ f.e - 1) * 2 ^ f.m
  | .num neg v =>
    let sgn := b2n neg * 2 ^ (f.e + f.m)
    let a := if v.n < 0 then v.neg else v
    if a.n = 0 then sgn
    else
      let q := Max.max a.expo (1 - f.bias)
      let mant := (a.scale2 (f.m - q)).roundEven.toNat
      let w := (q + f.bias - 1).toNat * 2 ^ f.m + mant
      if ftz && decide (w < 2 ^ f.m) then sgn
      else sgn + min w ((2 ^ f.e - 1) * 2 ^ f.m)

/-- A subnormal input read as a zero of its sign (R81). -/
def Fmt.decZ (f : Fmt) (w : Nat) : Fp := if bitsOf w f.m f.e = 0 then .num (bitOf w (f.e + f.m)) (Q.ofInt 0) else f.dec w

/-- The sum, product and quotient of two values, before any rounding. -/
def Fp.add : Fp → Fp → Fp
  | .nan, _ => .nan
  | _, .nan => .nan
  | .inf a, .inf b => if a = b then .inf a else .nan
  | .inf a, _ => .inf a
  | _, .inf b => .inf b
  | .num a x, .num b y =>
    let v := x.add y
    if v.n = 0 then .num (a && b) v else .num (decide (v.n < 0)) v
def Fp.mul : Fp → Fp → Fp
  | .nan, _ => .nan
  | _, .nan => .nan
  | .inf a, .inf b => .inf (a != b)
  | .inf a, .num b y => if y.n = 0 then .nan else .inf (a != b)
  | .num a x, .inf b => if x.n = 0 then .nan else .inf (a != b)
  | .num a x, .num b y => .num (a != b) (x.mul y)
def Fp.div : Fp → Fp → Fp
  | .nan, _ => .nan
  | _, .nan => .nan
  | .inf _, .inf _ => .nan
  | .inf a, .num b _ => .inf (a != b)
  | .num a _, .inf b => .num (a != b) (Q.ofInt 0)
  | .num a x, .num b y =>
    if y.n = 0 then (if x.n = 0 then .nan else .inf (a != b)) else .num (a != b) (x.div y)
def Fp.neg : Fp → Fp
  | .nan => .nan
  | .inf a => .inf (!a)
  | .num a x => .num (!a) x.neg

/-- The order of two values that are no NaN. -/
def Fp.lt : Fp → Fp → Bool
  | .nan, _ => false
  | _, .nan => false
  | .inf a, .inf b => a && !b
  | .inf a, _ => a
  | _, .inf b => !b
  | .num _ x, .num _ y => x.lt y

/-- An integer as a value. -/
def Fp.ofInt (i : Int) : Fp := .num (decide (i < 0)) (Q.ofInt i)

/-- A value rounded to a format and read back. -/
def Fmt.rnd (f : Fmt) (x : Fp) : Fp := f.dec (f.enc false x)

/-- FP32 arithmetic of IEEE 754-2019: each operation rounds to nearest, ties to even. -/
def rAdd (a b : Fp) : Fp := f32.rnd (a.add b)
def rSub (a b : Fp) : Fp := f32.rnd (a.add b.neg)
def rMul (a b : Fp) : Fp := f32.rnd (a.mul b)
def rDiv (a b : Fp) : Fp := f32.rnd (a.div b)

/-- The fraction of a value that is a number. -/
def Fp.q? : Fp → Option Q
  | .num _ v => some v
  | _ => none

/-- A fraction rounded to FP32. -/
def Q.single (v : Q) : Q := ((f32.rnd (.num (decide (v.n < 0)) v)).q?).getD v

/-- FP32 arithmetic under R81, on words. -/
def f32Add (a b : Nat) : Nat := f32.enc true ((f32.decZ a).add (f32.decZ b))
def f32Mul (a b : Nat) : Nat := f32.enc true ((f32.decZ a).mul (f32.decZ b))
def f32Sub (a b : Nat) : Nat := f32.enc true ((f32.decZ a).add (f32.decZ b).neg)

end Sys2Proof.Machine
end

