-- ==== Sys2Proof/Machine/Orbit.lean ====
section
/-! DEFINITION. The Orbit engine (spec/12): its argument block, the optimisation of every agent's path, the swept-disc check,
light-ahead zones, and the output it stages. -/

namespace Sys2Proof.Machine

open Host

/-! ### Arithmetic -/

/-- The quotient of two FP32 words under R81. -/
def f32Div (a b : Nat) : Nat := f32.enc true ((f32.decZ a).div (f32.decZ b))

/-- The order of two FP32 words that are no NaN. -/
def f32Lt (a b : Nat) : Bool := (f32.decZ a).lt (f32.decZ b)

/-- An FP32 word is finite. -/
def f32Fin (a : Nat) : Bool := bitsOf a 23 8 != 255

/-- The exact value of an FP32 word; zero where it is no number. -/
def f32Q (a : Nat) : Q := ((f32.decZ a).q?).getD (Q.ofInt 0)

/-- A fraction as an FP32 word. -/
def qF32 (v : Q) : Nat := f32.enc true (.num (decide (v.n < 0)) v)

/-- Four bytes of an FP32 word from offset o. -/
def w32 (bs : List Byte) (o : Nat) : Nat := leAt bs o 4

/-- The integer square root, found bit by bit from bit n - 1 down. -/
def isqrt : Nat → Nat → Nat → Nat
  | 0, _, r => r
  | n + 1, v, r => isqrt n v (if (r + 2 ^ n) * (r + 2 ^ n) ≤ v then r + 2 ^ n else r)

/-- The square root of a fraction to 64 fractional bits, rounded down (log 51). -/
def Q.sqrt (a : Q) : Q :=
  if a.n ≤ 0 then Q.ofInt 0
  else
    let v := a.n.toNat * a.d * 2 ^ 128
    { n := isqrt (v.log2 / 2 + 1) v 0, d := a.d * 2 ^ 64 }

/-! ### The argument block (Tables ORB-1 to ORB-3, R404) -/

def orbAgents (h : List Byte) : Nat := leAt h 0x00 2
def orbWay (h : List Byte) : Nat := leAt h 0x02 1
def orbIter (h : List Byte) : Nat := leAt h 0x03 1
def orbLamps (h : List Byte) : Nat := leAt h 0x04 1
def orbMaxConf (h : List Byte) : Nat := leAt h 0x06 2
def orbDt (h : List Byte) : Nat := leAt h 0x08 4
def orbPlan (h : List Byte) : Nat := leAt h 0x10 8
def orbGridEn (h : List Byte) : Bool := bitOf (leAt h 0x25 1) 0

/-- R421: the size of the output. -/
def orbOutLen (h : List Byte) : Nat := 256 + orbAgents h * 576 + orbMaxConf h * 32 + 1024

/-- Every byte of a range is zero. -/
def allZero (bs : List Byte) (o n : Nat) : Bool := ((bs.drop o).take n).all (fun b => b == 0#8)

/-- Every field of the header lies in its range, its offsets are aligned and its reserved bytes are zero. -/
def orbHdrOk (h : List Byte) : Bool :=
  decide (1 ≤ orbAgents h ∧ orbAgents h ≤ 256 ∧ 2 ≤ orbWay h ∧ orbWay h ≤ 64 ∧ 1 ≤ orbIter h ∧ orbIter h ≤ 16
    ∧ orbLamps h ≤ 64 ∧ orbMaxConf h ≤ 1024 ∧ 10000 ≤ orbDt h ∧ orbDt h ≤ 200000 ∧ leAt h 0x4C 4 ≤ 10000000
    ∧ leAt h 0x25 1 < 2)
  && [0x28, 0x2C, 0x30, 0x34, 0x38, 0x3C].all (fun o => f32Fin (w32 h o) && !f32Lt (w32 h o) 0)
  && f32Lt 0 (w32 h 0x34) && f32Lt 0 (w32 h 0x38)
  && [0x40, 0x44, 0x48].all (fun o => leAt h o 4 % 64 == 0)
  && allZero h 0x0C 4 && allZero h 0x26 2 && allZero h 0x52 174

/-- Every region lies within ARG_LEN; the grid counts only where it is enabled. -/
def orbRegionsOk (h : List Byte) (len : Nat) : Bool :=
  decide (leAt h 0x40 4 + orbAgents h * 576 ≤ len ∧ leAt h 0x48 4 + orbLamps h * 16 ≤ len)
    && (!orbGridEn h || decide (leAt h 0x44 4 + 2097152 ≤ len))

/-- A lamp entry is as Table ORB-3 says. -/
def orbLampOk (l : List Byte) : Bool := f32Lt 0 (w32 l 8) && leAt l 0xD 1 == 0 && decide (leAt l 0xE 2 ≤ 1000)

/-- Entry i of an array of n-byte records. -/
def entryOf (bs : List Byte) (n i : Nat) : List Byte := (bs.drop (n * i)).take n

/-- R404, R405: the solve ends FAULT_RECIPE with a code in LAST_ERR; a failed check is counted. -/
def State.orbFail (s : State) (id code : Nat) : State :=
  let t := (s.wr F.OB_LAST_ERR_CODE 0 0 code).close id 0x53
  if code = 4 then t else (t.inc F.OB_ARG_ERR_CNT 0 0).raise 0x07C 1

/-- A read of the argument block: the bytes go on, or the solve ends (R118, R405). -/
def State.orbRead (s : State) (c : Cmd) (ofs n : Nat) (k : State → List Byte → State) : State :=
  if n = 0 then k s []
  else
    let r := s.cmdRead (some c.id) (s.cmdDom c) (c.desc.arg + ofs) n
    match r.2 with
    | .bytes bs => k r.1 bs
    | .fault d => if d = 0x53 then r.1.orbFail c.id 4 else r.1.close c.id d

/-- Start of service (R404, R405): the header is read and checked, then the lamps, then the agents and the grid are read; each
input byte is read once. The engine runs once all of it is in the local store. -/
def State.solveRun (s : State) (c : Cmd) : State :=
  s.orbRead c 0 256 (fun s1 h =>
    if !orbHdrOk h then s1.orbFail c.id 1
    else if !orbRegionsOk h c.desc.argLen then s1.orbFail c.id 2
    else s1.orbRead c (leAt h 0x48 4) (orbLamps h * 16) (fun s2 lamps =>
      if !(List.range (orbLamps h)).all (fun i => orbLampOk (entryOf lamps 16 i)) then s2.orbFail c.id 5
      else if c.desc.outLen < orbOutLen h then s2.orbFail c.id 3
      else s2.orbRead c (leAt h 0x40 4) (orbAgents h * 576) (fun s3 agents =>
        s3.orbRead c (leAt h 0x44 4) (if orbGridEn h then 2097152 else 0) (fun s4 grid =>
          let t := { s4 with orb := { s4.orb with running := some c.id, hdr := h, lamps, agents, grid } }
          (((t.wr F.OB_CUR_CTX 0 0 c.ctx).wr F.OB_CUR_SEQ 0 0 c.desc.seq).wr F.OB_CUR_VALID 0 0 1).orbStat))))

/-- A solve comes before another in the engine's queue: F-class ones by deadline, before B-class ones by finish tag (R245). -/
def Cmd.orbBefore (a b : Cmd) : Bool :=
  if a.desc.cls = 1 then b.desc.cls != 1 || decide (a.desc.deadline < b.desc.deadline)
  else b.desc.cls != 1 && decide (a.fTag < b.fTag)

/-- The queued solve of lowest RANK; a tie goes to the earlier dispatch. -/
def orbFirst : List Cmd → Option Cmd
  | [] => none
  | c :: t =>
    match orbFirst t with
    | some b => if b.orbBefore c then some b else some c
    | none => some c

/-- SOLVE_START (R399): with EN set, HALT clear, no solve running and a staging buffer free. -/
def State.solveStart (s : State) : State :=
  if s.pageOn 0x07C && !s.inReset 0x07C && s.rdB F.OB_CTRL_EN 0 0 && !s.rdB F.OB_CTRL_HALT 0 0 && s.orb.running.isNone
      && decide (s.orb.committing.length ≤ 1) then
    match orbFirst (s.orb.queue.filterMap s.cmd) with
    | some c =>
      let t := { s with orb := { s.orb with queue := s.orb.queue.filter (fun x => x != c.id) } }
      let u := t.startService c.id
      match u.cmd c.id with
      | some d => u.solveRun d
      | none => u
    | none => s
  else s

/-- SOLVE_START. -/
def execSolveStart (s : State) : Outcome State Fault Refusal := .next s.solveStart

/-! ### Agents and the occupancy grid -/

/-- R406: an agent record takes part. -/
def orbValid (h a : List Byte) : Bool :=
  bitOf (leAt a 5 1) 0 && decide (leAt a 4 1 ≤ 7 ∧ 1 ≤ leAt a 6 2 ∧ leAt a 6 2 ≤ 10000)
    && (bitOf (leAt a 5 1) 2 || (f32Fin (w32 a 8) && f32Fin (w32 a 0xC)))
    && (List.range (orbWay h)).all (fun i => f32Fin (w32 a (0x40 + 8 * i)) && f32Fin (w32 a (0x44 + 8 * i)))

/-- The initial guess: the N_WAY waypoints of a record. -/
def orbGuess (h a : List Byte) : List (Nat × Nat) :=
  (List.range (orbWay h)).map (fun i => (w32 a (0x40 + 8 * i), w32 a (0x44 + 8 * i)))

/-- A waypoint of a path. -/
def wpt (p : List (Nat × Nat)) (i : Nat) : Nat × Nat := p.getD i (0, 0)

/-- R409: the slice of waypoint i. -/
def orbSlice (h : List Byte) (i : Nat) : Nat :=
  (clampI 0 31 (((i * orbDt h : Nat) - toS 32 (leAt h 0x18 4)) / 100000)).toNat

/-- R408: a cell of a slice; outside the grid it is OUT_COST. -/
def orbCell (h grid : List Byte) (sl : Nat) (x y : Int) : Int :=
  if 0 ≤ x ∧ x ≤ 255 ∧ 0 ≤ y ∧ y ≤ 255 then (grid.getD (sl * 65536 + y.toNat * 256 + x.toNat) 0#8).toNat else leAt h 0x24 1

/-- R408: the cost at a point of a slice. The blend of the four cells is rounded once (log 51). -/
def orbCost (h grid : List Byte) (sl : Nat) (p : Nat × Nat) : Nat :=
  let g (v o : Nat) : Nat := f32Sub (f32Div (f32Sub v (w32 h o)) 0x3E800000) 0x3F000000
  match (f32.decZ (g p.1 0x1C)).q?, (f32.decZ (g p.2 0x20)).q? with
  | some gx, some gy =>
    let x := gx.floor
    let y := gy.floor
    let fx := gx.sub (Q.ofInt x)
    let fy := gy.sub (Q.ofInt y)
    let c (i j : Int) : Q := Q.ofInt (orbCell h grid sl (x + i) (y + j))
    let row (j : Int) : Q := (c 0 j).add (fx.mul ((c 1 j).sub (c 0 j)))
    qF32 ((row 0).add (fy.mul ((row 1).sub (row 0))))
  | _, _ => qF32 (Q.ofNat (leAt h 0x24 1))

/-! ### Optimisation (R410 to R413) -/

/-- The square of a length, in FP32. -/
def sq2 (x y : Nat) : Nat := f32Add (f32Mul x x) (f32Mul y y)

/-- A sum in ascending index order (R414). -/
def fsum (l : List Nat) : Nat := l.foldl f32Add 0

/-- R410: the objective of a path. -/
def orbJ (h a grid : List Byte) (p : List (Nat × Nat)) : Nat :=
  let n := orbWay h
  let bend (i : Nat) (f : Nat × Nat → Nat) : Nat :=
    f32Add (f32Sub (f (wpt p (i + 1))) (f32Mul 0x40000000 (f (wpt p i)))) (f (wpt p (i - 1)))
  let smooth := fsum ((List.range (n - 2)).map (fun i => sq2 (bend (i + 1) Prod.fst) (bend (i + 1) Prod.snd)))
  let last := wpt p (n - 1)
  let goal := if bitOf (leAt a 5 1) 2 then 0 else sq2 (f32Sub last.1 (w32 a 8)) (f32Sub last.2 (w32 a 0xC))
  let coll := if orbGridEn h then
      fsum ((List.range (n - 1)).map (fun i =>
        let r := f32Div (orbCost h grid (orbSlice h (i + 1)) (wpt p (i + 1))) 0x437F0000
        f32Mul r r))
    else 0
  f32Add (f32Add (f32Mul (w32 h 0x28) smooth) (f32Mul (w32 h 0x2C) goal)) (f32Mul (w32 h 0x30) coll)

/-- R411: the step that solves the damped normal equations. The roundings within the factorisation are not given, so each
component is a value that the operands fix and the specification leaves open (log 50). -/
def orbStep (h a grid : List Byte) (p : List (Nat × Nat)) : List (Nat × Nat) :=
  let ops := (h ++ a ++ grid).map BitVec.toNat ++ p.flatMap (fun x => [x.1, x.2])
  (List.range p.length).map (fun i =>
    if i = 0 then (0, 0) else (Config.freeFun 20 ((2 * i) :: ops) % 2 ^ 32, Config.freeFun 20 ((2 * i + 1) :: ops) % 2 ^ 32))

/-- R411: the trials of an iteration: the step, and its halves up to three times. The accepted path and its objective. -/
def orbTrial (h a grid : List Byte) (p : List (Nat × Nat)) (j : Nat) : Nat → List (Nat × Nat) → Option (List (Nat × Nat) × Nat)
  | 0, _ => none
  | n + 1, d =>
    let q := (p.zip d).mapIdx (fun i x => if i = 0 then x.1 else (f32Add x.1.1 x.2.1, f32Add x.1.2 x.2.2))
    let k := orbJ h a grid q
    if f32Lt k j then some (q, k)
    else orbTrial h a grid p j n (d.map (fun x => (f32Mul x.1 0x3F000000, f32Mul x.2 0x3F000000)))

/-- What the optimisation of an agent gives: path, status (0 CONVERGED, 1 ITER_LIMIT, 2 STALLED, 3 INVALID), iterations,
and the objective before and after. -/
structure OrbAgent where
  path : List (Nat × Nat)
  status : Nat
  iters : Nat
  j0 : Nat
  j1 : Nat
deriving DecidableEq, Repr

/-- R411, R412: iterations from a path, with the fuel left of MAX_ITER. -/
def orbIterate (h a grid : List Byte) (j0 : Nat) : Nat → Nat → List (Nat × Nat) → Nat → OrbAgent
  | 0, k, p, j => { path := p, status := 1, iters := k, j0, j1 := j }
  | n + 1, k, p, j =>
    match orbTrial h a grid p j 4 (orbStep h a grid p) with
    | none => { path := p, status := 2, iters := k + 1, j0, j1 := j }
    | some (q, m) =>
      if f32Lt (f32Mul (w32 h 0x38) j) (f32Sub j m) then orbIterate h a grid j0 n (k + 1) q m
      else { path := q, status := 0, iters := k + 1, j0, j1 := m }

/-- R406, R410, R413: what becomes of an agent. -/
def orbAgent (h a grid : List Byte) : OrbAgent :=
  let g := orbGuess h a
  if !orbValid h a then { path := g, status := 3, iters := 0, j0 := 0, j1 := 0 }
  else
    let j := orbJ h a grid g
    if bitOf (leAt a 5 1) 1 then { path := g, status := 0, iters := 0, j0 := j, j1 := j }
    else orbIterate h a grid j (orbIter h) 0 g j

/-! ### Swept discs (R415 to R418) -/

/-- A pair's separation over a segment: its square is A t² + 2 B t + C over t in 0 to 1. -/
structure OrbSeg where
  a : Q
  b : Q
  c : Q
deriving DecidableEq, Repr

/-- The separation of two paths over segment k. -/
def orbSeg (p q : List (Nat × Nat)) (k : Nat) : OrbSeg :=
  let d (f : Nat × Nat → Nat) (i : Nat) : Q := (f32Q (f (wpt p i))).sub (f32Q (f (wpt q i)))
  let x := d Prod.fst k
  let y := d Prod.snd k
  let ex := (d Prod.fst (k + 1)).sub x
  let ey := (d Prod.snd (k + 1)).sub y
  { a := (ex.mul ex).add (ey.mul ey), b := (x.mul ex).add (y.mul ey), c := (x.mul x).add (y.mul y) }

/-- The time within the segment at which the separation is least. -/
def OrbSeg.tmin (g : OrbSeg) : Q :=
  if g.a.n = 0 then Q.ofInt 0
  else
    let t := g.b.neg.div g.a
    if t.n < 0 then Q.ofInt 0 else if (Q.ofInt 1).lt t then Q.ofInt 1 else t

/-- The square of the separation at a time. -/
def OrbSeg.at2 (g : OrbSeg) (t : Q) : Q := ((g.a.mul (t.mul t)).add ((Q.ofInt 2).mul (g.b.mul t))).add g.c

/-- The earliest time within the segment at which the square of the separation is at or below d2, where it comes there. -/
def OrbSeg.reach (g : OrbSeg) (d2 : Q) : Option Q :=
  if g.c.le d2 then some (Q.ofInt 0)
  else if (g.at2 g.tmin).le d2 then
    some ((g.b.neg.sub ((g.b.mul g.b).sub (g.a.mul (g.c.sub d2))).sqrt).div g.a)
  else none

/-- The least of the separations over the segments from k: its square, and its time in segments. -/
def orbLeast (p q : List (Nat × Nat)) : Nat → Nat → Q × Q
  | 0, k => ((orbSeg p q k).at2 (Q.ofInt 0), Q.ofNat k)
  | n + 1, k =>
    let g := orbSeg p q k
    let here := (g.at2 g.tmin, (Q.ofNat k).add g.tmin)
    if n = 0 then here
    else
      let rest := orbLeast p q n (k + 1)
      if rest.1.lt here.1 then rest else here

/-- The first time at which the square of the separation is at or below d2. -/
def orbReach (p q : List (Nat × Nat)) (d2 : Q) : Nat → Nat → Option Q
  | 0, _ => none
  | n + 1, k =>
    match (orbSeg p q k).reach d2 with
    | some t => some ((Q.ofNat k).add t)
    | none => orbReach p q d2 n (k + 1)

/-- A conflict: the agents' indexes, the time to the conflict, the time of the closest approach, the least separation, and the
midpoint then. -/
structure OrbConf where
  a : Nat
  b : Nat
  ttc : Q
  ttca : Q
  dmin : Q
  mx : Q
  my : Q
deriving DecidableEq, Repr

/-- Where a path is at a time in segments. -/
def pathAt (p : List (Nat × Nat)) (f : Nat × Nat → Nat) (t : Q) : Q :=
  let k := t.floor.toNat
  let x := f32Q (f (wpt p k))
  x.add ((t.sub (Q.ofNat k)).mul ((f32Q (f (wpt p (k + 1)))).sub x))

/-- A radius in metres. -/
def orbRadius (a : List Byte) : Q := { n := leAt a 6 2, d := 1000 }

/-- A time in segments as seconds. -/
def orbSecs (h : List Byte) (t : Q) : Q := t.mul { n := orbDt h, d := 1000000 }

/-- R415, R416: the conflict of a pair, if there is one. -/
def orbPair (h : List Byte) (i j : Nat) (ra rb : List Byte) (p q : List (Nat × Nat)) : Option OrbConf :=
  let n := orbWay h - 1
  let least := orbLeast p q n 0
  let d := ((orbRadius ra).add (orbRadius rb)).add (f32Q (w32 h 0x3C))
  if least.1.lt (d.mul d) then
    let mid (f : Nat × Nat → Nat) : Q := ((pathAt p f least.2).add (pathAt q f least.2)).div (Q.ofInt 2)
    some { a := i, b := j, ttc := (orbReach p q (d.mul d) n 0).getD (Q.ofInt 0), ttca := least.2, dmin := least.1.sqrt,
           mx := mid Prod.fst, my := mid Prod.snd }
  else none

/-- R418: the clearance of a pair. -/
def orbClear (h : List Byte) (ra rb : List Byte) (p q : List (Nat × Nat)) : Q :=
  ((orbLeast p q (orbWay h - 1) 0).1.sqrt.sub (orbRadius ra)).sub (orbRadius rb)

/-- The least of a list of fractions. -/
def qLeast : List Q → Option Q
  | [] => none
  | x :: t =>
    match qLeast t with
    | some y => if y.lt x then some y else some x
    | none => some x

/-! ### Zones (R419, R420) -/

/-- A duration in µs in units of 1/n of a cycle at the nominal frequency: the dividend and the divisor. -/
def State.usNum (s : State) (us n : Nat) : Nat := us * (if s.orr.nominal60 then 60 else 50) * n

/-- The zone of a lamp: start and stop GT, and its duration in cycles. -/
def State.orbZone (s : State) (h lamp : List Byte) (paths : List (List Byte × OrbAgent)) : Option (Nat × Nat × Nat) :=
  let r := f32Q (w32 lamp 8)
  let inside (x : Nat × Nat) : Bool :=
    let dx := (f32Q x.1).sub (f32Q (w32 lamp 0))
    let dy := (f32Q x.2).sub (f32Q (w32 lamp 4))
    f32Fin (w32 lamp 0) && f32Fin (w32 lamp 4) && (!f32Fin (w32 lamp 8) || ((dx.mul dx).add (dy.mul dy)).le (r.mul r))
  let near := (List.range (orbWay h)).filter (fun i =>
    paths.any (fun x => x.2.status != 3 && bitOf (leAt h 5 1) (leAt x.1 4 1) && inside (wpt x.2.path i)))
  match near, near.getLast? with
  | f :: _, some l =>
    let t0 := f * orbDt h - leAt h 0x4C 4
    let cyc := ceilDiv (s.usNum (l * orbDt h - t0) 1) 1000000
    let start := (orbPlan h + s.usNum t0 65536 / 1000000) % 2 ^ 64
    some (start, start + cyc * 65536, cyc)
  | _, _ => none

/-! ### Output (R421, Tables ORB-4 and ORB-5) -/

/-- n zero bytes. -/
def zeros (n : Nat) : List Byte := List.replicate n 0#8

/-- A list cut or filled with zeros to n bytes. -/
def padTo (n : Nat) (l : List Byte) : List Byte := l.take n ++ zeros (n - l.length)

/-- An agent's result record. An INVALID agent's path is a copy of its input. -/
def orbResult (a : List Byte) (r : OrbAgent) (clear : Option Q) : List Byte :=
  let path := if r.status = 3 then (a.drop 0x40).take 512
    else padTo 512 (r.path.flatMap (fun x => toBytes 4 x.1 ++ toBytes 4 x.2))
  let c := match clear with
    | some q => qF32 q
    | none => 0x7F800000
  toBytes 4 (leAt a 0 4) ++ toBytes 1 r.status ++ toBytes 1 r.iters ++ zeros 2 ++ toBytes 4 r.j0 ++ toBytes 4 r.j1
    ++ toBytes 4 c ++ zeros 44 ++ path

/-- A conflict record. -/
def orbConfBytes (h : List Byte) (ida idb : Nat) (c : OrbConf) : List Byte :=
  toBytes 4 ida ++ toBytes 4 idb ++ toBytes 4 (qF32 (orbSecs h c.ttc)) ++ toBytes 4 (qF32 (orbSecs h c.ttca))
    ++ toBytes 4 (qF32 c.dmin) ++ toBytes 4 (qF32 c.mx) ++ toBytes 4 (qF32 c.my) ++ toBytes 1 c.a ++ toBytes 1 c.b ++ zeros 2

/-- What a solve gives: its output bytes, the zones it stages, and what its counters take. -/
structure OrbOut where
  bytes : List Byte
  zones : List StagedZone
  iters : Nat
  invalid : Nat
  excess : Nat
deriving DecidableEq, Repr

/-- The solve of the argument block in the local store. -/
def State.orbSolve (s : State) (id : Nat) : OrbOut :=
  let h := s.orb.hdr
  let recs := (List.range (orbAgents h)).map (fun i => entryOf s.orb.agents 576 i)
  let res := recs.map (fun a => (a, orbAgent h a s.orb.grid))
  let live := (List.range res.length).filterMap (fun i => (res[i]?).bind (fun x => if x.2.status = 3 then none else some (i, x)))
  let confs := (live.flatMap (fun x => (live.filter (fun y => decide (x.1 < y.1))).filterMap (fun y =>
      orbPair h x.1 y.1 x.2.1 y.2.1 x.2.2.path y.2.2.path))).mergeSort (fun a b => a.ttc.le b.ttc)
  let clear (i : Nat) (x : List Byte × OrbAgent) : Option Q :=
    if x.2.status = 3 then none
    else qLeast ((live.filter (fun y => y.1 != i)).map (fun y => orbClear h x.1 y.2.1 x.2.path y.2.2.path))
  let written := confs.take (orbMaxConf h)
  let zones := (List.range (orbLamps h)).filterMap (fun i =>
    let l := entryOf s.orb.lamps 16 i
    (s.orbZone h l res).map (fun z => (i, l, z)))
  let idOf (i : Nat) : Nat := leAt (recs.getD i []) 0 4
  let count (k : Nat) : Nat := (res.filter (fun x => x.2.status == k)).length
  let iters := (res.map (fun x => x.2.iters)).sum
  let ramp := leAt h 0x50 2
  let head := padTo 256 (toBytes 2 (orbAgents h) ++ toBytes 2 written.length ++ toBytes 4 confs.length
    ++ toBytes 1 zones.length ++ zeros 3 ++ toBytes 4 iters ++ toBytes 8 (orbPlan h)
    ++ (toBytes 2 (count 0) ++ toBytes 2 (count 1) ++ toBytes 2 (count 2) ++ toBytes 2 (count 3)))
  let zbytes := zones.flatMap (fun x => toBytes 1 x.1 ++ toBytes 1 (leAt x.2.1 0xC 1) ++ toBytes 2 (leAt x.2.1 0xE 2)
    ++ toBytes 2 ramp ++ toBytes 2 x.2.2.2.2 ++ toBytes 8 x.2.2.1)
  { bytes := head ++ (res.mapIdx (fun i x => orbResult x.1 x.2 (clear i x))).flatten
      ++ padTo (orbMaxConf h * 32) (written.flatMap (fun c => orbConfBytes h (idOf c.a) (idOf c.b) c)) ++ padTo 1024 zbytes
    zones := zones.map (fun x => { cmd := id, out := leAt x.2.1 0xC 1, level := leAt x.2.1 0xE 2, ramp, start := x.2.2.1,
                                   stop := x.2.2.2.1 })
    iters
    invalid := count 3
    excess := confs.length - orbMaxConf h }

/-- SOLVE_COMPLETE: the running solve ends. A correctable error of the local store is counted; an uncorrectable one ends the
solve FAULT_ECC (R407); otherwise its output and zones are staged and it waits to enter commit. -/
def State.solveComplete (s : State) (ce ue : Bool) : State :=
  match s.orb.running with
  | some id =>
    let s1 := if ce then (s.inc F.OB_LOCAL_CE_CNT 0 0).raise 0x07C 3 else s
    let s2 := { s1 with orb := { s1.orb with running := none, hdr := [], lamps := [], agents := [], grid := [] } }
    let s3 := (s2.wr F.OB_CUR_VALID 0 0 0).orbStat
    if ue then ((s3.inc F.OB_LOCAL_UE_CNT 0 0).raise 0x07C 4).close id 0x50
    else
      let o := s.orbSolve id
      let s4 := s3.updCmd id (fun c => { c with staged := o.bytes })
      let s5 := { s4 with orb := { s4.orb with committing := s4.orb.committing ++ [id], zones := s4.orb.zones ++ o.zones } }
      let s6 := (((s5.inc F.OB_SOLVE_CNT 0 0).inc F.OB_ITER_CNT 0 0 o.iters).inc F.OB_INVALID_AGENT_CNT 0 0 o.invalid).raise 0x07C 0
      if o.excess = 0 then s6 else (s6.inc F.OB_CONF_OVF_CNT 0 0 o.excess).raise 0x07C 2
  | none => s

/-- SOLVE_COMPLETE. -/
def execSolveComplete (ce ue : Bool) (s : State) : Outcome State Fault Refusal := .next (s.solveComplete ce ue)

end Sys2Proof.Machine
end

