-- ==== Sys2Proof/Machine/Access.lean ====
section
/-! DEFINITION. A register word as its fields (spec/21, Table REG-7): which fields a word of a page holds, the conditions under which each
may be written (R688), and the field-by-field write. -/

namespace Sys2Proof.Machine

/-- The live registers of a page (Table REG-7). -/
def liveFields (page : Nat) : List Fld :=
  if 0x100 ≤ page then (if page ≤ 0x1FF then fieldsCTX else [])
  else if 0x010 ≤ page ∧ page ≤ 0x021 then fieldsKT
  else if 0x030 ≤ page ∧ page ≤ 0x041 then fieldsVC
  else if 0x060 ≤ page ∧ page ≤ 0x06F then (if page = 0x060 then fieldsCSI ++ fieldsAG else fieldsCSI)
  else if page = 0x000 then fieldsSYS
  else if page = 0x001 then fieldsRP
  else if page = 0x002 then fieldsCLK ++ fieldsRST
  else if page = 0x003 then fieldsPWR
  else if page = 0x004 then fieldsORR
  else if page = 0x005 then fieldsSCH
  else if page = 0x006 then fieldsSPC
  else if page = 0x007 then fieldsIA
  else if page = 0x050 then fieldsTV
  else if page = 0x070 ∨ page = 0x071 then fieldsSV
  else if page = 0x078 then fieldsMD
  else if page = 0x07C then fieldsOB
  else if page = 0x080 then fieldsPL
  else if page = 0x081 then fieldsPA
  else if page = 0x090 then fieldsBR
  else if page = 0x0A0 then fieldsCP
  else if page = 0x0A1 then fieldsEN
  else if page = 0x0B0 then fieldsPCIE ++ fieldsIOM
  else if page = 0x0B1 then fieldsETH ++ fieldsIOM
  else if page = 0x0B2 then fieldsETH.filter (fun f => decide (f.ofs < 0x600)) ++ fieldsIOM
  else if page = 0x0B4 then fieldsHIO
  else if page = 0x0B8 then fieldsSC
  else if page = 0x0C0 then fieldsSK
  else if page = 0x0D0 then fieldsFW
  else if page = 0x0E0 then fieldsSEC
  else []

/-- Every field of a page: the common ones (Table REG-1) and its own. -/
def pageFields (page : Nat) : List Fld := fieldsREG ++ liveFields page

/-- A part of a register word: the field, its page and index, the bits of the word it fills, and how far into the field they lie (32 for the
HI word of a pair). -/
structure Part where
  fld : Fld
  p : Nat
  i : Nat
  lsb : Nat
  width : Nat
  shift : Nat

/-- The places of a field within its page: offset and index. -/
def Fld.places (f : Fld) : List (Nat × Nat) :=
  (List.range f.cnt).flatMap (fun n => (List.range f.cnt2).map (fun m => (f.ofs + n * f.stride + m * f.stride2, n * f.cnt2 + m)))

/-- The context that BKT_CTX names; FW's is number 2048. -/
def State.bktSel (s : State) : Nat := if s.rdB F.SCH_BKT_CTX_FW 0 0 then 2048 else s.rd F.SCH_BKT_CTX 0 0

/-- The setting of the selector through which a field is addressed. -/
def State.selVal (s : State) (f : Fld) (p : Nat) : Nat :=
  match f.sel with
  | .none => 0
  | .so => s.rd F.CTX_SO_SEL p 0
  | .part => s.rd F.SCH_PART_SEL 0 0
  | .bkt => s.bktSel * 4 + s.rd F.SCH_BKT_CLASS 0 0
  | .bctx => s.bktSel
  | .kb => s.rd F.SCH_KB_SEL 0 0
  | .dom => s.rd F.SPC_DOM_SEL 0 0
  | .str => s.rd F.SPC_STR_SEL 0 0
  | .prof => s.rd F.SC_PROF_SEL 0 0
  | .svctx => s.rd F.SV_CTX_SEL p 0
  | .arb => s.rd F.BR_ARB_SEL 0 0
  | .sp => s.rd F.BR_SP_SEL 0 0
  | .tmr => s.rd F.PL_TMR_SEL 0 0
  | .route => s.rd F.IA_ROUTE_SEL 0 0
  | .can => s.rd F.RP_CANARY_SEL 0 0

/-- The part of the word at an offset that a field fills, if it fills one. -/
def State.partAt (s : State) (page ofs : Nat) (f : Fld) : Option Part :=
  let p := page - f.page
  let idx (n : Nat) : Nat := n * f.seln + s.selVal f p % f.seln
  match f.places.find? (fun x => x.1 == ofs) with
  | some x => some { fld := f, p, i := idx x.2, lsb := f.lsb, width := min f.width 32, shift := 0 }
  | none =>
    if 32 < f.width then
      (f.places.find? (fun x => x.1 + 4 == ofs)).map (fun x => { fld := f, p, i := idx x.2, lsb := 0, width := f.width - 32, shift := 32 })
    else none

/-- The fields of the word at an offset of a page. -/
def State.parts (s : State) (page ofs : Nat) : List Part := (pageFields page).filterMap (s.partAt page ofs)

/-- A field is one of a list. -/
def Fld.isIn (f : Fld) (l : List Fld) : Bool := l.any (fun g => g.id == f.id)

/-! ### Write conditions -/

/-- Fields written while the context is FREE (R198), and while it is OPEN (R736). -/
def lockCtxFree : List Fld :=
  [F.CTX_SQ_BASE_LO, F.CTX_SQ_BASE_HI, F.CTX_CQ_BASE_LO, F.CTX_CQ_BASE_HI, F.CTX_RING_CFG_SQ_LOG2, F.CTX_RING_CFG_CQ_LOG2, F.CTX_CFG_PART,
    F.CTX_CFG_POLICY, F.CTX_CFG_MSIX]
def lockCtxOpen : List Fld := [F.CTX_SO_TIME_PERIOD_CYC, F.CTX_SO_TIME_ANCHOR, F.CTX_SO_TIME_PHASE, F.CTX_SO_CMD, F.CTX_SO_DESC]

/-- Bucket fields, written while their context is FREE (R261). -/
def lockBkt : List Fld := [F.SCH_BKT_RATE, F.SCH_BKT_BURST]

/-- Fields of a speculation domain (R301). -/
def lockDom : List Fld := [F.SPC_DOM_ARENA_LO_BASE, F.SPC_DOM_ARENA_HI_BASE, F.SPC_DOM_LEN, F.SPC_DOM_PARTMASK]

/-- A port's pool, and the fields of a stream block (Tables CSI-6, CSI-7). -/
def lockPool : List Fld := [F.CSI_POOL_BASE_LO, F.CSI_POOL_BASE_HI, F.CSI_POOL_CFG_NBUF, F.CSI_POOL_CFG_BUF_KIB]
def lockStr : List Fld :=
  [F.CSI_STR_CTRL_DT, F.CSI_STR_CTRL_LINE_POLICY, F.CSI_STR_CTRL_PAD_SRC, F.CSI_STR_CTRL_EMB_EN, F.CSI_STR_CTRL_BIND_HOLD,
    F.CSI_STR_CTRL_RETAIN, F.CSI_STR_GEOM_WIDTH, F.CSI_STR_GEOM_LINES, F.CSI_LINE_PITCH, F.CSI_BUF_LINES, F.CSI_STR_MAX_WC, F.CSI_PAD_VALUE,
    F.CSI_EMB_LEN, F.CSI_MAX_AGE, F.CSI_TRIG_MAX, F.CSI_BIND_HOLD_CYC]

/-- Fields of a Sieve context marked "EN = 0" (Tables SIV-6, SIV-7). -/
def lockSv : List Fld :=
  [F.SV_CTX_CFG_STREAM, F.SV_CTX_CFG_SKIP_RETRACTED, F.SV_CTX_CFG_STRIPE_LINES, F.SV_CTX_CFG_START_LEAD, F.SV_CTX_CFG_BAYER,
    F.SV_SAVE_BASE_LO, F.SV_SAVE_BASE_HI, F.SV_STATS_BASE_LO, F.SV_STATS_BASE_HI, F.SV_STATS_CFG_NSLOT, F.SV_OUT_BASE_LO, F.SV_OUT_BASE_HI,
    F.SV_OUT_CFG_EN, F.SV_OUT_CFG_FMT, F.SV_OUT_CFG_CONSUMERS, F.SV_OUT_CFG_NBUF, F.SV_OUT_CFG_HOST_HOLD, F.SV_OUT_BUF_KIB, F.SV_OUT_PITCH]

/-- Fields of a frame program (Table MAN-9). -/
def lockPg : List Fld :=
  [F.MD_PG_CTRL_SIEVE, F.MD_PG_CTRL_CTX, F.MD_PG_CTRL_OUT, F.MD_PG_CTRL_NOTIFY_MODE, F.MD_PG_CTRL_STEP, F.MD_PG_CTRL_ORIGIN, F.MD_PG_SHAPE,
    F.MD_PG_MESH, F.MD_PG_POOL, F.MD_PG_POOL_CFG_NBUF, F.MD_PG_POOL_CFG_BUF_KIB, F.MD_PG_POOL_CFG_HOLD_CYC, F.MD_PG_NOTIFY,
    F.MD_PG_BAND_BAND_ROWS]

/-- Fields of a Compositor output, and of its two layers (Tables CMP-4, CMP-5). -/
def lockOc : List Fld :=
  [F.CP_OC_CTRL_FMT, F.CP_OC_CTRL_SIEVE, F.CP_OC_CTRL_CTX, F.CP_OC_CTRL_OUT, F.CP_OC_CTRL_HOLD_MAX, F.CP_OC_SIZE_W, F.CP_OC_SIZE_H,
    F.CP_OC_POOL, F.CP_OC_POOL_CFG_NBUF, F.CP_OC_POOL_CFG_BUF_KIB, F.CP_OC_BLANK_Y, F.CP_OC_BLANK_CB, F.CP_OC_BLANK_CR, F.CP_MASK_CFG_MODE,
    F.CP_MASK_CFG_FILL, F.CP_MASK_CFG_SLOTS, F.CP_MASK_CFG_STRIDE, F.CP_MASK_FILL, F.CP_MASK_BASE]
def lockLy : List Fld :=
  [F.CP_LY_CFG_EN, F.CP_LY_CFG_POLICY, F.CP_LY_CFG_MAX_REUSE, F.CP_LY_POS_X, F.CP_LY_POS_Y, F.CP_LY_SIZE_W, F.CP_LY_SIZE_H, F.CP_LY_BUF0,
    F.CP_LY_BUF1, F.CP_LY_PAL]

/-- Fields of an Encoder session (Table CMP-6). -/
def lockEs : List Fld :=
  [F.EN_ES_CFG_CODEC, F.EN_ES_CFG_OUTPUT, F.EN_ES_CFG_CAVLC, F.EN_ES_CFG_LEVEL_IDC, F.EN_ES_CFG_IDR_PERIOD, F.EN_ES_RC_MODE, F.EN_ES_RC_QP_I,
    F.EN_ES_RC_QP_P, F.EN_ES_RC_QP_MIN, F.EN_ES_RC_QP_MAX, F.EN_ES_RATE, F.EN_ES_MAXRATE, F.EN_ES_VBV, F.EN_ES_JPEG_Q, F.EN_BS_BASE,
    F.EN_BS_SIZE, F.EN_REF_BASE]

/-- Fields of an IOMMU window (R558), the ring bases of an Ethernet port, and the fields of an interleave window (R133). -/
def lockWin : List Fld := [F.IOM_WIN_IOVA, F.IOM_WIN_PA, F.IOM_WIN_LEN, F.IOM_WIN_CFG_R, F.IOM_WIN_CFG_W]
def lockEth : List Fld := [F.ETH_TX_BASE, F.ETH_RX_BASE]
def lockIwin : List Fld := [F.TV_IWIN_OFS, F.TV_IWIN_LEN]
def lockIwinCfg : List Fld := [F.TV_IWIN_CFG_FIRST, F.TV_IWIN_CFG_COUNT_LOG2, F.TV_IWIN_CFG_GRAN_LOG2]

/-- The context whose buckets index x of a head's, a follower's or a single device's SCHED page names is FREE; the state of another member's
context is not seen, and the head takes it as FREE while it keeps no bucket of it (R261, R649; log 70). -/
def State.bktCtxFree (s : State) (x cls : Nat) : Bool :=
  if s.rd F.SK_STAT_ROLE 0 0 = 1 ∧ cls ≠ 0 ∧ x / 256 ≠ s.rd F.SK_STAT_CAB_ID 0 0 then
    !s.sch.bkts.any (fun b => b.ctx == x && b.cls != 0)
  else s.rd F.CTX_STAT_STATE (x % 256) 0 == 0

/-- The fused value of a thermal threshold (R549): k is 0 WARN, 1 EMERG, 2 TRIP. -/
def State.thermFused (s : State) (k : Nat) : Nat := (if s.rd F.SEC_FUSE_CFG_GRADE 0 0 = 1 then 105 else 95) + 10 * k

/-- The write condition of a field (R688), where the word written is v. -/
def State.wrOk (s : State) (f : Fld) (p i v : Nat) : Bool :=
  if f.isIn lockCtxFree then s.rd F.CTX_STAT_STATE p 0 == 0
  else if f.isIn lockCtxOpen then s.rd F.CTX_STAT_STATE p 0 == 1
  else if f.isIn lockBkt then s.bktCtxFree (i / 4) (i % 4)
  else if f.id = F.SCH_B_WEIGHT.id then s.bktCtxFree i 2
  else if f.isIn lockDom then !s.rdB F.SPC_DOM_CFG_EN 0 i
  else if f.isIn lockPool then (List.range 4).all (fun vc => !s.rdB F.CSI_STR_CTRL_EN p vc)
  else if f.isIn lockStr then !s.rdB F.CSI_STR_CTRL_EN p i
  else if f.id = F.AG_MEMBERS.id then !s.rdB F.AG_CFG_EN 0 i
  else if f.isIn lockSv then !s.rdB F.SV_CTX_CFG_EN p (i % 64)
  else if f.isIn lockPg then !s.rdB F.MD_PG_CTRL_EN 0 i
  else if f.id = F.MD_JQ_BASE.id then !s.rdB F.MD_JQ_CFG_EN 0 i
  else if f.isIn lockOc then !s.rdB F.CP_OC_CTRL_EN 0 i
  else if f.isIn lockLy then !s.rdB F.CP_OC_CTRL_EN 0 (i / 2)
  else if f.isIn lockEs then !s.rdB F.EN_ES_CFG_EN 0 i
  else if f.isIn lockWin then !s.rdB F.IOM_WIN_CFG_EN p i
  else if f.isIn lockEth then !s.rdB F.ETH_MAC_CFG_EN p 0
  else if f.isIn lockIwin then !s.rdB F.TV_IWIN_CFG_EN 0 i
  else if f.isIn lockIwinCfg then !(s.rdB F.TV_IWIN_CFG_EN 0 i && bitOf v 31)
  else if f.id = F.FW_MB_SRC.id then !s.rdB F.SEC_LOCK_MB_SRC_LOCK 0 0
  else if f.id = F.PWR_VIN_CFG_WARN_MV.id then decide (9800 ≤ v % 65536 ∧ v % 65536 ≤ 11500)
  else if f.id = F.PWR_THERM_CFG_WARN.id then decide (bitsOf v 0 8 ≤ s.thermFused 0)
  else if f.id = F.PWR_THERM_CFG_EMERG.id then decide (bitsOf v 8 8 ≤ s.thermFused 1)
  else if f.id = F.PWR_THERM_CFG_TRIP.id then decide (bitsOf v 16 8 ≤ s.thermFused 2)
  else true

/-- The present value of the bits of a part. -/
def State.partVal (s : State) (q : Part) : Nat := bitsOf (s.rd q.fld q.p q.i) q.shift q.width

/-- R688: the write of v would change, or act on, a part. -/
def State.partActs (s : State) (q : Part) (v : Nat) : Bool :=
  let x := bitsOf v q.lsb q.width
  match q.fld.ty with
  | .rw | .rws => x != s.partVal q
  | .w1c => (x &&& s.partVal q) != 0
  | .w1s => clrMask x (s.partVal q) != 0
  | .wo => x != 0
  | .ro | .rc => false

/-- LOCKED_WR: the write of a word would change a field whose condition does not hold (R688). -/
def State.lockCheck (s : State) (page ofs v : Nat) : State :=
  if (s.parts page ofs).any (fun q => !s.wrOk q.fld q.p q.i v && s.partActs q v) then s.accFault page 1 ofs else s

/-- The offset of a field's word at page p and index i. -/
def Fld.wordOf (f : Fld) (i : Nat) : Nat := f.ofs + i / f.seln * f.stride

/-- LOCKED_WR for the word that holds a field. -/
def State.lockWord (s : State) (f : Fld) (p i v : Nat) : State := s.lockCheck (f.page + p) (f.wordOf i) v

/-- A part written: RW takes the value, W1C and W1S act on the bits written 1, a WO field of no rule of its own keeps nothing. -/
def State.partWrite (s : State) (q : Part) (v : Nat) : State :=
  let x := bitsOf v q.lsb q.width
  let old := s.rd q.fld q.p q.i
  match q.fld.ty with
  | .rw => s.wr q.fld q.p q.i (putBits old q.shift q.width x)
  | .w1c => s.wr q.fld q.p q.i (putBits old q.shift q.width (clrMask (s.partVal q) x))
  | .w1s => s.wr q.fld q.p q.i (putBits old q.shift q.width (s.partVal q ||| x))
  | .rws | .wo | .ro | .rc => s

/-- A word written field by field: each field whose condition holds takes its value, judged before the write (R688). -/
def State.wordWrite (s : State) (page ofs v : Nat) : State :=
  ((s.parts page ofs).filter (fun q => s.wrOk q.fld q.p q.i v)).foldl (fun t q => t.partWrite q v) (s.lockCheck page ofs v)

end Sys2Proof.Machine
end

