-- ==== Sys2Proof/Machine/Camera.lean ====
section
/-! DEFINITION. Frames, their standing, capture buffers, lines, alignment groups and CAPTURE_BIND (spec/09, R303 to R329;
spec/08, R273 to R278, R301, R302). -/

namespace Sys2Proof.Machine

open Host

/-! ### Standing (R273 to R277) -/

/-- GRACE (R275). -/
def State.grace (s : State) : Nat := if s.rd F.ORR_GRID_CTRL_NOMINAL_HZ 0 0 = 1 then 0x1EB9 else 0x199A

/-- The 64-byte frame reference of a bind (Table CSI-3). -/
def State.frameRef (s : State) (f : Frame) : List Byte :=
  let p := f.stream / 4
  let vc := f.stream % 4
  let hold := s.rdB F.CSI_STR_CTRL_BIND_HOLD p vc
  let base := s.rd F.CSI_POOL_BASE_LO p 0 + s.rd F.CSI_POOL_BASE_HI p 0 * 2 ^ 32
  toBytes 4 f.id ++ toBytes 1 f.stream ++ toBytes 1 f.marks ++ toBytes 1 (b2n (f.standing == 1)) ++ toBytes 1 (b2n hold)
    ++ toBytes 8 f.capGt ++ toBytes 8 f.capSi ++ toBytes 2 f.linesRx ++ toBytes 2 f.lines ++ toBytes 4 f.linePitch
    ++ toBytes 8 (base + f.firstBuf * s.rd F.CSI_POOL_CFG_BUF_KIB p 0 * 1024) ++ toBytes 2 f.missing ++ toBytes 1 f.group
    ++ toBytes 1 0 ++ toBytes 4 f.crcErrs ++ toBytes 4 f.flagged ++ toBytes 12 0

/-- R278, R279, R326, R328: a bound CAPTURE_BIND starts service when it may, writes the frame reference and enters commit; one
bound to a retracted frame closes RETRACTED. -/
def State.bindGo (s : State) (id : Nat) : State :=
  match s.cmd id with
  | some c =>
    match c.bound.bind s.frame with
    | some f =>
      if f.standing = 2 then s.close id 0x04
      else if c.phase = .running ∧ c.started = none ∧ s.mayStart c = true then
        let t := (s.startService id).updCmd id (fun x => { x with staged := (s.frameRef f).take c.desc.outLen })
        t.enterOne id
      else s
    | none => s
  | none => s

/-- The commands that are bound to a frame and have not started. -/
def State.boundTo (s : State) (f : Nat) : List Nat :=
  (s.sch.cmds.filter (fun c => c.phase == .running && c.desc.opcode == 7 && c.bound == some f && c.started.isNone)).map (fun c => c.id)

/-- A frame becomes CONFIRMED (R274): counted; the commands that waited for it settle or start. -/
def State.frameConfirm (s : State) (f : Nat) : State :=
  if s.isProvisional f then
    let t := (s.updFrame f (fun x => { x with standing := 1 })).inc F.SPC_CONFIRM_CNT 0 0
    let u := (t.sch.cmds.filter (fun c => c.phase == .prov && c.frames.contains f)).foldl (fun t c => t.settle c.id) t
    (u.boundTo f).foldl State.bindGo u
  else s

/-- A frame is RETRACTED (R277, R299): counted and recorded, its retraction queued; it is still delivered (R278). -/
def State.frameRetract (s : State) (f cause : Nat) : State :=
  if s.isProvisional f then
    let t := ((s.updFrame f (fun x => { x with standing := 2, cause })).inc F.SPC_RETRACT_CNT 0 0).raise 0x006 0
    let u := (t.wr F.SPC_LAST_RETR_FRAME 0 0 f).wr F.SPC_LAST_RETR_CAUSE 0 0 cause
    { u.wr F.SPC_SPEC_STAT_RETRACT_BUSY 0 0 1 with cam := { u.cam with retractQ := u.cam.retractQ ++ [f] } }
  else s

/-- R274, R276: with frame end received, every stripe delivered and the deadline not passed, a frame that no check has failed
is confirmed. -/
def State.tryConfirm (s : State) (f : Nat) : State :=
  match s.frame f with
  | some x => if x.standing = 0 ∧ x.isOpen = false ∧ x.delivered = true ∧ s.gt < x.ageGt ∧ s.gt ≤ x.deadline then s.frameConfirm f else s
  | none => s

/-- R276: GT has reached the confirmation deadline of a PROVISIONAL frame. -/
def State.confirmDeadline (s : State) (f : Nat) : State :=
  match (s.tryConfirm f).frame f with
  | some x => if x.standing = 0 ∧ x.deadline ≤ s.gt then s.frameRetract f 1 else s.tryConfirm f
  | none => s

/-- CONFIRM_DEADLINE. -/
def execConfirmDeadline (frame : BitVec 32) (s : State) : Outcome State Fault Refusal := .next (s.confirmDeadline frame.toNat)

/-! ### Speculation domains (R301, R302) -/

/-- R301: the arena may be enabled. -/
def State.arenaOk (s : State) (d : Nat) : Bool :=
  let a := (s.arenaBase d, s.arenaLen d)
  decide (1 ≤ s.rd F.SPC_DOM_LEN 0 d) && s.ringPlaced a.1 a.2
    && ((List.range 16).filter (fun e => e != d && s.rdB F.SPC_DOM_CFG_EN 0 e)).all (fun e => !overlaps a (s.arenaBase e, s.arenaLen e))
    && ((List.range 256).filter (fun c => s.rd F.CTX_STAT_STATE c 0 != 0)).all (fun c => (s.rings c).all (fun r => !overlaps a r))

/-- A command of the domain has a non-empty frame set (R302). -/
def State.domBusy (s : State) (d : Nat) : Bool :=
  s.sch.cmds.any (fun c => let fs := (s.frameSet c ++ (c.frames.filter s.isProvisional)); !fs.isEmpty && fs.any (fun f => s.domOfStream (f / 2 ^ 26) == d))

/-- A write of DOM_CFG (R301, R302). -/
def State.domCfg (s : State) (d : Nat) (en : Bool) : State :=
  if en then
    if s.rdB F.SPC_DOM_CFG_EN 0 d then s
    else if s.arenaOk d then s.wr F.SPC_DOM_CFG_EN 0 d 1 else s.wr F.SPC_DOM_STAT_CFG_ERR 0 d 1
  else if !s.rdB F.SPC_DOM_CFG_EN 0 d then s
  else if s.domBusy d then s.wr F.SPC_DOM_STAT_CFG_ERR 0 d 1
  else s.wr F.SPC_DOM_CFG_EN 0 d 0

/-- DOM_ENABLE: a DOM_CFG write with EN = 1, of the domain that DOM_SEL addresses. -/
def execDomEnable (v : Word) (s : State) : Outcome State Fault Refusal :=
  .next (s.reach 0x006 (fun t => if v.toNat % 2 = 1 then t.domCfg (t.rd F.SPC_DOM_SEL 0 0) true else t))

/-- DOM_DISABLE: a DOM_CFG write with EN = 0. -/
def execDomDisable (v : Word) (s : State) : Outcome State Fault Refusal :=
  .next (s.reach 0x006 (fun t => if v.toNat % 2 = 0 then t.domCfg (t.rd F.SPC_DOM_SEL 0 0) false else t))

/-! ### Capture buffers (R309 to R312) -/

/-- A buffer is in use: CAPTURING, or HELD by a reference. -/
def State.bufUsed (s : State) (b : CapBuf) : Bool := b.capturing || !b.refs.isEmpty || s.cam.holds.any (fun h => h.frame == b.frame)

/-- Buffers without a reference are FREE (R309). -/
def State.bufSweep (s : State) : State := { s with cam := { s.cam with bufs := s.cam.bufs.filter s.bufUsed } }

/-- A buffer updated. -/
def State.updBuf (s : State) (port idx : Nat) (f : CapBuf → CapBuf) : State :=
  { s with cam := { s.cam with bufs := updWhere (fun b => b.port == port && b.idx == idx) f s.cam.bufs } }

/-- FREE, CAPTURING and HELD of a port's pool (R311). -/
def State.poolBooks (s : State) (port : Nat) : Nat × Nat × Nat :=
  let bs := s.cam.bufs.filter (fun b => b.port == port)
  let cap := (bs.filter (fun b => b.capturing)).length
  (s.rd F.CSI_POOL_CFG_NBUF port 0 - bs.length, cap, bs.length - cap)

/-- The lowest FREE buffer of a port's pool. -/
def State.freeBuf (s : State) (port : Nat) : Option Nat :=
  (List.range (s.rd F.CSI_POOL_CFG_NBUF port 0)).find? (fun i => s.cam.bufs.all (fun b => !(b.port == port && b.idx == i)))

/-- The address of a buffer, and of its trailer. -/
def State.bufAddr (s : State) (port i : Nat) : Nat :=
  s.rd F.CSI_POOL_BASE_LO port 0 + s.rd F.CSI_POOL_BASE_HI port 0 * 2 ^ 32 + i * s.rd F.CSI_POOL_CFG_BUF_KIB port 0 * 1024
def State.trailer (s : State) (port i : Nat) : Nat := s.bufAddr port i + s.rd F.CSI_POOL_CFG_BUF_KIB port 0 * 1024 - 1024

/-- The Sieve contexts bound to a stream: Sieve 0 or 1, and context. -/
def State.sieveOf (s : State) (st : Nat) : List (Nat × Nat) :=
  (List.range 2).flatMap (fun v => ((List.range 64).filter (fun c => s.rdB F.SV_CTX_CFG_EN v c && s.rd F.SV_CTX_CFG_STREAM v c == st)).map
    (fun c => (v, c)))

/-- A buffer header: frame id, first line, lines stored, next buffer. -/
def State.bufHeader (s : State) (b : CapBuf) : State :=
  s.poke (s.trailer b.port b.idx + 512) (toBytes 4 b.frame ++ toBytes 4 b.firstLine ++ toBytes 4 b.lines ++ toBytes 4 b.nextBuf)

/-- A Sieve context waits for a frame or is on it. -/
def State.sieveWants (s : State) (f : Nat) : Bool :=
  s.sv.ctxs.any (fun x => x.wait.contains f || x.run.any (fun r => r.frame == f))

/-- The contexts bound to a stream get its new frame to process (R351). -/
def State.sieveNote (s : State) (st f : Nat) : State :=
  (s.sieveOf st).foldl (fun t vc =>
    let x := (t.sv.ctxs.find? (fun y => y.inst == vc.1 && y.num == vc.2)).getD { inst := vc.1, num := vc.2 }
    { t with sv := { t.sv with ctxs := { x with wait := x.wait ++ [f] } :: t.sv.ctxs.filter (fun y => !(y.inst == vc.1 && y.num == vc.2)) } }) s

/-- R691: armed page commits of modes 1 and 3 whose frame start this is come due. -/
def State.armedDue (s : State) (st n : Nat) : State :=
  { s with armed := s.armed.map (fun a =>
      if a.stream = st ∧ (a.mode = 1 ∨ (a.mode = 3 ∧ a.arg % 2 ^ 26 = n)) then { a with due := true } else a) }

/-- A frame takes a buffer where its pool has one FREE. -/
def State.takeBuf (s : State) (f : Frame) : State :=
  let p := f.stream / 4
  match s.freeBuf p with
  | some i =>
    let b : CapBuf := { port := p, idx := i, frame := f.id, firstLine := f.linesRx,
                        refs := if s.sieveWants f.id then [.sieve] else [] }
    let s1 : State := match f.buf with
      | some o => s.updBuf p o (fun x => { x with nextBuf := i })
      | none => s
    let s2 : State := match f.buf with
      | some o => match s1.cam.bufs.find? (fun x => x.port == p && x.idx == o) with
        | some x => s1.bufHeader x
        | none => s1
      | none => s1
    let s3 := { s2 with cam := { s2.cam with bufs := b :: s2.cam.bufs } }
    (s3.updFrame f.id (fun x => { x with buf := some i, stored := 0, nbufs := x.nbufs + 1,
                                         firstBuf := if x.nbufs = 0 then i else x.firstBuf })).bufHeader b
  | none => s.updFrame f.id (fun x => { x with dropping := true })

/-- A frame's present buffer leaves CAPTURING. -/
def State.endBuf (s : State) (f : Frame) : State :=
  match f.buf with
  | some i => (s.updBuf (f.stream / 4) i (fun b => { b with capturing := false })).bufSweep
  | none => s

/-- The RETAIN most recent closed frames of a stream keep their buffers; older ones lose that reference (R310). -/
def State.retain (s : State) (st : Nat) : State :=
  let n := min 4 (s.rd F.CSI_STR_CTRL_RETAIN (st / 4) (st % 4))
  let closed := (s.cam.frames.filter (fun f => f.stream == st && !f.isOpen)).reverse
  let keep := (closed.take n).map (fun f => f.id)
  ({ s with cam := { s.cam with bufs := s.cam.bufs.map (fun (b : CapBuf) =>
      if b.frame / 2 ^ 26 = st then
        { b with refs := if keep.contains b.frame then (if b.refs.contains BufRef.retain then b.refs else BufRef.retain :: b.refs)
                         else b.refs.filter (fun r => r != BufRef.retain) }
      else b) } }).bufSweep

/-- Every buffer of a frame is still held. -/
def State.allHeld (s : State) (f : Frame) : Bool := (s.cam.bufs.filter (fun b => b.frame == f.id)).length == f.nbufs && f.nbufs != 0

/-! ### Binding (R326, R327, R329) -/

/-- A bind takes its frame, with a reference under BIND_HOLD (R310), and starts when it may. -/
def State.bindTo (s : State) (id f : Nat) : State :=
  match s.cmd id with
  | some c =>
    let st := f / 2 ^ 26
    let t := s.updCmd id (fun x => { x with bound := some f, frame := f })
    let u : State := if s.rdB F.CSI_STR_CTRL_BIND_HOLD (st / 4) (st % 4) then
        { t with cam := { t.cam with holds := t.cam.holds ++ [({ frame := f, cmd := id, ctx := c.ctx } : BindHold)] } }
      else t
    u.bindGo id
  | none => s

/-- A stale refusal is counted (R321). -/
def State.staleCount (s : State) (st : Nat) : State := (s.inc F.CSI_S_STALE_CNT (st / 4) (st % 4)).raise (0x060 + st / 4) 3

/-- The binds of a stream that wait for its next frame take it. -/
def State.bindWaiting (s : State) (st f : Nat) : State :=
  ((s.sch.cmds.filter (fun c => c.phase == .running && c.desc.opcode == 7 && c.bound.isNone && c.desc.arg % 64 == st)).map
    (fun c => c.id)).foldl (fun t id => t.bindTo id f) s

/-- CAPTURE_BIND dispatched (R326, R327). -/
def State.bindStart (s : State) (c : Cmd) : State :=
  let st := c.desc.arg % 64
  if !s.rdB F.CSI_STR_CTRL_EN (st / 4) (st % 4) then s.close c.id 0x31
  else if bitOf c.desc.arg 8 then
    match (s.cam.frames.filter (fun f => f.stream == st && !f.isOpen && f.released)).getLast? with
    | none => s.close c.id 0x31
    | some f =>
      let t := s.updCmd c.id (fun x => { x with frame := f.id })
      if s.rdB F.CSI_STR_CTRL_BIND_HOLD (st / 4) (st % 4) && !s.allHeld f then s.close c.id 0x31
      else if f.standing = 2 then t.close c.id 0x04
      else if f.ageGt ≤ s.gt then (t.staleCount st).close c.id 0x31
      else s.bindTo c.id f.id
  else s

/-- CAPTURE_BIND. -/
def execCaptureBind (id : Nat) (s : State) : Outcome State Fault Refusal := .next (s.startAction id 7 State.bindStart)

/-- BIND_HOLD references released (R329). -/
def State.dropHolds (s : State) (p : BindHold → Bool) : State :=
  ({ s with cam := { s.cam with holds := s.cam.holds.filter (fun h => !p h) } }).bufSweep

/-- A write of REF_RELEASE: the references on a frame of the port. -/
def State.refRelease (s : State) (port v : Nat) : State :=
  if v / 2 ^ 28 = port then s.dropHolds (fun h => h.frame == v) else s

/-- REF_RELEASE. -/
def execRefRelease (port : Fin 16) (v : Word) (s : State) : Outcome State Fault Refusal :=
  .next (s.reach (0x060 + port.val) (fun t => t.refRelease port.val v.toNat))

/-- BIND_HOLD_EXPIRE: the hold of a committed bind has run out, or its context has reached FREE. -/
def execBindHoldExpire (cmd : Nat) (s : State) : Outcome State Fault Refusal :=
  .next (s.dropHolds (fun h => h.cmd == cmd && h.till.any (fun e => decide (e ≤ s.gt))))

/-! ### Alignment groups (R323 to R325) -/

/-- The enabled group of a stream. -/
def State.groupOf (s : State) (st : Nat) : Option Nat :=
  (List.range 4).find? (fun g => s.rdB F.AG_CFG_EN 0 g && bitOf (s.rd F.AG_MEMBERS 0 g) st)

/-- The members of a group in ascending stream order. -/
def State.members_ (s : State) (g : Nat) : List Nat := (List.range 64).filter (fun st => bitOf (s.rd F.AG_MEMBERS 0 g) st)

/-- A mask of positions. -/
def maskOf (l : List Bool) : Nat := (l.zip (List.range l.length)).foldl (fun m x => if x.1 then m + 2 ^ x.2 else m) 0

/-- A window is done with: COMPLETE when it holds every member, else PARTIAL or dropped by POLICY; a frame stale at release
counts as absent (R325). Binds that wait take their frames. -/
def State.agRelease (s : State) (w : AgWin) : State :=
  let fresh := w.frames.filter (fun x => (s.frame x.2).any (fun f => decide (s.gt < f.ageGt)))
  let s0 := (w.frames.filter (fun x => !fresh.contains x)).foldl (fun t x => t.staleCount x.1) s
  let miss := maskOf ((s.members_ w.group).map (fun st => !fresh.any (fun x => x.1 == st)))
  let s1 := { s0 with cam := { s0.cam with wins := s0.cam.wins.filter (fun x => x != w) } }
  if miss ≠ 0 ∧ s.rd F.AG_CFG_POLICY 0 w.group = 0 then (s1.inc F.AG_DROP_CNT 0 w.group).raise 0x060 6
  else
    let s2 : State := if miss = 0 then s1.inc F.AG_COMPLETE_CNT 0 w.group else (s1.inc F.AG_PARTIAL_CNT 0 w.group).raise 0x060 5
    let s3 := fresh.foldl (fun t x => t.updFrame x.2 (fun f =>
      { f with released := true, missing := miss, marks := if miss = 0 then f.marks else setBit f.marks 5 }))
      (s2.wr F.AG_MISSING 0 w.group miss)
    fresh.foldl (fun t x => t.bindWaiting x.1 x.2) s3

/-- A window of a group holds every member. -/
def State.winFull (s : State) (w : AgWin) : Bool := (s.members_ w.group).all (fun st => w.frames.any (fun x => x.1 == st))

/-- A member frame joins the open window that has none of its member, or opens the next (R323); a full window is released. -/
def State.agJoin (s : State) (g st f gt : Nat) : State :=
  let ws := s.cam.wins.filter (fun w => w.group == g)
  match ws.find? (fun w => !w.frames.any (fun x => x.1 == st)) with
  | some w =>
    let w2 := { w with frames := w.frames ++ [(st, f)] }
    let t := { s with cam := { s.cam with wins := s.cam.wins.map (fun x => if x = w then w2 else x) } }
    if t.winFull w2 then t.agRelease w2 else t
  | none =>
    if ws.length < 2 then
      let w : AgWin := { group := g, openGt := gt, frames := [(st, f)] }
      let t := { s with cam := { s.cam with wins := s.cam.wins ++ [w] } }
      if t.winFull w then t.agRelease w else t
    else s

/-- AG_WINDOW_CLOSE: the oldest window of the group has reached AG_TOL. -/
def execAgWindowClose (g : Fin 4) (s : State) : Outcome State Fault Refusal :=
  .next (match s.cam.wins.find? (fun w => w.group == g.val) with
    | some w => if w.openGt + s.rd F.AG_CFG_TOL 0 g.val ≤ s.gt then s.agRelease w else s
    | none => s)

/-! ### Sensor bundles at frame start (R330, R333) -/

/-- A controller's record, and its update. -/
def State.ctrl (s : State) (c : Nat) : SensorSt := (s.cam.ctrls.find? (fun x => x.num == c)).getD { num := c }
def State.setCtrl (s : State) (x : SensorSt) : State :=
  { s with cam := { s.cam with ctrls := x :: s.cam.ctrls.filter (fun y => y.num != x.num) } }

/-- A bundle ends: STATUS, the failing write, the frame it takes effect on, and the GT of completion (Table CSI-4). -/
def State.bundleEnd (s : State) (b : Bundle) (status idx fid : Nat) : State :=
  ((s.poke (b.addr + 16) [BitVec.ofNat 8 status, BitVec.ofNat 8 idx]).poke (b.addr + 20) (toBytes 4 fid ++ toBytes 8 s.gt)).raise 0x0B8 0

/-- The frame bundles of a stream at the start of its frame n: one for n, or for the next window, comes due at WR_OFS after the
capture GT; one whose frame has passed is never sent late and completes CANCELLED (R333). -/
def State.bundlesAt (s : State) (st n capGt : Nat) : State :=
  let due := capGt + s.rd F.SC_PROF_WIN_WR_OFS 0 st
  (List.range 8).foldl (fun t c =>
    let x := t.ctrl c
    let gone := x.queue.filter (fun b => !b.started && b.stream == st && (match b.frame with
      | some m => serialLt 26 m n
      | none => b.whenK == 2 && serialLt 26 b.m n))
    let rest := (x.queue.filter (fun b => !gone.contains b)).map (fun b =>
      if b.stream = st ∧ b.frame = none ∧ (b.whenK = 0 ∨ (b.whenK = 2 ∧ b.m = n)) then { b with frame := some n, due } else b)
    gone.foldl (fun u b => u.bundleEnd b 4 0 0xFFFFFFFF) (t.setCtrl { x with queue := rest })) s

/-! ### Frames (R304, R315 to R320, R322) -/

/-- A port receives: its page is powered and out of reset, it is enabled with 1, 2 or 4 lanes, its pads are not held (R544). -/
def State.portOn (s : State) (p : Nat) : Bool :=
  s.pageOn (0x060 + p) && !s.inReset (0x060 + p) && s.rdB F.CSI_PHY_CFG_EN p 0
    && [1, 2, 4].contains (s.rd F.CSI_PHY_CFG_LANES p 0) && !bitOf (s.rd F.PWR_PAD_HELD 0 0) p

/-- The open frame of a stream. -/
def State.openFrame (s : State) (st : Nat) : Option Frame := s.cam.frames.find? (fun f => f.stream == st && f.isOpen)

/-- A frame gains a mark. -/
def State.mark (s : State) (f b : Nat) : State := s.updFrame f (fun x => { x with marks := setBit x.marks b })

/-- R315, R317, Table SPC-1: a frame closes; one with fewer lines than configured is SHORT. -/
def State.frameClose (s : State) (f : Frame) : State :=
  let p := f.stream / 4
  let vc := f.stream % 4
  let s1 : State := match f.buf with
    | some i => match s.cam.bufs.find? (fun b => b.port == p && b.idx == i) with
      | some b => s.bufHeader { b with lines := f.stored }
      | none => s
    | none => s
  let s2 := (s1.updFrame f.id (fun x => { x with isOpen := false })).endBuf f
  let short := decide (f.linesRx < f.lines)
  let s3 : State := if short then (s2.mark f.id 0).inc F.CSI_S_SHORT_CNT p vc else s2
  let s4 : State := if short && !s3.rdB F.SPC_STR_CFG_ACCEPT_SHORT 0 f.stream then s3.frameRetract f.id 3 else s3
  let s5 : State := if ((s4.frame f.id).map (fun x => x.marks)).getD 0 ≠ 0 then s4.raise (0x060 + p) 0 else s4
  (s5.retain f.stream).tryConfirm f.id

/-- A frame end received, or inferred (R315). -/
def State.frameEnd (s : State) (st : Nat) (inferred : Bool) : State :=
  match s.openFrame st with
  | some f =>
    let t : State := if inferred then (s.inc F.CSI_FE_INFER_CNT (st / 4) 0).mark f.id 7 else s
    match t.frame f.id with
    | some g => t.frameClose g
    | none => t
  | none => s

/-- R304, R320, R322: a frame of a stream opens: id, capture GT and SI, deadlines, TRIG_LAG, its first buffer, its alignment
window, the binds and bundles that wait for it. -/
def State.openNew (s : State) (st : Nat) (inferred : Bool) : State :=
  let p := st / 4
  let vc := st % 4
  let n := storeGet 0 s.cam.counts st
  let id : Nat := st * 2 ^ 26 + n
  let grp := s.groupOf st
  let f : Frame := { id := id, stream := st, capGt := s.gt, capSi := if s.mapValid then s.si else 0,
                     deadline := s.gt + s.rd F.SPC_STR_PERIOD 0 st + s.grace, ageGt := s.gt + s.rd F.CSI_MAX_AGE p vc,
                     lines := s.rd F.CSI_STR_GEOM_LINES p vc, marks := if inferred then 0x40 else 0,
                     linePitch := s.rd F.CSI_LINE_PITCH p vc, released := grp.isNone, group := grp.getD 0xFF }
  let s1 := { s with cam := { s.cam with frames := (s.cam.frames.filter (fun (x : Frame) => x.id != id)) ++ [f],
                                         counts := storeSet 0 s.cam.counts st (if n = 0x3FFFFFE then 0 else n + 1) } }
  let s2 := ((s1.wr F.CSI_LAST_FRAME_ID p vc id).wr F.CSI_LAST_CAPT_GT p vc s.gt).inc F.CSI_S_FRAME_CNT p vc
  let s3 : State := match s.orr.lastPulse.find? (fun x => x.1 == p) with
    | some (_, g) =>
      let lag := ((s.gt : Int) - g).toNat
      let t := s2.wr F.CSI_TRIG_LAG p vc (min lag 0xFFFFFF)
      if s.rd F.CSI_TRIG_MAX p vc < lag then t.inc F.CSI_S_TRIG_LATE_CNT p vc else t
    | none => s2
  let s4 := (((s3.armedDue st n).sieveNote st id)).takeBuf f
  let s6 := s4.bundlesAt st n s.gt
  match grp with
  | some g => s6.agJoin g st id s.gt
  | none => s6.bindWaiting st id

/-- The header of a packet on a port: an uncorrectable one drops the packet, a corrected one is counted (Table DEV-3). -/
def State.header (s : State) (p hdr : Nat) (k : State → State) : State :=
  if !s.portOn p then s
  else if hdr = 2 then s.inc F.CSI_HDR_UNCORR_CNT p 0
  else k (if hdr = 1 then s.inc F.CSI_HDR_CORR_CNT p 0 else s)

/-- A short packet of a disabled stream or with a nonzero VCX is ignored and counted (R305). -/
def State.shortPkt (s : State) (p vc : Nat) (vcx : Bool) (k : State → State) : State :=
  if vcx || !s.rdB F.CSI_STR_CTRL_EN p vc then s.inc F.CSI_GEN_LONG_CNT p 0 else k s

/-- A frame start packet: an open frame of the stream ends first (R315). -/
def State.frameStart (s : State) (st : Nat) : State := (s.frameEnd st true).openNew st false

/-! ### Lines (R305 to R307, R313 to R319) -/

/-- Pixels and bytes of a pixel group of a data type (R313). -/
def pixGroup (dt : Nat) : Nat × Nat :=
  if dt = 0x2B then (4, 5) else if dt = 0x2C then (2, 3) else if dt = 0x2D then (4, 7) else if dt = 0x2E then (1, 2)
  else if dt = 0x1E then (2, 4) else (1, 1)

/-- Payload bytes of w pixels. -/
def lineBytes (dt w : Nat) : Nat := ceilDiv (w * (pixGroup dt).2) (pixGroup dt).1

/-- One pixel group with PAD_VALUE in every sample, in the packing of CSI-2 (PRESUMED, log 22): the high bytes of the samples,
then their low bits from the first sample up; RAW16 sends the high byte first. -/
def padGroup (dt v : Nat) : List Byte :=
  if dt = 0x2B then List.replicate 4 (BitVec.ofNat 8 (v / 4)) ++ toBytes 1 (v % 4 * 0x55)
  else if dt = 0x2C then List.replicate 2 (BitVec.ofNat 8 (v / 16)) ++ toBytes 1 (v % 16 * 0x11)
  else if dt = 0x2D then List.replicate 4 (BitVec.ofNat 8 (v / 64)) ++ toBytes 3 (v % 64 * 0x41041)
  else if dt = 0x2E then [BitVec.ofNat 8 (v / 256), BitVec.ofNat 8 v]
  else List.replicate (pixGroup dt).2 (BitVec.ofNat 8 v)

/-- n copies of a list, cut to a length. -/
def fillTo (g : List Byte) (n : Nat) : List Byte := ((List.replicate (n / max 1 g.length + 1) g).flatten).take n

/-- PAD_CUT (R313): a short line is filled from its last complete group, a long one cut. -/
def padCut (dt w padSrc padVal : Nat) (bs : List Byte) : List Byte :=
  let n := lineBytes dt w
  let gb := (pixGroup dt).2
  if n ≤ bs.length then bs.take n
  else
    let k := bs.length / gb * gb
    let g := if padSrc = 0 ∧ 0 < k then (bs.take k).drop (k - gb) else padGroup dt padVal
    (bs.take k ++ fillTo g (n - k)).take n

/-- What a line is stored as, and its flags (Table CSI-2). -/
def State.lineStore (s : State) (p vc : Nat) (pkt : List Byte) (crcOk corr : Bool) : List Byte × Nat :=
  let dt := s.rd F.CSI_STR_CTRL_DT p vc
  let w := s.rd F.CSI_STR_GEOM_WIDTH p vc
  let n := lineBytes dt w
  let short := decide (pkt.length < n)
  let long := decide (n < pkt.length)
  let mo := s.rd F.CSI_STR_CTRL_LINE_POLICY p vc = 1
  let fl := b2n short + 2 * b2n long + 4 * b2n (!crcOk) + 8 * b2n (short && !mo) + 16 * b2n (long && !mo) + 32 * b2n corr
  (if mo then pkt else padCut dt w (s.rd F.CSI_STR_CTRL_PAD_SRC p vc) (s.rd F.CSI_PAD_VALUE p vc) pkt, fl)

/-- A line of an open frame is dropped for want of a buffer (R318). -/
def State.dropLine (s : State) (f : Frame) : State :=
  let p := f.stream / 4
  let vc := f.stream % 4
  let s1 := s.inc F.CSI_S_DROP_LINE_CNT p vc
  let s2 : State := if bitOf f.marks 3 then s1 else (((s1.mark f.id 3).inc F.CSI_S_DROPPED_CNT p vc).raise (0x060 + p) 2)
  s2.frameRetract f.id 6

/-- A line is written into the frame's present buffer, with its flag byte, and counted. -/
def State.putLine (s : State) (f : Frame) (bs : List Byte) (flags rx : Nat) : State :=
  match f.buf with
  | some i =>
    let p := f.stream / 4
    let vc := f.stream % 4
    let emb := if f.nbufs = 1 ∧ s.rdB F.CSI_STR_CTRL_EMB_EN p vc = true then s.rd F.CSI_EMB_LEN p vc else 0
    let a := s.bufAddr p i + emb + f.stored * f.linePitch
    let s1 := s.poke a bs
    let s2 : State := if s.rd F.CSI_STR_CTRL_LINE_POLICY p vc = 1 then s1.poke (a + f.linePitch - 2) (toBytes 2 rx) else s1
    let s3 := (s2.poke (s.trailer p i + f.stored) [BitVec.ofNat 8 flags]).updBuf p i (fun b => { b with lines := f.stored + 1 })
    let s4 := s3.updFrame f.id (fun x => { x with stored := f.stored + 1, linesRx := f.linesRx + 1 })
    let s5 : State := if f.stored + 1 = s.rd F.CSI_BUF_LINES p vc then
        match s4.cam.bufs.find? (fun b => b.port == p && b.idx == i) with
        | some b => (s4.bufHeader b).updBuf p i (fun b => { b with capturing := false })
        | none => s4
      else s4
    s5
  | none => s

/-- The flags of a stored line counted, and the checks that fail at once (Table SPC-1). -/
def State.judgeLine (s : State) (f : Frame) (flags : Nat) : State :=
  let p := f.stream / 4
  let vc := f.stream % 4
  if flags % 4 ≠ 0 then
    let t := ((s.inc F.CSI_S_LINEFLAG_CNT p vc).mark f.id 4).updFrame f.id (fun x => { x with flagged := x.flagged + 1 })
    if s.rdB F.SPC_STR_CFG_ACCEPT_LINEFLAG 0 f.stream then t else t.frameRetract f.id 5
  else s

/-- R319: a payload CRC failure of a line of a frame. -/
def State.judgeCrc (s : State) (f : Frame) (crcOk : Bool) : State :=
  if crcOk then s
  else
    let p := f.stream / 4
    let t := (((s.inc F.CSI_CRC_CNT p 0).inc F.CSI_S_STR_CRC_CNT p (f.stream % 4)).raise (0x060 + p) 1).mark f.id 2
    let u := t.updFrame f.id (fun x => { x with crcErrs := x.crcErrs + 1 })
    if s.rdB F.SPC_STR_CFG_ACCEPT_CRC 0 f.stream then u else u.frameRetract f.id 2

/-- A line of the open frame (R306, R317, R318): beyond LINES it is discarded; without a buffer it is dropped; else stored. -/
def State.lineIn (s : State) (f : Frame) (pkt : List Byte) (crcOk corr : Bool) : State :=
  let p := f.stream / 4
  let vc := f.stream % 4
  let s1 := s.judgeCrc f crcOk
  if f.lines ≤ f.linesRx then
    if bitOf f.marks 1 then s1
    else
      let t := (s1.mark f.id 1).inc F.CSI_S_LONG_CNT p vc
      if s.rdB F.SPC_STR_CFG_ACCEPT_LONG 0 f.stream then t else t.frameRetract f.id 4
  else
    let s2 : State := match s1.frame f.id with
      | some g => if g.dropping then s1
          else if g.buf.isNone || decide (s.rd F.CSI_BUF_LINES p vc ≤ g.stored) then s1.takeBuf g else s1
      | none => s1
    match s2.frame f.id with
    | some g =>
      if g.dropping then s2.dropLine g
      else
        let r := s2.lineStore p vc pkt crcOk corr
        ((s2.putLine g r.1 r.2 pkt.length).judgeLine g r.2)
    | none => s2

/-- Embedded data of the open frame goes to the head of its first buffer (spec/09, "Storage"). -/
def State.embIn (s : State) (f : Frame) (bs : List Byte) (crcOk : Bool) : State :=
  let p := f.stream / 4
  match (if f.nbufs = 0 then none else some f.firstBuf) with
  | some i => ((s.judgeCrc f crcOk).poke (s.bufAddr p i + f.emb) bs).updFrame f.id (fun x => { x with emb := x.emb + bs.length })
  | none => s.judgeCrc f crcOk

/-- A long packet with a good header (R305 to R307, R316). -/
def State.longPkt (s : State) (p : Nat) (k : Packet) : State :=
  let vc := k.vc.val
  let st := p * 4 + vc
  let corr := k.hdr.val == 1
  let dt := k.dt.toNat
  if k.vcx || !s.rdB F.CSI_STR_CTRL_EN p vc then s.inc F.CSI_GEN_LONG_CNT p 0
  else if s.rd F.CSI_STR_MAX_WC p vc < k.payload.length then s.inc F.CSI_HDR_UNCORR_CNT p 0
  else if dt = 0x12 ∧ s.rdB F.CSI_STR_CTRL_EMB_EN p vc = true then
    match s.openFrame st with
    | some f => if f.emb + k.payload.length ≤ s.rd F.CSI_EMB_LEN p vc then s.embIn f k.payload k.crcOk else s.inc F.CSI_GEN_LONG_CNT p 0
    | none => s.inc F.CSI_GEN_LONG_CNT p 0
  else if dt ≠ s.rd F.CSI_STR_CTRL_DT p vc then s.inc F.CSI_GEN_LONG_CNT p 0
  else
    let t : State := if (s.openFrame st).isNone then (s.inc F.CSI_FS_INFER_CNT p 0).openNew st true else s
    match t.openFrame st with
    | some f => t.lineIn f k.payload k.crcOk corr
    | none => t

/-! ### Enabling a stream (R308) -/

/-- R308: the stream's configuration may be enabled. -/
def State.streamOk (s : State) (p vc : Nat) : Bool :=
  let lp := s.rd F.CSI_LINE_PITCH p vc
  let bl := s.rd F.CSI_BUF_LINES p vc
  let emb := if s.rdB F.CSI_STR_CTRL_EMB_EN p vc then s.rd F.CSI_EMB_LEN p vc else 0
  lp % 64 == 0 && decide (lineBytes (s.rd F.CSI_STR_CTRL_DT p vc) (s.rd F.CSI_STR_GEOM_WIDTH p vc) ≤ lp)
    && (s.rd F.CSI_STR_CTRL_LINE_POLICY p vc != 1 || decide (s.rd F.CSI_STR_MAX_WC p vc ≤ lp))
    && decide (64 ≤ bl ∧ bl ≤ 512) && decide (emb + bl * lp ≤ (s.rd F.CSI_POOL_CFG_BUF_KIB p 0 - 1) * 1024)

/-- The fields of STR_CTRL beside EN, from a word. -/
def State.strCtrl (s : State) (p vc v : Nat) : State :=
  (((((s.wr F.CSI_STR_CTRL_DT p vc (bitsOf v 2 6)).wr F.CSI_STR_CTRL_LINE_POLICY p vc (bitsOf v 8 1)).wr
    F.CSI_STR_CTRL_PAD_SRC p vc (bitsOf v 9 1)).wr F.CSI_STR_CTRL_EMB_EN p vc (bitsOf v 10 1)).wr
    F.CSI_STR_CTRL_BIND_HOLD p vc (bitsOf v 11 1)).wr F.CSI_STR_CTRL_RETAIN p vc (bitsOf v 12 3)

/-- A write of STR_CTRL: with EN 0 its other fields are written; EN = 1 enables the stream, its frame count from 0 (R304), or
sets CFG_ERR; EN = 0 disables it. -/
def State.strWrite (s0 : State) (p vc v : Nat) : State :=
  let s := s0.lockWord F.CSI_STR_CTRL_EN p vc v
  if s.rdB F.CSI_STR_CTRL_EN p vc then
    if bitOf v 0 then s else s.wr F.CSI_STR_CTRL_EN p vc 0
  else
    let t := s.strCtrl p vc v
    if !bitOf v 0 then t
    else if t.streamOk p vc then
      let u := t.wr F.CSI_STR_CTRL_EN p vc 1
      { u with cam := { u.cam with counts := storeSet 0 u.cam.counts (p * 4 + vc) 0 } }
    else (t.wr F.CSI_STR_STAT_CFG_ERR p vc 1).raise (0x060 + p) 4

/-- STREAM_ENABLE: a write of STR_CTRL. -/
def execStreamEnable (port : Fin 16) (vc : Fin 4) (v : Word) (s : State) : Outcome State Fault Refusal :=
  .next (s.reach (0x060 + port.val) (fun t => t.strWrite port.val vc.val v.toNat))

end Sys2Proof.Machine
end

