-- ==== Sys2Proof/Machine/Flash.lean ====
section
/-! DEFINITION. The in-package flash (spec/18, R581 to R590): reading, programming and erasing it, the slots with their markers, the firmware
image's checks, and the boot record. -/

namespace Sys2Proof.Machine

/-- n bytes of the flash from an offset. -/
def State.flashRd (s : State) (ofs n : Nat) : List Byte := (List.range n).map (fun i => s.byteAt (flashBase + ofs + i))

/-- Bytes programmed from an offset: each takes the value given (log 61). -/
def State.flashWr (s : State) (ofs : Nat) : List Byte → State
  | [] => s
  | b :: t => (s.setByte (flashBase + ofs) b).flashWr (ofs + 1) t

/-- Bytes erased: they read 0xFF (R581). -/
def State.flashErase (s : State) (ofs n : Nat) : State := s.forget (flashBase + ofs) (flashBase + ofs + n)

/-- n bytes whose program or erase was interrupted: each reads a free value (R581). -/
def State.flashScramble (s : State) (ofs : Nat) : Nat → State
  | 0 => s
  | n + 1 => ((s.setByte (flashBase + ofs) (BitVec.ofNat 8 (s.freeVal 8))).tookFree).flashScramble (ofs + 1) n

/-! ### Slots (Tables FW-1, FW-6) -/

/-- Offset and size of a slot: 1 is A, 2 is B. -/
def slotOfs (k : Nat) : Nat := if k = 2 then 0x5000000 else 0x2000000
def slotSize : Nat := 0x3000000

/-- The most bytes an image may have. -/
def imageMax : Nat := 0x2FFF000

/-- Table FW-6: 0 EMPTY, 1 WRITING, 2 VERIFIED, 3 INVALID. -/
def slotState (writing verified : Nat) : Nat :=
  if writing = 0 ∧ verified = 0 then 2
  else if writing = 0xFFFFFFFF ∧ verified = 0xFFFFFFFF then 0
  else if writing ≠ 0xFFFFFFFF ∧ verified ≠ 0 then 1
  else 3
def State.slotMarks (s : State) (k : Nat) : Nat × Nat := (leAt (s.flashRd (slotOfs k) 4) 0 4, leAt (s.flashRd (slotOfs k + 4) 4) 0 4)
def State.slotStat (s : State) (k : Nat) : Nat := slotState (s.slotMarks k).1 (s.slotMarks k).2

/-- The image of a slot: its first 512 bytes, and as many bytes as its header names. -/
def State.slotHeader (s : State) (k : Nat) : List Byte := s.flashRd (slotOfs k + 4096) 512
def State.slotImage (s : State) (k : Nat) : List Byte := s.flashRd (slotOfs k + 4096) (min (leAt (s.slotHeader k) 0x14 4) imageMax)

/-- An erase of a slot that was interrupted: any byte of it may read any value until it is erased again, and the slot is EMPTY, WRITING or
INVALID (R581, Table FW-9). -/
def State.slotBroken (s : State) (k : Nat) : State :=
  let t := s.flashScramble (slotOfs k) slotSize
  t.flashWr (slotOfs k + 4) [t.byteAt (flashBase + slotOfs k + 4) ||| 1#8]

/-! ### The firmware image (Tables FW-2 to FW-4) -/

/-- A section: type, offset, length and LOAD. -/
structure Sect where
  type : Nat
  ofs : Nat
  len : Nat
  load : Nat
  rsvd : Nat
deriving DecidableEq, Repr

/-- The sections that an image's table lists. -/
def sections (img : List Byte) : List Sect :=
  (List.range (min (leAt img 0x1C 4) 8)).map (fun i =>
    let o := 0x20 + 16 * i
    { type := leAt img o 1, rsvd := leAt img (o + 1) 3, ofs := leAt img (o + 4) 4, len := leAt img (o + 8) 4, load := leAt img (o + 12) 4 })

/-- The bytes of an image's first section of a type. -/
def sectBytes (img : List Byte) (ty : Nat) : List Byte :=
  match (sections img).find? (fun x => x.type == ty) with
  | some x => (img.drop x.ofs).take x.len
  | none => []

/-- Check 2 of Table FW-4, for an image in a source of `room` bytes. -/
def imageForm (img : List Byte) (room : Nat) : Bool :=
  let len := leAt img 0x14 4
  let ss := sections img
  let n (ty : Nat) : Nat := (ss.filter (fun x => x.type == ty)).length
  let fits (x : Sect) : Bool :=
    decide (1 ≤ x.type) && decide (x.type ≤ 4) && x.rsvd == 0 && x.ofs % 4096 == 0 && decide (0x200 ≤ x.ofs) && decide (x.ofs + x.len ≤ len - 96)
      && (x.type == 3 || x.load == 0)
      && (if x.type = 1 then decide (x.len ≤ 0x200000) else if x.type = 2 then decide (x.len ≤ 0x40000)
          else if x.type = 3 then decide (x.len ≤ 0x2800000) else true)
  leAt img 0 4 == 0x53554F53 && leAt img 4 2 == 0x0101 && len % 4096 == 0 && decide (0 < len) && decide (len ≤ imageMax) && decide (len ≤ room)
    && decide (1 ≤ leAt img 0x1C 4) && decide (leAt img 0x1C 4 ≤ 8) && n 1 == 1 && n 2 == 1 && decide (n 3 ≤ 1) && ss.all fits
    && bitsOf (leAt img 6 2) 2 14 == 0 && ((img.drop 0x100).take 0x100).all (fun b => b == 0#8)

/-- The image digest. -/
def imageDigest (img : List Byte) : List Byte := sha384 (img.take (leAt img 0x14 4 - 96))

/-- Twelve words as 48 bytes. -/
def State.words48 (s : State) (f : Fld) : List Byte := (List.range 12).flatMap (fun w => toBytes 4 (s.rd f 0 w))

/-- R583, checks 2 to 6, in order: 0, or the code of the first that fails. -/
def State.imageCode (s : State) (img : List Byte) (room : Nat) : Nat :=
  let pub := (img.drop 0xA0).take 96
  if !imageForm img room then 0x20
  else if !bitOf (leAt img 6 2) (if s.rd F.SEC_FUSE_CFG_GRADE 0 0 = 1 then 0 else 1) then 0x21
  else if sha384 pub ≠ s.words48 F.SEC_KEY_HASH then 0x22
  else if leAt img 0x10 4 < s.rd F.SEC_SVN_FUSED 0 0 then 0x23
  else if !ecdsaOk pub (imageDigest img) ((img.drop (leAt img 0x14 4 - 96)).take 96) then 0x24
  else 0

/-- R583 for a slot: check 1, then the others. -/
def State.slotCode (s : State) (k : Nat) : Nat :=
  if s.slotMarks k = (0, 0) then s.imageCode (s.slotImage k) imageMax else 0x25

/-- A failure of check 6 is counted and its event raised (Table FW-13). -/
def State.sigNote (s : State) (code : Nat) : State := if code = 0x24 then (s.inc F.SEC_SIG_FAIL_CNT 0 0).raise 0x0E0 1 else s

/-! ### The boot record (R588, R589) -/

/-- A boot record. -/
structure BootRec where
  seq : Nat
  active : Nat := 1
  prev : Nat := 2
  trial : Bool := false
  tries : Nat := 0
  reverted : Bool := false
  version : List Byte := List.replicate 8 0#8
  svn : Nat := 0
  digest : List Byte := List.replicate 48 0#8
deriving DecidableEq, Repr

def recMagic : Nat := 0x43455242
def recOfs (copy : Nat) : Nat := copy * 0x100000

/-- The 252 bytes of a record before its CRC: the places of the fields are the model's (log 62). -/
def BootRec.body (r : BootRec) : List Byte :=
  toBytes 4 recMagic ++ toBytes 4 r.seq ++ toBytes 4 (r.active + 256 * r.prev) ++ toBytes 4 (b2n r.trial + 256 * r.tries + 65536 * b2n r.reverted)
    ++ r.version ++ toBytes 4 r.svn ++ r.digest ++ List.replicate 176 0#8

/-- The whole record: the CRC is taken with its own field zero. -/
def BootRec.bytes (r : BootRec) : List Byte := r.body ++ toBytes 4 (crc32c (r.body ++ List.replicate 4 0#8))

/-- The record of a copy, if it is valid. -/
def State.recOf (s : State) (copy : Nat) : Option BootRec :=
  let bs := s.flashRd (recOfs copy) 256
  if leAt bs 0 4 = recMagic ∧ leAt bs 252 4 = crc32c (bs.take 252 ++ List.replicate 4 0#8) then
    some { seq := leAt bs 4 4, active := leAt bs 8 1, prev := leAt bs 9 1, trial := bitOf (leAt bs 12 1) 0, tries := leAt bs 13 1 % 4,
           reverted := bitOf (leAt bs 14 1) 0, version := (bs.drop 16).take 8, svn := leAt bs 24 4, digest := (bs.drop 28).take 48 }
  else none

/-- The newest valid record and the copy that holds it. -/
def State.newest (s : State) : Option (BootRec × Nat) :=
  match s.recOf 0, s.recOf 1 with
  | some a, some b => if serialLt 32 a.seq b.seq then some (b, 1) else some (a, 0)
  | some a, none => some (a, 0)
  | none, some b => some (b, 1)
  | none, none => none

/-- The record that the ROM and firmware go by: with neither copy valid ACTIVE = A, PREV = B and TRIAL = 0. -/
def State.bootRec (s : State) : BootRec := (s.newest.map (fun x => x.1)).getD { seq := 0 }

/-- R589: a record written to the copy that does not hold the newest, its SEQ one greater. -/
def State.recWrite (s : State) (r : BootRec) : State :=
  let copy := match s.newest with
    | some (_, c) => 1 - c
    | none => 0
  (s.flashErase (recOfs copy) 0x100000).flashWr (recOfs copy) ({ r with seq := (s.bootRec.seq + 1) % 2 ^ 32 } : BootRec).bytes

/-- A record with the VERSION, SVN and DIGEST of the image of its ACTIVE slot. -/
def State.recFor (s : State) (r : BootRec) : BootRec :=
  let h := s.slotHeader r.active
  { r with version := (h.drop 8).take 8, svn := leAt h 0x10 4, digest := imageDigest (s.slotImage r.active) }

/-- The registers that show slots and record (Table FW-12). -/
def State.slotSync (s : State) : State :=
  let r := s.bootRec
  ((((((s.wr F.FW_SLOT_STAT_A 0 0 (s.slotStat 1)).wr F.FW_SLOT_STAT_B 0 0 (s.slotStat 2)).wr F.FW_BREC_SEQ 0 0 r.seq).wr F.FW_NEXT_INFO_SLOT 0 0
    r.active).wr F.FW_NEXT_VER 0 0 (ofBytes r.version)).wr F.FW_STATE_TRIES 0 0 r.tries)

end Sys2Proof.Machine
end

