-- ==== Sys2Proof/Machine/Quiesce.lean ====
section
/-! DEFINITION. The mailbox command in progress, how it ends, and what a supply warning or a loss of supply does to the flash (spec/18, R581,
R597, R602 to R604). -/

namespace Sys2Proof.Machine

/-- A flash operation that stops short: an erase of the target slot, or a chunk being programmed (its bytes and its source stand in the command:
target slot, offset, address low, address high, length). -/
def State.flashBreak (s : State) : State :=
  match s.fw.cmd, s.fw.acting with
  | some (code, slot :: args), true =>
    if code = 0x10 ∨ code = 0x16 then s.slotBroken slot
    else if code = 0x11 then s.flashScramble (slotOfs slot + args.getD 0 0) (args.getD 3 0)
    else s
  | _, _ => s

/-- The mailbox command in progress ends with a result (Table FW-8); 0x0C interrupts it. -/
def State.mbEnd (s : State) (result : Nat) : State :=
  match s.fw.cmd with
  | some _ =>
    let t := if result = 0x0C then s.flashBreak else s
    (((({ t with fw := { t.fw with cmd := none, acting := false, standby := none } } : State).wr F.FW_MB_STAT_BUSY 0 0 0).wr
      F.FW_MB_STAT_RESULT 0 0 result).raise 0x0D0 0).slotSync
  | none => s

/-- FLASH_QUIESCE (R603): a supply warning ends the mailbox command in progress with 0x0C; an erase that it interrupts is not resumed
(R604), and a record or journal write in progress has been performed whole. -/
def State.flashQuiesce (s : State) : State := if s.fw.cmd.isSome then (s.mbEnd 0x0C).raise 0x0D0 4 else s

/-- A BROWNOUT_WARN stands, or has cleared. -/
def State.brownout (s : State) (on : Bool) : State :=
  let t := { s with fw := { s.fw with brown := on } }
  if on then t.flashQuiesce else t

end Sys2Proof.Machine
end

