-- ==== Sys2Proof/Machine/Orrery.lean ====
section
/-! DEFINITION. Grid time and the Orrery: mains stamps, the two channels, steps, the mapping, pulse outputs and CAPTURE entries
(spec/02, R34 to R58, R65 to R68, R735; spec/23, R727, R729). -/

namespace Sys2Proof.Machine

open Host

/-! ### Time conversions -/

/-- Microseconds as phase units of the nominal cycle. -/
def State.usToUnits (s : State) (us : Nat) : Nat := s.nsToUnits (us * 1000)

/-- The phase difference of a GT value and the nearest phase 0, in -0x7FFF to +0x8000 (R46). -/
def phaseWrap (d : Int) : Int :=
  let m := d % 65536
  if m ≤ 0x8000 then m else m - 65536

/-! ### Channels (R38 to R47) -/

/-- A channel's record, and its update. -/
def State.chan (s : State) (ch : Nat) : ChanSt := if ch = 0 then s.orr.grid else s.orr.sich
def State.setChan (s : State) (ch : Nat) (c : ChanSt) : State :=
  if ch = 0 then { s with orr := { s.orr with grid := c } } else { s with orr := { s.orr with sich := c } }

/-- The state of a channel (Table ORR-6), and its selected reference. -/
def State.chState (s : State) (ch : Nat) : Nat := s.rd F.ORR_CH_STAT_STATE 0 ch
def State.chSel (s : State) (ch : Nat) : Nat := s.rd F.ORR_CH_STAT_SEL_REF 0 ch

/-- Table ORR-1: the quality a candidate advertises. -/
def State.refQual (s : State) (ch i : Nat) : Nat :=
  if ch = 0 then
    if i = 0 then (if s.orr.qualified then 100 else 255)
    else if i = 1 then s.orr.skewGridQ
    else if i = 2 then (if s.chState 1 = 2 then 200 else if s.chState 1 = 3 then 230 else 250)
    else 255
  else
    if i = 0 then (if s.orr.ptp0Live then s.rd F.ETH_PTP_QUAL 0 0 else 255)
    else if i = 1 then (if s.orr.ptp1Live then s.rd F.ETH_PTP_QUAL 1 0 else 255)
    else if i = 2 then (if s.orr.ppsLive then s.rd F.ORR_SI_QUAL_SW_PPS_QUAL 0 0 else 255)
    else if i = 3 then s.orr.skewSiQ
    else if i = 4 then 248
    else 255

/-- R38: the candidate is eligible. -/
def State.refOk (s : State) (ch i : Nat) : Bool :=
  bitOf (s.rd F.ORR_CH_CTRL_REF_EN 0 ch) i && decide (s.refQual ch i < 255)

/-- R39: the best eligible candidate: by quality, then CH_PRIO, then index. -/
def State.refBest (s : State) (ch : Nat) : Option Nat :=
  leastBy (fun i => (s.refQual ch i * 16 + bitsOf (s.rd F.ORR_CH_PRIO 0 ch) (4 * i) 4) * 8 + i)
    ((List.range 8).filter (s.refOk ch))

/-- The channel runs on its selected reference: ACQUIRING or LOCKED. -/
def State.tracking (s : State) (ch : Nat) : Bool := s.chState ch == 1 || s.chState ch == 2

/-- A channel's state changed (Table ORR-8). -/
def State.chGo (s : State) (ch st : Nat) : State :=
  if s.chState ch = st then s else (s.wr F.ORR_CH_STAT_STATE 0 ch st).raise 0x004 ch

/-- R42, Table ORR-2: HOLDOVER is entered, the frequency frozen; CH_HOLD_EST starts from 0 (R735). -/
def State.holdEnter (s : State) (ch : Nat) : State :=
  (s.setChan ch { s.chan ch with holdStart := s.now, lockRun := 0 }).chGo ch 3

/-- The elapsed time in HOLDOVER and LOST, and CH_HOLD_EST: 100 ppb of it, in phase units or us (R735). -/
def State.holdNs (s : State) (ch : Nat) : Nat := s.now - (s.chan ch).holdStart
def State.holdEst (s : State) (ch : Nat) : Nat :=
  if s.chState ch = 3 ∨ s.chState ch = 4 then
    min 0xFFFFFFFF (if ch = 0 then s.holdNs ch * 19660800 / (s.siPerUnit * 10000000) else s.holdNs ch / 10000000000)
  else 0

/-- The candidate that dwells (R40, R42): the best one where it is not the reference in use. -/
def State.dwellCand (s : State) (ch : Nat) : Option Nat :=
  match s.refBest ch with
  | some b => if (s.tracking ch && b != s.chSel ch) || s.chState ch == 3 then some b else none
  | none => none

/-- R40: the dwell timer restarts whenever the best candidate or its quality changes; it stops with none. -/
def State.dwellTrack (s : State) (ch : Nat) : State :=
  match s.dwellCand ch with
  | some b =>
    let q := s.refQual ch b
    if s.rdB F.ORR_CH_STAT_DWELL_ACTIVE 0 ch && s.rd F.ORR_CH_STAT_DWELL_REF 0 ch == b && (s.chan ch).dwellQual == q then s
    else ((s.setChan ch { s.chan ch with dwellStart := s.now, dwellQual := q }).wr F.ORR_CH_STAT_DWELL_ACTIVE 0 ch 1).wr
      F.ORR_CH_STAT_DWELL_REF 0 ch b
  | none => (s.wr F.ORR_CH_STAT_DWELL_ACTIVE 0 ch 0).wr F.ORR_CH_STAT_DWELL_REF 0 ch 0

/-- The dwell of a candidate has run for SWITCH_DWELL seconds (R40). -/
def State.dwellDone (s : State) (ch b : Nat) : Bool :=
  s.rdB F.ORR_CH_STAT_DWELL_ACTIVE 0 ch && s.rd F.ORR_CH_STAT_DWELL_REF 0 ch == b
    && decide ((s.chan ch).dwellStart + s.rd F.ORR_CH_DWELL_SWITCH_DWELL 0 ch * 1000000000 ≤ s.now)

/-- A quality may have changed: the selected reference's quality is shown, HOLDOVER is entered where it became ineligible (R42),
and the dwell follows. With the main domain off nothing is selected (R37). -/
def State.refCheck (s : State) (ch : Nat) : State :=
  if !s.pwr.mainOn then s
  else
    let s1 := if s.chState ch = 0 then s else s.wr F.ORR_CH_STAT_SEL_QUAL 0 ch (s.refQual ch (s.chSel ch))
    let s2 := if s1.tracking ch && !s1.refOk ch (s1.chSel ch) then s1.holdEnter ch else s1
    s2.dwellTrack ch
def State.refCheckAll (s : State) : State := (s.refCheck 1).refCheck 0

/-! ### Mapping and steps (R45 to R50, R55) -/

/-- The length of a cycle in 1/128 ns at a frequency offset in ppb. -/
def State.nsPerCycle (s : State) (ppb : Int) : Nat :=
  (128000000000 * 1000000000 / ((if s.orr.nominal60 then 60 else 50) * (1000000000 + ppb))).toNat

/-- R55: the mapping is rewritten; MAP_SEQ advances by 2. -/
def State.mapWrite (s : State) : State :=
  (((s.wr F.ORR_MAP_GT 0 0 s.gt).wr F.ORR_MAP_SI 0 0 s.si).wr F.ORR_MAP_NS_PER_CYCLE 0 0
    (s.nsPerCycle (toS 32 (s.rd F.ORR_CH_FREQ_OFS 0 0)))).addW F.ORR_MAP_SEQ 0 0 2

/-- An offset in GT added to a GT value. -/
def gtAdd (g : Nat) (d : Int) : Nat := ofS 64 ((g : Int) + d)

/-- R50, R52: a step added to the offset of each group of the channel. -/
def State.groupsStep (s : State) (ch : Nat) (d : Int) : State :=
  ((List.range 6).filter (fun g => decide (g = 5) == decide (ch = 1))).foldl (fun t g =>
    t.wr F.ORR_GRP_OFS 0 g (ofS 32 (toS 32 (t.rd F.ORR_GRP_OFS 0 g) + d))) s

/-- R45 to R50, R55: one step of a channel: time jumps, the registers and the event follow, group offsets take the step, last
pulses stay on the present scale (R51), commits in a skipped range fall at the step (R48). -/
def State.chStep (s : State) (ch : Nat) (d : Int) : State :=
  let s1 := (((s.wr F.ORR_CH_STEP 0 ch (ofS 64 d)).inc F.ORR_CH_STEP_CNT 0 ch).raise 0x004 (2 + ch)).groupsStep ch d
  let mv (x : Nat × Int) : Nat × Int := if decide (x.1 = 17) == decide (ch = 1) then (x.1, x.2 + d) else x
  let s2 := { s1 with orr := { s1.orr with lastPulse := s1.orr.lastPulse.map mv } }
  let s3 : State :=
    if ch = 0 then
      let t := { s2 with gt := gtAdd s.gt d,
                         orr := { s2.orr with lastCross := gtAdd s2.orr.lastCross d,
                                              judged := s2.orr.judged.map (fun j => gtAdd j d) } }
      if 0 < d then t.commitRange s.gt t.gt else t
    else { s2 with si := gtAdd s.si d }
  s3.mapWrite

/-- R44, R46: the step that a selection applies: none for SYNTH and LOCAL, the phase difference for MAINS, else the offset
measured. -/
def State.stepFor (s : State) (ch i : Nat) (ofs : Int) : Int :=
  if ch = 0 ∧ i = 0 then phaseWrap (-(s.orr.lastCross : Int))
  else if (ch = 0 ∧ i = 2) ∨ (ch = 1 ∧ i = 4) then 0
  else ofs

/-- R45, R47: a reference is selected: ACQUIRING, with one step. -/
def State.chSelect (s : State) (ch i : Nat) (ofs : Int) : State :=
  let s1 := ((s.wr F.ORR_CH_STAT_SEL_REF 0 ch i).wr F.ORR_CH_STAT_SEL_QUAL 0 ch (s.refQual ch i)).setChan ch
    { s.chan ch with lockRun := 0, tracked := (s.chan ch).tracked || !((ch == 0 && i == 2) || (ch == 1 && i == 4)) }
  let s2 := (s1.wr F.ORR_CH_STAT_DWELL_ACTIVE 0 ch 0).wr F.ORR_CH_STAT_DWELL_REF 0 ch 0
  (s2.chGo ch 1).chStep ch (s.stepFor ch i ofs)

/-- R42, R43: HOLDOVER ends in LOST at HOLDOVER_LIMIT or LOST_ERR. -/
def State.lostDue (s : State) (ch : Nat) : Bool :=
  s.chState ch == 3 && (decide (s.rd F.ORR_CH_HOLD_HOLDOVER_LIMIT 0 ch * 1000000000 ≤ s.holdNs ch)
    || decide (s.rd F.ORR_CH_HOLD_LOST_ERR 0 ch ≤ s.holdEst ch))
def State.chLost (s : State) (ch : Nat) : State := (s.chGo ch 4).raise 0x004 6

/-- R39 to R43: selection at a reference event of the channel: FREE and LOST select at once, a dwell that has elapsed switches,
else the LOST test. -/
def State.evaluate (s0 : State) (ch : Nat) (ofs : Int) : State :=
  let s := s0.refCheck ch
  if !s.pwr.mainOn then s
  else
    match s.refBest ch with
    | some b =>
      if s.chState ch = 0 ∨ s.chState ch = 4 then s.chSelect ch b ofs
      else if s.dwellCand ch = some b ∧ s.dwellDone ch b = true then s.chSelect ch b ofs
      else if s.lostDue ch then s.chLost ch else s
    | none => if s.lostDue ch then s.chLost ch else s

/-- R37: the main domain goes off or into reset: a channel that tracks is treated as in HOLDOVER. -/
def State.orrMainOff (s : State) : State :=
  (List.range 2).foldl (fun t ch => if t.tracking ch then t.holdEnter ch else t) s

/-- A start of the main domain restarts the prediction of R727. -/
def State.orrMainOn (s : State) : State := { s with orr := { s.orr with restart := true } }

/-! ### Mains stamps (R35, R36, R466, R727) -/

/-- GRID is ACQUIRING or LOCKED on MAINS. -/
def State.onMains (s : State) : Bool := s.tracking 0 && s.chSel 0 == 0

/-- The corrected crossing of a stamp that arrives now: LAT_NS, AGE_US and ZC_DELAY before it. -/
def State.crossing (s : State) (age : Nat) : Nat :=
  s.gt - s.nsToUnits (s.rd F.BR_LAT_NS 0 0 + age * 1000 + s.rd F.ORR_ZC_DELAY 0 0)

/-- How far a crossing lies from the expected one: phase 0, or the prediction from the last in-window stamp. -/
def State.crossErr (s : State) (x : Nat) : Int :=
  if s.onMains then phaseWrap x
  else
    let p : Int := max 1 s.orr.period
    let m := ((x : Int) - s.orr.lastCross) % p
    if 2 * m ≤ p then m else m - p

/-- R36: fifty in-window crossings in a row requalify MAINS. -/
def State.zcGood (s : State) : State :=
  let n := if s.orr.adverse then 0 else s.orr.zcRun + 1
  { s with orr := { s.orr with zcRun := n, missRun := 0, qualified := s.orr.qualified || decide (50 ≤ n) } }

/-- A stamp: index, AGE_US and period (Table FAR-2). -/
def State.zcStamp (s : State) (m : List Byte) : State :=
  if !s.pwr.mainOn then s
  else
    let x := s.crossing (leAt m 8 2)
    let per := leAt m 10 2
    if s.orr.restart || per == 0xFFFF || decide (-0x199A ≤ s.crossErr x ∧ s.crossErr x ≤ 0x199A) then
      let s1 := s.zcGood
      let near := (x + 32768) / 65536
      let s2 := { s1 with orr := { s1.orr with lastCross := x, restart := false,
                                               period := if per = 0xFFFF then 65536 else s.usToUnits per,
                                               judged := some (if s.onMains then near * 65536 else x) } }
      (s2.wr F.BR_ZC_OFS 0 0 (ofS 32 ((leAt m 4 4 : Int) - near))).refCheckAll
    else s

/-- ZC_STAMP. -/
def execZcStamp (m : List Byte) (s : State) : Outcome State Fault Refusal := .next (s.brArrive m 0x81 (fun t => t.zcStamp m))

/-- The next expected crossing that has not been judged; none before a prediction has started. -/
def State.expected (s : State) : Option Nat :=
  if s.onMains then
    some (match s.orr.judged with
      | some j => ((j + 32768) / 65536 + 1) * 65536
      | none => (s.gt + 32768) / 65536 * 65536)
  else if s.orr.restart then none
  else
    match s.orr.judged with
    | some j =>
      let p := max 1 s.orr.period
      some (s.orr.lastCross + ((j - s.orr.lastCross) / p + 1) * p)
    | none => none

/-- ZC_MISS: 60 us past its window an expected crossing without a stamp is judged missing (R35); three in a row disqualify MAINS
(R36). -/
def State.zcMiss (s : State) : State :=
  match s.expected with
  | some e =>
    if s.pwr.mainOn = true ∧ e + 0x199A + s.usToUnits 60 ≤ s.gt then
      let s1 := (s.inc F.ORR_ZC_MISS 0 0).raise 0x004 4
      let n := s.orr.missRun + 1
      ({ s1 with orr := { s1.orr with judged := some e, zcRun := 0, missRun := n,
                                      qualified := s1.orr.qualified && decide (n < 3) } }).refCheckAll
    else s
  | none => s

/-- ZC_MISS. -/
def execZcMiss (s : State) : Outcome State Fault Refusal := .next s.zcMiss

/-- MAINS_STAT: the last report and its flags; OUTAGE, SAG or FREQ_RANGE disqualify MAINS and restart the count (R36);
BROWNOUT_WARN is the wake cause BROWNOUT (R496). -/
def State.mainsStat (s : State) (m : List Byte) : State :=
  let fl := leAt m 8 1
  let bad := bitOf fl 0 || bitOf fl 1 || bitOf fl 3
  let s1 := ({ s with br := { s.br with lastMains := m },
                      orr := { s.orr with adverse := bad, zcRun := if bad then 0 else s.orr.zcRun,
                                          qualified := s.orr.qualified && !bad } })
  let s2 := (((s1.wr F.BR_STAT_MAINS_FLAGS 0 0 fl).wr F.BR_MAINS_RMS_RMS 0 0 (leAt m 4 2)).wr F.BR_MAINS_RMS_FREQ 0 0 (leAt m 6 2))
  let s3 := if bitOf fl 4 then (s2.raise 0x090 3).wakeLatch 5 else s2
  (s3.brownout (bitOf fl 4)).refCheckAll

/-- MAINS_STAT. -/
def execMainsStat (m : List Byte) (s : State) : Outcome State Fault Refusal := .next (s.brArrive m 0x82 (fun t => t.mainsStat m))

/-! ### Reference events -/

/-- The loop's phase error and frequency at a reference event, and the run of errors below the lock threshold (Table ORR-2):
0x148 phase units for GRID, 1 us for SI. SYNTH and LOCAL carry no loop. -/
def State.loopEvent (s : State) (ch : Nat) (err frq : Int) : State :=
  if s.tracking ch then
    let own := (ch == 0 && s.chSel 0 == 2) || (ch == 1 && s.chSel 1 == 4)
    let e := if own then 0 else err
    let c := s.chan ch
    let ok := decide (e.natAbs < (if ch = 0 then 0x148 else 1000))
    let s1 := (s.setChan ch { c with lockRun := if ok then c.lockRun + 1 else 0 }).wr F.ORR_CH_PHASE_ERR 0 ch (ofS 32 e)
    if own then (if ch = 0 then s1.wr F.ORR_CH_FREQ_OFS 0 ch 0 else s1) else s1.wr F.ORR_CH_FREQ_OFS 0 ch (ofS 32 frq)
  else s

/-- What is published once a cycle: the busy fractions of the engines, which are measured (log 35). -/
def State.loads (s : State) : State :=
  [(F.SV_LOAD, 0), (F.SV_LOAD, 1), (F.MD_LOAD, 0), (F.EN_LOAD, 0)].foldl (fun t x => (t.wr x.1 x.2 0 (t.freeVal 10)).tookFree) s

/-- GRID_PHASE_ZERO: GT is at phase 0 of a cycle: NOMINAL_HZ takes effect (R729), the channel evaluates its references (R39), the
mapping is rewritten (R55), and the head sends TIME (R672). -/
def State.phaseZero (s : State) (ofs err frq : Int) : State :=
  if s.gt % 65536 = 0 ∧ s.orr.phaseZeroAt ≠ some s.gt ∧ s.pwr.mainOn = true then
    let s1 := { s with orr := { s.orr with phaseZeroAt := some s.gt, nominal60 := s.rdB F.ORR_GRID_CTRL_NOMINAL_HZ 0 0 } }
    ((((s1.loopEvent 0 err frq).mapWrite).evaluate 0 ofs).loads).skTime
  else s

/-- GRID_PHASE_ZERO. -/
def execGridPhaseZero (ofs : BitVec 64) (phaseErr freqOfs : BitVec 32) (s : State) : Outcome State Fault Refusal :=
  .next (s.phaseZero ofs.toInt phaseErr.toInt freqOfs.toInt)

/-- SI_SECOND_BOUNDARY: SI time enters a second: the SI channel's reference event. -/
def State.secondBoundary (s : State) (ofs err frq : Int) : State :=
  if s.si / 1000000000 ≠ s.orr.siSecond ∧ s.pwr.mainOn = true then
    let s1 := { s with orr := { s.orr with siSecond := s.si / 1000000000 } }
    ((s1.loopEvent 1 err frq).evaluate 1 ofs).refCheck 0
  else s

/-- SI_SECOND_BOUNDARY. -/
def execSiSecondBoundary (ofs : BitVec 64) (phaseErr freqOfs : BitVec 32) (s : State) : Outcome State Fault Refusal :=
  .next (s.secondBoundary ofs.toInt phaseErr.toInt freqOfs.toInt)

/-- SWITCH_DWELL_ELAPSED: a better candidate has been eligible and best for SWITCH_DWELL (R40). -/
def State.dwellElapsed (s0 : State) (ch : Nat) (ofs : Int) : State :=
  let s := s0.refCheck ch
  match s.dwellCand ch with
  | some b => if s.pwr.mainOn && s.dwellDone ch b then s.chSelect ch b ofs else s
  | none => s

/-- SWITCH_DWELL_ELAPSED. -/
def execSwitchDwellElapsed (ch : Fin 2) (ofs : BitVec 64) (s : State) : Outcome State Fault Refusal :=
  .next (s.dwellElapsed ch.val ofs.toInt)

/-- CH_LOCK: ten reference events in a row below the lock threshold; selection is evaluated first. -/
def State.chLock (s0 : State) (ch : Nat) (ofs : Int) : State :=
  let s := s0.evaluate ch ofs
  if s.chState ch = 1 ∧ 10 ≤ (s.chan ch).lockRun then (s.chGo ch 2).refCheckAll else s

/-- CH_LOCK. -/
def execChLock (ch : Fin 2) (ofs : BitVec 64) (s : State) : Outcome State Fault Refusal := .next (s.chLock ch.val ofs.toInt)

/-- HOLDOVER_LIMIT and HOLD_EST_LOST: at either bound HOLDOVER ends in LOST, unless a switch is due at the same event (R43). -/
def execHoldoverLimit (ch : Fin 2) (ofs : BitVec 64) (s : State) : Outcome State Fault Refusal :=
  .next (s.evaluate ch.val ofs.toInt)
def execHoldEstLost (ch : Fin 2) (ofs : BitVec 64) (s : State) : Outcome State Fault Refusal :=
  .next (s.evaluate ch.val ofs.toInt)

/-! ### Pulse outputs (R50 to R53) -/

/-- A group's offset. -/
def State.grpOfs (s : State) (g : Nat) : Int := toS 32 (s.rd F.ORR_GRP_OFS 0 g)

/-- The period of an FSYNC output in cycles: 0 reads as 1. -/
def State.fsyncPeriod (s : State) (n : Nat) : Nat := max 1 (s.rd F.ORR_FSYNC_CFG_PERIOD_CYC 0 n)

/-- R53: an enabled output fires now with its group at an offset: outputs 0 to 15 FSYNC, 16 GRID_OUT, 17 PPS_OUT. -/
def State.firesAt (s : State) (n : Nat) (ofs : Int) : Bool :=
  if n < 16 then
    let t := (s.gt : Int) - ofs
    let p : Int := s.fsyncPeriod n
    s.rdB F.ORR_FSYNC_CFG_EN 0 n && decide (t % 65536 = s.rd F.ORR_FSYNC_CFG_PHASE 0 n)
      && decide ((t / 65536 - (s.rd F.ORR_FSYNC_ANC_ANCHOR 0 n : Int) % p) % p = 0)
  else if n = 16 then s.rdB F.ORR_GRID_OUT_CFG_EN 0 0 && decide (((s.gt : Int) - ofs) % 65536 = 0)
  else s.rdB F.ORR_PPS_OUT_CFG_EN 0 0 && decide ((s.orr.ppsSecond : Int) < ((s.si : Int) - ofs) / 1000000000)

/-- The group of an output, and the outputs of a group. -/
def State.pulseGroup (s : State) (n : Nat) : Nat := if n < 16 then s.rd F.ORR_FSYNC_CFG_GROUP 0 n else if n = 16 then 4 else 5
def State.outputsOf (s : State) (g : Nat) : List Nat := (List.range 18).filter (fun n => s.pulseGroup n == g)

/-- The period of an output: phase units, or ns for PPS_OUT. -/
def State.outPeriod (s : State) (n : Nat) : Nat := if n < 16 then s.fsyncPeriod n * 65536 else if n = 16 then 65536 else 1000000000

/-- A write of REALIGN (R51): pending bits are set; a group with no enabled output is realigned at once. -/
def State.realignWrite (s : State) (v : Nat) : State :=
  (s.wr F.ORR_REALIGN_PEND_GRP 0 0 (s.rd F.ORR_REALIGN_PEND_GRP 0 0 ||| (v % 64))).realignLost

/-- REALIGN. -/
def execRealign (v : Word) (s : State) : Outcome State Fault Refusal := .next (s.reach 0x004 (fun t => t.realignWrite v.toNat))

/-- R51: the group's next pulse decision: an enabled output would fire now with the present offset or with none. The offset is
zero, and each output is held to half its period after its last pulse. -/
def State.realignDecide (s : State) (g : Nat) : State :=
  if bitOf (s.rd F.ORR_REALIGN_PEND_GRP 0 0) g && (s.outputsOf g).any (fun n => s.firesAt n (s.grpOfs g) || s.firesAt n 0) then
    let t := s.realignDone g
    { t with orr := { t.orr with realigned := s.outputsOf g ++ t.orr.realigned.filter (fun n => !(s.outputsOf g).contains n) } }
  else s

/-- REALIGN_DECISION. -/
def execRealignDecision (g : Fin 6) (s : State) : Outcome State Fault Refusal := .next (s.realignDecide g.val)

/-- The instant of a pulse: GT, or the SI second boundary of PPS_OUT after its offset. -/
def State.pulseAt (s : State) (n : Nat) : Int :=
  if n = 17 then ((s.si : Int) - s.grpOfs 5) / 1000000000 * 1000000000 + s.grpOfs 5 else s.gt

/-- A pulse of an output that is due now, after the decision a pending REALIGN calls for; one closer to the last pulse than half
a period is skipped where a REALIGN holds the output (R51). -/
def State.pulse (s0 : State) (n : Nat) : State :=
  let s := s0.realignDecide (s0.pulseGroup n)
  let at_ := s.pulseAt n
  let last := (s.orr.lastPulse.find? (fun x => x.1 == n)).map (fun x => x.2)
  if s.firesAt n (s.grpOfs (s.pulseGroup n)) && last != some at_ && s.pwr.mainOn then
    let sec := if n = 17 then (at_ - s.grpOfs 5).toNat / 1000000000 else s.orr.ppsSecond
    let close := match last with
      | some l => s.orr.realigned.contains n && decide (at_ < l + s.outPeriod n / 2)
      | none => false
    let t := { s with orr := { s.orr with ppsSecond := sec } }
    if close then t
    else ({ t with orr := { t.orr with lastPulse := (n, at_) :: t.orr.lastPulse.filter (fun x => x.1 != n),
                                       realigned := t.orr.realigned.filter (fun x => x != n) } }).emit (.pulse n at_.toNat)
  else s

/-- FSYNC_PULSE, GRID_OUT_PULSE, PPS_OUT_PULSE. -/
def execFsyncPulse (n : Fin 16) (s : State) : Outcome State Fault Refusal := .next (s.pulse n.val)
def execGridOutPulse (s : State) : Outcome State Fault Refusal := .next (s.pulse 16)
def execPpsOutPulse (s : State) : Outcome State Fault Refusal := .next (s.pulse 17)

/-! ### Snapshot and CAPTURE entries -/

/-- SNAP.TAKE captures GT and SI together (R57). -/
def State.snapTake (s : State) (v : Nat) : State :=
  if bitOf v 0 then (s.wr F.ORR_SNAP_GT 0 0 s.gt).wr F.ORR_SNAP_SI 0 0 s.si else s

/-- SNAP_TAKE. -/
def execSnapTake (v : Word) (s : State) : Outcome State Fault Refusal := .next (s.reach 0x004 (fun t => t.snapTake v.toNat))

/-- An FSYNC schedule programmed by firmware: the output's live fields and their shadow copies. -/
def State.fsyncProgram (s : State) (c : CaptureEnt) : State :=
  let n := c.output % 16
  let w (f : Fld) (v : Nat) (t : State) : State := (t.wrSh f 0 n v).wr f 0 n v
  ((w F.ORR_FSYNC_CFG_PHASE (bitsOf c.cfg 0 16) s |> w F.ORR_FSYNC_CFG_PERIOD_CYC (bitsOf c.cfg 16 8)
    |> w F.ORR_FSYNC_CFG_GROUP (bitsOf c.cfg 28 2) |> w F.ORR_FSYNC_CFG_POL (bitsOf c.cfg 30 1)
    |> w F.ORR_FSYNC_CFG_EN (bitsOf c.cfg 31 1) |> w F.ORR_FSYNC_ANC_ANCHOR c.anchor)).realignLost

/-- CAPTURE_OCCURRENCE: a due CAPTURE entry programs its FSYNC schedule, or is skipped a full period late (R65 to R67). -/
def State.captureOcc (s : State) (num : Nat) : State :=
  match s.captures.find? (fun c => c.num == num) with
  | some c =>
    if c.due ≤ s.gt ∧ s.fwReady = true then
      let rest := s.captures.filter (fun x => x.num != num)
      let t := { s with captures := if c.period = 0 then rest else { c with due := c.due + c.period } :: rest }
      if c.period ≠ 0 ∧ c.due + c.period ≤ s.gt then t.inc F.ORR_EPH_MISS 0 0 else t.fsyncProgram c
    else s
  | none => s

/-- CAPTURE_OCCURRENCE. -/
def execCaptureOccurrence (num : Nat) (s : State) : Outcome State Fault Refusal := .next (s.captureOcc num)

end Sys2Proof.Machine
end

