-- ==== Sys2Proof/Machine/Cabinet.lean ====
section
/-! DEFINITION. The Vorser cabinet (spec/20, R641 to R657, R668 to R682): joining, forwarding to home members, hand-off and delegation, duplicate
suppression, time over the ring, and the loss of members and of the head. -/

namespace Sys2Proof.Machine

open Host

/-! ### Receiving messages (R669, R675) -/

/-- A message of a member of the cabinet. One of VCA or VCB whose source has been lost is dropped and counted. -/
def State.skFrom (s : State) (src : Nat) (ab : Bool) (k : State → State) : State :=
  if !s.skOn || s.skRole = 0 || src = s.skMe then s
  else if ab && s.sk.dropped.contains src then s.inc F.SK_SRC_DROP_CNT 0 0
  else if s.skMember src then k s
  else s

/-- R669: a RD, WR, CTX_WR or KILL is performed once for each TAG of its source; a repeat is answered with the stored response. -/
def State.skOnce (s : State) (src tag : Nat) (k : State → State × Nat × List Byte) : State :=
  s.skFrom src true (fun t =>
    match t.sk.done.find? (fun d => d.src == src && d.tag == tag) with
    | some d => (t.inc F.SK_TXN_DUP_CNT 0 0).skReply src d.type tag d.data
    | none =>
      let (u, type, data) := k t
      let mine := (u.sk.done.filter (fun d => d.src == src)).take 1023
      let v : State := { u with sk := { u.sk with done := ({ src, tag, type, data } : SkDone) :: mine ++ u.sk.done.filter (fun d => d.src != src) } }
      v.skReply src type tag data)

/-- The response to a transaction of this member's. -/
def State.skAnswered (s : State) (src tag : Nat) (k : SkTxn → State → State) : State :=
  s.skFrom src true (fun t =>
    match t.sk.txns.find? (fun x => x.dest == src && x.tag == tag) with
    | some x => k x { t with sk := { t.sk with txns := t.sk.txns.filter (fun y => !(y.dest == src && y.tag == tag)) } }
    | none => t)

/-- RD_DATA: the read's data, whose values the reader has had as free values (log 21). -/
def execRdData (src : Fin 8) (tag : BitVec 16) (_bytes : List Byte) (s : State) : Outcome State Fault Refusal :=
  .next (s.skAnswered src.val tag.toNat (fun _ t => t))

/-- The writes that a WR stands for are acknowledged. -/
def SkTxn.acked (x : SkTxn) (s : State) : State :=
  match x.cmd with
  | some id => if x.type = 1 then s.writeAck id x.units false none else s
  | none => s

/-- WR_ACK (R668). -/
def execWrAck (src : Fin 8) (tag : BitVec 16) (s : State) : Outcome State Fault Refusal := .next (s.skAnswered src.val tag.toNat SkTxn.acked)

/-- ERR (R668): an error response: a read's command ends FAULT_RECIPE; a refused write of a commit leaves a fault to close with. -/
def SkTxn.refused (x : SkTxn) (s : State) : State :=
  match x.cmd with
  | some id =>
    if x.type = 1 then (s.updCmd id (fun c => { c with fault := some 0x53 })).writeAck id x.units false none
    else if x.type = 0 ∧ (s.cmd id).any (fun c => c.phase == .running) = true then s.killClose id 0x53
    else s
  | none => s

/-- ERR. -/
def execErr (src : Fin 8) (tag : BitVec 16) (s : State) : Outcome State Fault Refusal := .next (s.skAnswered src.val tag.toNat SkTxn.refused)

/-! ### Forwarded context writes (R650) -/

/-- A write of the value to DOORBELL (0), LEASE (1) or CQ_HEAD (2) of a context page, by its original source. -/
def State.ctxForward (s : State) (orig : Src) (which c v : Nat) : State :=
  s.ctxWrite orig c (fun t => if which = 0 then t.doorbell c v else if which = 1 then t.lease c v else t.cqHead c v)

/-- CTX_WR. -/
def execCtxWr (src : Fin 8) (tag : BitVec 16) (orig : Src) (which : Fin 3) (c : BitVec 8) (v : Word) (s : State) : Outcome State Fault Refusal :=
  .next (s.skOnce src.val tag.toNat (fun t => (t.ctxForward orig which.val c.toNat v.toNat, 6, [])))

/-- CAB_DOORBELL, CAB_LEASE and CAB_CQHEAD: the head performs the write at home or forwards it; another device ignores it. -/
def State.cabWrite (s : State) (src : Src) (which v : Nat) : State :=
  let ctx := bitsOf v 0 11
  if s.skRole ≠ 1 then s
  else if ctx / 256 = s.skMe then s.ctxForward src which (ctx % 256) (v / 65536)
  else if s.skMember (ctx / 256) then
    let t := s.skRequest (ctx / 256) 3 none 0 8 ctx (toBytes 4 (v / 65536) ++ s.remoteBytes 4)
    { t with fresh := t.fresh + 4 }
  else s

/-- CAB_DOORBELL. -/
def execCabDoorbell (src : Src) (v : Word) (s : State) : Outcome State Fault Refusal := .next (s.reach skPage (fun t => t.cabWrite src 0 v.toNat))

/-- CAB_LEASE. -/
def execCabLease (src : Src) (v : Word) (s : State) : Outcome State Fault Refusal := .next (s.reach skPage (fun t => t.cabWrite src 1 v.toNat))

/-- CAB_CQHEAD. -/
def execCabCqhead (src : Src) (v : Word) (s : State) : Outcome State Fault Refusal := .next (s.reach skPage (fun t => t.cabWrite src 2 v.toNat))

/-! ### Hand-off and delegation (R651 to R657, R670) -/

/-- A command of a context is removed with no record: its slots are killed. -/
def State.dropCmd (s : State) (id : Nat) : State :=
  let t := (s.orbDrop id).killCmd id
  { t with sch := { t.sch with cmds := t.sch.cmds.filter (fun c => c.id != id) } }

/-- The partition of another member's context. -/
def State.skPart (s : State) (ctx part : Nat) : State := { s with sk := { s.sk with parts := storeSet 0 s.sk.parts ctx part } }

/-- HANDOFF: the head's firmware has an accepted F-class or B-class command of a follower's context in its hand-off queue. -/
def State.handoffIn (s : State) (src ctx part : Nat) (bs : List Byte) : State :=
  s.skFrom src false (fun t =>
    let d := parseDesc bs
    if t.skRole = 1 ∧ ctx / 256 = src ∧ d.cls ≠ 0 then
      let x := t.ctx ctx
      let known := t.sch.bkts.any (fun b => b.ctx == ctx && b.cls == 1)
      let o := if known then t else (t.bktOpen ctx 1).bktOpen ctx 2
      let u := (o.skPart ctx part).setCtx { x with
        window := ({ seq := d.seq } : WinEnt) :: x.window.filter (fun w => decide ((d.seq + 2 ^ 32 - w.seq) % 2 ^ 32 < 64)) }
      (u.newCmd ctx d none).1
    else t)

/-- HANDOFF. -/
def execHandoff (src : Fin 8) (ctx : BitVec 11) (part : Fin 16) (desc : List Byte) (s : State) : Outcome State Fault Refusal :=
  .next (s.handoffIn src.val ctx.toNat part.val desc)

/-- DELEGATE: the head's placement arrives: the command takes its slots here, or is ready to act; a repeat is answered with the latest REPORT. -/
def State.delegateIn (s : State) (src ctx part attempt reruns : Nat) (ks : List Nat) (bs : List Byte) : State :=
  s.skFrom src true (fun t =>
    let d := parseDesc bs
    match t.sk.deleg.find? (fun x => x.ctx == ctx && x.seq == d.seq && x.attempt == attempt) with
    | some _ => (t.inc F.SK_DEL_DUP_CNT 0 0).skNote src 8 (ctx + d.seq * 2 ^ 32) 32
    | none =>
      if t.skRole ≠ 2 ∨ src ≠ 0 then t
      else
        let own := t.sch.cmds.find? (fun c => c.ctx == ctx && c.desc.seq == d.seq && c.phase == .away)
        let id := match own with
          | some c => c.id
          | none => t.sch.nextId
        let u := match own with
          | some c => t.updCmd c.id (fun x => { x with phase := .ready })
          | none =>
            let c : Cmd := { id, ctx, desc := d, phase := .ready, consumedAt := t.now, admitGt := t.gt, reserved := 0, reruns, attempt,
                             memberRerun := decide (0 < attempt) }
            ({ t with sch := { t.sch with nextId := id + 1, cmds := t.sch.cmds ++ [c] } } : State).skPart ctx part
        let v : State := { u with sk := { u.sk with deleg := ({ ctx, seq := d.seq, attempt, id } : SkDeleg) :: u.sk.deleg } }
        match v.cmd id with
        | some c => if d.opcode = 1 ∧ ks.all (v.canTake c) = true ∧ ks.length = v.partsOf d then v.place c ks else v
        | none => v)

/-- DELEGATE. -/
def execDelegate (src : Fin 8) (ctx : BitVec 11) (part : Fin 16) (attempt reruns : Byte) (kettles : List (Fin 16)) (desc : List Byte) (s : State) :
    Outcome State Fault Refusal :=
  .next (s.delegateIn src.val ctx.toNat part.val attempt.toNat reruns.toNat (kettles.map (fun k => k.val)) desc)

/-- SKEWER_KILL: a delegated command that is not in commit is killed, and the kill reported. -/
def State.killIn (s : State) (ctx seq : Nat) : State :=
  match s.sch.cmds.find? (fun c => c.ctx == ctx && c.desc.seq == seq && s.sk.deleg.any (fun d => d.id == c.id)
      && c.phase != .commit && c.phase != .prov) with
  | some c =>
    let t := s.skReport c 4
    if (t.localPage ctx).isNone then t.dropCmd c.id else (t.killCmd c.id).updCmd c.id (fun x => { x with phase := .away })
  | none => s

/-- SKEWER_KILL. -/
def execSkewerKill (src : Fin 8) (tag : BitVec 16) (ctx : BitVec 11) (seq : Word) (s : State) : Outcome State Fault Refusal :=
  .next (s.skOnce src.val tag.toNat (fun t => (t.killIn ctx.toNat seq.toNat, 8, [])))

/-- A REPORT about a command that is away: 1 start, 2 commit entered, 3 complete with its record's disposition, 4 killed. The home member
writes the record (R655); the head learns of records of other members' contexts for its fences (R657). -/
def State.reportIn (s : State) (ctx seq what disp b20 place : Nat) : State :=
  match s.sch.cmds.find? (fun c => c.ctx == ctx && c.desc.seq == seq && c.phase == .away) with
  | some c =>
    let keep := updWhere (fun x => x.id == c.id) (fun x => { x with report := what }) s.sk.placed
    let t : State := { s with sk := { s.sk with
      placed := if what = 3 ∨ what = 4 then keep.filter (fun x => x.id != c.id) else keep
      txns := s.sk.txns.filter (fun x => !(x.type == 2 && x.cmd == some c.id)) } }
    let u := t.updCmd c.id (fun x => { x with kettle := if what = 3 then place else x.kettle })
    if what = 1 then u.updCmd c.id (fun x => { x with started := some s.now, everStarted := true })
    else if what = 3 then
      match u.cmd c.id with
      | some d => if disp = 2 then u.record d 2 b20 else u.close c.id disp
      | none => u
    else u
  | none =>
    if s.skRole = 1 ∧ what = 3 then
      let x := s.ctx ctx
      s.setCtx { x with window := ({ seq, disp } : WinEnt) :: (x.window.filter (fun w => w.seq != seq)).take 63 }
    else s

/-- REPORT. -/
def execReport (src : Fin 8) (ctx : BitVec 11) (seq : Word) (what : Fin 5) (disp : Byte) (b20 : Word) (place : BitVec 16) (s : State) :
    Outcome State Fault Refusal :=
  .next (s.skFrom src.val true (fun t => t.reportIn ctx.toNat seq.toNat what.val disp.toNat b20.toNat place.toNat))

/-! ### Joining (R644, R645, R682) -/

/-- The contexts take the numbers that the cabinet, or a standalone device, gives them (Table SKW-1). -/
def State.renumber (s : State) (f : Nat → Nat) : State :=
  let g (c : Nat) : Nat := if c = fwCtx then c else f c
  { s with
    sch := { s.sch with
      cmds := s.sch.cmds.map (fun c => { c with ctx := g c.ctx })
      ctxs := s.sch.ctxs.map (fun c => { c with num := g c.num })
      bkts := s.sch.bkts.map (fun b => if b.cls = 0 then b else { b with ctx := g b.ctx })
      orders := s.sch.orders.map (fun o => if o.ctx = fwCtx then o else { o with ctx := g o.ctx, num := g o.ctx * 8 + o.num % 8 }) }
    cam := { s.cam with holds := s.cam.holds.map (fun h => { h with ctx := g h.ctx }) }
    br := { s.br with reqs := s.br.reqs.map (fun r => { r with key := match r.key with
      | .ctx n => .ctx (g n)
      | k => k }) } }

/-- JOIN from the head: this member becomes a follower, or learns of a new member. -/
def State.joinIn (s : State) (members : Nat) : State :=
  if !s.skOn || s.skMe = 0 || !bitOf members s.skMe || !bitOf members 0 then s
  else
    let s1 : State := { s with sk := { s.sk with dropped := s.sk.dropped.filter (fun m => !bitOf members m), broken := false } }
    let s2 := s1.wr F.SK_STAT_MEMBERS 0 0 members
    let s3 := if s2.skRole = 0 then (s2.renumber (fun c => s2.skMe * 256 + c)).skSetRole 2 else s2
    s3.skTopo.raise skPage 5

/-- JOIN. -/
def execJoin (members : Byte) (s : State) : Outcome State Fault Refusal := .next (s.joinIn members.toNat)

/-- SK_CMD.GO (R644): the head issues a JOIN; `ok` stands for the conditions that other members hold. -/
def State.joinGo (s : State) (v : Nat) (ok : Bool) : State :=
  let m := v % 8
  if bitOf v 3 && s.skMe = 0 && s.skRole != 2 && ok && m != 0 && (s.skRoute m).isSome then
    let t := (s.wr F.SK_STAT_MEMBERS 0 0 (setBit (setBit (s.rd F.SK_STAT_MEMBERS 0 0) m) 0)).skSetRole 1
    let u : State := { t with sk := { t.sk with beats := (m, t.now) :: t.sk.beats.filter (fun b => b.1 != m),
                                                dropped := t.sk.dropped.filter (fun x => x != m), broken := false } }
    let w := (u.wr F.SK_DEL_NS 0 m (u.freeVal 16)).tookFree
    (w.skOthers.foldl (fun x d => x.skSend d 13 0 1 0 [BitVec.ofNat 8 (w.rd F.SK_STAT_MEMBERS 0 0)]) w).skTopo.raise skPage 5
  else s

/-- SK_JOIN_GO. -/
def execSkJoinGo (v : Word) (ok : Bool) (s : State) : Outcome State Fault Refusal := .next (s.reach skPage (fun t => t.joinGo v.toNat ok))

/-! ### Member loss (R674 to R679) -/

/-- R679: the commands of a lost member's contexts: killed if not in commit, else completed without a record. -/
def State.orphansOf (s : State) (m : Nat) : State :=
  (s.sch.cmds.filter (fun c => c.ctx != fwCtx && c.ctx / 256 == m)).foldl (fun t c =>
    let u := t.inc F.SK_ORPHAN_KILL_CNT 0 0
    if c.phase = .commit ∨ c.phase = .prov then u
    else (if c.phase = .away then u.skKill c else u).dropCmd c.id) s

/-- The transactions to a lost member will have no response: a commit's writes to it count as done (R678). -/
def State.lostTxns (s : State) (m : Nat) : State :=
  let t : State := { s with sk := { s.sk with txns := s.sk.txns.filter (fun x => x.dest != m) } }
  (s.sk.txns.filter (fun x => x.dest == m)).foldl (fun u x => x.acked u) t

/-- What every remaining member does about a lost one. -/
def State.forsake (s : State) (m : Nat) : State :=
  let t : State := { s with sk := { s.sk with dropped := m :: s.sk.dropped.filter (fun x => x != m), broken := true,
                                              beats := s.sk.beats.filter (fun b => b.1 != m) } }
  let u := (((t.wr F.SK_STAT_MEMBERS 0 0 (clrBit (t.rd F.SK_STAT_MEMBERS 0 0) m)).raise skPage 2).skTopo.orphansOf m).lostTxns m
  { u with sch := { u.sch with bkts := u.sch.bkts.filter (fun b => b.cls == 0 || b.ctx == fwCtx || b.ctx / 256 != m) } }

/-- R677: a command placed on the lost member closes FAULT_MEMBER rather than running again. -/
def State.noRerun (_s : State) (c : Cmd) (m report : Nat) : Bool :=
  (c.desc.outLen != 0 && bitsOf c.desc.outAddr 44 4 == m)
    || ((c.desc.opcode == 1 || c.desc.opcode == 2 || c.desc.opcode == 8) && bitsOf c.desc.arg 44 4 == m)
    || (c.desc.opcode == 2 && report == 2 && overlaps (c.desc.arg, c.desc.outLen) (c.desc.outAddr, c.desc.outLen))
    || decide (3 ≤ c.lossReruns)

/-- R676: the commands that the head had placed on a lost member, once every LOST_ACK is in. -/
def State.lossReruns (s : State) (m : Nat) : State :=
  (s.sk.placed.filter (fun x => x.member == m)).foldl (fun t x =>
    let u : State := { t with sk := { t.sk with placed := t.sk.placed.filter (fun y => y.id != x.id) } }
    match u.cmd x.id with
    | some c =>
      if c.phase ≠ .away then u
      else if u.noRerun c m x.report then u.close x.id 0x52
      else (u.updCmd x.id (fun y => { y with phase := .ready, attempt := y.attempt + 1, reruns := y.reruns + 1, memberRerun := true,
                                             lossReruns := y.lossReruns + 1 })).inc F.SK_MEMBER_RERUN_CNT 0 0
    | none => u) s

/-- R675: the head declares a member lost. -/
def State.memberLose (s : State) (m : Nat) : State :=
  if s.skRole = 1 ∧ m ≠ s.skMe ∧ s.skMember m = true then
    let t := (s.forsake m).inc F.SK_MEMBER_LOST_CNT 0 0
    let u := t.skOthers.foldl (fun x d => x.skSend d 11 0 1 0 [BitVec.ofNat 8 m]) t
    let v : State := { u with sk := { u.sk with acks := u.sk.acks.filter (fun a => a.1 != m && a.2 != m) ++ u.skOthers.map (fun d => (m, d)) } }
    if v.skOthers = [] then v.lossReruns m else v
  else s

/-- MEMBER_HB_TIMEOUT (R674): no HEARTBEAT for LOSS_US, or both ports that face the member are DOWN. -/
def execMemberHbTimeout (m : Fin 8) (portsDown : Bool) (s : State) : Outcome State Fault Refusal :=
  .next (if s.skOn && (portsDown || s.sk.beats.any (fun b => b.1 == m.val && decide (b.2 + s.rd F.SK_CFG_LOSS_US 0 0 * 1000 ≤ s.now)))
    then s.memberLose m.val else s)

/-- SKEWER_HEARTBEAT: a follower's HEARTBEAT; one that reports a state other than RUN or WATCH is a loss (R674). -/
def execSkewerHeartbeat (m : Fin 8) (running : Bool) (s : State) : Outcome State Fault Refusal :=
  .next (s.skFrom m.val false (fun t =>
    if t.skRole ≠ 1 then t
    else if running then { t with sk := { t.sk with beats := (m.val, t.now) :: t.sk.beats.filter (fun b => b.1 != m.val) } }
    else t.memberLose m.val))

/-- SKEWER_HB_SEND: every 50 us. -/
def execSkewerHbSend (s : State) : Outcome State Fault Refusal :=
  .next (if s.skOn && s.skRole == 2 && decide (s.sk.hbAt + 50000 ≤ s.now) then
    ({ s with sk := { s.sk with hbAt := s.now } } : State).skNote 0 10 0 8 else s)

/-- MEMBER_LOST. -/
def execMemberLost (m : Fin 8) (s : State) : Outcome State Fault Refusal :=
  .next (if s.skOn && s.skRole == 2 && m.val != s.skMe && m.val != 0 then (s.forsake m.val).skSend 0 12 0 1 0 [BitVec.ofNat 8 m.val] else s)

/-- LOST_ACK: the last one lets the head run the lost member's work again. -/
def execLostAck (src lost : Fin 8) (s : State) : Outcome State Fault Refusal :=
  .next (s.skFrom src.val false (fun t =>
    if t.skRole = 1 ∧ t.sk.acks.contains (lost.val, src.val) = true then
      let u : State := { t with sk := { t.sk with acks := t.sk.acks.filter (fun a => a != (lost.val, src.val)) } }
      if u.sk.acks.any (fun a => a.1 == lost.val) then u else u.lossReruns lost.val
    else t))

/-! ### Leaving (R681) -/

/-- The local F-class and B-class buckets of open contexts are full. -/
def State.fillBkts (s : State) : State :=
  ((List.range 256).filter (fun c => s.rd F.CTX_STAT_STATE c 0 != 0)).foldl (fun t c =>
    [1, 2].foldl (fun u cls => let b := u.bkt c cls
                               u.setBkt { b with level := u.bktBurst c cls }) t) s

/-- R681: a member that cannot reach the head is a standalone device. -/
def State.headLost (s : State) : State :=
  if s.skRole = 2 then
    let away := (s.sch.cmds.filter (fun c => c.phase == .away)).map (fun c => c.id)
    let placed := (s.sch.cmds.filter (fun c => s.sk.deleg.any (fun d => d.id == c.id) && c.phase != .commit && c.phase != .prov)).map (fun c => c.id)
    let s1 := placed.foldl State.dropCmd s
    let s2 := away.foldl (fun t id => t.close id 0x52) s1
    let me := s2.skMe
    let s3 := (s2.renumber (fun c => if c / 256 = me then c % 256 else c)).wr F.SK_STAT_MEMBERS 0 0 0
    let s4 : State := { s3 with sk := { ports := s3.sk.ports }, orr := { s3.orr with skewGridQ := 255, skewSiQ := 255 } }
    ((s4.skSetRole 0).fillBkts).refCheckAll
  else s

/-- HEAD_UNREACHABLE. -/
def execHeadUnreachable (s : State) : Outcome State Fault Refusal := .next (if s.skOn then s.headLost else s)

/-- The block goes off: a follower leaves the cabinet, a head loses every other member. -/
def State.skLeave (s : State) : State :=
  let t := if s.skRole = 2 then s.headLost else
    (s.skOthers.foldl (fun t m => let u := t.memberLose m
                                  ({ u with sk := { u.sk with acks := u.sk.acks.filter (fun a => a.1 != m) } } : State).lossReruns m) s)
  { t with sk := {}, orr := { t.orr with skewGridQ := 255, skewSiQ := 255 } }

/-! ### Time over the ring (R672, R673) -/

/-- TIME: a reference event for SKEW_GRID and SKEW_SI with the head's qualities; the message goes on round the ring. -/
def State.timeIn (s : State) (n gq sq : Nat) : State :=
  if s.skOn && s.skRole == 2 && s.skUp n then
    let t : State := { s with orr := { s.orr with skewGridQ := gq, skewSiQ := sq }, sk := { s.sk with timeAt := some s.now } }
    let u := t.refCheckAll
    let next := u.rd F.SK_PT_STAT_NEIGH_ID 0 (1 - n)
    if u.skUp (1 - n) && next != 0 then
      let v := u.skGive (1 - n) (u.skMsg next 14 0 18 0 (u.remoteBytes 18))
      { v with fresh := v.fresh + 18 }
    else u
  else s

/-- TIME. -/
def execTime (port : Fin 2) (gridQ siQ : Byte) (s : State) : Outcome State Fault Refusal := .next (s.timeIn port.val gridQ.toNat siQ.toNat)

/-- ECHO: the link's latency, measured at link-up. -/
def execEcho (port : Fin 2) (latNs : BitVec 16) (s : State) : Outcome State Fault Refusal :=
  .next (if s.skOn && s.skUp port.val then s.wr F.SK_PT_LAT_NS 0 port.val latNs.toNat else s)

/-- SKEW_TIME_TIMEOUT: no TIME message for 2 cycles. -/
def State.timeOut (s : State) : State :=
  if s.skRole = 2 ∧ s.sk.timeAt.all (fun t => decide ((t + 131072 * s.siPerUnit / 19660800) ≤ s.now)) = true then
    ({ s with orr := { s.orr with skewGridQ := 255, skewSiQ := 255 }, sk := { s.sk with timeAt := none } } : State).refCheckAll
  else s

/-- SKEW_TIME_TIMEOUT. -/
def execSkewTimeTimeout (s : State) : Outcome State Fault Refusal := .next (if s.skOn then s.timeOut else s)

end Sys2Proof.Machine
end

