-- ==== Sys2Proof/Machine/Clk.lean ====
section
/-! DEFINITION. Fabric PLLs and MCLK synthesisers (spec/02, R59 to R64). -/

namespace Sys2Proof.Machine

open Host

/-- Table ORR-3: a target lies within the range of PLL n. -/
def pllInRange (n mhz : Nat) : Bool :=
  if n < 3 then decide (400 ≤ mhz ∧ mhz ≤ 1000) else if n = 3 then mhz == 1600 else mhz == 800

/-- Table SCO-3: the highest operating-point clock whose voltage is at or below v mV. -/
def clockAtSupply (v : Nat) : Nat :=
  if 800 ≤ v then 1000 else if 720 ≤ v then 800 else if 650 ≤ v then 600 else if 600 ≤ v then 400 else 0

/-- R60: the clamp of PLL n between an old and a new target. -/
def State.pllClamp (s : State) (n old new : Nat) : Nat :=
  if n < 3 then min (clockAtSupply (s.orr.supply.getD n 600)) (max old new) else max old new

/-- R59: a write of TARGET_MHZ. -/
def State.pllTargetWrite (s : State) (n v : Nat) : State :=
  if pllInRange n (v % 4096) then s.wr F.CLK_PLL_CFG_TARGET_MHZ 0 n v else s.accFault 0x002 1 (0x040 + 0x10 * n)

/-- R241: FLOOR_BREACH stands during a thermal emergency and while a Kettle-group PLL is in FAULT; SCHED event 3 marks a change. -/
def State.breachSync (s : State) : State :=
  let b := s.rdB F.PWR_THERM_STAT_EMERG 0 0 || (List.range 3).any (fun g => s.rdB F.CLK_PLL_STAT_FAULT 0 g)
  if s.rdB F.SCH_SCHED_STAT_FLOOR_BREACH 0 0 = b then s else (s.wrB F.SCH_SCHED_STAT_FLOOR_BREACH 0 0 b).raise 0x005 3

/-- PLL n stops delivering its locked clock and delivers the bypass clock (R59, R60). -/
def State.pllBypass (s : State) (n : Nat) : State :=
  let c := s.pllClamp n (s.orr.pllTarget.getD n 0) (s.rd F.CLK_PLL_CFG_TARGET_MHZ 0 n)
  let div := decide (c < 500)
  ((((s.wr F.CLK_PLL_STAT_LOCKED 0 n 0).wr F.CLK_PLL_STAT_ON_BYPASS 0 n 1).wrB F.CLK_PLL_STAT_BYPASS_DIV2 0 n div).wr
    F.CLK_PLL_STAT_DELIVERED_MHZ 0 n (if div then 250 else 500)).wr F.CLK_PLL_STAT_FAULT 0 n 0

/-- R59: a relock of PLL n starts. -/
def State.pllRelock (s : State) (n : Nat) : State :=
  let t := (s.pllBypass n).breachSync
  { t with orr := { t.orr with relocking := n :: t.orr.relocking.erase n, lockHeld := t.orr.lockHeld.erase n } }

/-- PLL_TARGET_WRITE. -/
def execPllTargetWrite (n : Fin 5) (v : Word) (s : State) : Outcome State Fault Refusal :=
  .next (s.reach 0x002 (fun t => t.pllTargetWrite n v.toNat))

/-- PLL_RELOCK. -/
def execPllRelock (n : Fin 5) (s : State) : Outcome State Fault Refusal :=
  .next (s.reach 0x002 (fun t => t.pllRelock n))

/-- R59: the relocking PLL achieves lock. -/
def State.pllLock (s : State) (n : Nat) : State :=
  if s.orr.relocking.contains n && !s.orr.lockHeld.contains n && !s.rdB F.CLK_PLL_STAT_FAULT 0 n then
    let t := s.wr F.CLK_PLL_STAT_LOCKED 0 n 1
    { t with orr := { t.orr with lockHeld := n :: t.orr.lockHeld } }
  else s

/-- PLL_LOCK. -/
def execPllLock (n : Fin 5) (s : State) : Outcome State Fault Refusal := .next (s.pllLock n)

/-- R59: lock has held for 32 us, so the PLL delivers its target; a target above the clamp of R60 is never delivered. -/
def State.pllBypassEnd (s : State) (n : Nat) : State :=
  let new := s.rd F.CLK_PLL_CFG_TARGET_MHZ 0 n
  if s.orr.lockHeld.contains n && decide (new ≤ s.pllClamp n (s.orr.pllTarget.getD n 0) new) then
    let t := ((s.wr F.CLK_PLL_STAT_ON_BYPASS 0 n 0).wr F.CLK_PLL_STAT_BYPASS_DIV2 0 n 0).wr
      F.CLK_PLL_STAT_DELIVERED_MHZ 0 n new
    { t with orr := { t.orr with pllTarget := setAt t.orr.pllTarget n new, relocking := t.orr.relocking.erase n,
                                 lockHeld := t.orr.lockHeld.erase n } }
  else s

/-- PLL_BYPASS_END. -/
def execPllBypassEnd (n : Fin 5) (s : State) : Outcome State Fault Refusal := .next (s.pllBypassEnd n)

/-- R61: no lock 40 us after the relock start: the PLL stays on bypass, in FAULT, and does not retry. -/
def State.pllFault (s : State) (n : Nat) : State :=
  if s.orr.relocking.contains n && !s.orr.lockHeld.contains n then
    let t := (s.wr F.CLK_PLL_STAT_FAULT 0 n 1).breachSync
    { t with orr := { t.orr with relocking := t.orr.relocking.erase n } }
  else s

/-- PLL_FAULT. -/
def execPllFault (n : Fin 5) (s : State) : Outcome State Fault Refusal := .next (s.pllFault n)

/-- R62, R63, R64: a write of MCLKn_TARGET: out of range it is ignored with RANGE_ERR; in range it is the end point of
the slew. -/
def State.mclkTargetWrite (s : State) (n v : Nat) : State :=
  if 6000000 ≤ v ∧ v ≤ 48000000 then
    (s.wr F.CLK_MCLK_TARGET 0 n v).wrB F.CLK_MCLK_FLAG_SLEWING 0 n (v != s.rd F.CLK_MCLK_STAT_FREQ 0 n)
  else (s.wr F.CLK_MCLK_FLAG_RANGE_ERR 0 n 1).raise 0x004 7

/-- MCLK_TARGET_WRITE. -/
def execMclkTargetWrite (n : Fin 8) (v : Word) (s : State) : Outcome State Fault Refusal :=
  .next (s.reach 0x002 (fun t => t.mclkTargetWrite n v.toNat))

/-- R62: the output reaches its target. -/
def State.mclkSlewDone (s : State) (n : Nat) : State :=
  if s.rdB F.CLK_MCLK_FLAG_SLEWING 0 n then
    (s.wr F.CLK_MCLK_STAT_FREQ 0 n (s.rd F.CLK_MCLK_TARGET 0 n)).wr F.CLK_MCLK_FLAG_SLEWING 0 n 0
  else s

/-- MCLK_SLEW_DONE. -/
def execMclkSlewDone (n : Fin 8) (s : State) : Outcome State Fault Refusal := .next (s.mclkSlewDone n)

end Sys2Proof.Machine
end

