-- ==== Sys2Proof/Machine/Cbor.lean ====
section
/-! DEFINITION. CBOR records to tensor rows (spec/11, "CBOR decode", R394, R395; the encoding is that of RFC 8949, to which the
rule refers). -/

namespace Sys2Proof.Machine

/-- A decoded data item, as far as a schema can use it. -/
inductive CVal where
  | int (i : Int)
  | flt (x : Fp)
  | bool (b : Bool)
  | null
  | text (bs : List Byte)
  | arr (vs : List CVal)
  | map (kvs : List (CVal × CVal))
  | bytes
deriving Repr

/-- What a reader answers: a value and the bytes left, or a reason code of Table MAN-6. -/
inductive CRes (α : Type) where
  | ok (v : α) (rest : List Byte)
  | err (code : Nat)
deriving Repr

/-- The argument of a head of additional information `ai`: its value, none for the indefinite one. -/
def cborArg (ai : Nat) (bs : List Byte) : CRes (Option Nat) :=
  let n := if ai = 24 then 1 else if ai = 25 then 2 else if ai = 26 then 4 else 8
  if ai < 24 then .ok (some ai) bs
  else if ai < 28 then
    if bs.length < n then .err 1 else .ok (some ((bs.take n).foldl (fun a b => a * 256 + b.toNat) 0)) (bs.drop n)
  else if ai = 31 then .ok none bs else .err 1

/-- A float of the head's size. -/
def cborFloat (ai v : Nat) : CVal := .flt ((if ai = 25 then half else if ai = 26 then f32 else f64).dec v)

/-- Items in a row: n of them, or up to a break. -/
def cborMany (item : List Byte → CRes CVal) : Nat → Option Nat → List Byte → CRes (List CVal)
  | 0, _, _ => .err 1
  | _ + 1, some 0, bs => .ok [] bs
  | f + 1, n, bs =>
    match n, bs with
    | none, 0xFF#8 :: t => .ok [] t
    | _, _ =>
      match item bs with
      | .err c => .err c
      | .ok v r =>
        match cborMany item f (n.map (fun k => k - 1)) r with
        | .err c => .err c
        | .ok vs r2 => .ok (v :: vs) r2

/-- Keys and values paired; an odd list is no map. -/
def cborPairs : List CVal → Option (List (CVal × CVal))
  | [] => some []
  | k :: v :: t => (cborPairs t).map (fun l => (k, v) :: l)
  | [_] => none

/-- One data item (R394); `depth` is how many more levels of array and map may open; fuel bounds tags and nesting. -/
def cborItem : Nat → Nat → List Byte → CRes CVal
  | 0, _, _ => .err 6
  | _ + 1, _, [] => .err 1
  | f + 1, depth, h :: t =>
    let mt := h.toNat / 32
    let ai := h.toNat % 32
    match cborArg ai t with
    | .err c => .err c
    | .ok none r =>
      if mt = 4 ∨ mt = 5 then
        if depth = 0 then .err 6
        else match cborMany (cborItem f (depth - 1)) (r.length + 1) none r with
          | .err c => .err c
          | .ok vs r2 =>
            if mt = 4 then .ok (.arr vs) r2
            else match cborPairs vs with
              | some l => .ok (.map l) r2
              | none => .err 1
      else if mt = 2 ∨ mt = 3 then .err 6 else .err 1
    | .ok (some v) r =>
      if mt = 0 then .ok (.int v) r
      else if mt = 1 then .ok (.int (-1 - (v : Int))) r
      else if mt = 2 ∨ mt = 3 then
        if r.length < v then .err 1 else .ok (if mt = 3 then .text (r.take v) else .bytes) (r.drop v)
      else if mt = 4 ∨ mt = 5 then
        if depth = 0 then .err 6
        else match cborMany (cborItem f (depth - 1)) (r.length + 2) (some (if mt = 4 then v else 2 * v)) r with
          | .err c => .err c
          | .ok vs r2 =>
            if mt = 4 then .ok (.arr vs) r2
            else match cborPairs vs with
              | some l => .ok (.map l) r2
              | none => .err 1
      else if mt = 6 then cborItem f depth r
      else if 25 ≤ ai then .ok (cborFloat ai v) r
      else if ai = 24 ∧ v < 32 then .err 1
      else if v = 20 then .ok (.bool false) r
      else if v = 21 then .ok (.bool true) r
      else if v = 22 then .ok .null r
      else .err 4

/-- A record: exactly one item of exactly its length, and a map (R394). -/
def cborRecord (bs : List Byte) : CRes (List (CVal × CVal)) :=
  match cborItem (bs.length + 9) 8 bs with
  | .err c => .err c
  | .ok v [] => match v with
    | .map l => .ok l []
    | _ => .err 2
  | .ok _ _ => .err 1

/-! ### Schemas (Table MAN-7) -/

/-- A schema: its header and its field entries, as bytes. -/
structure Schema where
  bytes : List Byte := []
deriving DecidableEq, Repr

def Schema.nf (c : Schema) : Nat := leAt c.bytes 0 1
def Schema.row (c : Schema) : Nat := leAt c.bytes 2 2
def Schema.skip (c : Schema) : Bool := bitOf (leAt c.bytes 4 1) 0
/-- Bytes o to o + n - 1 of field entry i. -/
def Schema.fld (c : Schema) (i o n : Nat) : Nat := leAt c.bytes (16 + 32 * i + o) n
def Schema.textKey (c : Schema) (i : Nat) : Bool := bitOf (c.fld i 0 1) 0
def Schema.keyLen (c : Schema) (i : Nat) : Nat := bitsOf (c.fld i 0 1) 1 4
def Schema.kind (c : Schema) (i : Nat) : Nat := c.fld i 1 1
def Schema.outType (c : Schema) (i : Nat) : Nat := c.fld i 2 1
def Schema.required (c : Schema) (i : Nat) : Bool := bitOf (c.fld i 3 1) 0
def Schema.clamp (c : Schema) (i : Nat) : Bool := bitOf (c.fld i 3 1) 1
def Schema.ofs (c : Schema) (i : Nat) : Nat := c.fld i 4 2
def Schema.count (c : Schema) (i : Nat) : Nat := c.fld i 6 1
def Schema.zp (c : Schema) (i : Nat) : Int := toS 8 (c.fld i 7 1)
def Schema.keyBytes (c : Schema) (i : Nat) : List Byte := ((c.bytes.drop (16 + 32 * i + 16)).take (c.keyLen i))
def outSize (ty : Nat) : Nat := if ty = 0 then 1 else if ty = 2 then 2 else 4

/-- The schema is in range (R386, Table MAN-7). -/
def Schema.ok (c : Schema) : Bool :=
  decide (1 ≤ c.nf ∧ c.nf ≤ 64 ∧ 64 ≤ c.row ∧ c.row ≤ 4096) && c.row % 64 == 0 && leAt c.bytes 1 1 == 0 && decide (leAt c.bytes 4 1 < 2)
    && leAt c.bytes 5 11 == 0
    && (List.range c.nf).all (fun i =>
      decide (c.kind i ≤ 2 ∧ c.outType i ≤ 3 ∧ c.fld i 0 1 < 32 ∧ c.fld i 3 1 < 4)
        && (!c.textKey i || decide (1 ≤ c.keyLen i))
        && (if c.kind i = 2 then decide (1 ≤ c.count i ∧ c.count i ≤ 64) else c.count i == 1)
        && c.ofs i % outSize (c.outType i) == 0 && decide (c.ofs i + c.count i * outSize (c.outType i) ≤ c.row))

/-- A key of a record matches field i. -/
def Schema.matchKey (c : Schema) (i : Nat) : CVal → Bool
  | .int v => !c.textKey i && v == (c.fld i 16 8 : Int)
  | .text bs => c.textKey i && bs == c.keyBytes i
  | _ => false

/-- A number in FP64. -/
def CVal.num? : CVal → Option Fp
  | .int i => some (f64.rnd (Fp.ofInt i))
  | .flt x => some (f64.rnd x)
  | _ => none

/-- An output element: its bytes and whether it was clamped, or a code. -/
inductive Conv where
  | put (bs : List Byte) (clamped : Bool)
  | bad (code : Nat)
deriving DecidableEq, Repr

/-- An integer output within its range, clamped or refused (R395). -/
def convInt (n : Nat) (lo hi : Int) (clamp : Bool) (v : Int) : Conv :=
  if lo ≤ v ∧ v ≤ hi then .put (toBytes n (ofS (8 * n) v)) false
  else if clamp then .put (toBytes n (ofS (8 * n) (clampI lo hi v))) true else .bad 5

/-- The greatest finite value of a format. -/
def Fmt.greatest (f : Fmt) : Nat := (2 ^ f.e - 1) * 2 ^ f.m - 1

/-- A float output: a finite value beyond the format is out of range (log 31). -/
def convFloat (f : Fmt) (n : Nat) (clamp : Bool) (x : Fp) : Conv :=
  let w := f.enc false x
  match x with
  | .num neg _ =>
    if w % 2 ^ (f.e + f.m) = (2 ^ f.e - 1) * 2 ^ f.m then
      (if clamp then .put (toBytes n (b2n neg * 2 ^ (f.e + f.m) + f.greatest)) true else .bad 5)
    else .put (toBytes n w) false
  | _ => .put (toBytes n w) false

/-- R395: a value already scaled becomes an output element. -/
def convOut (ty : Nat) (zp : Int) (clamp : Bool) (x : Fp) : Conv :=
  if ty = 2 then convFloat bf16 2 clamp x
  else if ty = 3 then convFloat f32 4 clamp x
  else
    let n := outSize ty
    let hi : Int := 2 ^ (8 * n - 1)
    match x with
    | .nan => .bad 5
    | .inf neg => if clamp then .put (toBytes n (ofS (8 * n) (if neg then -hi else hi - 1))) true else .bad 5
    | .num _ q => convInt n (-hi) (hi - 1) clamp (q.roundEven + zp)

/-- An element of field i from a matched value: v * SCALE in FP64. -/
def Schema.element (c : Schema) (i : Nat) (v : Fp) : Conv :=
  convOut (c.outType i) (if c.outType i = 0 then c.zp i else 0) (c.clamp i) (f64.rnd (v.mul (f32.dec (c.fld i 8 4))))

/-- DEFAULT as an output element: it is the element's own value (log 31). -/
def Schema.dflt (c : Schema) (i : Nat) : List Byte :=
  match convOut (c.outType i) 0 true (f32.dec (c.fld i 12 4)) with
  | .put bs _ => bs
  | .bad _ => List.replicate (outSize (c.outType i)) 0#8

/-- What a field's value gives: its elements, absent, or a code. -/
inductive FieldRes where
  | vals (vs : List Fp)
  | absent
  | bad (code : Nat)
deriving Repr

/-- R395: the numbers of a matched value of field i. -/
def Schema.take (c : Schema) (i : Nat) : CVal → FieldRes
  | .null => .absent
  | .bool b => if c.kind i = 1 then .vals [Fp.ofInt (b2n b : Nat)] else .bad 4
  | .int v => if c.kind i = 0 then .vals ((CVal.int v).num?.toList) else .bad 4
  | .flt v => if c.kind i = 0 then .vals ((CVal.flt v).num?.toList) else .bad 4
  | .arr vs =>
    if c.kind i = 2 then
      let ns := vs.map CVal.num?
      if ns.any (fun x => x.isNone) then .bad 4
      else if c.count i < vs.length then .bad 6 else .vals (ns.filterMap id)
    else .bad 4
  | _ => .bad 4

/-- The elements of a field, its first code, and how many were clamped. -/
def Schema.elements (c : Schema) (i : Nat) (vs : List Fp) : List Byte × Option Nat × Nat :=
  vs.foldl (fun a v => match c.element i v with
    | .put bs cl => (a.1 ++ bs, a.2.1, a.2.2 + b2n cl)
    | .bad e => (a.1, a.2.1.orElse (fun _ => some e), a.2.2)) ([], none, 0)

/-- A decoded record: its row and the clamps it made, or its code (R395; order of checks, log 31). -/
inductive RowRes where
  | row (bs : List Byte) (clamps : Nat)
  | bad (code clamps : Nat)
deriving DecidableEq, Repr

/-- Bytes put at offset o of a row. -/
def putRow (row : List Byte) (o : Nat) (bs : List Byte) : List Byte := row.take o ++ bs ++ row.drop (o + bs.length)

/-- The schema's fields in order, over the pairs of the record. -/
def Schema.fields (c : Schema) (kvs : List (CVal × CVal)) : List Nat → List Byte → Nat → RowRes
  | [], row, n => .row row n
  | i :: t, row, n =>
    let found : FieldRes := match kvs.find? (fun kv => c.matchKey i kv.1) with
      | some kv => c.take i kv.2
      | none => .absent
    match found with
    | .bad e => .bad e n
    | .absent =>
      if c.required i then .bad 3 n
      else c.fields kvs t (putRow row (c.ofs i) ((List.replicate (c.count i) (c.dflt i)).flatten)) n
    | .vals vs =>
      let r := c.elements i vs
      match r.2.1 with
      | some e => .bad e (n + r.2.2)
      | none => c.fields kvs t (putRow row (c.ofs i) (r.1 ++ (List.replicate (c.count i - vs.length) (c.dflt i)).flatten)) (n + r.2.2)

/-- One record (R394, R395). -/
def Schema.decode (c : Schema) (bs : List Byte) : RowRes :=
  match cborRecord bs with
  | .err e => .bad e 0
  | .ok kvs _ =>
    if (List.range c.nf).any (fun i => decide (1 < (kvs.filter (fun kv => c.matchKey i kv.1)).length)) then .bad 7 0
    else c.fields kvs (List.range c.nf) (List.replicate c.row 0#8) 0

end Sys2Proof.Machine
end

