-- ==== Sys2Proof/Machine/Image.lean ====
section
/-! DEFINITION. What each stage of a Sieve does to a pixel, its statistics and its output formats (spec/10, Tables SIV-1, SIV-2,
SIV-4, R338 to R343): functions of a plane, given as x and y to sample. -/

namespace Sys2Proof.Machine

/-- A plane: the sample at column x of row y. -/
abbrev Plane := Nat → Nat → Nat

/-- Fields of the block (Table SIV-2). -/
def SvParams.u (p : SvParams) (o n : Nat) : Nat := leAt p.block o n
def SvParams.sg (p : SvParams) (o n : Nat) : Int := toS (8 * n) (leAt p.block o n)
def SvParams.dpcN (p : SvParams) : Nat := p.u 0x14 4
def SvParams.gx (p : SvParams) : Nat := bitsOf (p.u 0x20 4) 0 6
def SvParams.gy (p : SvParams) : Nat := bitsOf (p.u 0x20 4) 8 6
def SvParams.lscEn (p : SvParams) : Bool := bitOf (p.u 0x20 4) 16
def SvParams.scl (p : SvParams) (n i : Nat) : Nat := p.u (0xA0 + 16 * n + 2 * i) 2

/-- Clamp to 16 bits. -/
def clamp16 (i : Int) : Nat := (clampI 0 65535 i).toNat

/-- Bits per sample of a raw data type (CSI-2 codes), and the left alignment to 16 bits ("The stages"). -/
def rawBits (dt : Nat) : Nat :=
  if dt = 0x2A then 8 else if dt = 0x2B then 10 else if dt = 0x2C then 12 else if dt = 0x2D then 14 else 16

/-- Sample x of a stored raw line, in the packing of CSI-2 (PRESUMED, log 22), left-aligned to 16 bits. -/
def rawSample (dt : Nat) (l : List Byte) (x : Nat) : Nat :=
  let b (i : Nat) : Nat := leAt l i 1
  let v :=
    if dt = 0x2B then b (x / 4 * 5 + x % 4) * 4 + bitsOf (b (x / 4 * 5 + 4)) (2 * (x % 4)) 2
    else if dt = 0x2C then b (x / 2 * 3 + x % 2) * 16 + bitsOf (b (x / 2 * 3 + 2)) (4 * (x % 2)) 4
    else if dt = 0x2D then b (x / 4 * 7 + x % 4) * 64 + bitsOf (leAt l (x / 4 * 7 + 4) 3) (6 * (x % 4)) 6
    else if dt = 0x2E then b (2 * x) * 256 + b (2 * x + 1)
    else b x
  v * 2 ^ (16 - rawBits dt)

/-- Y, Cb and Cr of a stored YUV422 8-bit line (bytes Cb Y Cr Y, log 22), each multiplied by 4; the chroma of a pair stands for
both its pixels (log 24). -/
def yuvSample (l : List Byte) (c x : Nat) : Nat :=
  4 * leAt l (x / 2 * 4 + (if c = 0 then 2 * (x % 2) + 1 else if c = 1 then 0 else 2)) 1

/-- CFA position of a pixel. -/
def cfaPos (x y : Nat) : Nat := y % 2 * 2 + x % 2

/-- Stage 1. -/
def blackLevel (p : SvParams) (raw : Plane) : Plane := fun x y =>
  let i := cfaPos x y
  clamp16 ((((raw x y : Int) - p.u (2 * i) 2) * p.u (8 + 2 * i) 2 + 2048) / 4096)

/-- A list of numbers in rising order. -/
def sortNat (l : List Nat) : List Nat := l.mergeSort (fun a b => decide (a ≤ b))

/-- A neighbouring coordinate at distance 2, or, beyond the edge, the nearest of the same colour (R340). -/
def near2 (n : Nat) (x : Nat) (d : Int) : Nat :=
  let v := (x : Int) + d
  if 0 ≤ v ∧ v < n then v.toNat else x

/-- The eight same-colour neighbours of a pixel (R340). -/
def neighbours (w h : Nat) (pl : Plane) (x y : Nat) : List Nat :=
  ([(-2, -2), (0, -2), (2, -2), (-2, 0), (2, 0), (-2, 2), (0, 2), (2, 2)] : List (Int × Int)).map
    (fun d => pl (near2 w x d.1) (near2 h y d.2))

/-- R340: a pixel that the dynamic correction replaces. -/
def dynDefect (p : SvParams) (w h : Nat) (pl : Plane) (x y : Nat) : Bool :=
  let ns := sortNat (neighbours w h pl x y)
  let thr := p.u 0x10 2
  bitOf (p.u 0x10 4) 16 && !(bitOf (p.u 0x10 4) 17 && p.dpc.contains (x, y))
    && (decide (ns.getD 7 0 + thr < pl x y) || decide (pl x y + thr < ns.getD 0 0))

/-- Stage 2. -/
def defects (p : SvParams) (w h : Nat) (pl : Plane) : Plane := fun x y =>
  let ns := sortNat (neighbours w h pl x y)
  if bitOf (p.u 0x10 4) 17 && p.dpc.contains (x, y) then (ns.getD 3 0 + ns.getD 4 0) / 2
  else if dynDefect p w h pl x y then min (ns.getD 7 0) (max (ns.getD 0 0) (pl x y))
  else pl x y

/-- Stage 3: the gain is the exact bilinear value (log 23), here over the denominator (WIDTH - 1)(LINES - 1). -/
def shading (p : SvParams) (w h : Nat) (pl : Plane) : Plane := fun x y =>
  if !p.lscEn then pl x y
  else
    let dx := max 1 (w - 1)
    let dy := max 1 (h - 1)
    let a := min (x * (p.gx - 1) / dx) (p.gx - 2)
    let b := min (y * (p.gy - 1) / dy) (p.gy - 2)
    let fx := x * (p.gx - 1) - a * dx
    let fy := y * (p.gy - 1) - b * dy
    let node (a b : Nat) : Nat := p.lsc.getD ((b * p.gx + a) * 4 + cfaPos x y) 0
    let g := (node a b * (dx - fx) + node (a + 1) b * fx) * (dy - fy) + (node a (b + 1) * (dx - fx) + node (a + 1) (b + 1) * fx) * fy
    min 65535 ((pl x y * g + 2 ^ 13 * (dx * dy)) / (2 ^ 14 * (dx * dy)))

/-- Stage 4: the demosaic is fixed in hardware and not given: a free function of the rows beside the pixel (log 5). -/
def demosaic (bayer w h : Nat) (pl : Plane) (c : Nat) : Plane := fun x y =>
  let row (j : Nat) : List Nat := (List.range w).map (fun i => pl i j)
  Config.freeFun 10 ([c, bayer, x, cfaPos x y] ++ row (y - 1) ++ row y ++ row (min (h - 1) (y + 1))) % 65536

/-- Stage 5. -/
def whiteBalance (p : SvParams) (c v : Nat) : Nat := min 65535 ((v * p.u (0x30 + 2 * c) 2 + 2048) / 4096)

/-- Stage 6. -/
def colourMatrix (p : SvParams) (v : Nat → Nat) (r : Nat) : Nat :=
  let sum : Int := ((List.range 3).map (fun j => p.sg (0x38 + 2 * (3 * r + j)) 2 * (v j : Int))).sum
  clamp16 ((sum + 2048) / 4096 + p.sg (0x4C + 4 * r) 4)

/-- Stage 7. -/
def tone (p : SvParams) (c v : Nat) : Nat :=
  let t (i : Nat) : Int := (p.tone.getD (257 * c + i) 0 : Nat)
  clamp16 (t (v / 256) + ((t (v / 256 + 1) - t (v / 256)) * ((v % 256 : Nat) : Int) + 128) / 256)

/-- Stage 8. -/
def toYuv (p : SvParams) (v : Nat → Nat) (r : Nat) : Nat :=
  let sum : Int := ((List.range 3).map (fun j => p.sg (0x60 + 2 * (3 * r + j)) 2 * (v j : Int))).sum
  (clampI 0 1023 ((sum + 2 ^ 17) / 2 ^ 18 + p.sg (0x74 + 2 * r) 2)).toNat

/-- A coordinate moved by d and held inside 0 to n - 1 (R343). -/
def clampIdx (n : Nat) (x : Nat) (d : Int) : Nat := (clampI 0 ((n : Int) - 1) ((x : Int) + d)).toNat

/-- Stage 9: noise reduction of one plane (R341). -/
def denoise (str w h : Nat) (pl : Plane) : Plane := fun x y =>
  let c := pl x y
  let ps := ([-1, 0, 1] : List Int).flatMap (fun dy => ([-1, 0, 1] : List Int).map (fun dx =>
    let n := pl (clampIdx w x dx) (clampIdx h y dy)
    let d := (max n c - min n c) * 64 / (4 * str + 1)
    (64 - d, n)))
  let sw := (ps.map (fun q => q.1)).sum
  let sv := (ps.map (fun q => q.1 * q.2)).sum
  (2 * sv + sw) / (2 * sw)

/-- What a frame enters a Sieve as: geometry, data type, colour at CFA position 0, and its stored lines. -/
structure SvInput where
  w : Nat
  h : Nat
  dt : Nat
  bayer : Nat
  lines : List (List Byte)
deriving DecidableEq, Repr

/-- A stored line; rows beyond the last are copies of it (R343). -/
def SvInput.line (f : SvInput) (y : Nat) : List Byte := f.lines.getD (min y (f.lines.length - 1)) []

/-- The raw plane, and the planes after stages 1 to 3. -/
def SvInput.raw (f : SvInput) : Plane := fun x y => rawSample f.dt (f.line y) x
def SvInput.black (f : SvInput) (p : SvParams) : Plane := blackLevel p f.raw
def SvInput.shaded (f : SvInput) (p : SvParams) : Plane := shading p f.w f.h (defects p f.w f.h (f.black p))

/-- Channels after stage 4, and after stages 5 and 6. -/
def SvInput.rgb4 (f : SvInput) (p : SvParams) (c : Nat) : Plane := demosaic f.bayer f.w f.h (f.shaded p) c
def SvInput.rgb6 (f : SvInput) (p : SvParams) (c : Nat) : Plane := fun x y =>
  colourMatrix p (fun j => whiteBalance p j (f.rgb4 p j x y)) c

/-- Is the input YUV422 8-bit? -/
def SvInput.isYuv (f : SvInput) : Bool := f.dt == 0x1E

/-- Planes that enter stage 9. -/
def SvInput.yuv8 (f : SvInput) (p : SvParams) (c : Nat) : Plane :=
  if f.isYuv then fun x y => yuvSample (f.line y) c x
  else fun x y => toYuv p (fun j => tone p j (f.rgb6 p j x y)) c

/-- Planes after stage 9: chroma of YUV input is denoised on its own plane, half as wide (log 24). -/
def SvInput.yuv9 (f : SvInput) (p : SvParams) (c : Nat) : Plane :=
  let str := bitsOf (p.u 0x7C 4) (if c = 0 then 0 else 8) 8
  if p.u 0x7C 2 = 0 then f.yuv8 p c
  else if f.isYuv ∧ c ≠ 0 then fun x y => denoise str (ceilDiv f.w 2) f.h (fun i j => f.yuv8 p c (2 * i) j) (x / 2) y
  else denoise str f.w f.h (f.yuv8 p c)

/-- A row after stage 9: Y of every column, then Cb, then Cr. -/
def SvInput.row9 (f : SvInput) (p : SvParams) (y : Nat) : List Nat :=
  (List.range 3).flatMap (fun c => (List.range f.w).map (fun x => f.yuv9 p c x y))

/-! ### Statistics (Table SIV-4) -/

/-- A list with k added at position i; a sum saturates (Table SIV-4). -/
def bump (l : List Nat) (i k : Nat) : List Nat := l.mapIdx (fun j v => if j = i then min (v + k) 0xFFFFFFFF else v)

/-- The zone of a coordinate: n zones over size, zone a from floor(a size / n). -/
def zoneOf (n size x : Nat) : Nat := ((List.range n).filter (fun a => decide (a * size / n ≤ x))).length - 1

/-- One pixel's part of the statistics. -/
def SvStats.pixel (t : SvStats) (f : SvInput) (p : SvParams) (x y : Nat) : SvStats :=
  let y8 := f.yuv8 p 0
  let diff := max (y8 x y) (y8 (x - 2) y) - min (y8 x y) (y8 (x - 2) y)
  let zf := (zoneOf 12 f.h y * 16 + zoneOf 16 f.w x) * 2
  let t1 := { t with af := bump (bump t.af zf diff) (zf + 1) 1 }
  if f.isYuv then { t1 with ae := bump t1.ae (y8 x y / 4) 1 }
  else
    let c (i : Nat) := f.rgb4 p i x y
    let g (i : Nat) := f.rgb6 p i x y
    let thr := p.u 0x80 2
    let za := (zoneOf 24 f.h y * 32 + zoneOf 32 f.w x) * 4
    let awb := if c 0 < thr ∧ c 1 < thr ∧ c 2 < thr then
        bump (bump (bump (bump t1.awb za (c 0)) (za + 1) (c 1)) (za + 2) (c 2)) (za + 3) 1
      else t1.awb
    { t1 with ae := bump t1.ae ((g 0 + 2 * g 1 + g 2) / 1024) 1, awb,
              dpc := t1.dpc + b2n (dynDefect p f.w f.h (f.black p) x y) }

/-- The statistics of rows lo to hi - 1 added. -/
def SvStats.rows (t : SvStats) (f : SvInput) (p : SvParams) (lo hi : Nat) : SvStats :=
  ((List.range (hi - lo)).flatMap (fun k => (List.range f.w).map (fun x => (x, lo + k)))).foldl
    (fun t q => t.pixel f p q.1 q.2) t

/-- The bytes of the slot after its header. -/
def SvStats.bytes (t : SvStats) : List Byte :=
  (t.ae ++ t.awb ++ t.af).flatMap (toBytes 4) ++ List.replicate 1472 0#8

/-! ### Stage 10 and the output formats (R342, Table SIV-7) -/

/-- A scaler: crop and output size. -/
structure Scale where
  cx : Nat
  cy : Nat
  cw : Nat
  ch : Nat
  ow : Nat
  oh : Nat
deriving DecidableEq, Repr

def SvParams.scale (p : SvParams) (n : Nat) : Scale :=
  { cx := p.scl n 0, cy := p.scl n 1, cw := p.scl n 2, ch := p.scl n 3, ow := p.scl n 4, oh := p.scl n 5 }

/-- The source columns (or rows) under output position u, each with its overlap in units of 1 / ow of a source sample. -/
def footprint (c0 cw ow u : Nat) : List (Nat × Nat) :=
  let lo := u * cw
  let hi := (u + 1) * cw
  (List.range (ceilDiv hi ow - lo / ow)).map (fun k =>
    let x := lo / ow + k
    (c0 + x, min ((x + 1) * ow) hi - max (x * ow) lo))

/-- R342: the area mean at (u, v), rounded to nearest. -/
def Scale.mean (k : Scale) (pl : Plane) (u v : Nat) : Nat :=
  let xs := footprint k.cx k.cw k.ow u
  let ys := footprint k.cy k.ch k.oh v
  let s := (ys.flatMap (fun y => xs.map (fun x => x.2 * y.2 * pl x.1 y.1))).sum
  (2 * s + k.cw * k.ch) / (2 * (k.cw * k.ch))

/-- The last source row that output row v needs. -/
def Scale.lastRow (k : Scale) (v : Nat) : Nat := k.cy + ceilDiv ((v + 1) * k.ch) k.oh - 1

/-- Output rows complete once `n` source rows are processed. -/
def Scale.rowsAt (k : Scale) (n : Nat) : Nat := ((List.range k.oh).takeWhile (fun v => decide (k.lastRow v < n))).length

/-- A 10-bit value as 8 bits, rounded to nearest. -/
def to8 (v : Nat) : Nat := min 255 ((v + 2) / 4)

/-- The rounded mean of a list. -/
def meanOf (l : List Nat) : Nat := (2 * l.sum + l.length) / (2 * l.length)

/-- Bytes of a luma row of a format, its chroma rows, and whether it is one of 4:2:0 (formats above 3 are 0). -/
def fmt420 (fmt : Nat) : Bool := fmt != 2 && fmt != 3
def chromaRows (fmt oh : Nat) : Nat := if fmt420 fmt then oh / 2 else 0

/-- A 10-bit sample of P010 lies in the upper bits of its word (PRESUMED, log 25). -/
def p010 (v : Nat) : List Byte := toBytes 2 (v * 64)

/-- The bytes of output row v from the three scaled planes: luma, or whole pixels of YUYV. -/
def lumaRow (fmt ow : Nat) (pl : Nat → Plane) (v : Nat) : List Byte :=
  if fmt = 1 then (List.range ow).flatMap (fun u => p010 (pl 0 u v))
  else if fmt = 2 then
    (List.range (ceilDiv ow 2)).flatMap (fun k =>
      let c (i : Nat) : Nat := meanOf (((List.range 2).filter (fun d => decide (2 * k + d < ow))).map (fun d => pl i (2 * k + d) v))
      [BitVec.ofNat 8 (to8 (pl 0 (2 * k) v)), BitVec.ofNat 8 (to8 (c 1)), BitVec.ofNat 8 (to8 (pl 0 (2 * k + 1) v)),
        BitVec.ofNat 8 (to8 (c 2))])
  else (List.range ow).map (fun u => BitVec.ofNat 8 (to8 (pl 0 u v)))

/-- The bytes of chroma row r of a 4:2:0 format: Cb and Cr of each pair. -/
def chromaRow (fmt ow : Nat) (pl : Nat → Plane) (r : Nat) : List Byte :=
  (List.range (ow / 2)).flatMap (fun k =>
    ([1, 2] : List Nat).flatMap (fun i =>
      let c := meanOf [pl i (2 * k) (2 * r), pl i (2 * k + 1) (2 * r), pl i (2 * k) (2 * r + 1), pl i (2 * k + 1) (2 * r + 1)]
      if fmt = 1 then p010 c else [BitVec.ofNat 8 (to8 c)]))

/-- The plane c of rows after stage 9. -/
def rowsPlane (w : Nat) (rows : List (List Nat)) (c : Nat) : Plane := fun x y => (rows.getD y []).getD (c * w + x) 0

end Sys2Proof.Machine
end

