-- ==== Sys2Proof/Machine/Warp.lean ====
section
/-! DEFINITION. Meshes, homographies, sampling, normalisation, tensor layouts, boxes and the augmentation generator of the
Mandoline (spec/11, R368 to R374, R376, R389 to R393): functions of a source image. -/

namespace Sys2Proof.Machine

/-! ### The shape block (Table MAN-1) -/

/-- A shape block is its 64 bytes. -/
structure Shape where
  bytes : List Byte := []
deriving DecidableEq, Repr

def Shape.ow (h : Shape) : Nat := leAt h.bytes 0 2
def Shape.oh (h : Shape) : Nat := leAt h.bytes 2 2
def Shape.color (h : Shape) : Nat := bitsOf (leAt h.bytes 4 1) 0 2
def Shape.layout (h : Shape) : Nat := bitsOf (leAt h.bytes 4 1) 2 2
def Shape.bf (h : Shape) : Bool := bitOf (leAt h.bytes 4 1) 4
def Shape.edge (h : Shape) : Bool := bitOf (leAt h.bytes 4 1) 5
def Shape.fit (h : Shape) : Bool := bitOf (leAt h.bytes 4 1) 6
def Shape.fill (h : Shape) (c : Nat) : Nat := leAt h.bytes (6 + 2 * c) 2
def Shape.mat (h : Shape) (r j : Nat) : Int := toS 16 (leAt h.bytes (0x0C + 2 * (3 * r + j)) 2)
def Shape.mofs (h : Shape) (r : Nat) : Int := toS 16 (leAt h.bytes (0x1E + 2 * r) 2)
def Shape.mean (h : Shape) (r : Nat) : Fp := f32.dec (leAt h.bytes (0x24 + 4 * r) 4)
def Shape.sc (h : Shape) (r : Nat) : Fp := f32.dec (leAt h.bytes (0x30 + 4 * r) 4)
def Shape.zp (h : Shape) (r : Nat) : Int := toS 8 (leAt h.bytes (0x3C + r) 1)
/-- Channels, bytes of an element and of a slice, packing factor. -/
def Shape.chans (h : Shape) : Nat := if h.color = 0 then 1 else 3
def Shape.elem (h : Shape) : Nat := if h.bf then 2 else 1
def Shape.slice (h : Shape) : Nat := 64 * h.elem
def Shape.pack (h : Shape) : Nat := if h.layout = 1 then 2 else if h.layout = 2 then 4 else 1

/-- Tables MAN-1 and MAN-2 hold of a block with an output size. -/
def Shape.okAt (h : Shape) (ow oh : Nat) : Bool :=
  decide (8 ≤ ow ∧ ow ≤ 4096 ∧ 8 ≤ oh ∧ oh ≤ 4096) && decide (ow % h.pack = 0 ∧ oh % h.pack = 0)
def Shape.ok (h : Shape) : Bool :=
  h.bytes.length == 64 && h.okAt h.ow h.oh && h.color != 3 && !bitOf (leAt h.bytes 4 1) 7 && leAt h.bytes 5 1 == 0
    && leAt h.bytes 0x3F 1 == 0

/-- PLANAR: the pitch of a row. -/
def Shape.planeP (h : Shape) (ow : Nat) : Nat := ceilDiv (ow * h.elem) 64 * 64

/-- Bytes of an image of a size (Table MAN-2). -/
def Shape.imageBytes (h : Shape) (ow oh : Nat) : Nat :=
  if h.layout = 3 then h.chans * oh * h.planeP ow else (oh / h.pack) * (ow / h.pack) * h.slice

/-! ### Sampling (R373, R374) -/

/-- A source image: its format, its size, and its 10-bit sample of a plane at a place. -/
structure Image where
  fmt : Nat
  w : Nat
  h : Nat
  pitch : Nat
deriving DecidableEq, Repr

/-- Is plane c of half width, of half height? -/
def Image.halfW (m : Image) (c : Nat) : Bool := c != 0 && m.fmt != 3
def Image.halfH (m : Image) (c : Nat) : Bool := c != 0 && fmt420 m.fmt
def Image.pw (m : Image) (c : Nat) : Nat := if m.halfW c then m.w / 2 else m.w
def Image.ph (m : Image) (c : Nat) : Nat := if m.halfH c then m.h / 2 else m.h

/-- Offset and size of the sample of plane c at (x, y): semi-planar formats hold chroma after the luma rows (spec/10); YUYV
holds Y Cb Y Cr. -/
def Image.ofs (m : Image) (c x y : Nat) : Nat × Nat :=
  if m.fmt = 2 then (y * m.pitch + (if c = 0 then 2 * x else 4 * x + 2 * c - 1), 1)
  else
    let e := if m.fmt = 1 then 2 else 1
    if c = 0 then (y * m.pitch + x * e, e) else ((m.h + y) * m.pitch + (2 * x + c - 1) * e, e)

/-- A stored sample as 10 bits: P010 holds it in the upper bits (log 25); 8-bit samples are multiplied by 4. -/
def Image.val (m : Image) (v : Nat) : Nat := if m.fmt = 1 then v / 64 else v * 4

/-- Integer part and fraction of 256 of a coordinate. -/
def split256 (x : Q) : Int × Nat :=
  let x0 := x.floor
  let f := ((x.sub (Q.ofInt x0)).mul (Q.ofNat 256)).round.toNat
  if f = 256 then (x0 + 1, 0) else (x0, f)

/-- The four neighbours of a position, clamped into a plane of size w by h, with their weights. -/
def taps (w h : Nat) (x y : Q) : List (Nat × Nat × Nat) :=
  let a := split256 x
  let b := split256 y
  let cx (i : Int) : Nat := (clampI 0 ((w : Int) - 1) i).toNat
  let cy (i : Int) : Nat := (clampI 0 ((h : Int) - 1) i).toNat
  [((256 - a.2) * (256 - b.2), cx a.1, cy b.1), (a.2 * (256 - b.2), cx (a.1 + 1), cy b.1),
    ((256 - a.2) * b.2, cx a.1, cy (b.1 + 1)), (a.2 * b.2, cx (a.1 + 1), cy (b.1 + 1))]

/-- The position in plane c of a position of the image (R373). -/
def Image.pos (m : Image) (c : Nat) (x y : Q) : Q × Q :=
  let hf (v : Q) : Q := (v.sub { n := 1, d := 2 }).mul { n := 1, d := 2 }
  (if m.halfW c then hf x else x, if m.halfH c then hf y else y)

/-- The taps of plane c at a position: weight, offset and size of the stored sample. -/
def Image.taps (m : Image) (c : Nat) (x y : Q) : List (Nat × Nat × Nat) :=
  let p := m.pos c x y
  (Sys2Proof.Machine.taps (m.pw c) (m.ph c) p.1 p.2).map (fun t => let o := m.ofs c t.2.1 t.2.2; (t.1, o.1, o.2))

/-- R373: the sample of plane c at a position, from the bytes of the image. -/
def Image.sample (m : Image) (byte : Nat → Nat) (c : Nat) (x y : Q) : Nat :=
  let rd (o n : Nat) : Nat := byte o + (if n = 2 then 256 * byte (o + 1) else 0)
  (((m.taps c x y).map (fun t => t.1 * m.val (rd t.2.1 t.2.2))).sum + 2 ^ 15) / 2 ^ 16

/-- R374: a position outside the image (log 26: judged on the luma plane). -/
def Image.outside (m : Image) (x y : Q) : Bool :=
  x.lt (Q.ofInt 0) || (Q.ofInt ((m.w : Int) - 1)).lt x || y.lt (Q.ofInt 0) || (Q.ofInt ((m.h : Int) - 1)).lt y

/-! ### From samples to elements (R368) -/

/-- Channel r from the sampled values. -/
def Shape.chan (h : Shape) (v : Nat → Nat) (r : Nat) : Int :=
  if h.color = 2 then
    clampI 0 1023 ((((List.range 3).map (fun j => h.mat r j * (v j : Int))).sum + 2048) / 4096 + h.mofs r)
  else (v r : Int)

/-- The bytes of an element of channel r with value c. -/
def Shape.element (h : Shape) (r : Nat) (c : Int) : List Byte :=
  let v := rMul (rSub (Fp.ofInt c) (h.mean r)) (h.sc r)
  if h.bf then toBytes 2 (bf16.enc true v)
  else
    match v with
    | .num _ q => toBytes 1 (ofS 8 (clampI (-128) 127 (q.roundEven + h.zp r)))
    | .inf neg => toBytes 1 (ofS 8 (if neg then -128 else 127))
    | .nan => toBytes 1 (Config.freeFun 12 (h.bytes.map BitVec.toNat ++ [r, c.toNat]) % 256)

/-- What an output pixel takes its value from: a place in the image, or nothing. -/
inductive Spot where
  | at (x y : Q)
  | out
deriving DecidableEq, Repr

/-- A pixel's element of channel r: outside the image FILL under CONST, the clamped plane under EDGE (R374); a pixel with no
place takes FILL. `gain` alters each sampled value (R393). -/
def Shape.pixel (h : Shape) (m : Image) (byte : Nat → Nat) (gain : Nat → Nat) (r : Nat) : Spot → List Byte
  | .out => h.element r (h.fill r)
  | .at x y => if m.outside x y && !h.edge then h.element r (h.fill r)
      else h.element r (h.chan (fun c => gain (m.sample byte c x y)) r)

/-- A pixel that takes FILL under OOB CONST, which OOB_PIX_CNT counts. -/
def Shape.filled (h : Shape) (m : Image) : Spot → Bool
  | .out => !h.edge
  | .at x y => m.outside x y && !h.edge

/-- The stored bytes that a pixel reads: offset and size. -/
def Shape.reads (h : Shape) (m : Image) (p : Spot) : List (Nat × Nat) :=
  match p with
  | .at x y => if m.outside x y && !h.edge then []
      else (List.range (if h.color = 0 then 1 else 3)).flatMap (fun c => (m.taps c x y).map (fun t => (t.2.1, t.2.2)))
  | .out => []

/-- Table MAN-2: the ranges written for output rows lo to hi - 1 of an image of size ow by oh, by offset. -/
def Shape.writes (h : Shape) (ow oh : Nat) (el : Nat → Nat → Nat → List Byte) (lo hi : Nat) : List (Nat × List Byte) :=
  let C := h.chans
  if h.layout = 3 then
    (List.range C).flatMap (fun c => (List.range (hi - lo)).map (fun k =>
      ((c * oh + lo + k) * h.planeP ow, (List.range ow).flatMap (fun u => el c u (lo + k)))))
  else
    let p := h.pack
    [(lo / p * (ow / p * h.slice), (List.range ((hi - lo) / p)).flatMap (fun k => (List.range (ow / p)).flatMap (fun u =>
      (List.range 64).flatMap (fun i =>
        if i < p * p * C then el (i % C) (u * p + i / C % p) ((lo / p + k) * p + i / C / p) else List.replicate h.elem 0#8))))]

/-! ### Meshes (Table MAN-3, R370 to R372, R376) -/

/-- A fetched mesh: header, nodes, modes, homographies. -/
structure Mesh where
  hdr : List Byte := []
  nodes : List Byte := []
  modes : List Byte := []
  homs : List Byte := []
deriving DecidableEq, Repr

def Mesh.nx (m : Mesh) : Nat := leAt m.hdr 0 2
def Mesh.ny (m : Mesh) : Nat := leAt m.hdr 2 2
def Mesh.cw (m : Mesh) : Nat := leAt m.hdr 4 2
def Mesh.ch (m : Mesh) : Nat := leAt m.hdr 6 2
def Mesh.nodeAddr (m : Mesh) : Nat := leAt m.hdr 8 8
def Mesh.modeAddr (m : Mesh) : Nat := leAt m.hdr 16 8
def Mesh.homAddr (m : Mesh) : Nat := leAt m.hdr 24 8
def Mesh.cells (m : Mesh) : Nat := (m.nx - 1) * (m.ny - 1)

/-- The header is in range and the mesh covers the output (Table MAN-3, R370). -/
def Mesh.ok (m : Mesh) (ow oh : Nat) : Bool :=
  decide (2 ≤ m.nx ∧ m.nx ≤ 129 ∧ 2 ≤ m.ny ∧ m.ny ≤ 129 ∧ 1 ≤ m.cw ∧ m.cw ≤ 4096 ∧ 1 ≤ m.ch ∧ m.ch ≤ 4096)
    && decide (m.nodeAddr % 64 = 0 ∧ m.modeAddr % 64 = 0 ∧ m.homAddr % 64 = 0)
    && decide (ow ≤ (m.nx - 1) * m.cw + 1 ∧ oh ≤ (m.ny - 1) * m.ch + 1)

/-- The cell of an output pixel (R370), and whether it is a homography. -/
def Mesh.cellX (m : Mesh) (u : Nat) : Nat := min (u / m.cw) (m.nx - 2)
def Mesh.cellY (m : Mesh) (v : Nat) : Nat := min (v / m.ch) (m.ny - 2)
def Mesh.isHom (m : Mesh) (a b : Nat) : Bool :=
  let i := b * (m.nx - 1) + a
  bitOf (leAt m.modes (i / 8) 1) (i % 8)

/-- A node position. -/
def Mesh.node (m : Mesh) (a b i : Nat) : Q := { n := toS 32 (leAt m.nodes ((b * m.nx + a) * 8 + 4 * i) 4), d := 65536 }

/-- R371: the bilinear blend, rounded once to FP32 (log 28). -/
def Mesh.blend (m : Mesh) (a b u v i : Nat) : Q :=
  let fu : Q := { n := (u : Int) - (a * m.cw : Nat), d := m.cw }
  let fv : Q := { n := (v : Int) - (b * m.ch : Nat), d := m.ch }
  let lin (p q f : Q) : Q := p.add ((q.sub p).mul f)
  (lin (lin (m.node a b i) (m.node (a + 1) b i) fu) (lin (m.node a (b + 1) i) (m.node (a + 1) (b + 1) i) fu) fv).single

/-- R372: the homography of a cell at (u, v), each operation in FP32 (log 28); none where d is not above zero or the position
is no number. -/
def Mesh.hom (m : Mesh) (a b u v : Nat) : Option (Q × Q) :=
  let h (i : Nat) : Fp := f32.dec (leAt m.homs ((b * (m.nx - 1) + a) * 32 + 4 * i) 4)
  let lin (i : Nat) (c : Fp) : Fp := rAdd (rAdd (rMul (h i) (Fp.ofInt u)) (rMul (h (i + 1)) (Fp.ofInt v))) c
  let d := lin 6 (Fp.ofInt 1)
  if (Fp.ofInt 0).lt d then
    match (rDiv (lin 0 (h 2)) d).q?, (rDiv (lin 3 (h 5)) d).q? with
    | some x, some y => some (x, y)
    | _, _ => none
  else none

/-- The source position of an output pixel. -/
def Mesh.spot (m : Mesh) (u v : Nat) : Spot :=
  let a := m.cellX u
  let b := m.cellY v
  if m.isHom a b then
    match m.hom a b u v with
    | some (x, y) => .at x y
    | none => .out
  else .at (m.blend a b u v 0) (m.blend a b u v 1)

/-- First and last output column of cell a, and first and last row of cell b within rows lo to hi - 1. -/
def Mesh.cols (m : Mesh) (ow a : Nat) : Nat × Nat := (a * m.cw, if a = m.nx - 2 then ow - 1 else min (ow - 1) ((a + 1) * m.cw - 1))
def Mesh.rowsOf (m : Mesh) (oh lo hi b : Nat) : Nat × Nat :=
  (max lo (b * m.ch), min (hi - 1) (if b = m.ny - 2 then oh - 1 else min (oh - 1) ((b + 1) * m.ch - 1)))

/-- The corners of every cell portion that meets rows lo to hi - 1 (log 29: its outermost pixels). -/
def Mesh.corners (m : Mesh) (ow oh lo hi : Nat) : List (Nat × Nat) :=
  (List.range (m.ny - 1)).flatMap (fun b =>
    let r := m.rowsOf oh lo hi b
    if r.2 < r.1 then []
    else (List.range (m.nx - 1)).flatMap (fun a =>
      let c := m.cols ow a
      if c.2 < c.1 then [] else [(c.1, r.1), (c.2, r.1), (c.1, r.2), (c.2, r.2)]))

/-- R376: NEED of the band of rows lo to hi - 1, for a source of height H. -/
def Mesh.need (m : Mesh) (ow oh H lo hi : Nat) : Nat :=
  (m.corners ow oh lo hi).foldl (fun n c =>
    match m.spot c.1 c.2 with
    | .out => H
    | .at _ y => max n (min (H : Int) (y.floor + 2)).toNat) 0

/-! ### Philox4x32-10 (R392; the generator's constants are its published ones, log 30) -/

/-- One round on the counter. -/
def philoxRound (k0 k1 : Nat) (c : Nat × Nat × Nat × Nat) : Nat × Nat × Nat × Nat :=
  let p0 := 0xD2511F53 * c.1
  let p1 := 0xCD9E8D57 * c.2.2.1
  ((p1 / 2 ^ 32) ^^^ c.2.1 ^^^ k0, p1 % 2 ^ 32, (p0 / 2 ^ 32) ^^^ c.2.2.2 ^^^ k1, p0 % 2 ^ 32)

/-- n rounds, the key advancing between them. -/
def philox : Nat → Nat → Nat → Nat × Nat × Nat × Nat → Nat × Nat × Nat × Nat
  | 0, _, _, c => c
  | n + 1, k0, k1, c => philox n ((k0 + 0x9E3779B9) % 2 ^ 32) ((k1 + 0xBB67AE85) % 2 ^ 32) (philoxRound k0 k1 c)

/-- Draw n of sample s, a fraction of 2^32. -/
def draw (seedLo seedHi s n : Nat) : Q := { n := (philox 10 seedLo seedHi (s % 2 ^ 32, n, 0, 0)).1, d := 2 ^ 32 }

/-! ### Boxes (R389, R390, R393) -/

/-- A box with its augmentation: corner, size, mirror and gain. -/
structure Box where
  x0 : Q
  y0 : Q
  w : Q
  h : Q
  flip : Bool := false
  gain : Q := { n := 1, d := 1 }
deriving DecidableEq, Repr

/-- R393: augmentation of a box by the draws of sample s; each result in FP32 (log 28). -/
def augment (seedLo seedHi s flipP jitPos jitScale gainJ : Nat) (b : Box) : Box :=
  let u (n : Nat) : Q := draw seedLo seedHi s n
  let pm (n : Nat) : Q := ((Q.ofNat 2).mul (u n)).sub (Q.ofNat 1)
  let f := (Q.ofNat 1).add ((pm 3).mul { n := jitScale, d := 256 })
  let w := (b.w.mul f).single
  let h := (b.h.mul f).single
  let hf : Q := { n := 1, d := 2 }
  let cx := ((b.x0.add (b.w.mul hf)).add (((pm 1).mul { n := jitPos, d := 256 }).mul w)).single
  let cy := ((b.y0.add (b.h.mul hf)).add (((pm 2).mul { n := jitPos, d := 256 }).mul h)).single
  { x0 := (cx.sub (w.mul hf)).single, y0 := (cy.sub (h.mul hf)).single, w, h,
    flip := (u 0).lt { n := flipP, d := 256 },
    gain := ((Q.ofNat 1).add ((pm 4).mul { n := gainJ, d := 256 })).single }

/-- A sampled value under a gain, to the nearest integer (log 27), clamped to 0 to 1023. -/
def gained (g : Q) (v : Nat) : Nat := (clampI 0 1023 ((g.mul (Q.ofNat v)).round)).toNat

/-- R389: where output pixel (u, v) of a box samples. -/
def Box.spot (b : Box) (fit : Bool) (ow oh u0 v : Nat) : Spot :=
  let u := if b.flip then ow - 1 - u0 else u0
  let hf : Q := { n := 1, d := 2 }
  if fit then
    let k := Q.max (b.w.div (Q.ofNat ow)) (b.h.div (Q.ofNat oh))
    let x := (b.w.mul hf).add ((((Q.ofNat u).add hf).sub { n := ow, d := 2 }).mul k)
    let y := (b.h.mul hf).add ((((Q.ofNat v).add hf).sub { n := oh, d := 2 }).mul k)
    if x.lt (Q.ofInt 0) || b.w.le x || y.lt (Q.ofInt 0) || b.h.le y then .out
    else .at ((b.x0.add x).sub hf) ((b.y0.add y).sub hf)
  else
    .at (((b.x0).add ((((Q.ofNat u).add hf).mul b.w).div (Q.ofNat ow))).sub hf)
      (((b.y0).add ((((Q.ofNat v).add hf).mul b.h).div (Q.ofNat oh))).sub hf)

/-- R390: the bucket of a box among enabled buckets (number, MAXDIM). -/
def bucketOf (bk : List (Nat × Nat)) (b : Box) : Nat :=
  let d := Q.max b.w b.h
  let fits := (bk.filter (fun x => d.le (Q.ofNat x.2))).mergeSort (fun x y => decide (x.2 < y.2 ∨ (x.2 = y.2 ∧ x.1 ≤ y.1)))
  let all := bk.mergeSort (fun x y => decide (y.2 < x.2 ∨ (x.2 = y.2 ∧ x.1 ≤ y.1)))
  ((fits.head?.orElse (fun _ => all.head?)).map (fun x => x.1)).getD 0

end Sys2Proof.Machine
end

