-- ==== Sys2Proof/Machine/Mandoline.lean ====
section
/-! DEFINITION. The Mandoline: frame programs, bands, tensor buffers, and crop and decode jobs (spec/11, R365 to R396). -/

namespace Sys2Proof.Machine

open Host

/-! ### Accesses of a unit that may not touch PROV pages (Table SPC-2, R147, R387) -/

/-- A read of n bytes: the bytes, or the job result it gives. -/
def State.unitRead (s : State) (a n : Nat) : State × (List Byte ⊕ Nat) :=
  match s.locate a with
  | .remote m => (s.skRead m none a n, .inl (s.remoteBytes n))
  | .reg pg o => (s.badAccess pg o, .inl (List.replicate n 0#8))
  | _ =>
    if s.guarded a n none then (s.guardRefuse, .inr 4)
    else match s.peek a n with
      | some x => (s.noteRead a n, .inl x.1)
      | none => (s.noteRead a n, .inr 2)

/-- A write: 0 where it was performed, else the job result it gives. -/
def State.unitWrite (s : State) (a : Nat) (bs : List Byte) : State × Nat :=
  if s.guarded a bs.length none then (s.guardRefuse, 4)
  else
    let r := s.cmdWrite none a bs false
    (r.1, if r.2 then 0 else 2)

/-- Several writes, up to the first that is refused. -/
def State.unitWrites (s : State) : List (Nat × List Byte) → State × Nat
  | [] => (s, 0)
  | w :: t =>
    let r := s.unitWrite w.1 w.2
    if r.2 = 0 then r.1.unitWrites t else r

/-! ### Records -/

/-- A Sieve context's record, and its update. -/
def State.svCtx (s : State) (v c : Nat) : SvCtx := (s.sv.ctxs.find? (fun x => x.inst == v && x.num == c)).getD { inst := v, num := c }
def State.setSvCtx (s : State) (x : SvCtx) : State :=
  { s with sv := { s.sv with ctxs := x :: s.sv.ctxs.filter (fun y => !(y.inst == x.inst && y.num == x.num)) } }

/-- The place of output n of context c in a field selected by CTX_SEL. -/
def svOut (c n : Nat) : Nat := n * 64 + c

/-- Output n of a context: size, buffer address, buffer length, format. -/
def State.svOutW (s : State) (v c n : Nat) : Nat := leAt (s.svCtx v c).params.block (0xA8 + 16 * n) 2
def State.svOutH (s : State) (v c n : Nat) : Nat := leAt (s.svCtx v c).params.block (0xAA + 16 * n) 2
def State.svBufLen (s : State) (v c n : Nat) : Nat := s.rd F.SV_OUT_BUF_KIB v (svOut c n) * 1024
def State.svBufAddr (s : State) (v c n i : Nat) : Nat :=
  s.rd F.SV_OUT_BASE_LO v (svOut c n) + s.rd F.SV_OUT_BASE_HI v (svOut c n) * 2 ^ 32 + i * s.svBufLen v c n
def State.svImage (s : State) (v c n : Nat) : Image :=
  { fmt := s.rd F.SV_OUT_CFG_FMT v (svOut c n), w := s.svOutW v c n, h := s.svOutH v c n, pitch := s.rd F.SV_OUT_PITCH v (svOut c n) }

/-- The output buffer of a frame. -/
def State.svBufOf (s : State) (v c n f : Nat) : Option SvBuf :=
  s.sv.bufs.find? (fun b => b.inst == v && b.ctx == c && b.out == n && b.frame == f)

/-- The program of a number that is enabled; the Sieve output it binds. -/
def State.mdProg (s : State) (p : Nat) : Option MdProg := s.md.progs.find? (fun x => x.num == p)
def State.mdSrc (s : State) (p : Nat) : Nat × Nat × Nat :=
  (s.rd F.MD_PG_CTRL_SIEVE 0 p, s.rd F.MD_PG_CTRL_CTX 0 p, s.rd F.MD_PG_CTRL_OUT 0 p)
def MdProg.shp (p : MdProg) : Shape := { bytes := p.shape }
def MdProg.mesh (p : MdProg) : Mesh := { hdr := p.hdr, nodes := p.nodes, modes := p.modes, homs := p.homs }

/-- BAND_ROWS and NBANDS of a program (R375). -/
def State.bandRows (s : State) (p : Nat) : Nat := max 1 (s.rd F.MD_PG_BAND_BAND_ROWS 0 p)
def State.nBands (s : State) (p oh : Nat) : Nat := ceilDiv oh (s.bandRows p)

/-- The band in progress reads this output buffer. -/
def State.mdReads (s : State) (b : SvBuf) : Bool :=
  match s.md.cur with
  | some (p, f) => b.frame == f && s.mdSrc p == (b.inst, b.ctx, b.out)
  | none => false

/-- R353, R357: an output buffer without a reference is FREE: the Sieve's lasts while its context is on the frame, or while a
Mandoline read of it is in progress. -/
def State.svSweep (s : State) : State :=
  { s with sv := { s.sv with bufs := s.sv.bufs.filter (fun b =>
      b.refs != 0 || (b.writing && ((s.svCtx b.inst b.ctx).run.any (fun r => r.frame == b.frame) || s.mdReads b))) } }

/-- R381: the MANDOLINE reference on a handed-off buffer ends once no program bound to the output still has the frame. -/
def State.mdFinish (s : State) (v c n f : Nat) : State :=
  if s.tbufs.any (fun b => b.write && b.frame == f && s.mdSrc b.prog == (v, c, n)) then s
  else ({ s with sv := { s.sv with bufs := updWhere (fun b => b.inst == v && b.ctx == c && b.out == n && b.frame == f)
                                                       (fun b => { b with refs := clrBit b.refs 0 }) s.sv.bufs } }).svSweep

/-! ### Tensor buffers (R377, R379 to R382) -/

/-- A tensor buffer is in use (R382). -/
def TBuf.used (b : TBuf) : Bool := b.write || b.hold || !b.cmds.isEmpty

/-- A buffer's record updated. -/
def State.updTBuf (s : State) (p i : Nat) (f : TBuf → TBuf) : State :=
  { s with tbufs := updWhere (fun b => b.prog == p && b.idx == i) f s.tbufs }

/-- The header of a tensor buffer. -/
def State.tbufHeader (s : State) (b : TBuf) : State :=
  let gt := ((s.frame b.frame).map (fun f => f.capGt)).getD 0
  s.poke (s.tbufAddr b.prog b.idx + s.tbufLen b.prog - 64)
    (toBytes 4 b.frame ++ toBytes 8 gt ++ toBytes 4 b.j ++ [BitVec.ofNat 8 b.bands, BitVec.ofNat 8 b.status] ++ List.replicate 46 0#8)

/-- A notify write is under way (R379). -/
def State.notify (s : State) (a v : Nat) : State := { s with md := { s.md with notifies := s.md.notifies ++ [(a, v)] } }

/-- Table MAN-4, for band k of taken frame j. -/
def State.bandNotify (s : State) (p j k : Nat) (abandoned : Bool) : State :=
  let mode := s.rd F.MD_PG_CTRL_NOTIFY_MODE 0 p
  let a := s.rd F.MD_PG_NOTIFY 0 p
  let st := max 1 (s.rd F.MD_PG_CTRL_STEP 0 p)
  if mode = 1 then s.notify a (j % 65536 + k * 65536 + b2n abandoned * 2 ^ 24)
  else if mode = 2 then s.notify a ((s.rd F.MD_PG_CTRL_ORIGIN 0 p + st * (j * s.rd F.MD_PG_STAT_NBANDS 0 p + k + 1)) % 65536)
  else s

/-- R382: the write reference becomes the hold reference. -/
def State.tbufHold (s : State) (b : TBuf) : State :=
  let till := s.gt + max 1 (s.rd F.MD_PG_POOL_CFG_HOLD_CYC 0 b.prog) * 65536
  s.updTBuf b.prog b.idx (fun x => { x with write := false, hold := true, holdTill := till })

/-- R380: a taken frame is abandoned: no further band is written, and every remaining band's notify is performed. -/
def State.tbufDrop (s : State) (b : TBuf) : State :=
  let b2 := { b with status := 2 }
  let s1 := ((s.updTBuf b.prog b.idx (fun _ => b2)).tbufHeader b2).inc F.MD_ABANDON_CNT 0 0 |>.raise 0x078 3
  let s2 := (List.range (s.rd F.MD_PG_STAT_NBANDS 0 b.prog - b.bands)).foldl (fun t k => t.bandNotify b.prog b.j (b.bands + k) true) s1
  let src := s.mdSrc b.prog
  (s2.tbufHold b2).mdFinish src.1 src.2.1 src.2.2 b.frame

/-- The program gives up a taken frame: at once, or after its band in progress, which runs to its end (R366). -/
def State.mdGiveUp (s : State) (b : TBuf) : State :=
  if s.md.cur = some (b.prog, b.frame) then { s with md := { s.md with dropAfter := true } } else s.tbufDrop b

/-- R380: every program bound to a context gives up a frame. -/
def State.mdAbandon (s : State) (v c f : Nat) : State :=
  (s.tbufs.filter (fun b => b.write && b.frame == f && (s.mdSrc b.prog).1 == v && (s.mdSrc b.prog).2.1 == c)).foldl State.mdGiveUp s

/-- R380: a frame has become stale before its last band. -/
def State.mdStale (s : State) (f : Nat) : State := (s.tbufs.filter (fun b => b.write && b.frame == f)).foldl State.mdGiveUp s

/-- The byte ranges of a program's bands in a buffer at address a. -/
def State.bandRanges (s : State) (p a : Nat) (h : Shape) : List (Nat × Nat × Nat) :=
  (List.range (s.nBands p h.oh)).flatMap (fun k =>
    (h.writes h.ow h.oh (fun _ _ _ => List.replicate h.elem 0#8) (k * s.bandRows p) (min h.oh ((k + 1) * s.bandRows p))).map
      (fun w => (k, a + w.1, w.2.length)))

/-- R377: a program takes a frame into buffer j mod NBUF, or not. -/
def State.mdTakeOne (s : State) (f : Nat) (g : MdProg) : State :=
  let p := g.num
  let j := s.rd F.MD_PG_SEQ 0 p
  let i := j % max 1 (s.rd F.MD_PG_POOL_CFG_NBUF 0 p)
  if s.tbufs.any (fun b => b.prog == p && b.idx == i && b.used) then (s.inc F.MD_TAKE_SKIP_CNT 0 p).raise 0x078 4
  else
    let b : TBuf := { prog := p, idx := i, frame := f, j, ranges := s.bandRanges p (s.tbufAddr p i) g.shp }
    ((({ s with tbufs := b :: s.tbufs.filter (fun x => !(x.prog == p && x.idx == i)) } : State).tbufHeader b).wr F.MD_PG_SEQ 0 p (j + 1))

/-- R377: the programs bound to a context when it starts stripe 0 of a frame. -/
def State.mdTake (s : State) (v c f : Nat) : State :=
  (s.md.progs.filter (fun g => s.rdB F.MD_CTRL_EN 0 0 && s.rdB F.MD_PG_CTRL_EN 0 g.num && s.rdB F.MD_PG_STAT_READY 0 g.num
    && (s.mdSrc g.num).1 == v && (s.mdSrc g.num).2.1 == c)).foldl (fun t g => t.mdTakeOne f g) s

/-! ### Enabling a program (R375, R376) -/

/-- A fetch of n bytes, none on an error response. -/
def State.fetch (s : State) (a n : Nat) : Option (List Byte) :=
  if s.guarded a n none then none else (s.peek a n).map (fun x => x.1)

/-- The bytes of a mesh. -/
def State.fetchMesh (s : State) (a : Nat) : Option Mesh :=
  match s.fetch a 32 with
  | none => none
  | some hdr =>
    let m : Mesh := { hdr }
    match s.fetch m.nodeAddr (m.nx * m.ny * 8), s.fetch m.modeAddr (ceilDiv m.cells 8), s.fetch m.homAddr (m.cells * 32) with
    | some nodes, some modes, some homs => some { hdr, nodes, modes, homs }
    | _, _, _ => none

/-- R375: the program to enable, or the code of the first failing check. -/
def State.pgCheck (s : State) (p : Nat) : MdProg ⊕ Nat :=
  match s.fetch (s.rd F.MD_PG_SHAPE 0 p) 64 with
  | none => .inr 6
  | some bs =>
    let h : Shape := { bytes := bs }
    let src := s.mdSrc p
    let br := s.rd F.MD_PG_BAND_BAND_ROWS 0 p
    let oi := svOut src.2.1 src.2.2
    if !(h.ok && !h.fit && h.ow == s.svOutW src.1 src.2.1 src.2.2 && h.oh == s.svOutH src.1 src.2.1 src.2.2
        && (s.rd F.SV_OUT_CFG_FMT src.1 oi != 3 || h.color == 0)) then .inr 1
    else match s.fetchMesh (s.rd F.MD_PG_MESH 0 p) with
      | none => .inr 6
      | some m =>
        if !m.ok h.ow h.oh then .inr 2
        else if !(decide (0 < br) && br % 8 == 0 && br % h.pack == 0 && decide (ceilDiv h.oh br ≤ 256)) then .inr 3
        else if !(bitOf (s.rd F.SV_OUT_CFG_CONSUMERS src.1 oi) 0
            && decide ((s.md.progs.filter (fun g => s.mdSrc g.num == src)).length < 4)) then .inr 4
        else if s.tbufLen p < h.imageBytes h.ow h.oh + 64 then .inr 5
        else .inl { num := p, shape := bs, hdr := m.hdr, nodes := m.nodes, modes := m.modes, homs := m.homs,
                    need := (List.range (ceilDiv h.oh br)).map (fun k => m.need h.ow h.oh h.oh (k * br) (min h.oh ((k + 1) * br))) }

/-- PG_CTRL.EN = 1. -/
def State.pgEnable (s : State) (p : Nat) : State :=
  match s.pgCheck p with
  | .inr e => s.wr F.MD_PG_STAT_ERR_CODE 0 p e
  | .inl g => ({ (s.wr F.MD_PG_CTRL_EN 0 p 1) with md := { s.md with progs := g :: s.md.progs.filter (fun x => x.num != p) } } : State).wr
      F.MD_PG_STAT_NBANDS 0 p (s.nBands p g.shp.oh)

/-- R380: a program is disabled: it gives up the frames it has taken. -/
def State.pgDisable (s : State) (p : Nat) : State :=
  let t := (s.tbufs.filter (fun b => b.write && b.prog == p)).foldl State.mdGiveUp s
  let u := { t with md := { t.md with progs := if t.md.cur.any (fun (x : Nat × Nat) => x.1 == p) then t.md.progs else t.md.progs.filter (fun x => x.num != p) } }
  (u.wr F.MD_PG_CTRL_EN 0 p 0).wr F.MD_PG_STAT_READY 0 p 0

/-- A write of PG_CTRL: the other fields are writable while EN is 0. -/
def State.pgCtrl (s0 : State) (p v : Nat) : State :=
  let s := s0.lockWord F.MD_PG_CTRL_EN 0 p v
  if s.rdB F.MD_PG_CTRL_EN 0 p then (if bitOf v 0 then s else s.pgDisable p)
  else
    let t := (((((s.wr F.MD_PG_CTRL_SIEVE 0 p (bitsOf v 1 1)).wr F.MD_PG_CTRL_CTX 0 p (bitsOf v 2 6)).wr F.MD_PG_CTRL_OUT 0 p (bitsOf v 8 2)).wr
      F.MD_PG_CTRL_NOTIFY_MODE 0 p (bitsOf v 10 2)).wr F.MD_PG_CTRL_STEP 0 p (bitsOf v 12 4)).wr F.MD_PG_CTRL_ORIGIN 0 p (bitsOf v 16 16)
    if bitOf v 0 then t.pgEnable p else t

/-- R375, R377: READY, with j counted from 0. -/
def State.pgReady (s : State) (p : Nat) : State :=
  if s.rdB F.MD_PG_CTRL_EN 0 p && !s.rdB F.MD_PG_STAT_READY 0 p then
    ((s.wr F.MD_PG_STAT_READY 0 p 1).wr F.MD_PG_SEQ 0 p 0).raise 0x078 6
  else s

/-- PG_READY. -/
def execPgReady (p : Fin 16) (s : State) : Outcome State Fault Refusal := .next (s.pgReady p.val)

/-- R382: hold references released. -/
def State.holdDrop (s : State) (q : TBuf → Bool) : State :=
  { s with tbufs := updWhere (fun b => b.hold && q b) (fun b => { b with hold := false }) s.tbufs }

/-- A write of PG_REL: the hold references of a program on a frame. -/
def State.pgRelease (s : State) (p v : Nat) : State := s.holdDrop (fun b => b.prog == p && b.frame == v)

/-- PG_REL. -/
def execPgRel (p : Fin 16) (v : Word) (s : State) : Outcome State Fault Refusal :=
  .next (s.reach 0x078 (fun t => t.pgRelease p.val v.toNat))

/-- PG_HOLD_EXPIRE. -/
def execPgHoldExpire (p : Fin 16) (i : Fin 16) (s : State) : Outcome State Fault Refusal :=
  .next (s.holdDrop (fun b => b.prog == p.val && b.idx == i.val && decide (b.holdTill ≤ s.gt)))

/-- R384: a bound command closes without service. -/
def State.bindShedNow (s : State) (id : Nat) : State :=
  match s.cmd id with
  | some c =>
    if c.started.isNone && c.phase != .running then
      match s.bindShed c with
      | some d => (s.inc F.MD_BIND_SHED_CNT 0 0).close id d
      | none => s
    else s
  | none => s

/-- BIND_SHED. -/
def execBindShed (id : Nat) (s : State) : Outcome State Fault Refusal := .next (s.bindShedNow id)

/-! ### Elements (R366, R378) -/

/-- Least by a pair of numbers. -/
def leastPair {α : Type} (f : α → Nat × Nat) : List α → Option α
  | [] => none
  | x :: t => match leastPair f t with
    | none => some x
    | some y => if (f y).1 < (f x).1 ∨ ((f y).1 = (f x).1 ∧ (f y).2 < (f x).2) then some y else some x

/-- The taken frame a program is on. -/
def State.mdFrame (s : State) (p : Nat) : Option TBuf := leastPair (fun b => (b.j, 0)) (s.tbufs.filter (fun b => b.prog == p && b.write))

/-- R378: the next band of a program is ready. -/
def State.bandReady (s : State) (g : MdProg) : Option TBuf :=
  match s.mdFrame g.num with
  | some b =>
    let src := s.mdSrc g.num
    match s.svBufOf src.1 src.2.1 src.2.2 b.frame with
    | some x => if !x.writing || decide (g.need.getD b.bands 0 ≤ x.rows) then some b else none
    | none => none
  | none => none

/-- The band chosen at an element boundary (R366). -/
def State.nextBand (s : State) : Option TBuf :=
  leastPair (fun b => (((s.frame b.frame).map (fun f => f.capGt)).getD 0, b.prog)) (s.md.progs.filterMap s.bandReady)

/-- A new element may start. -/
def State.mdOpen (s : State) : Bool :=
  s.pageOn 0x078 && !s.inReset 0x078 && s.rdB F.MD_CTRL_EN 0 0 && !s.rdB F.MD_CTRL_HALT 0 0 && s.md.cur.isNone

/-- BUSY and HALTED. -/
def State.mdSync (s : State) : State :=
  (s.wrB F.MD_STAT_BUSY 0 0 s.md.cur.isSome).wrB F.MD_STAT_HALTED 0 0 (s.rdB F.MD_CTRL_HALT 0 0 && s.md.cur.isNone)

/-- BAND_START. -/
def State.bandStart (s : State) : State :=
  if s.mdOpen then
    match s.nextBand with
    | some b => ({ s with md := { s.md with cur := some (b.prog, b.frame), dropAfter := false } }).mdSync
    | none => s
  else s
def execBandStart (s : State) : Outcome State Fault Refusal := .next s.bandStart

/-- A byte of an image at an address. -/
def State.imageByte (s : State) (a o : Nat) : Nat := ((s.placeOf (a + o)).map (fun p => (s.byteAt p).toNat)).getD 0

/-- The writes of rows lo to hi - 1 of a program's tensor, and the pixels it fills. -/
def State.bandWrites (s : State) (g : MdProg) (x : SvBuf) (lo hi : Nat) : List (Nat × List Byte) × Nat :=
  let h := g.shp
  let m := g.mesh
  let img := s.svImage x.inst x.ctx x.out
  let a := s.svBufAddr x.inst x.ctx x.out x.idx
  (h.writes h.ow h.oh (fun c u v => h.pixel img (s.imageByte a) id c (m.spot u v)) lo hi,
   (((List.range (hi - lo)).flatMap (fun k => (List.range h.ow).map (fun u => m.spot u (lo + k)))).filter (h.filled img)).length)

/-- R379: the band in progress is written and acknowledged: header, notify; the last band completes the frame. -/
def State.bandDone (s : State) : State :=
  match s.md.cur with
  | none => s
  | some (p, f) =>
    let idle (t : State) : State := ({ t with md := { t.md with cur := none, dropAfter := false } }).svSweep.mdSync
    match s.mdProg p, s.tbufs.find? (fun b => b.prog == p && b.frame == f && b.write) with
    | some g, some b =>
      let src := s.mdSrc p
      match s.svBufOf src.1 src.2.1 src.2.2 f with
      | some x =>
        let w := s.bandWrites g x (b.bands * s.bandRows p) (min g.shp.oh ((b.bands + 1) * s.bandRows p))
        let s1 := (w.1.foldl (fun t r => t.poke (s.tbufAddr p b.idx + r.1) r.2) s).inc F.MD_OOB_PIX_CNT 0 0 w.2
        let last := decide (s.rd F.MD_PG_STAT_NBANDS 0 p ≤ b.bands + 1)
        let b2 := { b with bands := b.bands + 1, status := if last then 1 else 0 }
        let s2 := (((s1.updTBuf p b.idx (fun _ => b2)).tbufHeader b2).raise 0x078 0).bandNotify p b.j b.bands false
        let s3 := idle s2
        if last then (s3.tbufHold b2).mdFinish src.1 src.2.1 src.2.2 f
        else if s.md.dropAfter then
          let t := s3.tbufDrop b2
          if t.rdB F.MD_PG_CTRL_EN 0 p then t else { t with md := { t.md with progs := t.md.progs.filter (fun y => y.num != p) } }
        else s3
      | none => idle s
    | _, _ => idle s

/-! ### Jobs (R385 to R391, R396) -/

/-- Fields of a ring entry (Table MAN-5). -/
def MdJob.e (j : MdJob) (o n : Nat) : Nat := leAt j.entry o n
def MdJob.kind (j : MdJob) : Nat := bitsOf (j.e 0 1) 0 4
def MdJob.pf (j : MdJob) : Nat := bitsOf (j.e 0 1) 4 3
def MdJob.count (j : MdJob) : Nat := j.e 4 4
def MdJob.outAddr (j : MdJob) : Nat := j.e 32 8
def MdJob.shp (j : MdJob) : Shape := { bytes := j.prof }
def MdJob.schema (j : MdJob) : Schema := { bytes := j.prof }
def MdJob.image (j : MdJob) : Image := { fmt := j.e 30 1, w := j.e 24 2, h := j.e 26 2, pitch := j.e 28 2 }

/-- Ring of a queue: size, entry address at the head. -/
def State.jqSize (s : State) (q : Nat) : Nat := 2 ^ min 10 (max 4 (s.rd F.MD_JQ_CFG_LOG2 0 q))
def State.jqEntry (s : State) (q : Nat) : Nat := s.rd F.MD_JQ_BASE 0 q + s.rd F.MD_JQ_HEAD 0 q % s.jqSize q * 64

/-- BATCH, and the buckets of a profile: number, MAXDIM, width, height. -/
def State.pfBatch (s : State) (p : Nat) : Nat := s.rd F.MD_PF_CFG_BATCH 0 p
def State.pfBuckets (s : State) (j : MdJob) : List (Nat × Nat × Nat × Nat) :=
  let p := j.pf
  if s.rdB F.MD_PF_CFG_BUCKET_EN 0 p then
    ((List.range 4).filter (fun b => s.rd F.MD_PF_BKT_MAXDIM 0 (p * 4 + b) != 0)).map (fun b =>
      (b, s.rd F.MD_PF_BKT_MAXDIM 0 (p * 4 + b), s.rd F.MD_PF_BKT_OUTW8 0 (p * 4 + b) * 8, s.rd F.MD_PF_BKT_OUTH8 0 (p * 4 + b) * 8))
  else [(0, 65535, j.shp.ow, j.shp.oh)]

/-- Box i of a job's list, augmented where AUG_EN is set; none where it is empty (R389, R392). -/
def State.jobBox (s : State) (j : MdJob) (i : Nat) : Option Box :=
  let r (o : Nat) : Nat := leAt j.list (8 * i + o) 2
  if r 4 = 0 ∨ r 6 = 0 then none
  else
    let b : Box := { x0 := Q.ofNat (r 0), y0 := Q.ofNat (r 2), w := Q.ofNat (r 4), h := Q.ofNat (r 6) }
    let p := j.pf
    some (if s.rdB F.MD_PF_CFG_AUG_EN 0 p then
        augment (j.e 52 4) (j.e 56 4) (j.e 44 4 + i) (s.rd F.MD_PF_AUG_FLIP_P 0 p) (s.rd F.MD_PF_AUG_JIT_POS 0 p)
          (s.rd F.MD_PF_AUG_JIT_SCALE 0 p) (s.rd F.MD_PF_AUG_GAIN_J 0 p) b
      else b)

/-- R390: buckets and slots in list order. -/
def placesOf : List (Option Nat) → List (Option (Nat × Nat)) → List (Option (Nat × Nat))
  | [], acc => acc
  | none :: t, acc => placesOf t (acc ++ [none])
  | some b :: t, acc => placesOf t (acc ++ [some (b, (acc.filter (fun x => x.any (fun y => y.1 == b))).length)])

/-- The parts of an output area: images of each bucket (number, offset, slots, bytes of one), then the offsets of mask, map and
status array, and its length. -/
structure Area where
  parts : List (Nat × Nat × Nat × Nat)
  mask : Nat
  map : Nat
  status : Nat
  len : Nat
deriving DecidableEq, Repr

/-- "Output area": counts and image sizes by bucket. -/
def areaOf (batch count : Nat) : List (Nat × Nat × Nat) → Area
  | l =>
    let up (n : Nat) : Nat := ceilDiv n 64 * 64
    let parts := l.foldl (fun (a : List (Nat × Nat × Nat × Nat) × Nat) x =>
      let slots := ceilDiv x.2.1 batch * batch
      (a.1 ++ [(x.1, a.2, slots, x.2.2)], up (a.2 + slots * x.2.2))) ([], 0)
    let slots := (parts.1.map (fun p => p.2.2.1)).sum
    let mp := up (parts.2 + slots)
    let st := up (mp + 4 * count)
    { parts := parts.1, mask := parts.2, map := mp, status := st, len := st + count }

/-- The area of a job as its items stand. -/
def State.jobArea (s : State) (j : MdJob) (places : List (Option (Nat × Nat))) : Area :=
  let n (b : Nat) : Nat := (places.filter (fun x => x.any (fun y => y.1 == b))).length
  areaOf (s.pfBatch j.pf) j.count
    (if j.kind = 1 then (s.pfBuckets j).map (fun x => (x.1, n x.1, j.shp.imageBytes x.2.2.1 x.2.2.2)) else [(0, n 0, j.schema.row)])

/-- R386: the checks of a job whose list and profile have been read. -/
def State.jobOk (s : State) (j : MdJob) (places : List (Option (Nat × Nat))) : Bool :=
  decide (1 ≤ s.pfBatch j.pf ∧ s.pfBatch j.pf ≤ 64) && j.outAddr % 64 == 0 && decide ((s.jobArea j places).len ≤ j.e 40 4)
    && (if j.kind = 1 then
          j.shp.ok && decide (j.image.fmt ≤ 3) && (j.image.fmt != 3 || j.shp.color == 0)
            && !(s.pfBuckets j).isEmpty && (s.pfBuckets j).all (fun x => j.shp.okAt x.2.2.1 x.2.2.2)
        else j.schema.ok)

/-- A job's record replaced. -/
def State.setJob (s : State) (j : MdJob) : State :=
  { s with md := { s.md with jobs := j :: s.md.jobs.filter (fun x => x.queue != j.queue) } }

/-- R386: a job reads its list and its profile and is checked; result 2 or 4 ends it. -/
def State.jobRun (s : State) (j : MdJob) : State :=
  let bad (t : State) (r : Nat) : State := t.setJob { j with result := r }
  if !(j.kind == 1 || j.kind == 2) || !decide (1 ≤ j.count ∧ j.count ≤ 4096) then bad s 2
  else
    match s.unitRead (j.e 8 8) (8 * j.count) with
    | (t, .inr r) => bad t r
    | (t, .inl list) =>
      let a := s.rd F.MD_PF_SHAPE 0 j.pf
      let head := t.unitRead a (if j.kind = 1 then 64 else 16)
      match head with
      | (u, .inr r) => bad u r
      | (u, .inl hb) =>
        let more := if j.kind = 1 then (u, .inl ([] : List Byte)) else u.unitRead (a + 16) (32 * leAt hb 0 1)
        match more with
        | (w, .inr r) => bad w r
        | (w, .inl mb) =>
          let j1 := { j with prof := hb ++ mb, list }
          let bk := (w.pfBuckets j1).map (fun x => (x.1, x.2.1))
          let places := if j.kind = 1 then placesOf ((List.range j.count).map (fun i => (w.jobBox j1 i).map (bucketOf bk))) []
            else (List.range j.count).map (fun i => some (0, i))
          if w.jobOk j1 places then w.setJob { j1 with places := if j.kind = 1 then places else [] } else bad w 2

/-- R385: the job at the head of queue q starts; one of a provisional frame waits; one of a retracted frame ends. -/
def State.jobStart (s : State) (q : Nat) : State :=
  if s.rdB F.MD_CTRL_EN 0 0 && !s.rdB F.MD_CTRL_HALT 0 0 && s.rdB F.MD_JQ_CFG_EN 0 q && s.rd F.MD_JQ_HEAD 0 q != s.rd F.MD_JQ_TAIL 0 q
      && s.md.jobs.all (fun j => j.queue != q) then
    match s.unitRead (s.jqEntry q) 64 with
    | (t, .inr r) => t.setJob { queue := q, entry := List.replicate 64 0#8, result := r }
    | (t, .inl bs) =>
      let j : MdJob := { queue := q, entry := bs }
      match s.frame (j.e 48 4) with
      | some f => if f.standing = 0 then s else if f.standing = 2 then t.setJob { j with result := 3 } else t.jobRun j
      | none => t.jobRun j
  else s

/-- JOB_START. -/
def execJobStart (q : Fin 4) (s : State) : Outcome State Fault Refusal := .next (s.jobStart q.val)

/-- JOB_RETRACT (R385): heads that wait on a frame. -/
def State.jobRetract (s : State) : State :=
  (List.range 4).foldl (fun t q =>
    if t.rdB F.MD_JQ_CFG_EN 0 q && t.rd F.MD_JQ_HEAD 0 q != t.rd F.MD_JQ_TAIL 0 q then
      match t.peek (t.jqEntry q) 64 with
      | some x => if (t.frame (leAt x.1 48 4)).any (fun f => f.standing == 2) then t.jobStart q else t
      | none => t
    else t) s

/-- R366: the queue whose turn it is: the next in ascending order with a started job that has an item left. -/
def State.nextQueue (s : State) : Option MdJob :=
  ([1, 2, 3, 4] : List Nat).findSome? (fun d =>
    s.md.jobs.find? (fun j => j.queue == (s.md.turn + d) % 4 && j.result == 1 && decide (j.next < j.count)))

/-- The queue job that a new element serves, of a kind. -/
def State.nextItem (s : State) (kind : Nat) : Option MdJob :=
  if s.mdOpen && s.nextBand.isNone then (match s.nextQueue with
    | some j => if j.kind = kind then some j else none
    | none => none)
  else none

/-- An item is done with: its code, and the turn passes. -/
def State.itemDone (s : State) (j : MdJob) (code : Nat) : State :=
  let t := s.setJob { j with next := j.next + 1, codes := j.codes ++ [code] }
  { t with md := { t.md with turn := j.queue } }

/-- The job ends at this element. -/
def State.itemStop (s : State) (j : MdJob) (r : Nat) : State :=
  let t := s.setJob { j with result := r }
  { t with md := { t.md with turn := j.queue } }

/-- Where the image of an item goes. -/
def State.itemAddr (s : State) (j : MdJob) (pl : Nat × Nat) : Nat :=
  match (s.jobArea j j.places).parts.find? (fun x => x.1 == pl.1) with
  | some x => j.outAddr + x.2.1 + pl.2 * x.2.2.2
  | none => j.outAddr

/-- The first refused read of a list of (offset, size), as a job result. -/
def State.readsOk (s : State) (a : Nat) (rs : List (Nat × Nat)) : Option (Nat × Nat) :=
  rs.findSome? (fun r =>
    if s.guarded (a + r.1) r.2 none then some (4, a + r.1)
    else match s.locate (a + r.1) with
      | .mem _ => none
      | .remote _ => none
      | _ => some (2, a + r.1))

/-- CROP (R387 to R393): one crop of the job whose turn it is. -/
def State.crop (s : State) : State :=
  match s.nextItem 1 with
  | none => s
  | some j =>
    match s.jobBox j j.next, j.places.getD j.next none with
    | some b, some pl =>
      let sz := (((s.pfBuckets j).find? (fun x => x.1 == pl.1)).map (fun x => x.2.2)).getD (j.shp.ow, j.shp.oh)
      let h := j.shp
      let spots := (List.range sz.2).flatMap (fun v => (List.range sz.1).map (fun u => b.spot h.fit sz.1 sz.2 u v))
      match s.readsOk (j.e 16 8) (spots.flatMap (h.reads j.image)) with
      | some (r, a) => (if r = 4 then s.guardRefuse else s.addrFault a).itemStop j r
      | none =>
        let ws := (h.writes sz.1 sz.2 (fun c u v => h.pixel j.image (s.imageByte (j.e 16 8)) (gained b.gain) c (b.spot h.fit sz.1 sz.2 u v)) 0 sz.2).map
          (fun w => (s.itemAddr j pl + w.1, w.2))
        let t := s.unitWrites ws
        let u := (t.1.inc F.MD_CROP_CNT 0 0).inc F.MD_OOB_PIX_CNT 0 0 (spots.filter (h.filled j.image)).length
        if t.2 = 0 then u.itemDone j 0 else u.itemStop j t.2
    | _, _ => s.itemDone j 8
def execCrop (s : State) : Outcome State Fault Refusal := .next s.crop

/-- DECODE_RECORD (R394 to R396): one record of the job whose turn it is. -/
def State.decodeRecord (s : State) : State :=
  match s.nextItem 2 with
  | none => s
  | some j =>
    match s.unitRead (j.e 16 8 + leAt j.list (8 * j.next) 4) (leAt j.list (8 * j.next + 4) 4) with
    | (t, .inr r) => t.itemStop j r
    | (t, .inl bs) =>
      let t1 := t.inc F.MD_DEC_REC_CNT 0 0
      let slot := (j.places.filter (fun x => x.isSome)).length
      let put (u : State) (row : List Byte) (place : Option (Nat × Nat)) (code : Nat) : State :=
        let r := u.unitWrite (j.outAddr + slot * j.schema.row) row
        let j2 := { j with places := j.places ++ [place] }
        if r.2 = 0 then r.1.itemDone j2 code else r.1.itemStop j2 r.2
      match j.schema.decode bs with
      | .row row n => put (t1.inc F.MD_CLAMP_CNT 0 0 n) row (some (0, slot)) 0
      | .bad code n =>
        let t2 := (t1.inc F.MD_CLAMP_CNT 0 0 n).inc F.MD_DEC_REJECT_CNT 0 0
        if j.schema.skip then t2.itemDone { j with places := j.places ++ [none] } code
        else put t2 (List.replicate j.schema.row 0#8) (some (0, slot)) code
def execDecodeRecord (s : State) : Outcome State Fault Refusal := .next s.decodeRecord

/-- R391, R396, "Output area": padding slots, mask, map and status array of a job that is done. -/
def State.jobTail (s : State) (j : MdJob) : List (Nat × List Byte) :=
  let ar := s.jobArea j j.places
  let items := j.places.zip j.codes
  let filled (b i : Nat) : Bool := items.any (fun x => x.1 == some (b, i) && x.2 == 0)
  let taken (b i : Nat) : Bool := j.places.any (fun x => x == some (b, i))
  let pads := ar.parts.flatMap (fun p => ((List.range p.2.2.1).filter (fun i => !taken p.1 i)).map
    (fun i => (j.outAddr + p.2.1 + i * p.2.2.2, List.replicate p.2.2.2 (0#8 : Byte))))
  let mask := ar.parts.flatMap (fun p => (List.range p.2.2.1).map (fun i => BitVec.ofNat 8 (b2n (filled p.1 i))))
  let mp := items.flatMap (fun x => match x.1 with
    | some pl => if x.2 = 0 then toBytes 4 (pl.1 + 256 * pl.2) else toBytes 4 0xFFFFFFFF
    | none => toBytes 4 0xFFFFFFFF)
  pads ++ [(j.outAddr + ar.mask, mask), (j.outAddr + ar.map, mp), (j.outAddr + ar.status, j.codes.map (fun c => BitVec.ofNat 8 c))]

/-- Table MAN-4, for the n-th completed job of a queue. -/
def State.jobNotify (s : State) (q n r : Nat) : State :=
  let mode := s.rd F.MD_JQ_CFG_NOTIFY_MODE 0 q
  if mode = 1 then s.notify (s.rd F.MD_JQ_NOTIFY 0 q) (n % 65536 + r * 65536)
  else if mode = 2 then s.notify (s.rd F.MD_JQ_NOTIFY 0 q) ((s.rd F.MD_JQ_CFG_ORIGIN 0 q + max 1 (s.rd F.MD_JQ_CFG_STEP 0 q) * n) % 65536)
  else s

/-- R388: a job ends: the tables of a done job, STATUS, the notify, and JQ_HEAD passes it. -/
def State.jobEnd (s : State) (q : Nat) : State :=
  match s.md.jobs.find? (fun j => j.queue == q) with
  | none => s
  | some j =>
    if j.result = 1 ∧ j.next < j.count then s
    else
      let w := if j.result = 1 then s.unitWrites (s.jobTail j) else (s, 0)
      let r := if j.result = 1 ∧ w.2 ≠ 0 then w.2 else j.result
      let rej := (j.codes.filter (fun c => c != 0)).length
      let s1 := w.1.poke (s.jqEntry q + 60) (toBytes 4 (r + rej * 65536))
      let n := s.rd F.MD_JQ_DONE 0 q + 1
      let s2 := (s1.jobNotify q n r).wr F.MD_JQ_DONE 0 q n
      let s3 := (s2.wr F.MD_JQ_HEAD 0 q (s.rd F.MD_JQ_HEAD 0 q + 1)).raise 0x078 1
      let s4 := { s3 with md := { s3.md with jobs := s3.md.jobs.filter (fun x => x.queue != q) } }
      if r = 2 ∨ r = 4 then s4.raise 0x078 2 else s4

/-- JQ_TAIL. -/
def State.jqTail (s : State) (q v : Nat) : State :=
  let t := s.rd F.MD_JQ_TAIL 0 q
  let d := (v % 65536 + 65536 - t) % 65536
  if d = 0 then s
  else if d ≤ s.jqSize q - (t + 65536 - s.rd F.MD_JQ_HEAD 0 q) % 65536 then s.wr F.MD_JQ_TAIL 0 q v
  else (s.inc F.MD_JOB_ERR_CNT 0 0).raise 0x078 2
def execJqTail (q : Fin 4) (v : Word) (s : State) : Outcome State Fault Refusal :=
  .next (s.reach 0x078 (fun t => t.jqTail q.val v.toNat))

end Sys2Proof.Machine
end

