-- ==== Sys2Proof/Machine/Sieve.lean ====
section
/-! DEFINITION. The Sieves: contexts, stripes, parameter commits, output buffers and statistics (spec/10, R335 to R364), and the
frame commands that reach them. -/

namespace Sys2Proof.Machine

open Host

/-! ### Reading a frame (R317, R337, R343, R352) -/

/-- Data type, width and height of a frame's stream, and its line as the capture buffers hold it; pad lines under R317. -/
def State.padLine (s : State) (f : Frame) : List Byte :=
  let p := f.stream / 4
  let vc := f.stream % 4
  let dt := s.rd F.CSI_STR_CTRL_DT p vc
  fillTo (padGroup dt (s.rd F.CSI_PAD_VALUE p vc)) (lineBytes dt (s.rd F.CSI_STR_GEOM_WIDTH p vc))
def State.bufLine (s : State) (f : Frame) (y : Nat) : Option (List Byte) :=
  let p := f.stream / 4
  let vc := f.stream % 4
  let n := lineBytes (s.rd F.CSI_STR_CTRL_DT p vc) (s.rd F.CSI_STR_GEOM_WIDTH p vc)
  match s.cam.bufs.find? (fun b => b.frame == f.id && decide (b.firstLine ≤ y ∧ y < b.firstLine + b.lines)) with
  | some b =>
    let emb := if b.firstLine = 0 ∧ s.rdB F.CSI_STR_CTRL_EMB_EN p vc = true then s.rd F.CSI_EMB_LEN p vc else 0
    let a := s.bufAddr p b.idx + emb + (y - b.firstLine) * f.linePitch
    some ((List.range n).map (fun o => BitVec.ofNat 8 (s.imageByte a o)))
  | none => none

/-- Lines lo to hi - 1 of a frame appended to those read. -/
def State.readLines (s : State) (f : Frame) (have_ : List (List Byte)) (hi : Nat) : List (List Byte) :=
  (List.range (hi - have_.length)).foldl (fun ls _ =>
    let y := ls.length
    ls ++ [(s.bufLine f y).getD (
      if s.rdB F.CSI_STR_CTRL_PAD_SRC (f.stream / 4) (f.stream % 4) || ls.isEmpty then s.padLine f else ls.getLastD [])]) have_

/-- R352: buffers of a frame whose last stored line has been read lose the Sieve's reference; `all`: every one. -/
def State.inputRelease (s : State) (f hi : Nat) (all : Bool) : State :=
  ({ s with cam := { s.cam with bufs := s.cam.bufs.map (fun (b : CapBuf) =>
      if b.frame = f ∧ (all = true ∨ (b.capturing = false ∧ b.firstLine + b.lines ≤ hi)) then
        { b with refs := b.refs.filter (fun r => r != BufRef.sieve) } else b) } }).bufSweep

/-! ### Instances and stripes (R344 to R348) -/

/-- An instance's record, and its update. -/
def State.svInst (s : State) (v : Nat) : SvInst := (s.sv.insts.find? (fun x => x.num == v)).getD { num := v }
def State.setSvInst (s : State) (x : SvInst) : State :=
  { s with sv := { s.sv with insts := x :: s.sv.insts.filter (fun y => y.num != x.num) } }

/-- Page of an instance. -/
def svPage (v : Nat) : Nat := 0x070 + v

/-- Geometry of the stream a context is bound to. -/
def State.svW (s : State) (v c : Nat) : Nat :=
  let st := s.rd F.SV_CTX_CFG_STREAM v c
  s.rd F.CSI_STR_GEOM_WIDTH (st / 4) (st % 4)
def State.svH (s : State) (v c : Nat) : Nat :=
  let st := s.rd F.SV_CTX_CFG_STREAM v c
  s.rd F.CSI_STR_GEOM_LINES (st / 4) (st % 4)

/-- The rows stripe k produces, lo to hi - 1, and the input lines it needs ("Stripes and time multiplexing"). -/
def State.stripeRows (s : State) (v c k : Nat) : Nat × Nat × Nat :=
  let S := s.rd F.SV_CTX_CFG_STRIPE_LINES v c
  let h := s.svH v c
  if S = 0 then (0, h, h)
  else
    let hi := min h ((k + 1) * S)
    (k * S, hi, if hi = h then h else min h (hi + 4))

/-- The stripe a context would run next: its frame and number. -/
def SvCtx.next (x : SvCtx) : Option (Nat × Nat) :=
  match x.run with
  | some r => some (r.frame, r.stripe)
  | none => x.wait.head?.map (fun f => (f, 0))

/-- Input lines of a stripe that are not stored yet; every line counts as stored once the frame has closed. -/
def State.unstored (s : State) (v c k : Nat) (f : Frame) : Nat := if f.isOpen then (s.stripeRows v c k).2.2 - f.linesRx else 0

/-- R345, R347: a context's next stripe is ready. -/
def State.stripeReady (s : State) (v : Nat) (x : SvCtx) : Option Frame :=
  if x.inst = v ∧ s.rdB F.SV_CTX_CFG_EN v x.num = true ∧ (s.svInst v).running ≠ some x.num then
    match x.next with
    | some (f, k) =>
      match s.frame f with
      | some fr =>
        let u := s.unstored v x.num k fr
        let ok := if s.rd F.SV_CTX_CFG_STRIPE_LINES v x.num = 0 then !fr.isOpen
          else if x.suspended then u == 0 else decide (u ≤ s.rd F.SV_CTX_CFG_START_LEAD v x.num)
        if ok then some fr else none
      | none => none
    | none => none
  else none

/-- The moment each ready stripe became ready is noted, for SV_WAIT_MAX. -/
def State.svScan (s : State) : State :=
  { s with sv := { s.sv with ctxs := s.sv.ctxs.map (fun x =>
      if x.readyAt.isNone && (s.stripeReady x.inst x).isSome then { x with readyAt := some s.gt } else x) } }

/-- BUSY, CUR_CTX and HALTED of an instance, and the stripe flags of a context. -/
def State.svSync (s : State) (v : Nat) : State :=
  let r := (s.svInst v).running
  ((s.wrB F.SV_STAT_BUSY v 0 r.isSome).wr F.SV_STAT_CUR_CTX v 0 (r.getD (s.rd F.SV_STAT_CUR_CTX v 0))).wrB F.SV_STAT_HALTED v 0
    (s.rdB F.SV_CTRL_HALT v 0 && r.isNone)
def State.svFlags (s : State) (v c : Nat) : State :=
  (s.wrB F.SV_CTX_STAT_STRIPE_ACTIVE v c ((s.svInst v).running == some c)).wrB F.SV_CTX_STAT_SUSPENDED v c (s.svCtx v c).suspended

/-- R344, R348: a context's line-buffer state goes to its save area, whose layout is the Sieve's own: its bytes become free values
(log 32). -/
def State.svSave (s : State) (v c : Nat) : State :=
  let n := 64 * s.svW v c + 16384
  let a := s.rd F.SV_SAVE_BASE_LO v c + s.rd F.SV_SAVE_BASE_HI v c * 2 ^ 32
  let t := { (s.poke a (s.remoteBytes n)) with fresh := s.fresh + n }
  (t.setSvCtx { t.svCtx v c with saved := true }).inc F.SV_SWITCH_CNT v 0

/-- R350, R357: a context abandons a frame: its references end, the Mandoline is told, nothing of it is processed further. -/
def State.svAbandonCtx (s : State) (f : Nat) (x : SvCtx) : State :=
  let s1 := s.setSvCtx { x with wait := x.wait.filter (fun g => g != f), run := if x.run.any (fun r => r.frame == f) then none else x.run,
                                suspended := false, saved := false, readyAt := none }
  let i := s1.svInst x.inst
  let s2 : State := if i.running = some x.num ∧ x.run.any (fun r => r.frame == f) = true then s1.setSvInst { i with running := none } else s1
  let s3 := ((s2.inc F.SV_ABANDON_CNT x.inst 0).raise (svPage x.inst) 5).inputRelease f 0 true
  (((s3.mdAbandon x.inst x.num f).svSweep).svSync x.inst).svFlags x.inst x.num

/-- Contexts that hold a frame, and those of them that may drop it. -/
def State.svAbandon (s : State) (f : Nat) (p : SvCtx → Bool) : State :=
  (s.sv.ctxs.filter (fun x => p x && (x.wait.contains f || x.run.any (fun r => r.frame == f)))).foldl (fun t x => t.svAbandonCtx f x) s

/-- R350: a retracted frame is abandoned where SKIP_RETRACTED is 1. -/
def State.svRetract (s : State) (f : Nat) : State := s.svAbandon f (fun x => s.rdB F.SV_CTX_CFG_SKIP_RETRACTED x.inst x.num)

/-! ### Parameter commits (R339a, R358 to R362) -/

/-- Bytes o to o + n - 1 of a block are zero. -/
def zeroRange (b : List Byte) (o n : Nat) : Bool := ((b.drop o).take n).all (fun x => x == 0#8)

/-- R339a: reserved bytes and fields in range. -/
def SvParams.inRange (p : SvParams) : Bool :=
  let b := p.block
  p.u 0x12 2 / 4 == 0 && decide (p.dpcN ≤ 4096) && zeroRange b 0x24 4 && zeroRange b 0x36 2 && zeroRange b 0x4A 2 && zeroRange b 0x72 2
    && zeroRange b 0x7A 2 && zeroRange b 0x7E 2 && zeroRange b 0x82 30 && zeroRange b 0xAC 4 && zeroRange b 0xBC 4 && zeroRange b 0xCC 52
    && (p.u 0x20 4 &&& 0xFFFEC0C0) == 0
    && (!p.lscEn || decide (2 ≤ p.gx ∧ p.gx ≤ 33 ∧ 2 ≤ p.gy ∧ p.gy ≤ 33))
    && (List.range 3).all (fun r => decide (-65535 ≤ p.sg (0x4C + 4 * r) 4 ∧ p.sg (0x4C + 4 * r) 4 ≤ 65535))

/-- Rows and bytes of an output's image. -/
def imageSize (fmt pitch oh : Nat) : Nat := pitch * (oh + chromaRows fmt oh)

/-- R339a, R342: an enabled output's crop, scale and buffer. -/
def State.outOk (s : State) (v c : Nat) (p : SvParams) (n : Nat) : Bool :=
  let k := p.scale n
  let fmt := s.rd F.SV_OUT_CFG_FMT v (svOut c n)
  k.cx % 2 == 0 && k.cy % 2 == 0 && decide (k.cx + k.cw ≤ s.svW v c ∧ k.cy + k.ch ≤ s.svH v c)
    && decide (1 ≤ k.ow ∧ k.ow ≤ k.cw ∧ k.cw ≤ 8 * k.ow ∧ 1 ≤ k.oh ∧ k.oh ≤ k.ch ∧ k.ch ≤ 8 * k.oh)
    && (!fmt420 fmt || (k.ow % 2 == 0 && k.oh % 2 == 0))
    && decide (imageSize fmt (s.rd F.SV_OUT_PITCH v (svOut c n)) k.oh + 64 ≤ s.svBufLen v c n)

/-- The enabled outputs of a context. -/
def State.svOuts (s : State) (v c : Nat) : List Nat := (List.range 3).filter (fun n => s.rdB F.SV_OUT_CFG_EN v (svOut c n))

/-- Numbers of a size from bytes. -/
def numsOf (n : Nat) (bs : List Byte) : List Nat := (List.range (bs.length / n)).map (fun i => leAt bs (n * i) n)

/-- R339a: the block and the tables its enabled fields name, fetched. -/
def State.fetchParams (s : State) (a : Nat) : Option SvParams :=
  match s.fetch a 256 with
  | none => none
  | some b =>
    let p : SvParams := { block := b }
    let st := bitOf (p.u 0x10 4) 17
    match (if st then s.fetch (p.u 0x18 8) (4 * min 4096 p.dpcN) else some []), (if p.lscEn then s.fetch (p.u 0x28 8) (p.gx * p.gy * 8) else some []),
        s.fetch (p.u 0x58 8) 1542 with
    | some d, some l, some t =>
      some { block := b, dpc := (numsOf 4 d).map (fun w => (w % 65536, w / 65536)), lsc := numsOf 2 l, tone := numsOf 2 t }
    | _, _, _ => none

/-- R339a: the parameters at an address, where they pass every check for a context. -/
def State.goodParams (s : State) (v c a : Nat) : Option SvParams :=
  match s.fetchParams a with
  | some p => if a % 64 = 0 ∧ p.inRange = true ∧ (s.svOuts v c).all (s.outOk v c p) = true then some p else none
  | none => none

/-- R339a, R360: a commit applied, or discarded. -/
def State.svCommit (s : State) (v c a : Nat) : State :=
  let x := s.svCtx v c
  let s1 := (s.setSvCtx { x with pend := none }).wr F.SV_CTX_STAT_PB_PENDING v c 0
  match s.goodParams v c a with
  | some p => ((s1.setSvCtx { x with pend := none, params := p }).addW F.SV_PB_SEQ v c 1).raise (svPage v) 1
  | none => (s1.inc F.SV_PB_ERR_CNT v 0).raise (svPage v) 2

/-- Table SIV-3: a pending commit is applied at the start of stripe k of a frame. -/
def SvPend.dueAt (p : SvPend) (f : Frame) (k : Nat) : Bool :=
  if p.mode = 0 then true
  else if k ≠ 0 then false
  else if p.mode = 1 then true
  else if p.mode = 2 then decide (p.gt ≤ f.capGt)
  else !serialLt 26 (f.id % 2 ^ 26) (p.fid % 2 ^ 26)

/-- R358: PB_NEXT_HI written. -/
def State.pbNext (s : State) (v hi : Nat) : State :=
  let c := s.rd F.SV_CTX_SEL v 0
  let x := s.svCtx v c
  let s1 : State := if x.pend.isSome then s.inc F.SV_PB_REPLACED_CNT v 0 else s
  let s2 := (s1.wr F.SV_PB_NEXT_HI v c hi).wr F.SV_CTX_STAT_PB_PENDING v c 1
  s2.setSvCtx { x with pend := some { addr := s.rd F.SV_PB_NEXT_LO v c + hi % 65536 * 2 ^ 32, mode := s.rd F.SV_CTX_COMMIT_MODE v c,
                                      gt := s.rd F.SV_COMMIT_GT v c, fid := s.rd F.SV_COMMIT_FID v c } }

/-- PB_NEXT_WRITE. -/
def execPbNextWrite (v : Fin 2) (w : Word) (s : State) : Outcome State Fault Refusal :=
  .next (s.reach (svPage v.val) (fun t => t.pbNext v.val w.toNat))

/-- R359: the sensor sequencer arms the context of a stream for a frame. -/
def State.svArm (s : State) (st fid : Nat) : State :=
  (s.sieveOf st).foldl (fun t vc =>
    let x := t.svCtx vc.1 vc.2
    match x.pend with
    | some p => t.setSvCtx { x with pend := some { p with mode := 3, fid := fid } }
    | none => t.inc F.SV_ARM_EMPTY_CNT vc.1 0) s

/-- R336: the stream is bound to no other enabled context. -/
def State.streamFree (s : State) (v c : Nat) : Bool := (s.sieveOf (s.rd F.SV_CTX_CFG_STREAM v c)).all (fun x => x == (v, c))

/-- R348: the save area of a context that runs in stripes; STRIPE_LINES itself is in its range. -/
def State.saveOk (s : State) (v c : Nat) : Bool :=
  let S := s.rd F.SV_CTX_CFG_STRIPE_LINES v c
  let a := s.rd F.SV_SAVE_BASE_LO v c + s.rd F.SV_SAVE_BASE_HI v c * 2 ^ 32
  S == 0 || (S % 8 == 0 && decide (64 ≤ S ∧ S ≤ 512) && a % 64 == 0
    && decide (larderBase ≤ a ∧ a + 64 * s.svW v c + 16384 ≤ larderBase + 0x1000000))

/-- The fields of CTX_CFG beside EN. -/
def State.svCfg (s : State) (v c w : Nat) : State :=
  ((((s.wr F.SV_CTX_CFG_STREAM v c (bitsOf w 1 6)).wr F.SV_CTX_CFG_SKIP_RETRACTED v c (bitsOf w 7 1)).wr F.SV_CTX_CFG_STRIPE_LINES v c
    (bitsOf w 8 10)).wr F.SV_CTX_CFG_START_LEAD v c (bitsOf w 18 8)).wr F.SV_CTX_CFG_BAYER v c (bitsOf w 26 2)

/-- R362: EN = 1. -/
def State.svEnable (s : State) (v c : Nat) : State :=
  let bad (t : State) : State := (t.wr F.SV_CTX_STAT_CFG_ERR v c 1).raise (svPage v) 6
  let a := s.rd F.SV_PB_NEXT_LO v c + s.rd F.SV_PB_NEXT_HI v c * 2 ^ 32
  if s.streamFree v c && s.saveOk v c then
    if (s.goodParams v c a).isSome then
      let t := (s.svCommit v c a).wr F.SV_CTX_CFG_EN v c 1
      t.setSvCtx { t.svCtx v c with wait := [], run := none, suspended := false, saved := false, readyAt := none }
    else bad (s.svCommit v c a)
  else bad s

/-- EN = 0: the context gives up the frames it holds (log 33). -/
def State.svDisable (s : State) (v c : Nat) : State :=
  let x := s.svCtx v c
  let t := ((x.run.toList.map (fun r => r.frame)) ++ x.wait).foldl (fun t f => t.svAbandonCtx f (t.svCtx v c)) s
  t.wr F.SV_CTX_CFG_EN v c 0

/-- A write of CTX_CFG of the context that CTX_SEL addresses. -/
def State.svCfgWrite (s0 : State) (v w : Nat) : State :=
  let s := s0.lockCheck (svPage v) F.SV_CTX_CFG_EN.ofs w
  let c := s.rd F.SV_CTX_SEL v 0
  if s.rdB F.SV_CTX_CFG_EN v c then (if bitOf w 0 then s else s.svDisable v c)
  else
    let t := s.svCfg v c w
    if bitOf w 0 then t.svEnable v c else t

/-! ### Starting a stripe (R346, R353, R356) -/

/-- The lowest FREE buffer of an output. -/
def State.freeOut (s : State) (v c n : Nat) : Option Nat :=
  (List.range (s.rd F.SV_OUT_CFG_NBUF v (svOut c n))).find? (fun i =>
    s.sv.bufs.all (fun b => !(b.inst == v && b.ctx == c && b.out == n && b.idx == i)))

/-- R353, R356: stripe 0 takes a buffer for each enabled output. -/
def State.takeOuts (s : State) (v c : Nat) (f : Frame) : State :=
  (s.svOuts v c).foldl (fun t n =>
    let x := t.svCtx v c
    match t.freeOut v c n, x.run with
    | some i, some r =>
      let b : SvBuf := { inst := v, ctx := c, out := n, idx := i, frame := f.id, capGt := f.capGt }
      let u := t.setSvCtx { x with run := some { r with outs := r.outs ++ [(n, i)] } }
      { u with sv := { u.sv with bufs := b :: u.sv.bufs } }
    | none, some r =>
      ((t.setSvCtx { x with run := some { r with dropped := true } }).inc F.SV_OUT_DROP_CNT v 0).raise (svPage v) 3
    | _, _ => t) s

/-- R344: the context whose line buffers the instance holds is saved where another runs next in the middle of its frame. -/
def State.saveOther (s : State) (v c : Nat) : State :=
  match (s.svInst v).loaded with
  | some d =>
    let y := s.svCtx v d
    if d ≠ c ∧ y.run.any (fun r => r.stripe != 0) = true ∧ y.saved = false then s.svSave v d else s
  | none => s

/-- R344: a saved context's state is restored before its next stripe. -/
def State.svRestore (s : State) (v c : Nat) : State :=
  let x := s.svCtx v c
  if x.saved then (s.setSvCtx { x with saved := false }).inc F.SV_SWITCH_CNT v 0 else s

/-- A pending commit that is due at a stripe's start (R360); one within a frame marks it MIXED. -/
def State.svPendAt (s : State) (v c : Nat) (f : Frame) (k : Nat) : State :=
  let x := s.svCtx v c
  match x.pend with
  | some p =>
    if x.suspended = false ∧ p.dueAt f k = true then
      let t := s.svCommit v c p.addr
      let y := t.svCtx v c
      if k ≠ 0 ∧ (s.goodParams v c p.addr).isSome = true then t.setSvCtx { y with run := y.run.map (fun r => { r with mixed := true }) } else t
    else s
  | none => s

/-- R346: a context's ready stripe starts. -/
def State.stripeGo (s : State) (v : Nat) (x : SvCtx) (f : Frame) (k : Nat) : State :=
  let c := x.num
  let s1 := ((s.saveOther v c).svRestore v c).svPendAt v c f k
  let y := s1.svCtx v c
  let s2 : State := if x.run.isNone then
      let t := s1.setSvCtx { y with wait := y.wait.tail, run := some { frame := f.id, pbFirst := s1.rd F.SV_PB_SEQ v c } }
      (t.takeOuts v c f).mdTake v c f.id
    else s1
  let z := s2.svCtx v c
  let waited := s.gt - x.readyAt.getD s.gt
  let s3 := (s2.setSvCtx { z with suspended := false, readyAt := none }).wr F.SV_WAIT_MAX v 0 (max (s2.rd F.SV_WAIT_MAX v 0) (min waited 0xFFFFFFFF))
  let s4 := s3.setSvInst { num := v, running := some c, startGt := s.gt, loaded := some c }
  (s4.svSync v).svFlags v c

/-- R321, R346, R350: the idle instance starts the ready stripe of earliest capture GT, then lowest context; a stale frame is
refused. -/
def State.stripeStart (s : State) (v : Nat) : State :=
  if s.pageOn (svPage v) && !s.inReset (svPage v) && s.rdB F.SV_CTRL_EN v 0 && !s.rdB F.SV_CTRL_HALT v 0 && (s.svInst v).running.isNone then
    let cands := s.sv.ctxs.filterMap (fun x => (s.stripeReady v x).map (fun f => (x, f)))
    match leastPair (fun (y : SvCtx × Frame) => (y.2.capGt, y.1.num)) cands with
    | some (x, f) =>
      if x.run.isNone && decide (f.ageGt ≤ s.gt) then (s.staleCount f.stream).svAbandonCtx f.id x
      else s.stripeGo v x f ((x.next.map (fun n => n.2)).getD 0)
    | none => s
  else s

/-- R347: the running stripe has stalled for longer than STALL_MAX, so its start lies further back than that. -/
def State.stripeSuspend (s : State) (v : Nat) : State :=
  let i := s.svInst v
  match i.running with
  | some c =>
    let x := s.svCtx v c
    match x.next.bind (fun n => (s.frame n.1).map (fun f => (f, n.2))) with
    | some (f, k) =>
      if 0 < s.unstored v c k f ∧ i.startGt + s.rd F.SV_CFG_STALL_MAX v 0 < s.gt then
        let t := (s.setSvInst { i with running := none }).setSvCtx { x with suspended := true }
        let u := ((t.svSave v c).inc F.SV_SUSPEND_CNT v 0).raise (svPage v) 4
        let w := { (u.inc F.SV_STALL_CYC v 0 (u.freeVal 32)) with fresh := u.fresh + 1 }
        (w.svSync v).svFlags v c
      else s
    | none => s
  | none => s

/-- STRIPE_SUSPEND. -/
def execStripeSuspend (v : Fin 2) (s : State) : Outcome State Fault Refusal := .next (s.stripeSuspend v.val)

/-! ### Delivering a stripe (R349, R352, R354, R363) -/

/-- The header of an output buffer ("Buffers in and out"). -/
def State.outHeader (s : State) (b : SvBuf) (r : SvRun) : State :=
  let f := s.frame b.frame
  s.poke (s.svBufAddr b.inst b.ctx b.out b.idx + s.svBufLen b.inst b.ctx b.out - 64)
    (toBytes 4 b.frame ++ toBytes 8 b.capGt ++ toBytes 4 r.pbFirst ++ toBytes 2 b.rows
      ++ [BitVec.ofNat 8 ((f.map (fun x => x.marks)).getD 0), BitVec.ofNat 8 (b2n r.mixed)] ++ List.replicate 44 0#8)

/-- The rows of an output that become complete with source rows up to hi. -/
def State.outRows (s : State) (v c : Nat) (r : SvRun) (lo hi : Nat) (o : Nat × Nat) : State :=
  match s.sv.bufs.find? (fun b => b.inst == v && b.ctx == c && b.out == o.1 && b.idx == o.2 && b.frame == r.frame) with
  | none => s
  | some b =>
    let k := (s.svCtx v c).params.scale o.1
    let fmt := s.rd F.SV_OUT_CFG_FMT v (svOut c o.1)
    let pitch := s.rd F.SV_OUT_PITCH v (svOut c o.1)
    let a := s.svBufAddr v c o.1 o.2
    let pl (i : Nat) : Plane := k.mean (rowsPlane (s.svW v c) r.rows i)
    let r0 := k.rowsAt lo
    let r1 := k.rowsAt hi
    let s1 := (List.range (r1 - r0)).foldl (fun t d => t.poke (a + (r0 + d) * pitch) (lumaRow fmt k.ow pl (r0 + d))) s
    let s2 : State := if fmt420 fmt then
        (List.range (r1 / 2 - r0 / 2)).foldl (fun t d => t.poke (a + pitch * k.oh + (r0 / 2 + d) * pitch) (chromaRow fmt k.ow pl (r0 / 2 + d))) s1
      else s1
    let b2 := { b with rows := r1 }
    ({ s2 with sv := { s2.sv with bufs := s2.sv.bufs.map (fun x => if x = b then b2 else x) } }).outHeader b2 r

/-- R363: the statistics slot (Table SIV-4; the places in its first 64 bytes, log 34). -/
def State.statsWrite (s : State) (v c : Nat) (f : Frame) (r : SvRun) : State :=
  let n := s.rd F.SV_STATS_CFG_NSLOT v c
  if n = 0 then s
  else
    let a := s.rd F.SV_STATS_BASE_LO v c + s.rd F.SV_STATS_BASE_HI v c * 2 ^ 32 + f.id % 2 ^ 26 % n * 16384
    s.poke a (toBytes 4 f.id ++ toBytes 8 f.capGt ++ toBytes 4 (s.rd F.SV_PB_SEQ v c) ++ [BitVec.ofNat 8 f.marks, BitVec.ofNat 8 f.standing]
      ++ toBytes 4 r.stats.dpc ++ List.replicate 42 0#8 ++ r.stats.bytes)

/-- R354: the Sieve's references on a frame's buffers become its consumers'. -/
def State.handOff (s : State) (v c f : Nat) (outs : List (Nat × Nat)) : State :=
  let s1 := outs.foldl (fun t o =>
    let cons := t.rd F.SV_OUT_CFG_CONSUMERS v (svOut c o.1)
    let till := t.gt + max 1 (t.rd F.SV_OUT_CFG_HOST_HOLD v (svOut c o.1)) * 65536
    ({ t with sv := { t.sv with bufs := updWhere (fun b => b.inst == v && b.ctx == c && b.out == o.1 && b.frame == f)
                                         (fun b => { b with writing := false, refs := cons, hostTill := till }) t.sv.bufs } }).wr
      F.SV_OUT_LAST_BUF v (svOut c o.1) o.2) s
  (outs.foldl (fun t o => t.mdFinish v c o.1 f) s1).svSweep

/-- The frame's last stripe is processed (R349, R354, R363): a frame with a dropped output is not delivered (R356). -/
def State.frameDone (s : State) (v c : Nat) (f : Frame) (r : SvRun) : State :=
  let s1 := (s.statsWrite v c f r).inputRelease f.id 0 true
  let s2 := s1.handOff v c f.id r.outs
  let x := s2.svCtx v c
  let s3 := s2.setSvCtx { x with run := none, saved := false }
  if r.dropped then s3.svSweep
  else
    let s4 := ((s3.wr F.SV_LAST_FRAME_ID v c f.id).raise (svPage v) 0).updFrame f.id (fun y => { y with delivered := true })
    s4.svSweep.tryConfirm f.id

/-- What a frame enters its context as, with the lines read. -/
def State.svInput (s : State) (v c : Nat) (f : Frame) (ls : List (List Byte)) : SvInput :=
  { w := s.svW v c, h := s.svH v c, dt := s.rd F.CSI_STR_CTRL_DT (f.stream / 4) (f.stream % 4), bayer := s.rd F.SV_CTX_CFG_BAYER v c, lines := ls }

/-- R349: the running stripe, all of whose input lines are stored, is processed, written and acknowledged. -/
def State.stripeDelivered (s : State) (v : Nat) : State :=
  let i := s.svInst v
  match i.running with
  | none => s
  | some c =>
    let x := s.svCtx v c
    match x.run, x.run.bind (fun r => s.frame r.frame) with
    | some r, some f =>
      if s.unstored v c r.stripe f ≠ 0 then s
      else
        let q := s.stripeRows v c r.stripe
        let ls := s.readLines f r.lines q.2.2
        let inp := s.svInput v c f ls
        let p := x.params
        let rows := r.rows ++ (List.range (q.2.1 - q.1)).map (fun d => inp.row9 p (q.1 + d))
        let r1 := { r with lines := ls, rows, stats := r.stats.rows inp p q.1 q.2.1 }
        let s1 := r.outs.foldl (fun t o => t.outRows v c r1 q.1 q.2.1 o) s
        let s2 := s1.wr F.SV_PIX v 0 (min (2 ^ 64 - 1) (s1.rd F.SV_PIX v 0 + s.svW v c * (q.2.1 - q.1)))
        let s3 : State := if s.rd F.SV_CTX_CFG_START_LEAD v c ≠ 0 then { (s2.inc F.SV_STALL_CYC v 0 (s2.freeVal 32)) with fresh := s2.fresh + 1 } else s2
        let s4 := (s3.setSvInst { i with running := none }).inputRelease f.id q.2.2 false
        let s5 : State := if q.2.1 = s.svH v c then s4.frameDone v c f r1
          else s4.setSvCtx { s4.svCtx v c with run := some { r1 with stripe := r.stripe + 1 } }
        ((s5.svSync v).svFlags v c).svScan
    | _, _ => s

/-- STRIPE_DELIVERED. -/
def execStripeDelivered (v : Fin 2) (s : State) : Outcome State Fault Refusal := .next (s.stripeDelivered v.val)

/-! ### The HOST reference (R355) -/

/-- HOST references released. -/
def State.hostDrop (s : State) (p : SvBuf → Bool) : State :=
  ({ s with sv := { s.sv with bufs := updWhere (fun b => bitOf b.refs 2 && p b) (fun b => { b with refs := clrBit b.refs 2 }) s.sv.bufs } }).svSweep

/-- A write of REL_CMD: the HOST reference of the buffer that it and REL_FID name. -/
def State.relCmd (s : State) (v w : Nat) : State :=
  s.hostDrop (fun b => b.inst == v && b.ctx == bitsOf w 0 6 && b.out == bitsOf w 8 2 && b.frame == s.rd F.SV_REL_FID v 0)

/-- SIEVE_REL_CMD. -/
def execSieveRelCmd (v : Fin 2) (w : Word) (s : State) : Outcome State Fault Refusal :=
  .next (s.reach (svPage v.val) (fun t => t.relCmd v.val w.toNat))

/-- HOST_HOLD_EXPIRE. -/
def execHostHoldExpire (v : Fin 2) (c : Fin 64) (o : Fin 3) (i : Fin 16) (s : State) : Outcome State Fault Refusal :=
  .next (s.hostDrop (fun b => b.inst == v.val && b.ctx == c.val && b.out == o.val && b.idx == i.val && decide (b.hostTill ≤ s.gt)))

/-! ### Frame commands -/

/-- FRAME_START. -/
def execFrameStart (port : Fin 16) (vc : Fin 4) (vcx : Bool) (hdr : Fin 3) (s : State) : Outcome State Fault Refusal :=
  .next (s.header port.val hdr.val (fun t => t.shortPkt port.val vc.val vcx (fun u => (u.frameStart (port.val * 4 + vc.val)).svScan)))

/-- FRAME_END. -/
def execFrameEnd (port : Fin 16) (vc : Fin 4) (vcx : Bool) (hdr : Fin 3) (s : State) : Outcome State Fault Refusal :=
  .next (s.header port.val hdr.val (fun t => t.shortPkt port.val vc.val vcx (fun u => (u.frameEnd (port.val * 4 + vc.val) false).svScan)))

/-- LINE_RECEIVE: a start-of-transmission error counts and drops the packet as an uncorrectable header does (R307). -/
def execLineReceive (port : Fin 16) (pkt : Packet) (s : State) : Outcome State Fault Refusal :=
  .next (if pkt.sot && s.portOn port.val then (s.inc F.CSI_SOT_ERR_CNT port.val 0).inc F.CSI_HDR_UNCORR_CNT port.val 0
    else s.header port.val pkt.hdr.val (fun t => (t.longPkt port.val pkt).svScan))

/-- R321, R350, R380: GT has reached capture GT + MAX_AGE: a PROVISIONAL frame is retracted, and the Sieve and the Mandoline
give up what is undone of it. -/
def State.frameStale (s : State) (f : Nat) : State :=
  match s.frame f with
  | some x => if x.ageGt ≤ s.gt then ((s.frameRetract f 7).svAbandon f (fun _ => true)).mdStale f else s
  | none => s

end Sys2Proof.Machine
end

