-- ==== Sys2Proof/Machine/Compositor.lean ====
section
/-! DEFINITION. The Compositor (spec/14, R471 to R486): frame boundaries, the privacy mask, overlay layers, and its pool of output
pictures; and what it hands to the Encoder's sessions. -/

namespace Sys2Proof.Machine

open Host

def cpPage : Nat := 0x0A0
def enPage : Nat := 0x0A1

/-- An output, and a session, beyond their registers. -/
def State.compOut (s : State) (o : Nat) : CompOut := (s.vid.outs.find? (fun x => x.num == o)).getD { num := o }
def State.setCompOut (s : State) (x : CompOut) : State :=
  { s with vid := { s.vid with outs := x :: s.vid.outs.filter (fun y => y.num != x.num) } }
def State.encSes (s : State) (n : Nat) : EncSes := (s.vid.sessions.find? (fun x => x.num == n)).getD { num := n }
def State.setEncSes (s : State) (x : EncSes) : State :=
  ({ s with vid := { s.vid with sessions := x :: s.vid.sessions.filter (fun y => y.num != x.num) } } : State).wr F.EN_ES_STAT_QUEUED 0 x.num
    x.queue.length

/-- The place of layer l (0 annotation, 1 status) of output o in the layer fields. -/
def lyIdx (o l : Nat) : Nat := o * 2 + l

/-! ### Geometry -/

def State.ocW (s : State) (o : Nat) : Nat := s.rd F.CP_OC_SIZE_W 0 o
def State.ocH (s : State) (o : Nat) : Nat := s.rd F.CP_OC_SIZE_H 0 o
/-- Bytes of a sample: 1 in NV12, 2 in P010. -/
def State.ocB (s : State) (o : Nat) : Nat := 1 + s.rd F.CP_OC_CTRL_FMT 0 o
/-- Bytes of a picture: the luma rows, then the interleaved chroma rows, without padding (log 54). -/
def State.picBytes (s : State) (o : Nat) : Nat := s.ocW o * s.ocB o * (s.ocH o + s.ocH o / 2)
def State.picAddr (s : State) (o i : Nat) : Nat := s.rd F.CP_OC_POOL 0 o + i * s.rd F.CP_OC_POOL_CFG_BUF_KIB 0 o * 1024
/-- The Sieve output that an output binds. -/
def State.ocSrc (s : State) (o : Nat) : Nat × Nat × Nat :=
  (s.rd F.CP_OC_CTRL_SIEVE 0 o, s.rd F.CP_OC_CTRL_CTX 0 o, s.rd F.CP_OC_CTRL_OUT 0 o)

/-! ### The pool (R485) -/

/-- Buffers that are being written, or wait to be. -/
def State.ocWriting (s : State) (o : Nat) : List Nat :=
  ((s.vid.waiting ++ s.vid.cur.toList).filter (fun p => p.out == o && p.kind != 2)).map (fun p => p.buf)
/-- Buffers that a session or a hold has a reference on. -/
def State.ocHeld (s : State) (o : Nat) : List Nat :=
  (((s.vid.sessions.flatMap (fun e => e.queue ++ (e.coding.map Prod.fst).toList)) ++ s.vid.holds).filter (fun p => p.out == o)).map (fun p => p.buf)
/-- The lowest FREE buffer. -/
def State.ocFree (s : State) (o : Nat) : Option Nat :=
  (List.range (s.rd F.CP_OC_POOL_CFG_NBUF 0 o)).find? (fun i => !(s.ocWriting o).contains i && !(s.ocHeld o).contains i)
/-- OC_BOOKS: FREE, WRITING, HELD. -/
def State.ocBooks (s : State) (o : Nat) : Nat × Nat × Nat :=
  let n := s.rd F.CP_OC_POOL_CFG_NBUF 0 o
  let w := ((List.range n).filter (fun i => (s.ocWriting o).contains i)).length
  let h := ((List.range n).filter (fun i => !(s.ocWriting o).contains i && (s.ocHeld o).contains i)).length
  (n - w - h, w, h)

/-! ### Enabling an output (R471) -/

/-- R471: size and format, layer rectangles and pool agree. -/
def State.ocOk (s : State) (o : Nat) : Bool :=
  let q := s.ocSrc o
  let i := svOut q.2.1 q.2.2
  decide (q.2.2 < 3 ∧ s.ocW o = s.svOutW q.1 q.2.1 q.2.2 ∧ s.ocH o = s.svOutH q.1 q.2.1 q.2.2
      ∧ s.rd F.CP_OC_CTRL_FMT 0 o = s.rd F.SV_OUT_CFG_FMT q.1 i)
    && (List.range 2).all (fun l =>
      decide (s.rd F.CP_LY_POS_X 0 (lyIdx o l) + s.rd F.CP_LY_SIZE_W 0 (lyIdx o l) ≤ s.ocW o
        ∧ s.rd F.CP_LY_POS_Y 0 (lyIdx o l) + s.rd F.CP_LY_SIZE_H 0 (lyIdx o l) ≤ s.ocH o))
    && decide (1 ≤ s.rd F.CP_OC_POOL_CFG_NBUF 0 o ∧ s.rd F.CP_OC_POOL_CFG_NBUF 0 o ≤ 8
      ∧ s.picBytes o ≤ s.rd F.CP_OC_POOL_CFG_BUF_KIB 0 o * 1024)

/-- LY_STAT and MASK_STAT of an output. -/
def State.cpSync (s : State) (o : Nat) : State :=
  let x := s.compOut o
  (List.range 2).foldl (fun t l =>
    ((t.wrB F.CP_LY_STAT_POSTED 0 (lyIdx o l) (x.posted.any (fun p => p.1 == l))).wrB F.CP_LY_STAT_IN_USE0 0 (lyIdx o l)
      (x.inUse.contains (l, 0))).wrB F.CP_LY_STAT_IN_USE1 0 (lyIdx o l) (x.inUse.contains (l, 1)))
    (s.wrB F.CP_MASK_STAT_STATIC_VALID 0 o x.mask.isSome)

/-- An output is switched off: its pictures that no session has are given up, and nothing of its layers or mask is kept (log 53). -/
def State.ocDisable (s : State) (o : Nat) : State :=
  let mine (p : CompPic) : Bool := p.out == o
  let free (e : EncSes) : EncSes := if e.coding.any (fun c => mine c.1) then { e with early := none } else e
  let t : State := { s with vid := { s.vid with waiting := s.vid.waiting.filter (fun p => !mine p),
                                                cur := if s.vid.cur.any mine then none else s.vid.cur,
                                                holds := s.vid.holds.filter (fun p => !mine p), sessions := s.vid.sessions.map free } }
  let u := (List.range 2).foldl (fun (t : State) l => t.wr F.CP_LY_STAT_REUSED 0 (lyIdx o l) 0)
    ((t.setCompOut { num := o }).wrB F.CP_STAT_BUSY 0 0 t.vid.cur.isSome)
  (u.wr F.CP_OC_CTRL_EN 0 o 0).cpSync o

/-- A write of OC_CTRL: its other fields only while EN is 0. -/
def State.ocCtrl (s0 : State) (o v : Nat) : State :=
  let s := s0.lockWord F.CP_OC_CTRL_EN 0 o v
  if s.rdB F.CP_OC_CTRL_EN 0 o then (if bitOf v 0 then s else s.ocDisable o)
  else
    let t := ((((s.wr F.CP_OC_CTRL_FMT 0 o (bitsOf v 1 1)).wr F.CP_OC_CTRL_SIEVE 0 o (bitsOf v 2 1)).wr F.CP_OC_CTRL_CTX 0 o (bitsOf v 3 6)).wr
      F.CP_OC_CTRL_OUT 0 o (bitsOf v 9 2)).wr F.CP_OC_CTRL_HOLD_MAX 0 o (bitsOf v 12 4)
    if bitOf v 0 then
      if t.ocOk o then ((t.setCompOut { num := o, lastGt := t.gt }).wr F.CP_OC_CTRL_EN 0 o 1).cpSync o
      else (t.wr F.CP_OC_STAT_CFG_ERR 0 o 1).raise cpPage 6
    else t

/-- COMP_OUTPUT_ENABLE. -/
def execCompOutputEnable (o : Fin 8) (v : Word) (s : State) : Outcome State Fault Refusal :=
  .next (s.reach cpPage (fun t => t.ocCtrl o.val v.toNat))

/-- MASK_RELOAD: the static mask is read again at the next boundary (R478). -/
def State.maskReload (s : State) (o v : Nat) : State :=
  if bitOf v 0 then s.setCompOut { s.compOut o with reload := true } else s

/-- MASK_RELOAD. -/
def execMaskReload (o : Fin 8) (v : Word) (s : State) : Outcome State Fault Refusal :=
  .next (s.reach cpPage (fun t => t.maskReload o.val v.toNat))

/-- LY_POST: buffer v mod 2 of a layer is posted for the next boundary (R482). -/
def State.lyPost (s : State) (o l v : Nat) : State :=
  let x := s.compOut o
  (s.setCompOut { x with posted := (l, v % 2) :: x.posted.filter (fun p => p.1 != l) }).cpSync o

/-- LY_POST. -/
def execLyPost (o : Fin 8) (l : Fin 2) (v : Word) (s : State) : Outcome State Fault Refusal :=
  .next (s.reach cpPage (fun t => t.lyPost o.val l.val v.toNat))

/-! ### Base frames (R474, R476) -/

/-- The COMPOSITOR reference of the buffers that satisfy p ends. -/
def State.baseDrop (s : State) (p : SvBuf → Bool) : State :=
  ({ s with sv := { s.sv with bufs := updWhere (fun b => bitOf b.refs 1 && p b) (fun b => { b with refs := clrBit b.refs 1 }) s.sv.bufs } }).svSweep

/-- BASE_RELEASE: a retracted frame's base buffers are released. -/
def State.baseRelease (s : State) (f : Nat) : State := s.baseDrop (fun b => b.frame == f)

/-- The candidates of an output, the newest capture GT first. -/
def State.candidatesOf (s : State) (o : Nat) : List SvBuf :=
  let q := s.ocSrc o
  let used := (s.vid.waiting ++ s.vid.cur.toList).filterMap (fun p => if p.out = o ∧ p.kind = 0 then some p.frame else none)
  (s.sv.bufs.filter (fun b => bitOf b.refs 1 && b.inst == q.1 && b.ctx == q.2.1 && b.out == q.2.2 && !used.contains b.frame
    && (s.frame b.frame).any (fun f => f.standing == 1 && decide (s.gt < f.ageGt)))).mergeSort (fun a b => decide (b.capGt ≤ a.capGt))

/-- R474: every older confirmed buffer is released and counted. -/
def State.skipOlder (s : State) (o : Nat) (b : SvBuf) : State :=
  let q := s.ocSrc o
  let old (x : SvBuf) : Bool := bitOf x.refs 1 && x.inst == q.1 && x.ctx == q.2.1 && x.out == q.2.2 && decide (x.capGt < b.capGt)
    && (s.frame x.frame).any (fun f => f.standing == 1)
  (s.baseDrop old).inc F.CP_BASE_SKIP_CNT 0 0 (s.sv.bufs.filter old).length

/-! ### The mask (R478 to R480) -/

/-- Bytes of a mask row, and of the bitmap. -/
def maskPitch (w : Nat) : Nat := ceilDiv w 512 * 64
def State.maskLen (s : State) (o : Nat) : Nat := ceilDiv (s.ocH o) 8 * maskPitch (s.ocW o)

/-- R478: the static mask is read at the first boundary after enable or a reload. A read that fails leaves it invalid. -/
def State.staticMask (s : State) (o : Nat) : State :=
  let x := s.compOut o
  if s.rd F.CP_MASK_CFG_MODE 0 o = 1 ∧ x.reload = true then
    match s.fetch (s.rd F.CP_MASK_BASE 0 o) (s.maskLen o) with
    | some m => s.setCompOut { x with mask := some m, reload := false }
    | none => s.setCompOut { x with mask := none, reload := false }
  else s

/-- R480: the bitmap of the VALID slot whose frame id is the base frame's. -/
def State.dynMask (s : State) (o frame : Nat) : Option (List Byte) :=
  ((List.range (s.rd F.CP_MASK_CFG_SLOTS 0 o)).filterMap (fun i =>
    if s.maskValid.contains (o, i) then
      match s.fetch (s.rd F.CP_MASK_BASE 0 o + i * s.rd F.CP_MASK_CFG_STRIDE 0 o * 1024) (64 + s.maskLen o) with
      | some m => if leAt m 0 4 = frame then some (m.drop 64) else none
      | none => none
    else none)).head?

/-! ### Handing a picture to the Encoder (R485, R490) -/

/-- A session takes a picture into its queue of two, or releases it unencoded. -/
def State.encOffer (s : State) (n : Nat) (p : CompPic) : State :=
  let e := s.encSes n
  if e.early = some p.bGt then s.setEncSes { e with early := none }
  else if e.queue.length < 2 then s.setEncSes { e with queue := e.queue ++ [p] }
  else (s.setEncSes { e with dropped := true }).inc F.EN_IN_DROP_CNT 0 0 |>.raise enPage 2

/-- The sessions bound to an output. -/
def State.encOf (s : State) (o : Nat) : List Nat :=
  (List.range 8).filter (fun n => s.rdB F.EN_ES_CFG_EN 0 n && s.rd F.EN_ES_CFG_OUTPUT 0 n == o)

/-- A picture is emitted: every session bound to the output is offered it. -/
def State.emitPic (s : State) (p : CompPic) : State := (s.encOf p.out).foldl (fun t n => t.encOffer n p) s

/-! ### The boundary (R473, R483, R484) -/

/-- The newest boundary of an output at or before GT. -/
def State.boundaryAt (s : State) (o : Nat) : Option Nat :=
  let per := max 1 (s.rd F.CP_OC_TIME_PERIOD_CYC 0 o)
  let ph := s.rd F.CP_OC_TIME_PHASE 0 o
  if s.gt < ph then none
  else
    let c := (s.gt - ph) / 65536
    let back := (((c : Int) - s.rd F.CP_OC_TIME_ANCHOR 0 o) % (per : Int)).toNat
    if back ≤ c then some ((c - back) * 65536 + ph) else none

/-- PICTURE_LATE: a picture of the output that has not started is abandoned (R486). -/
def State.dropLate (s : State) (o : Nat) : State :=
  let late := (s.vid.waiting.filter (fun p => p.out == o)).length
  if late = 0 then s
  else (({ s with vid := { s.vid with waiting := s.vid.waiting.filter (fun p => p.out != o) } } : State).inc F.CP_LATE_CNT 0 0 late).raise cpPage 5

/-- A composed or BLANK picture takes a FREE buffer; with none, nothing is emitted. -/
def State.takePic (s : State) (p : CompPic) (k : State → State) : State :=
  match s.ocFree p.out with
  | some i => k { s with vid := { s.vid with waiting := s.vid.waiting ++ [{ p with buf := i }] } }
  | none => (s.inc F.CP_POOL_SKIP_CNT 0 0).raise cpPage 4

/-- emit(BLANK). -/
def State.emitBlank (s : State) (o b : Nat) : State :=
  s.takePic { out := o, kind := 1, bGt := b, buf := 0, blank := true, isStatic := s.rd F.CP_MASK_CFG_MODE 0 o == 1 }
    (fun t => (t.inc F.CP_BLANK_CNT 0 0).raise cpPage 2)

/-- emit(hold_or_blank()). -/
def State.holdOrBlank (s : State) (o b : Nat) : State :=
  let x := s.compOut o
  match x.prev with
  | some p =>
    if x.held < s.rd F.CP_OC_CTRL_HOLD_MAX 0 o then
      let t := ((s.setCompOut { x with held := x.held + 1 }).inc F.CP_HELD_CNT 0 0).raise cpPage 1
      let h := { p with kind := 2, bGt := b }
      if t.vid.cur.any (fun c => c.out == o) then { t with vid := { t.vid with holds := t.vid.holds ++ [h] } }
      else t.emitPic h
    else s.emitBlank o b
  | none => s.emitBlank o b

/-- What the layers of an output give at a boundary. -/
inductive LayerOut where
  | compose
  | hold
  | blank
deriving DecidableEq, Repr

/-- R483: layer l that is enabled: drawn where posted, else under its policy. The buffers to draw, and whether one was skipped or reused. -/
def State.layerStep (s : State) (o l : Nat) (posted : List (Nat × Nat)) (acc : List (Nat × Nat) × Bool) :
    State × LayerOut × (List (Nat × Nat) × Bool) :=
  let i := lyIdx o l
  if !s.rdB F.CP_LY_CFG_EN 0 i then (s, .compose, acc)
  else
    match posted.find? (fun p => p.1 == l) with
    | some p => (s, .compose, (acc.1 ++ [p], acc.2))
    | none =>
      let skip : State × LayerOut × (List (Nat × Nat) × Bool) := (s.inc F.CP_SKIP_CNT 0 0, .compose, (acc.1, true))
      match s.rd F.CP_LY_CFG_POLICY 0 i, (s.compOut o).content.find? (fun p => p.1 == l) with
      | 0, some p =>
        if s.rd F.CP_LY_STAT_REUSED 0 i < s.rd F.CP_LY_CFG_MAX_REUSE 0 i then
          ((s.wr F.CP_LY_STAT_REUSED 0 i (s.rd F.CP_LY_STAT_REUSED 0 i + 1)).inc F.CP_REUSE_CNT 0 0, .compose, (acc.1 ++ [p], true))
        else skip
      | 0, none => skip
      | 1, _ => skip
      | 2, _ => (s, .hold, acc)
      | _, _ => (s, .blank, acc)

/-- The two layers in order. -/
def State.layersOf (s : State) (o : Nat) (posted : List (Nat × Nat)) : State × LayerOut × (List (Nat × Nat) × Bool) :=
  let a := s.layerStep o 0 posted ([], false)
  if a.2.1 = .compose then a.1.layerStep o 1 posted a.2.2 else a

/-- compose(b, mask, layers): the picture takes a buffer, older candidates are released, `held` and the posted layers' counts go to 0. -/
def State.composePic (s : State) (o bg : Nat) (b : SvBuf) (m : Option (List Byte)) (ls : List (Nat × Nat) × Bool) (posted : List (Nat × Nat)) :
    State :=
  s.takePic { out := o, kind := 0, bGt := bg, buf := 0, base := some (b.inst, b.ctx, b.out, b.idx), frame := b.frame, capGt := b.capGt,
              mask := m, isStatic := s.rd F.CP_MASK_CFG_MODE 0 o == 1, altered := ls.2, layers := ls.1 }
    (fun t =>
      let u := t.skipOlder o b
      let x := u.compOut o
      let v := u.setCompOut { x with held := 0, inUse := x.inUse.filter (fun p => !posted.any (fun q => q.1 == p.1)) ++ posted }
      posted.foldl (fun t p => t.wr F.CP_LY_STAT_REUSED 0 (lyIdx o p.1) 0) v)

/-- boundary(o) of R483. -/
def State.judgePic (s : State) (o bg : Nat) (posted : List (Nat × Nat)) : State :=
  let mode := s.rd F.CP_MASK_CFG_MODE 0 o
  let st := (s.compOut o).mask
  if mode = 1 ∧ st.isNone then (s.emitBlank o bg).raise cpPage 3
  else
    match (s.candidatesOf o).head? with
    | none => s.holdOrBlank o bg
    | some b =>
      let dyn := s.dynMask o b.frame
      if mode = 2 ∧ dyn.isNone then ((s.emitBlank o bg).inc F.CP_MASK_BLANK_CNT 0 0).raise cpPage 3
      else
        let r := s.layersOf o posted
        match r.2.1 with
        | .hold => r.1.holdOrBlank o bg
        | .blank => r.1.emitBlank o bg
        | .compose => r.1.composePic o bg b (if mode = 1 then st else if mode = 2 then dyn else none) r.2.2 posted

/-- COMPOSITOR_BOUNDARY: GT has reached a boundary of the output that has not been judged. A picture not yet started is abandoned; what
was posted becomes the layers' content (R482, log 53). -/
def State.compBoundary (s : State) (o : Nat) : State :=
  match s.boundaryAt o with
  | some bg =>
    let x := s.compOut o
    if s.pageOn cpPage && !s.inReset cpPage && s.rdB F.CP_CTRL_EN 0 0 && s.rdB F.CP_OC_CTRL_EN 0 o && decide (x.lastGt < bg) then
      let s1 := ((s.setCompOut { x with lastGt := bg }).dropLate o).staticMask o
      let posted := x.posted
      let y := s1.compOut o
      let s2 := s1.setCompOut { y with posted := [], content := posted ++ y.content.filter (fun p => !posted.any (fun q => q.1 == p.1)),
                                       inUse := y.inUse ++ posted.filter (fun p => !y.inUse.contains p) }
      (s2.judgePic o bg posted).cpSync o
    else s
  | none => s

/-- COMPOSITOR_BOUNDARY. -/
def execCompositorBoundary (o : Fin 8) (s : State) : Outcome State Fault Refusal := .next (s.compBoundary o.val)

/-! ### Composing (R477, R481) -/

/-- The bytes of a read, or free values where the read fails (log 53). -/
def State.readOr (s : State) (a n : Nat) : List Byte := (s.fetch a n).getD (s.remoteBytes n)

/-- Sample k of a row: 8 bits in NV12, 10 bits in P010. -/
def sampleAt (fmt : Nat) (l : List Byte) (k : Nat) : Nat := if fmt = 1 then leAt l (2 * k) 2 / 64 else leAt l k 1

/-- A sample in the picture's own depth as 10 bits, and back. -/
def to10 (fmt v : Nat) : Nat := if fmt = 1 then v else 4 * v
def from10 (fmt v : Nat) : List Byte := if fmt = 1 then p010 v else [BitVec.ofNat 8 (to8 v)]

/-- A layer to draw: position, size, row pitch, pixels, palette. -/
structure LayerIn where
  x : Nat
  y : Nat
  w : Nat
  h : Nat
  pitch : Nat
  pix : List Byte
  pal : List Byte
deriving DecidableEq, Repr

/-- What a picture is composed from: format, size, the base rows (luma and chroma), the mask and how it fills, the layers. -/
structure CompIn where
  fmt : Nat
  w : Nat
  h : Nat
  luma : List (List Byte)
  chroma : List (List Byte)
  mask : Option (List Byte)
  pixelate : Bool
  fill : Nat
  layers : List LayerIn
deriving DecidableEq, Repr

/-- The base sample of plane c (0 luma, 1 Cb, 2 Cr) at a sample position, in the picture's depth. -/
def CompIn.base (i : CompIn) (c x y : Nat) : Nat :=
  if c = 0 then sampleAt i.fmt (i.luma.getD y []) x else sampleAt i.fmt (i.chroma.getD y []) (2 * x + c - 1)

/-- The mask bit of block (bx, by). -/
def CompIn.masked (i : CompIn) (bx bY : Nat) : Bool :=
  match i.mask with
  | some m => bitOf (leAt m (bY * maskPitch i.w + bx / 8) 1) (bx % 8)
  | none => false

/-- R477: the sample after the mask, as 10 bits. -/
def CompIn.afterMask (i : CompIn) (c x y : Nat) : Nat :=
  let d := if c = 0 then 8 else 4
  let bx := x / d
  let bY := y / d
  if i.masked bx bY then
    if i.pixelate then
      let pw := if c = 0 then i.w else i.w / 2
      let ph := if c = 0 then i.h else i.h / 2
      let l := (List.range d).flatMap (fun v => (List.range d).filterMap (fun u =>
        if bx * d + u < pw ∧ bY * d + v < ph then some (i.base c (bx * d + u) (bY * d + v)) else none))
      to10 i.fmt ((2 * l.sum + l.length) / (2 * l.length))
    else bitsOf i.fill (10 * c) 10
  else to10 i.fmt (i.base c x y)

/-- R481: one layer over a sample. A chroma sample takes the palette entry of the top-left pixel of its 2 × 2 group. -/
def overlay (c x y : Nat) (v : Nat) (l : LayerIn) : Nat :=
  let px := if c = 0 then x else 2 * x
  let py := if c = 0 then y else 2 * y
  if l.x ≤ px ∧ px < l.x + l.w ∧ l.y ≤ py ∧ py < l.y + l.h then
    let ix := leAt l.pix ((py - l.y) * l.pitch + (px - l.x)) 1
    let e := leAt l.pal (4 * ix) 4
    let a := bitsOf e 0 8
    (a * (4 * bitsOf e (8 + 8 * c) 8) + (255 - a) * v + 127) / 255
  else v

/-- A sample of the composed picture. -/
def CompIn.pixel (i : CompIn) (c x y : Nat) : Nat := i.layers.foldl (overlay c x y) (i.afterMask c x y)

/-- The bytes of the composed picture. -/
def CompIn.bytes (i : CompIn) : List Byte :=
  (List.range i.h).flatMap (fun y => (List.range i.w).flatMap (fun x => from10 i.fmt (i.pixel 0 x y)))
    ++ (List.range (i.h / 2)).flatMap (fun y => (List.range (i.w / 2)).flatMap (fun x =>
      from10 i.fmt (i.pixel 1 x y) ++ from10 i.fmt (i.pixel 2 x y)))

/-- A BLANK picture: OC_BLANK in every pixel. -/
def State.blankBytes (s : State) (o : Nat) : List Byte :=
  let fmt := s.rd F.CP_OC_CTRL_FMT 0 o
  (List.replicate (s.ocW o * s.ocH o) (from10 fmt (s.rd F.CP_OC_BLANK_Y 0 o))).flatten
    ++ (List.replicate (s.ocW o / 2 * (s.ocH o / 2)) (from10 fmt (s.rd F.CP_OC_BLANK_CB 0 o) ++ from10 fmt (s.rd F.CP_OC_BLANK_CR 0 o))).flatten

/-- What the picture is composed from. -/
def State.compIn (s : State) (p : CompPic) (q : Nat × Nat × Nat × Nat) : CompIn :=
  let o := p.out
  let a := s.svBufAddr q.1 q.2.1 q.2.2.1 q.2.2.2
  let pitch := s.rd F.SV_OUT_PITCH q.1 (svOut q.2.1 q.2.2.1)
  let n := s.ocW o * s.ocB o
  { fmt := s.rd F.CP_OC_CTRL_FMT 0 o, w := s.ocW o, h := s.ocH o
    luma := (List.range (s.ocH o)).map (fun y => s.readOr (a + y * pitch) n)
    chroma := (List.range (s.ocH o / 2)).map (fun y => s.readOr (a + (s.ocH o + y) * pitch) n)
    mask := p.mask
    pixelate := s.rdB F.CP_MASK_CFG_FILL 0 o
    fill := s.rd F.CP_MASK_FILL 0 o
    layers := p.layers.map (fun l =>
      let i := lyIdx o l.1
      let lp := ceilDiv (s.rd F.CP_LY_SIZE_W 0 i) 64 * 64
      ({ x := s.rd F.CP_LY_POS_X 0 i, y := s.rd F.CP_LY_POS_Y 0 i, w := s.rd F.CP_LY_SIZE_W 0 i, h := s.rd F.CP_LY_SIZE_H 0 i, pitch := lp,
         pix := s.readOr (larderBase + (if l.2 = 0 then s.rd F.CP_LY_BUF0 0 i else s.rd F.CP_LY_BUF1 0 i)) (lp * s.rd F.CP_LY_SIZE_H 0 i),
         pal := s.readOr (larderBase + s.rd F.CP_LY_PAL 0 i) 1024 } : LayerIn)) }

/-- The free values that reads of a picture may have taken. -/
def State.picFree (s : State) (p : CompPic) : Nat := if p.kind = 0 then s.picBytes p.out + 65536 else 0

/-- PICTURE_START: with none in progress, the waiting picture of the lowest boundary GT is written to its buffer (R486). -/
def State.pictureStart (s : State) : State :=
  if s.pageOn cpPage && !s.inReset cpPage && s.rdB F.CP_CTRL_EN 0 0 && s.vid.cur.isNone then
    match leastBy (fun p : CompPic => p.bGt * 8 + p.out) s.vid.waiting with
    | some p =>
      let bs := match p.base with
        | some q => (s.compIn p q).bytes
        | none => s.blankBytes p.out
      let t := { (s.poke (s.picAddr p.out p.buf) bs) with fresh := s.fresh + s.picFree p }
      let u := { t with vid := { t.vid with waiting := t.vid.waiting.filter (fun x => x != p), cur := some p } }
      (u.setCompOut { u.compOut p.out with prev := some p }).wr F.CP_STAT_BUSY 0 0 1
    | none => s
  else s

/-- PICTURE_START. -/
def execPictureStart (s : State) : Outcome State Fault Refusal := .next s.pictureStart

/-- PICTURE_DONE: the picture in progress is written. Its base is released (R476) and it is handed to the Encoder (R485), with the holds
that waited for it. -/
def State.pictureDone (s : State) : State :=
  match s.vid.cur with
  | some p =>
    let h := s.vid.holds.filter (fun x => x.out == p.out)
    let s1 := { s with vid := { s.vid with cur := none, holds := s.vid.holds.filter (fun x => x.out != p.out) } }
    let s2 := match p.base with
      | some q => ((s1.baseDrop (fun b => b.inst == q.1 && b.ctx == q.2.1 && b.out == q.2.2.1 && b.idx == q.2.2.2 && b.frame == p.frame)).inc
          F.CP_COMPOSED_CNT 0 0).raise cpPage 0
      | none => s1
    h.foldl State.emitPic ((s2.emitPic p).wr F.CP_STAT_BUSY 0 0 0)
  | none => s

/-- PICTURE_DONE. -/
def execPictureDone (s : State) : Outcome State Fault Refusal := .next s.pictureDone

end Sys2Proof.Machine
end

