-- ==== Sys2Proof/Machine/Encoder.lean ====
section
/-! DEFINITION. The Encoder (spec/14, R487 to R494): sessions, what a picture is coded as, and the bitstream ring. The coded bytes and
the mean QP of rate control are results the specification bounds and does not state. -/

namespace Sys2Proof.Machine

open Host

/-! ### Enabling a session (R487, R492) -/

/-- The greatest luma picture size of an H.265 level, in samples, by level_idc (PRESUMED, log 55). -/
def hevcMaxLuma (l : Nat) : Option Nat :=
  if l = 30 then some 36864 else if l = 60 then some 122880 else if l = 63 then some 245760 else if l = 90 then some 552960
  else if l = 93 then some 983040 else if l = 120 ∨ l = 123 then some 2228224 else if l = 150 ∨ l = 153 then some 8912896 else none

/-- The greatest frame size of an H.264 level, in macroblocks, by level_idc (PRESUMED, log 55). -/
def avcMaxFs (l : Nat) : Option Nat :=
  if l = 9 ∨ l = 10 then some 99 else if 11 ≤ l ∧ l ≤ 13 ∨ l = 20 then some 396 else if l = 21 then some 792
  else if l = 22 ∨ l = 30 then some 1620 else if l = 31 then some 3600 else if l = 32 then some 5120 else if l = 40 ∨ l = 41 then some 8192
  else if l = 42 then some 8704 else if l = 50 then some 22080 else if l = 51 then some 36864 else none

/-- A picture size lies within a level of a codec. -/
def levelOk (codec lev w h : Nat) : Bool :=
  if codec ≤ 1 then (hevcMaxLuma lev).any (fun m => decide (w * h ≤ m))
  else if codec ≤ 3 then (avcMaxFs lev).any (fun m => decide (ceilDiv w 16 * ceilDiv h 16 ≤ m))
  else lev == 0

/-- R492: the session may be enabled. -/
def State.esOk (s : State) (n : Nat) : Bool :=
  let codec := s.rd F.EN_ES_CFG_CODEC 0 n
  let o := s.rd F.EN_ES_CFG_OUTPUT 0 n
  let w := s.ocW o
  let h := s.ocH o
  let m := if codec = 4 then 16 else 8
  let mode := s.rd F.EN_ES_RC_MODE 0 n
  let lo := s.rd F.EN_ES_RC_QP_MIN 0 n
  let hi := s.rd F.EN_ES_RC_QP_MAX 0 n
  decide (codec ≤ 4) && levelOk codec (s.rd F.EN_ES_CFG_LEVEL_IDC 0 n) w h
    && s.rdB F.CP_OC_CTRL_EN 0 o && decide (128 ≤ w ∧ w ≤ 3840 ∧ 96 ≤ h ∧ h ≤ 2160 ∧ w % m = 0 ∧ h % m = 0)
    && (s.rd F.CP_OC_CTRL_FMT 0 o == b2n (codec == 1))
    && (codec == 4 ||
      (decide (lo ≤ s.rd F.EN_ES_RC_QP_I 0 n ∧ s.rd F.EN_ES_RC_QP_I 0 n ≤ hi ∧ lo ≤ s.rd F.EN_ES_RC_QP_P 0 n ∧ s.rd F.EN_ES_RC_QP_P 0 n ≤ hi
          ∧ hi ≤ 51 ∧ mode ≠ 3)
        && (mode == 0 || decide (s.rd F.EN_ES_RATE 0 n ≠ 0 ∧ s.rd F.EN_ES_VBV 0 n ≠ 0))
        && (mode != 2 || decide (s.rd F.EN_ES_RATE 0 n ≤ s.rd F.EN_ES_MAXRATE 0 n))))
    && decide (s.rd F.EN_BS_SIZE 0 n ≠ 0 ∧ s.rd F.EN_BS_BASE 0 n + s.rd F.EN_BS_SIZE 0 n * 1024 ≤ 0x1000000)

/-- A write of ES_CFG: its other fields only while EN is 0. A session switched off gives up its pictures. -/
def State.esCfg (s0 : State) (n v : Nat) : State :=
  let s := s0.lockWord F.EN_ES_CFG_EN 0 n v
  if s.rdB F.EN_ES_CFG_EN 0 n then (if bitOf v 0 then s else (s.setEncSes { num := n }).wr F.EN_ES_CFG_EN 0 n 0)
  else
    let t := ((((s.wr F.EN_ES_CFG_CODEC 0 n (bitsOf v 1 3)).wr F.EN_ES_CFG_OUTPUT 0 n (bitsOf v 4 3)).wr F.EN_ES_CFG_CAVLC 0 n (bitsOf v 7 1)).wr
      F.EN_ES_CFG_LEVEL_IDC 0 n (bitsOf v 8 8)).wr F.EN_ES_CFG_IDR_PERIOD 0 n (bitsOf v 16 10)
    if bitOf v 0 then
      if t.esOk n then (t.setEncSes { num := n }).wr F.EN_ES_CFG_EN 0 n 1 else (t.wr F.EN_ES_STAT_CFG_ERR 0 n 1).raise enPage 4
    else t

/-- ENC_SESSION_ENABLE. -/
def execEncSessionEnable (n : Fin 8) (v : Word) (s : State) : Outcome State Fault Refusal :=
  .next (s.reach enPage (fun t => t.esCfg n.val v.toNat))

/-- FORCE_IDR: the next picture is an IDR (R487). -/
def State.forceIdr (s : State) (n v : Nat) : State := if bitOf v 0 then s.setEncSes { s.encSes n with needIdr := true } else s

/-- FORCE_IDR. -/
def execForceIdr (n : Fin 8) (v : Word) (s : State) : Outcome State Fault Refusal :=
  .next (s.reach enPage (fun t => t.forceIdr n.val v.toNat))

/-! ### Coding (R487 to R490) -/

/-- What a picture is coded as: 1 IDR, 2 P, 3 JPEG. -/
def State.auType (s : State) (n : Nat) : Nat :=
  let e := s.encSes n
  if s.rd F.EN_ES_CFG_CODEC 0 n = 4 then 3
  else if e.needIdr || decide (s.rd F.EN_ES_CFG_IDR_PERIOD 0 n ≤ e.since) then 1 else 2

/-- A session starts on a picture. -/
def State.encBegin (s : State) (n : Nat) (e : EncSes) (p : CompPic) : State :=
  let t := s.auType n
  s.setEncSes { e with coding := some (p, t), needIdr := false, since := if t = 2 then e.since + 1 else 1 }

/-- ENCODE_START: with no picture being coded, the session starts on the first of its queue, or on the picture that the Compositor is
writing, 64 rows behind it (R489). -/
def State.encodeStart (s : State) (n : Nat) : State :=
  let e := s.encSes n
  if s.pageOn enPage && !s.inReset enPage && s.rdB F.EN_CTRL_EN 0 0 && s.rdB F.EN_ES_CFG_EN 0 n
      && s.vid.sessions.all (fun x => x.coding.isNone) then
    match e.queue, s.vid.cur with
    | p :: rest, _ => s.encBegin n { e with queue := rest } p
    | [], some p =>
      if p.out = s.rd F.EN_ES_CFG_OUTPUT 0 n ∧ e.early.isNone then s.encBegin n { e with early := some p.bGt } p else s
    | [], none => s
  else s

/-- ENCODE_START. -/
def execEncodeStart (n : Fin 8) (s : State) : Outcome State Fault Refusal := .next (s.encodeStart n.val)

/-! ### The bitstream ring (R493, R494) -/

/-- The ring's size, and its free bytes. -/
def State.bsSize (s : State) (n : Nat) : Nat := s.rd F.EN_BS_SIZE 0 n * 1024
def State.bsUsed (s : State) (n rdp : Nat) : Nat := (s.rd F.EN_BS_WR 0 n + 2 ^ 32 - rdp % 2 ^ 32) % 2 ^ 32

/-- A record header (Table CMP-2). -/
def auHeader (len ty flags n qp frame cap bg : Nat) : List Byte :=
  toBytes 4 len ++ toBytes 1 ty ++ toBytes 1 flags ++ toBytes 1 n ++ toBytes 1 qp ++ toBytes 4 frame ++ toBytes 4 0 ++ toBytes 8 cap ++ toBytes 8 bg

/-- The mean QP of a picture: that of CQP, or what rate control gives, within QP_MIN to QP_MAX (R491). -/
def State.meanQp (s : State) (n ty qp : Nat) : Nat :=
  if ty = 3 then qp
  else if s.rd F.EN_ES_RC_MODE 0 n = 0 then (if ty = 1 then s.rd F.EN_ES_RC_QP_I 0 n else s.rd F.EN_ES_RC_QP_P 0 n)
  else min (s.rd F.EN_ES_RC_QP_MAX 0 n) (max (s.rd F.EN_ES_RC_QP_MIN 0 n) qp)

/-- The reference picture that a coded picture of H.265 or H.264 leaves: the two take turns at REF_BASE (log 55). -/
def State.refWrite (s : State) (n ty : Nat) (p : CompPic) : State :=
  let e := s.encSes n
  let k := s.picBytes p.out
  let a := s.rd F.EN_REF_BASE 0 n + e.refs % 2 * k
  let t := s.setEncSes { e with refs := e.refs + 1 }
  if ty ≠ 3 ∧ t.pokeOk a k = true then { (t.poke a (t.remoteBytes k)) with fresh := t.fresh + k } else t

/-- A record with its header, and a PAD record before it where it would wrap; or, where they exceed the free space, the record is dropped and
the next picture is an IDR. -/
def State.auWrite (s : State) (n len qp ty : Nat) (p : CompPic) : State :=
  let size := s.bsSize n
  let wr := s.rd F.EN_BS_WR 0 n
  let pos := wr % size
  let need := ceilDiv (32 + len) 32 * 32
  let pad := if size < pos + 32 + len then size - pos else 0
  let e := s.encSes n
  if size - s.bsUsed n (s.rd F.EN_BS_RD 0 n) < pad + need then
    ((s.setEncSes { e with needIdr := true, dropped := true }).inc F.EN_AU_DROP_CNT 0 0).raise enPage 1
  else
    let base := larderBase + s.rd F.EN_BS_BASE 0 n
    let s1 := if pad = 0 then s else s.poke (base + pos) (auHeader (pad - 32) 0 0 0 0 0 0 0)
    let at_ := if pad = 0 then pos else 0
    let flags := b2n (p.kind == 2) + 2 * b2n p.blank + 4 * b2n p.isStatic + 8 * b2n p.altered + 16 * b2n e.dropped
    let s2 := { (s1.poke (base + at_ + 32) (s1.remoteBytes len)) with fresh := s1.fresh + len }
    let s3 := s2.poke (base + at_) (auHeader len ty flags n (s.meanQp n ty qp) p.frame p.capGt p.bGt)
    (((s3.setEncSes { e with dropped := false }).wr F.EN_BS_WR 0 n (wr + pad + need)).inc F.EN_AU_CNT 0 0).raise enPage 0

/-- ENCODE_DONE: the picture being coded is done, with `len` bytes of data; never before the Compositor has written it. -/
def State.encodeDone (s : State) (n len qp : Nat) : State :=
  let e := s.encSes n
  match e.coding with
  | some (p, ty) =>
    if e.early.isSome then s
    else ((s.setEncSes { e with coding := none }).refWrite n ty p).auWrite n len qp ty p
  | none => s

/-- ENCODE_DONE. -/
def execEncodeDone (n : Fin 8) (len : BitVec 24) (qp : BitVec 8) (s : State) : Outcome State Fault Refusal :=
  .next (s.encodeDone n.val len.toNat qp.toNat)

/-- A BS_RD write: ignored and counted where it would make the free space negative or exceed the ring (R494). -/
def State.bsRd (s : State) (n v : Nat) : State :=
  if s.bsUsed n v ≤ s.bsSize n then s.wr F.EN_BS_RD 0 n v else (s.inc F.EN_BS_ERR_CNT 0 0).raise enPage 3

/-- BS_RD_WRITE. -/
def execBsRdWrite (n : Fin 8) (v : Word) (s : State) : Outcome State Fault Refusal :=
  .next (s.reach enPage (fun t => t.bsRd n.val v.toNat))

end Sys2Proof.Machine
end

