-- ==== Sys2Proof/Machine/Audio.lean ====
section
/-! DEFINITION. The Pilot's audio samples (spec/15, R497 to R508): the microphones, the analysis channel with its cross-fade, and the
LIVE buffer, as samples arrive with elapsed time. -/

namespace Sys2Proof.Machine

/-- One 16 kHz sample lasts 62,500 ns. -/
def samplePeriod : Nat := 62500

/-- Sample n of a channel from the decimation chain of a rate (0 3.072 MHz, 1 768 kHz), at 24 bits. The sound and the filters' taps are not
given (log 56). -/
def micSample (ch rate n : Nat) : Int := toS 24 (Config.freeFun 30 [ch, rate, n])

/-- The channels that run at a rate, as a mask (Table PIL-2). -/
def State.running (s : State) (rate : Nat) : Nat :=
  if rate = 0 then s.rd F.PA_CTRL_CH_EN 0 0 else s.rd F.PA_CTRL_CH_EN 0 0 &&& s.rd F.PA_CTRL_LP_MASK 0 0

/-- R498: the saturating sum of the running channels by their S1.14 weights, rounded to 16 bits; and whether it saturated. -/
def State.mixAt (s : State) (rate n : Nat) : Int × Bool :=
  let w (c : Nat) : Int := toS 16 (if rate = 0 then s.rd F.PA_MIX_W_ACT 0 c else s.rd F.PA_MIX_W_LP 0 c)
  let sum := (((List.range 8).filter (fun c => bitOf (s.running rate) c)).map (fun c => w c * micSample c rate n)).foldl (fun a b => a + b) 0
  let v := (sum + 2097152) / 4194304
  (clampI (-32768) 32767 v, decide (v < -32768 ∨ 32767 < v))

/-- R503: the analysis sample n: the new chain alone, or the fade from the old one over 320 samples; and whether a sum saturated. -/
def State.analysis (s : State) (n : Nat) : Int × Bool :=
  let rate := s.rd F.PA_STAT_RATE 0 0
  let new := s.mixAt rate n
  match s.pil.fade with
  | some f =>
    if f ≤ n ∧ n < f + 320 then
      let old := s.mixAt (1 - rate) n
      let k : Int := 2 * ((n : Int) - f) + 1
      (((640 - k) * old.1 + k * new.1 + 320) / 640, old.2 || new.2)
    else new
  | none => new

/-- A sample arrives: it enters the LIVE buffer, and its arrival is noted where a feature frame begins or ends. -/
def State.sample (s : State) : State :=
  let n := s.pil.done
  let y := s.analysis n
  let st := if n % 160 = 0 ∨ n % 160 = 79 then ((n, s.gt) :: s.pil.stamps).take 16 else s.pil.stamps
  let cl := if y.2 then n :: (s.pil.clips.filter (fun m => decide (n < m + 800))) else s.pil.clips
  let t := { s with pil := { s.pil with done := n + 1, live := ((ofS 16 y.1) :: s.pil.live).take 32000, stamps := st, clips := cl } }
  if y.2 then t.inc F.PA_CLIP_CNT 0 0 else t

/-- The front end takes the sample that is due (R499: its index advances with the MEMS oscillator whatever the state). -/
def State.audioTick (s : State) : State :=
  if s.pwr.pilotOn && decide (s.pil.t0 + (s.pil.done + 1) * samplePeriod ≤ s.now) then
    if s.rdB F.PA_CTRL_EN 0 0 then s.sample
    else { s with pil := { s.pil with done := s.pil.done + 1, live := (0 :: s.pil.live).take 32000 } }
  else s

end Sys2Proof.Machine
end

