-- ==== Sys2Proof/Machine/Pilot.lean ====
section
/-! DEFINITION. The Pilot's audio commands and timers (spec/15): rate changes, feature frames, the Simmer and its detections, freezes,
exports, streaming into the Larder, the OFF deferral, and the Pilot timers. -/

namespace Sys2Proof.Machine

open Host

def paPage : Nat := 0x081

/-- The newest hop boundary. -/
def State.hopNow (s : State) : Nat := s.pil.done / 160

/-- The GT at which a noted sample arrived, less the 2 ms of chain delay (R507, R511). -/
def State.sampleGt (s : State) (n : Nat) : Nat :=
  ofS 64 ((((s.pil.stamps.find? (fun x => x.1 == n)).map (fun x => x.2)).getD s.gt : Nat) - (s.nsToUnits 2000000 : Nat))

/-- The front end runs. -/
def State.paOn (s : State) : Bool := s.pwr.pilotOn && !s.inReset paPage && s.rdB F.PA_CTRL_EN 0 0

/-! ### Rate changes (R502 to R505) -/

/-- A PDM rate is called for (R534). -/
def State.pdmCall (s : State) (rate : Nat) : State := { s with pil := { s.pil with rateReq := some (rate, s.now) } }

/-- PDM_RATE_CHANGE: at a hop boundary at least 1 ms after the request and at or after the end of a fade, the clock changes and a fade
begins. -/
def State.pdmChange (s : State) : State :=
  match s.pil.rateReq with
  | some (rate, at_) =>
    let b := s.hopNow * 160
    if s.pwr.pilotOn && !s.inReset paPage then
      if rate = s.rd F.PA_STAT_RATE 0 0 then { s with pil := { s.pil with rateReq := none } }
      else if at_ + 1000000 ≤ s.pil.t0 + b * samplePeriod ∧ (∀ f ∈ s.pil.fade, f + 320 ≤ b) then
        let t := { s with pil := { s.pil with rateReq := none, fade := some b } }
        ((t.wr F.PA_STAT_RATE 0 0 rate).wr F.PA_STAT_XFADE 0 0 1).inc F.PA_XFADE_CNT 0 0
      else s
    else s
  | none => s

/-- PDM_RATE_CHANGE. -/
def execPdmRateChange (s : State) : Outcome State Fault Refusal := .next s.pdmChange

/-- XFADE_END: the 320 samples of the fade are done. -/
def State.xfadeEnd (s : State) : State :=
  match s.pil.fade with
  | some f => if s.rdB F.PA_STAT_XFADE 0 0 && decide (f + 320 ≤ s.pil.done) then (s.wr F.PA_STAT_XFADE 0 0 0).raise paPage 2 else s
  | none => s

/-- XFADE_END. -/
def execXfadeEnd (s : State) : Outcome State Fault Refusal := .next s.xfadeEnd

/-! ### Feature frames (R506, R507) -/

/-- Samples lo to lo + n - 1 of the LIVE buffer, in order; those it does not hold read as zero. -/
def State.liveRange (s : State) (lo n : Nat) : List Nat :=
  (List.range n).map (fun i => if lo + i < s.pil.done ∧ s.pil.liveFrom ≤ lo + i then s.pil.live.getD (s.pil.done - 1 - (lo + i)) 0 else 0)

/-- A sample of a fade. -/
def State.fadedIn (s : State) (lo n : Nat) : Bool := s.pil.fade.any (fun f => decide (f < lo + n ∧ lo < f + 320))

/-- R507: the record of frame k. Its bands are the log-mel values of R506, whose arithmetic is not given (log 56). -/
def State.featRecord (s : State) (k : Nat) : List Byte :=
  let x := s.liveRange (160 * k) 400
  let clip := s.pil.clips.any (fun m => decide (160 * k ≤ m ∧ m < 160 * k + 400))
  toBytes 4 (k % 2 ^ 32) ++ toBytes 8 (s.sampleGt (160 * k)) ++ toBytes 4 (b2n (s.fadedIn (160 * k) 400) + 2 * b2n clip)
    ++ (List.range 64).flatMap (fun b => toBytes 2 (Config.freeFun 31 (b :: x)))

/-- FEATURE_FRAME: the last sample of the next frame has arrived; its record enters the ring of 400. -/
def State.featureFrame (s : State) : State :=
  let k := s.pil.frame
  if s.paOn && decide (160 * k + 400 ≤ s.pil.done) then
    { s with pil := { s.pil with frame := k + 1, feats := ((k, s.featRecord k) :: s.pil.feats).take 400 } }
  else s

/-- FEATURE_FRAME. -/
def execFeatureFrame (s : State) : Outcome State Fault Refusal := .next s.featureFrame

/-! ### Streaming (R518, R519) -/

/-- A sample of the raw stream: 4 bytes, sign-extended (log 57). -/
def rawBytes (v : Int) : List Byte := toBytes 4 (ofS 32 v)

/-- Bytes written to a ring of 2^l entries of n bytes from entry w on, entry by entry. -/
def State.ringPut (s : State) (base l n w : Nat) : List (List Byte) → State
  | [] => s
  | x :: t => (s.poke (base + w % 2 ^ l * n) x).ringPut base l n (w + 1) t

/-- The hop's samples: every running channel, interleaved; or, while catching up, the analysis channel of the LIVE buffer. -/
def State.hopSamples (s : State) (h : Nat) (catching : Bool) : List (List Byte) :=
  let rate := s.rd F.PA_STAT_RATE 0 0
  if catching then (s.liveRange (160 * h) 160).map (fun v => rawBytes (toS 16 v))
  else (List.range 160).flatMap (fun i =>
    ((List.range 8).filter (fun c => bitOf (s.running rate) c)).map (fun c => rawBytes (micSample c rate (160 * h + i))))

/-- AUDIO_STREAM_HOP: a hop that is complete is written into the raw ring, and the feature records since into the feature ring. -/
def State.streamHop (s : State) : State :=
  let h := s.pil.hop
  if s.paOn && s.pwr.mainOn && s.rdB F.PA_CTRL_STREAM_EN 0 0 && decide (h < s.hopNow) then
    let catching := s.pil.catchUp && decide (h + 1 < s.hopNow)
    let raw := s.hopSamples h catching
    let fs := (s.pil.feats.filter (fun x => decide (s.pil.strFrame ≤ x.1))).reverse
    let s1 := s.ringPut (s.rd F.PA_STR_RAW_BASE 0 0) (s.rd F.PA_STR_LOG2_RAW_SAMPLES 0 0) 4 (s.rd F.PA_STR_RAW_WR 0 0) raw
    let s2 := s1.ringPut (s.rd F.PA_STR_FEAT_BASE 0 0) (s.rd F.PA_STR_LOG2_FEAT_RECORDS 0 0) 144 (s.rd F.PA_STR_FEAT_WR 0 0) (fs.map (fun x => x.2))
    let s3 := (s2.addW F.PA_STR_RAW_WR 0 0 raw.length).addW F.PA_STR_FEAT_WR 0 0 fs.length
    { s3 with pil := { s3.pil with hop := h + 1, strFrame := s.pil.frame, catchUp := catching } }
  else s

/-- AUDIO_STREAM_HOP. -/
def execAudioStreamHop (s : State) : Outcome State Fault Refusal := .next s.streamHop

/-- STREAM_RESUME (R519): streaming goes on at the hop after the last one streamed, or at the oldest the rings still hold. -/
def State.streamResume (s : State) : State :=
  if s.rdB F.PA_CTRL_STREAM_EN 0 0 then
    let oldest := ceilDiv (max s.pil.liveFrom (s.pil.done - 32000)) 160
    let t := if s.pil.hop < oldest then (s.inc F.PA_STREAM_GAP_CNT 0 0) else s
    { t with pil := { t.pil with hop := max s.pil.hop oldest, catchUp := true } }
  else s

/-! ### The Simmer (R509 to R515) -/

/-- R509: a program may start: its CRC, its load, and its header's ranges. -/
def simHeader (p : List Byte) (slot : Nat) : Option SimProg :=
  let ev := leAt p 9 1
  let outs := leAt p 10 1
  if 32 ≤ p.length ∧ crc32c (zeroAt p 12 4) = leAt p 12 4 ∧ leAt p 4 4 ≤ ev * 256000000 ∧ 1 ≤ leAt p 8 1 ∧ leAt p 8 1 ≤ 200 ∧ 1 ≤ ev ∧ ev ≤ 8
      ∧ 1 ≤ outs ∧ outs ≤ (if slot = 0 then 1 else 16) then
    some { slot, win := leAt p 8 1, eval := ev, outs, last := 0 }
  else none

def simRunFld (slot : Nat) : Fld := if slot = 0 then F.PA_SIM_CTRL_WAKE_RUN else F.PA_SIM_CTRL_EVENT_RUN
def simErrFld (slot : Nat) : Fld := if slot = 0 then F.PA_SIM_STAT_LOAD_ERR0 else F.PA_SIM_STAT_LOAD_ERR1

/-- One bit of SIM_CTRL written. -/
def State.simCtrl (s : State) (slot : Nat) (run : Bool) (len : Nat) : State :=
  let was := s.rdB (simRunFld slot) 0 0
  if run && !was then
    let p := s.bytesAt (pilotPlace (if slot = 0 then s.rd F.PA_SIM_PROG0 0 0 else s.rd F.PA_SIM_PROG1 0 0)) len
    match simHeader p slot with
    | some g =>
      ({ s with pil := { s.pil with progs := { g with last := s.hopNow } :: s.pil.progs.filter (fun x => x.slot != slot) } } : State).wr
        (simRunFld slot) 0 0 1
    | none => s.wr (simErrFld slot) 0 0 1
  else if was && !run then
    ({ s with pil := { s.pil with progs := s.pil.progs.filter (fun x => x.slot != slot) } } : State).wr (simRunFld slot) 0 0 0
  else s

/-- SIMMER_START: a write of SIM_CTRL, with the lengths of the loaded programs. -/
def execSimmerStart (v : Word) (len0 len1 : BitVec 19) (s : State) : Outcome State Fault Refusal :=
  .next (s.reach paPage (fun t => (t.simCtrl 0 (bitOf v.toNat 0) len0.toNat).simCtrl 1 (bitOf v.toNat 1) len1.toNat))

/-- R512, R513: the LIVE buffer becomes FROZEN with samples W - 31,999 to W, and the samples after W go on in the other. -/
def State.freeze (s : State) (w : Nat) : State :=
  if s.pil.frozen.isSome then s.inc F.PA_DET_FROZEN_CNT 0 0
  else
    let lo := w - 31999
    let ys := List.replicate (31999 - w) 0 ++ s.liveRange lo (w - lo + 1)
    let t := { s with pil := { s.pil with frozen := some (w, ys), live := s.pil.live.take (s.pil.done - 1 - w), liveFrom := w + 1 } }
    (t.wr F.PA_STAT_FROZEN 0 0 1).wr F.PA_STAT_LIVE_BUF 0 0 (1 - t.rd F.PA_STAT_LIVE_BUF 0 0)

/-- OFF_CANCEL (R516, R517): a detection cancels a deferred OFF request. -/
def State.offCancel (s : State) : State :=
  if s.pil.offReq.isSome then
    let t := { s with pil := { s.pil with offReq := none }, pwr := { s.pwr with trans := none } }
    ((t.wr F.PWR_PS_STAT_BUSY 0 0 0).inc F.PA_OFF_CANCEL_CNT 0 0).raise paPage 6
  else s

/-- WAKE_DETECTION (R511). -/
def State.detect (s : State) : State :=
  let k := (s.pil.feats.head?.map (fun x => x.1)).getD 0
  let w := 160 * k + 399
  let s1 := (s.wr F.PA_WAKE_SAMP 0 0 w).wr F.PA_WAKE_GT 0 0 (s.sampleGt w)
  let s2 := { s1 with pil := { s1.pil with lastDet := some s.pil.evals } }
  (((((s2.inc F.PA_DET_CNT 0 0).raise paPage 0).wr F.PA_STAT_IN_PROGRESS 0 0 0).wakeLatch 0).freeze w).offCancel

/-- R510: the WAKE program's score. -/
def State.wakeScore (s : State) (v : Nat) : State :=
  let n := s.pil.evals + 1
  let det := if s.rd F.PA_DET_CFG_DET_THR 0 0 ≤ v then s.pil.detRun + 1 else 0
  let arm := decide (s.rd F.PA_DET_CFG_ARM_THR 0 0 ≤ v)
  let low := if arm then 0 else s.pil.lowRun + 1
  let refr := s.pil.lastDet.any (fun l => decide (n - l ≤ s.rd F.PA_DET_CFG_REFRACT 0 0))
  let s1 := { s with pil := { s.pil with evals := n, detRun := det, lowRun := low } }
  let s2 := if arm then s1.wr F.PA_STAT_IN_PROGRESS 0 0 1 else if 25 ≤ low then s1.wr F.PA_STAT_IN_PROGRESS 0 0 0 else s1
  if det = s.rd F.PA_DET_CFG_DET_N 0 0 ∧ 0 < det ∧ refr = false then s2.detect else s2

/-- EVENT_QUEUE (R515): a class whose score has reached its threshold. -/
def State.eventOne (s : State) (c v : Nat) : State :=
  let s1 := if s.pil.events.length < 32 then
      ({ s with pil := { s.pil with events := s.pil.events ++ [(c, v, s.gt)] } } : State).raise paPage 1
    else s.inc F.PA_EV_LOST_CNT 0 0
  if bitOf (s.rd F.PA_EV_CFG_WAKE_MASK 0 0) c then s1.wakeLatch 1 else s1

/-- R515: the EVENT program's scores. -/
def State.eventScores (s : State) (sc : List Nat) : State :=
  let thr (c : Nat) : Nat := bitsOf (s.rd F.PA_EV_THR 0 (c / 4)) (8 * (c % 4)) 8
  let t := ((List.range sc.length).filter (fun c => decide (thr c ≤ sc.getD c 0)
    && !(s.pil.scores[c]?).any (fun p => decide (thr c ≤ p)))).foldl (fun t c => t.eventOne c (sc.getD c 0)) s
  { t with pil := { t.pil with scores := sc } }

/-- SIMMER_EVAL: an evaluation is due at the newest hop boundary that its EVAL divides. One that still runs makes it skipped; else its
scores, which Pilot firmware computes, are acted on. -/
def State.simmerEval (s : State) (slot : Nat) (overrun : Bool) (scores : List Nat) : State :=
  match s.pil.progs.find? (fun g => g.slot == slot) with
  | some g =>
    let due := s.hopNow / g.eval * g.eval
    if s.paOn && decide (g.last < due) && decide (g.win ≤ s.pil.feats.length) then
      let t := { s with pil := { s.pil with progs := updWhere (fun x => x.slot == slot) (fun x => { x with last := due }) s.pil.progs } }
      if overrun then t.inc F.PA_SIM_OVERRUN_CNT 0 0
      else if slot = 0 then t.wakeScore (scores.getD 0 0)
      else t.eventScores ((List.range g.outs).map (fun c => scores.getD c 0))
    else s
  | none => s

/-- SIMMER_EVAL. -/
def execSimmerEval (slot : Fin 2) (overrun : Bool) (scores : List Byte) (s : State) : Outcome State Fault Refusal :=
  .next (s.simmerEval slot.val overrun (scores.map BitVec.toNat))

/-- A read of EV_POP: the oldest event, or none; its GT goes to EV_GT. -/
def State.evPop (s : State) : State × Nat :=
  match s.pil.events with
  | (c, v, g) :: t => (({ s with pil := { s.pil with events := t } } : State).wr F.PA_EV_GT 0 0 g, c + v * 256 + 2 ^ 31)
  | [] => (s, 0)

/-! ### Frozen buffers and exports (R514, R520) -/

/-- The FROZEN buffer becomes SPARE. -/
def State.unfreeze (s : State) : State := ({ s with pil := { s.pil with frozen := none } } : State).wr F.PA_STAT_FROZEN 0 0 0

/-- FREEZE_MAX has passed since W. -/
def State.freezeOver (s : State) : Bool :=
  s.pil.frozen.any (fun x => decide (s.pil.t0 + (x.1 + 1) * samplePeriod + s.rd F.PA_FREEZE_MAX 0 0 * 1000000 ≤ s.now))

/-- The expiry takes effect. -/
def State.freezeDue (s : State) : State := (s.unfreeze.inc F.PA_FREEZE_EXPIRE_CNT 0 0).raise paPage 4

/-- FREEZE_EXPIRE: not while the buffer is exported. -/
def State.freezeExpire (s : State) : State :=
  if s.freezeOver && !(s.pil.exporting.any (fun e => e.src == 0)) then s.freezeDue else s

/-- FREEZE_EXPIRE. -/
def execFreezeExpire (s : State) : Outcome State Fault Refusal := .next s.freezeExpire

/-- A write of FREEZE_REL that releases. -/
def State.freezeRelease (s : State) : State := if s.pil.frozen.isSome then s.unfreeze else s

/-- FREEZE_REL. -/
def execFreezeRel (v : Word) (s : State) : Outcome State Fault Refusal :=
  .next (s.reach paPage (fun t => if bitOf v.toNat 0 then t.freezeRelease else t))

/-- The bytes that an export copies, if its range lies wholly in the source. -/
def State.exportBytes (s : State) : Option (List Byte) :=
  let from_ := s.rd F.PA_EXP_FROM 0 0
  let n := s.rd F.PA_EXP_LEN 0 0
  let src := s.rd F.PA_EXP_CFG_SRC 0 0
  if src = 0 then s.pil.frozen.map (fun x => x.2.flatMap (toBytes 2))
  else if src = 1 then
    if s.pil.liveFrom ≤ from_ ∧ s.pil.done - 32000 ≤ from_ ∧ from_ + n ≤ s.pil.done then some ((s.liveRange from_ n).flatMap (toBytes 2)) else none
  else if src = 2 then
    let rs := (s.pil.feats.filter (fun x => decide (from_ ≤ x.1 ∧ x.1 < from_ + n))).reverse
    if rs.length = n then some (rs.flatMap (fun x => x.2)) else none
  else none

/-- An export's destination: the Larder or a vault, where a write is performed. -/
def State.exportTo (s : State) (a n : Nat) : Bool :=
  s.pwr.mainOn && s.pokeOk a n && (s.placeOf a).any (fun p => decide (larderBase ≤ p ∧ p < larderBase + 0x1000000) || (vaultOf p).isSome)

/-- An export ends without a copy. -/
def State.exportErr (s : State) : State := (((s.wr F.PA_EXP_STAT_BUSY 0 0 0).wr F.PA_EXP_STAT_DONE 0 0 1).wr F.PA_EXP_STAT_ERR 0 0 1).raise paPage 3

/-- EXPORT_START: a write of EXP_CMD. -/
def State.exportStart (s : State) (v : Nat) : State :=
  if bitOf v 0 && s.pil.exporting.isNone then
    match s.exportBytes with
    | some bs =>
      if s.exportTo (s.rd F.PA_EXP_DST 0 0) bs.length then
        let t := { s with pil := { s.pil with exporting := some { src := s.rd F.PA_EXP_CFG_SRC 0 0, dst := s.rd F.PA_EXP_DST 0 0, bytes := bs } } }
        ((t.wr F.PA_EXP_STAT_BUSY 0 0 1).wr F.PA_EXP_STAT_DONE 0 0 0).wr F.PA_EXP_STAT_ERR 0 0 0
      else s.exportErr
    | none => s.exportErr
  else s

/-- EXPORT_START. -/
def execExportStart (v : Word) (s : State) : Outcome State Fault Refusal := .next (s.reach paPage (fun t => t.exportStart v.toNat))

/-- EXPORT_DONE: the bytes are in place; an exported FROZEN buffer becomes SPARE, and an expiry that waited takes effect. -/
def State.exportDone (s : State) : State :=
  match s.pil.exporting with
  | some e =>
    let t := { s with pil := { s.pil with exporting := none } }
    if t.exportTo e.dst e.bytes.length then
      let u := ((((t.poke e.dst e.bytes).wr F.PA_EXP_STAT_BUSY 0 0 0).wr F.PA_EXP_STAT_DONE 0 0 1).wr F.PA_EXP_STAT_ERR 0 0 0).raise paPage 3
      if e.src ≠ 0 ∨ u.pil.frozen = none then u else if u.freezeOver then u.freezeDue else u.unfreeze
    else t.exportErr
  | none => s

/-- EXPORT_DONE. -/
def execExportDone (s : State) : Outcome State Fault Refusal := .next s.exportDone

/-! ### The OFF deferral (R516) -/

/-- An OFF request while IN_PROGRESS is 1 is deferred. -/
def State.offDefer (s : State) : State :=
  (({ s with pil := { s.pil with offReq := some s.now } } : State).inc F.PA_OFF_DEFER_CNT 0 0).raise paPage 5

/-- OFF_DEFER_END: IN_PROGRESS has cleared without a detection, or 1.5 s have passed; the entry proceeds. -/
def State.offDeferEnd (s : State) : State :=
  match s.pil.offReq with
  | some t0 => if !s.rdB F.PA_STAT_IN_PROGRESS 0 0 || decide (t0 + 1500000000 ≤ s.now) then { s with pil := { s.pil with offReq := none } } else s
  | none => s

/-- OFF_DEFER_END. -/
def execOffDeferEnd (s : State) : Outcome State Fault Refusal := .next s.offDeferEnd

/-- A write of PA_CTRL (R500): an LP_MASK of more than two bits, or with a bit outside CH_EN, is ignored and flagged. Switching the front end
on starts the next frame at a whole one. -/
def State.paCtrl (s : State) (v : Nat) : State :=
  let ch := bitsOf v 8 8
  let lp := bitsOf v 16 8
  let s1 := ((s.wr F.PA_CTRL_EN 0 0 (v % 2)).wr F.PA_CTRL_STREAM_EN 0 0 (bitsOf v 1 1)).wr F.PA_CTRL_CH_EN 0 0 ch
  let s2 := if popcount 8 lp ≤ 2 ∧ clrMask lp ch = 0 then s1.wr F.PA_CTRL_LP_MASK 0 0 lp else s1.wr F.PA_STAT_CFG_ERR 0 0 1
  let s3 : State := if bitOf v 0 && !s.rdB F.PA_CTRL_EN 0 0 then { s2 with pil := { s2.pil with frame := ceilDiv s.pil.done 160 } } else s2
  if bitOf v 1 && !s.rdB F.PA_CTRL_STREAM_EN 0 0 then { s3 with pil := { s3.pil with hop := s.hopNow, strFrame := s3.pil.frame, catchUp := false } } else s3

/-! ### Pilot timers (R521) -/

/-- A timer has fired. -/
def State.timerFired (s : State) (n : Nat) : State := (s.wr F.PL_TMR_CFG_EN 0 n 0).raise 0x080 3

/-- PILOT_TIMER_WAKE. -/
def State.timerWake (s : State) (n : Nat) : State :=
  if s.pwr.pilotOn && s.rdB F.PL_TMR_CFG_EN 0 n && !s.rdB F.PL_TMR_CFG_ACTION 0 n && decide (s.rd F.PL_TMR_GT 0 n ≤ s.gt) then
    (s.timerFired n).wakeLatch 2
  else s

/-- PILOT_TIMER_WAKE. -/
def execPilotTimerWake (n : Fin 16) (s : State) : Outcome State Fault Refusal := .next (s.timerWake n.val)

/-- PILOT_TIMER_LEVEL: 0x4000 phase units before its GT, the timer's LEVEL_SET is sent with K = C + ZC_OFS. -/
def State.timerLevel (s : State) (n : Nat) : State :=
  if s.pwr.pilotOn && s.rdB F.PL_TMR_CFG_EN 0 n && s.rdB F.PL_TMR_CFG_ACTION 0 n && decide (s.rd F.PL_TMR_GT 0 n ≤ s.gt + 0x4000) then
    let k := (s.rd F.PL_TMR_GT 0 n / 65536 + s.rd F.BR_ZC_OFS 0 0) % 2 ^ 32
    (s.timerFired n).brQueue 0x01 (toBytes 4 (s.rd F.PL_TMR_MSG 0 n) ++ toBytes 2 (s.rd F.PL_TMR_MSG 0 (16 + n)) ++ toBytes 4 k)
  else s

/-- PILOT_TIMER_LEVEL. -/
def execPilotTimerLevel (n : Fin 16) (s : State) : Outcome State Fault Refusal := .next (s.timerLevel n.val)

end Sys2Proof.Machine
end

