-- ==== Sys2Proof/Machine/Repair.lean ====
section
/-! DEFINITION. Repair: the ledger, the decisions of Table RPR-2, the live remap, column and bank remaps, the canary and the
aging refresh (spec/19, R613 to R640). -/

namespace Sys2Proof.Machine

open Host

/-! ### The ledger (R637 to R639) -/

/-- R639: the compacted state: the last entry of each kind, tile, unit and Kettle, numbered afresh. -/
def compact (l : List LedgerEnt) (seq : Nat) : List LedgerEnt :=
  let same (a b : LedgerEnt) : Bool := a.kind == b.kind && a.tile == b.tile && a.unit == b.unit && a.logical == b.logical
  let keep := l.filter (fun e => !l.any (fun f => same e f && decide (e.seq < f.seq)))
  (keep.zip (List.range keep.length)).map (fun x => { x.1 with seq := seq + 1 + x.2 })

/-- R637: an entry appended before firmware acts; a full half is compacted into the other first (R639). -/
def State.ledgerAdd (s : State) (kind tile unit logical cause : Nat) : State :=
  let l := if 16384 ≤ s.rep.ledger.length then compact s.rep.ledger (s.rd F.RP_LEDGER_SEQ 0 0) else s.rep.ledger
  let seq := ((l.getLast?.map (fun e => e.seq)).getD (s.rd F.RP_LEDGER_SEQ 0 0)) + 1
  let e : LedgerEnt := { seq, gt := s.gt, kind, tile, unit, logical, cause }
  let t := { s with rep := { s.rep with ledger := l ++ [e] } }
  (t.wr F.RP_LEDGER_SEQ 0 0 seq).wr F.RP_LEDGER_FREE 0 0 (16384 - (l.length + 1))

/-! ### Spares -/

/-- The lowest-numbered SPARE tile, that of a running remap's destination apart. -/
def State.spareTile (s : State) : Option Nat :=
  (List.range 18).find? (fun p => s.rd F.RP_TILE_STAT_STATE 0 p == 0
    && !(s.rdB F.RP_RM_STAT_BUSY 0 0 && s.rd F.RP_RM_STAT_DST 0 0 == p))

/-- The lowest free spare column (0 to 3) or bank (0 and 1) of a tile (R615). -/
def State.spareUnit (s : State) (p : Nat) (bank : Bool) : Option Nat :=
  (List.range (if bank then 2 else 4)).find? (fun j =>
    !(if bank then bitOf (s.rd F.RP_BANKMAP 0 p) (7 * j + 5) else bitOf (s.rd F.RP_COLMAP 0 p) (8 * j + 7))
      && !s.rep.badSpares.contains (p, bank, j))

/-- Free spare columns or banks of a tile, less those that waiting repairs will take. -/
def State.sparesFree (s : State) (p : Nat) (bank : Bool) : Nat :=
  ((List.range (if bank then 2 else 4)).filter (fun j =>
    !(if bank then bitOf (s.rd F.RP_BANKMAP 0 p) (7 * j + 5) else bitOf (s.rd F.RP_COLMAP 0 p) (8 * j + 7))
      && !s.rep.badSpares.contains (p, bank, j))).length
    - (s.rep.units.filter (fun u => u.tile == p && u.bank == bank)).length

/-! ### Draining a Kettle (R625, R627) -/

/-- R625, R627: one command on the Kettle that is not in commit is killed and rerun, or closes FAULT_REPAIR. -/
def State.repairKill (s : State) (id : Nat) : State :=
  match s.cmd id with
  | some c =>
    if c.phase ≠ .running then s
    else if 3 ≤ c.repairKills ∨ (s.partKettles (s.partOf c.ctx)).any s.inService = false then s.killClose id 0x51
    else
      let t := s.updCmd id (fun x => { x with repairKills := x.repairKills + 1 })
      (t.inc F.RP_REPAIR_RERUN_CNT 0 0).killCmd id
  | none => s

/-- The commands with a slot on a tile, of all members of a batch. -/
def State.onTile (s : State) (p : Nat) : List Nat :=
  let bs := ((s.tile p).slots.map (fun x => x.cmd)).eraseDups
  (s.sch.cmds.filter (fun c => bs.contains (c.batch.getD c.id))).map (fun c => c.id)

/-- The Kettle's commands are killed; the batch leader's kill reaches the slots of its batch. -/
def State.drainTile (s : State) (p : Nat) : State :=
  ((s.killCanary p).onTile p).foldl State.repairKill (s.killCanary p)

/-- R622a: a partition that lost a Kettle has its urgent budget lowered to its limit. -/
def State.budgetFit (s : State) (k : Nat) : State :=
  (List.range 16).foldl (fun t part =>
    if bitOf (t.rd F.SCH_PART_KMASK 0 part) k ∧ t.partCap part / 4 < t.rd F.SCH_PART_URG_BUDGET 0 part then
      ((((t.wr F.SCH_PART_URG_BUDGET 0 part (t.partCap part / 4)).wr F.SCH_PART_ERR_BUDGET 0 part 1).raise 0x005 4).raise 0x001 6)
    else t) s

/-! ### KETTLE repairs -/

/-- R635, R636: no SPARE tile: the Kettle becomes OUT and its tile is gated; a cause in the vault (a Cellar UE) retires the
logical vault with it. U-class commands that wait for a partition with no Kettle left close FAULT_REPAIR. -/
def State.kettleOut (s : State) (k cause : Nat) : State :=
  let p := s.rd F.RP_KMAP_PHYS 0 k
  let s1 := s.ledgerAdd 4 p 0 k cause
  let s2 := if s1.rdB F.RP_STAT_DEGRADED 0 0 then s1 else s1.raise 0x001 2
  let s3 := ((s2.wr F.RP_STAT_DEGRADED 0 0 1).wr F.RP_KMAP_STATE 0 k 3)
  let s4 := (s3.drainTile p).budgetFit k
  let s5 := if cause = 4 then s4.wr F.RP_KMAP_PHYS 0 k 0x1F else s4
  (s5.sch.cmds.filter (fun c => c.phase == .urgent && !(s5.partKettles (s5.partOf c.ctx)).any s5.inService)).foldl
    (fun t c => t.close c.id 0x51) s5

/-- R624, R626: a KETTLE repair is decided: it waits for its remap, or, with no SPARE tile, its Kettle becomes OUT. Firmware
decides. -/
def State.repairKettle (s : State) (k cause : Nat) : State :=
  if !s.fwReady || s.rd F.RP_KMAP_STATE 0 k == 3 || s.rep.waiting.any (fun w => w.1 == k)
      || (s.rdB F.RP_RM_STAT_BUSY 0 0 && s.rd F.RP_RM_STAT_LOGICAL 0 0 == k) then s
  else
    let t := s.raise 0x001 0
    if t.spareTile.isNone then t.kettleOut k cause
    else
      let u := t.ledgerAdd 2 (t.rd F.RP_KMAP_PHYS 0 k) 0 k cause
      { u with rep := { u.rep with waiting := u.rep.waiting ++ [(k, cause)] } }

/-- A column or bank repair is decided: its Kettle drains and the remap waits for the slots (R616). -/
def State.repairUnit (s : State) (p : Nat) (bank : Bool) (unit cause : Nat) : State :=
  if !s.fwReady || s.rep.units.any (fun u => u.tile == p && u.bank == bank && u.unit == unit) then s
  else if s.sparesFree p bank = 0 then
    match s.kettleOf p with
    | some k => s.repairKettle k cause
    | none => s
  else
    let k := (s.kettleOf p).getD 0x1F
    let t := (s.raise 0x001 0).ledgerAdd (if bank then 1 else 0) p unit k cause
    let u := { t with rep := { t.rep with units := t.rep.units ++ [({ tile := p, bank, unit, cause } : UnitRepair)] } }
    if k < 16 ∧ u.rd F.RP_KMAP_STATE 0 k = 0 then (u.wr F.RP_KMAP_STATE 0 k 1).drainTile p else u

/-- Table RPR-2, a Pantry CE: BANK when the bank's count since boot reaches BANK_CE_THR. -/
def State.pantryCe (s : State) (p bank : Nat) : State :=
  let key := p * 32 + bank
  let n := storeGet 0 s.rep.bankCe key + 1
  let t := { s with rep := { s.rep with bankCe := storeSet 0 s.rep.bankCe key n } }
  if n = t.rd F.RP_THR_BANK_CE_THR 0 0 then t.repairUnit p true bank 0 else t

/-- Table RPR-2, a Cellar UE of vault p: KETTLE when ECC_UE_CNT reaches VAULT_UE_THR. -/
def State.vaultUe (s : State) (p : Nat) : State :=
  if s.rd F.RP_THR_VAULT_UE_THR 0 0 ≤ s.rd F.VC_ECC_UE_CNT p 0 then
    match s.kettleOf p with
    | some k => s.repairKettle k 4
    | none => s
  else s

/-- RM_CMD (R626): a KETTLE repair of the Kettle named; ignored while a remap runs. -/
def State.rmCmd (s : State) (v : Nat) : State :=
  if s.rdB F.RP_RM_STAT_BUSY 0 0 || decide (16 ≤ v % 32) then s else s.repairKettle (v % 32) 15

/-- RM_CMD. -/
def execRmCmd (v : Word) (s : State) : Outcome State Fault Refusal := .next (s.reach 0x001 (fun t => t.rmCmd v.toNat))

/-! ### Live remap (R626 to R634) -/

/-- R626, R627: the oldest waiting KETTLE repair starts: its Kettle is DRAINING and its commands not in commit are killed. -/
def State.remapStart (s : State) : State :=
  if s.fwReady && !s.rdB F.RP_RM_STAT_BUSY 0 0 then
    match s.rep.waiting with
    | (k, cause) :: rest =>
      let t := { s with rep := { s.rep with waiting := rest, cause } }
      match t.spareTile with
      | some q =>
        let p := t.rd F.RP_KMAP_PHYS 0 k
        let u := ((((t.wr F.RP_RM_STAT_BUSY 0 0 1).wr F.RP_RM_STAT_LOGICAL 0 0 k).wr F.RP_RM_STAT_SRC 0 0 p).wr
          F.RP_RM_STAT_DST 0 0 q).wr F.RP_MIG_BLOCKS 0 0 0
        ((u.wr F.RP_KMAP_STATE 0 k 1).drainTile p).budgetFit k
      | none => t.kettleOut k cause
    | [] => s
  else s

/-- REMAP_START. -/
def execRemapStart (s : State) : Outcome State Fault Refusal := .next s.remapStart

/-- The running remap's Kettle, source and destination. -/
def State.rm (s : State) : Nat × Nat × Nat :=
  (s.rd F.RP_RM_STAT_LOGICAL 0 0, s.rd F.RP_RM_STAT_SRC 0 0, s.rd F.RP_RM_STAT_DST 0 0)

/-- Table RPR-3: every slot of the source is FREE: MIGRATING, its tile halted, writes mirrored. -/
def State.drainDone (s : State) : State :=
  let k := s.rm.1
  let p := s.rm.2.1
  if s.rdB F.RP_RM_STAT_BUSY 0 0 && s.rd F.RP_KMAP_STATE 0 k == 1 && (s.tile p).slots.isEmpty then
    (((s.wr F.RP_KMAP_STATE 0 k 2).wr F.KT_CTRL_HALT p 0 1).wr F.VC_STAT_MIRROR p 0 1).wr F.VC_STAT_MIRROR s.rm.2.2 0 1
  else s

/-- DRAIN_COMPLETE. -/
def execDrainComplete (s : State) : Outcome State Fault Refusal := .next s.drainDone

/-- A vault's words with their poison moved to another (R628): reads go to the new one from the switch on. -/
def State.moveVault (s : State) (p q : Nat) : State :=
  let lo := vaultPlace p 0
  let hi := vaultPlace (p + 1) 0
  let put (a : Nat) : Nat := a - lo + vaultPlace q 0
  let t := s.forget (vaultPlace q 0) (vaultPlace (q + 1) 0)
  let bytes := t.mem.filter (fun c => decide (lo ≤ c.1 ∧ c.1 < hi))
  let bad := t.poison.filter (fun c => decide (lo / 8 ≤ c.1 ∧ c.1 < hi / 8))
  let u := bytes.foldl (fun t c => t.setByte (put c.1) c.2) t
  (bad.foldl (fun t c => t.setPoison (put (c.1 * 8)) true) u).forget lo hi

/-- R529: a Pantry is written with zero and every granule tagged FREE. -/
def State.clearPantry (s : State) (p : Nat) : State :=
  let t := s.forget (pantryPlace p 0) (pantryPlace p pantrySize)
  t.setTile { t.tile p with tags := [], waiting := [] }

/-- R630: the switch: one transaction moves KMAP to the destination and retires the source. -/
def State.remapSwitch (s : State) : State :=
  let k := s.rm.1
  let p := s.rm.2.1
  let q := s.rm.2.2
  let s1 := (s.moveVault p q).ledgerAdd 3 q 0 k s.rep.cause
  let s2 := (((s1.wr F.RP_KMAP_PHYS 0 k q).wr F.RP_KMAP_STATE 0 k 0).wr F.RP_TILE_STAT_STATE 0 p 2).wr F.RP_TILE_STAT_STATE 0 q 1
  let s3 := (((s2.wr F.VC_STAT_MIRROR p 0 0).wr F.VC_STAT_MIRROR q 0 0).wr F.VC_STAT_STATE p 0 0).wr F.VC_STAT_STATE q 0 2
  let s4 := ((((s3.wr F.KT_ID_LOGICAL p 0 0x1F).wr F.KT_ID_LOGICAL q 0 k).wr F.VC_STAT_LOGICAL p 0 0x1F).wr F.VC_STAT_LOGICAL q 0 k)
  let s5 := ((s4.clearPantry q).wr F.KT_CTRL_EN q 0 1).wr F.KT_CTRL_EN p 0 0
  (((s5.wr F.RP_MIG_BLOCKS 0 0 524288).wr F.RP_RM_STAT_BUSY 0 0 0).inc F.RP_REMAP_CNT 0 0).raise 0x001 1

/-- R632: a fault on the destination: it is RETIRED, and the copy restarts to the next SPARE tile, or the Kettle is OUT on
its tile with its vault in service. -/
def State.remapAbort (s : State) : State :=
  let k := s.rm.1
  let p := s.rm.2.1
  let q := s.rm.2.2
  let s1 := ((s.wr F.RP_TILE_STAT_STATE 0 q 2).wr F.VC_STAT_MIRROR q 0 0).ledgerAdd 5 q 0 k s.rep.cause
  match s1.spareTile with
  | some r => ((s1.wr F.RP_RM_STAT_DST 0 0 r).wr F.RP_MIG_BLOCKS 0 0 0).wr F.VC_STAT_MIRROR r 0 1
  | none => ((s1.wr F.VC_STAT_MIRROR p 0 0).wr F.RP_RM_STAT_BUSY 0 0 0).kettleOut k 15

/-- The last block is copied, or a fault on the destination ends the copy. -/
def State.migrationDone (s : State) (fault : Bool) : State :=
  if s.rdB F.RP_RM_STAT_BUSY 0 0 && s.rd F.RP_KMAP_STATE 0 s.rm.1 == 2 then
    if fault then s.remapAbort else s.remapSwitch
  else s

/-- MIGRATION_COMPLETE. -/
def execMigrationComplete (fault : Bool) (s : State) : Outcome State Fault Refusal := .next (s.migrationDone fault)

/-! ### Column and bank remaps (R615, R616) -/

/-- R529 and R616: the Pantry is written with zero but for the SHARED granules, whose contents are restored from their Cellar
copies. -/
def State.rewritePantry (s : State) (p : Nat) : State :=
  ((List.range 256).filter (fun g => (s.tile p).tag g != 0x3E)).foldl
    (fun t g => t.forget (pantryPlace p (g * 16384)) (pantryPlace p (g * 16384 + 16384))) s

/-- A spare column or bank of a tile takes the place of a unit; the spare that stood for it before has failed. -/
def State.sparePut (s : State) (p : Nat) (bank : Bool) (unit : Nat) : State :=
  match s.spareUnit p bank with
  | some j =>
    let f := if bank then F.RP_BANKMAP else F.RP_COLMAP
    let w := if bank then 7 else 8
    let iw := if bank then 5 else 7
    let v := s.rd f 0 p
    let old := (List.range (if bank then 2 else 4)).find? (fun i => bitOf v (w * i + iw) && bitsOf v (w * i) iw == unit)
    let v1 := match old with
      | some i => putBits v (w * i) w 0
      | none => v
    let t : State := { s with rep := { s.rep with badSpares := (old.toList.map (fun i => (p, bank, i))) ++ s.rep.badSpares } }
    t.wr f 0 p (putBits v1 (w * j) w (unit + 2 ^ iw))
  | none => s

/-- A waiting column or bank remap of a tile is made once its 32 slots are FREE; with none left its Kettle is in service. -/
def State.unitRemap (s : State) (p : Nat) (bank : Bool) : State :=
  match s.rep.units.find? (fun u => u.tile == p && u.bank == bank), s.spareUnit p bank with
  | some u, some _ =>
    if (s.tile p).slots.isEmpty then
      let left := s.rep.units.filter (fun x => x != u)
      let t : State := { s with rep := { s.rep with units := left } }
      let t1 := (((t.sparePut p bank u.unit)).rewritePantry p).inc (if bank then F.RP_BANK_REMAP_CNT else F.RP_COL_REMAP_CNT) 0 0
      match t1.kettleOf p with
      | some k =>
        if left.any (fun x => x.tile == p) || t1.rd F.RP_KMAP_STATE 0 k != 1
            || (t1.rdB F.RP_RM_STAT_BUSY 0 0 && t1.rm.1 == k) then t1
        else t1.wr F.RP_KMAP_STATE 0 k 0
      | none => t1
    else s
  | _, _ => s

/-- COLUMN_REMAP and BANK_REMAP. -/
def execColumnRemap (tile : Fin 18) (s : State) : Outcome State Fault Refusal := .next (s.unitRemap tile.val false)
def execBankRemap (tile : Fin 18) (s : State) : Outcome State Fault Refusal := .next (s.unitRemap tile.val true)

/-! ### The canary (R619 to R622) -/

/-- The Kettle whose canary may start now: one ordered at once, else the one whose turn it is once its period has passed. -/
def State.canaryNext (s : State) : Option Nat :=
  match s.rep.atOnce.find? s.inService with
  | some k => some k
  | none =>
    let due (k : Nat) : Bool :=
      decide ((s.rep.lastRun.find? (fun x => x.1 == k)).all (fun x => x.2 + s.rd F.RP_CANARY_CFG_PERIOD_CYC 0 0 ≤ s.gt / 65536))
    ((List.range 16).map (fun i => (s.rep.turn + i) % 16)).find? s.inService |>.filter due

/-- R619: a canary starts when every slot of its Kettle is FREE and eight granules are FREE. -/
def State.canaryStart (s : State) : State :=
  match s.canaryNext with
  | some k =>
    match s.tileOf k with
    | some p =>
      let t := s.tile p
      if s.fwReady && s.rep.canary.isNone && t.slots.isEmpty && decide (8 ≤ t.granuleFree) then
        let u := s.setTile { t.tagAll (t.freeGranules 8) canarySlot with canary := true }
        { u with rep := { u.rep with canary := some k, turn := k,
                                     lastRun := (k, s.gt / 65536) :: u.rep.lastRun.filter (fun x => x.1 != k) } }
      else s
    | none => s
  | none => s

/-- CANARY_START. -/
def execCanaryStart (s : State) : Outcome State Fault Refusal := .next s.canaryStart

/-- R621: a failed test of a tile is COLUMN, BANK or KETTLE. -/
def State.classify (s : State) (p : Nat) (cols banks : List Nat) (other : Bool) : State :=
  if other = false ∧ banks = [] ∧ cols.length ≤ s.sparesFree p false then cols.foldl (fun t c => t.repairUnit p false c 8) s
  else if other = false ∧ cols = [] ∧ banks.length ≤ s.sparesFree p true then banks.foldl (fun t b => t.repairUnit p true b 8) s
  else
    match s.kettleOf p with
    | some k => s.repairKettle k 8
    | none => s

/-- R621, R622: the canary ends: a pass is stamped; a failure is counted and classified. -/
def State.canaryDone (s : State) (cols banks : List Nat) (other : Bool) : State :=
  match s.rep.canary with
  | some k =>
    match s.tileOf k with
    | some p =>
      let s1 := s.setTile (s.tile p).endCanary
      let s2 := { s1 with rep := { s1.rep with canary := none, killed := 0, turn := (k + 1) % 16,
                                               atOnce := s1.rep.atOnce.filter (fun x => x != k) } }
      if cols = [] ∧ banks = [] ∧ other = false then s2.wr F.RP_CANARY_PASS_GT 0 p s2.gt
      else ((s2.inc F.RP_CANARY_FAIL_CNT 0 0).raise 0x001 3).classify p cols banks other
    | none => s
  | none => s

/-- CANARY_COMPLETE. -/
def execCanaryComplete (cols : List (Fin 128)) (banks : List (Fin 32)) (other : Bool) (s : State) : Outcome State Fault Refusal :=
  .next (s.canaryDone ((cols.map (fun c => c.val)).eraseDups) ((banks.map (fun b => b.val)).eraseDups) other)

/-- Table RPR-2, an accumulator parity error: the canary runs at once on that Kettle. -/
def State.canaryAtOnce (s : State) (p : Nat) : State :=
  match s.kettleOf p with
  | some k => if s.rep.atOnce.contains k then s else { s with rep := { s.rep with atOnce := s.rep.atOnce ++ [k] } }
  | none => s

/-! ### Aging (R623) -/

/-- R623: the margin refreshed every 10 ms, judged against WARN and FAIL. -/
def State.ageRefresh (s : State) (p margin : Nat) : State :=
  if s.tileGated p then s
  else
    let old := s.rd F.RP_TILE_STAT_AGE_MARGIN 0 p
    let warn := s.rd F.RP_AGE_CFG_WARN 0 0
    let fail := s.rd F.RP_AGE_CFG_FAIL 0 0
    let s1 := s.wr F.RP_TILE_STAT_AGE_MARGIN 0 p margin
    let s2 := if margin < warn ∧ warn ≤ old then s1.raise 0x001 4 else s1
    let n := if margin < fail then storeGet 0 s2.rep.ageLow p + 1 else 0
    let s3 := { s2 with rep := { s2.rep with ageLow := storeSet 0 s2.rep.ageLow p (min n 3) } }
    if n = 3 then
      match s3.kettleOf p with
      | some k => (s3.raise 0x001 5).repairKettle k 9
      | none => s3.raise 0x001 5
    else s3

/-- AGE_REFRESH. -/
def execAgeRefresh (tile : Fin 18) (margin : BitVec 8) (s : State) : Outcome State Fault Refusal :=
  .next (s.ageRefresh tile.val margin.toNat)

end Sys2Proof.Machine
end

