-- ==== Sys2Proof/Machine/Host.lean ====
section
/-! DEFINITION. The host side (spec/17): interrupts, the IOMMU, the PCIe link, the Ethernet ports, PTP and PPS, the two UARTs and the
GPIO lines. -/

namespace Sys2Proof.Machine

open Host

/-! ### Interrupts (R565 to R567) -/

/-- A page's event line. -/
def State.line (s : State) (page : Nat) : Bool :=
  s.pageOn page && (s.rd F.REG_EVT_RAW page 0 &&& s.rd F.REG_EVT_EN page 0) != 0

/-- The pages whose line is routed to a vector: contexts by CTX_CFG.MSIX, other pages by their ROUTE entry. -/
def State.routed (s : State) (page : Nat) : Option Nat :=
  if 0x100 ≤ page then some (s.rd F.CTX_CFG_MSIX (page - 0x100) 0)
  else if s.rdB F.IA_ROUTE_EN 0 page then some (s.rd F.IA_ROUTE_VEC 0 page) else none

/-- R565: vector v is PENDING. -/
def State.vecPending (s : State) (v : Nat) : Bool :=
  s.rdB F.IA_CTRL_EN 0 0 && (List.range 512).any (fun p => mappedPage p && s.line p && s.routed p == some v)

/-- Vectors that are not PENDING any more may send again when PENDING rises. -/
def State.msixScan (s : State) : State := { s with host := { s.host with sent := s.host.sent.filter s.vecPending } }

/-- The entry of a vector is masked, or messages are not sent since the link is down. -/
def State.msixMasked (s : State) (v : Nat) : Bool := bitOf (s.rd F.PCIE_MSIX_CTRL 0 v) 0 || !s.rdB F.PCIE_LINK_STAT_DL_UP 0 0

/-- The vector's message has fallen due: it goes out, waits for its coalescing time, or sets its PBA bit. -/
def State.msixDue (s : State) (v : Nat) : State :=
  let seen : State := { s with host := { s.host with sent := v :: s.host.sent.erase v } }
  if s.msixMasked v then
    let t := seen.wr F.PCIE_PBA 0 0 (setBit (s.rd F.PCIE_PBA 0 0) v)
    if s.rdB F.PCIE_LINK_STAT_DL_UP 0 0 then t else t.raise 0x007 0
  else if s.host.lastMsg.any (fun x => x.1 == v && decide (s.now < x.2 + s.rd F.IA_VEC_CFG_COAL_US 0 v * 1000)) then s
  else
    let t := seen.emit (.msix v (s.rd F.PCIE_MSIX_ADDR_LO 0 v + s.rd F.PCIE_MSIX_ADDR_HI 0 v * 2 ^ 32) (s.rd F.PCIE_MSIX_DATA 0 v))
    let u := (t.inc F.IA_VEC_MSG_CNT 0 v).wr F.PCIE_PBA 0 0 (clrBit (s.rd F.PCIE_PBA 0 0) v)
    { u with host := { u.host with lastMsg := (v, s.now) :: u.host.lastMsg.filter (fun x => x.1 != v) } }

/-- A vector with DEST MSI-X that is PENDING. -/
def State.msixLive (s : State) (v : Nat) : Bool := s.rd F.IA_VEC_CFG_DEST 0 v == 2 && s.vecPending v

/-- MSIX_SEND: a message that is due and has not gone out. -/
def State.msixSend (s0 : State) (v : Nat) : State :=
  let s := s0.msixScan
  if s.msixLive v && !s.host.sent.contains v then s.msixDue v else s

/-- MSIX_SEND. -/
def execMsixSend (v : Fin 64) (s : State) : Outcome State Fault Refusal := .next (s.msixSend v.val)

/-- The entry's mask bit is cleared: a message deferred to its PBA bit goes out if PENDING is still 1. -/
def State.msixUnmask (s : State) (v : Nat) : State :=
  let t := s.wr F.PCIE_MSIX_CTRL 0 v (clrBit (s.rd F.PCIE_MSIX_CTRL 0 v) 0)
  if bitOf (t.rd F.PCIE_PBA 0 0) v && !t.msixMasked v then
    let u := t.wr F.PCIE_PBA 0 0 (clrBit (t.rd F.PCIE_PBA 0 0) v)
    if u.msixLive v then u.msixDue v else u
  else t

/-- MSIX_UNMASK. -/
def execMsixUnmask (v : Fin 64) (s : State) : Outcome State Fault Refusal := .next (s.reach 0x0B0 (fun t => t.msixUnmask v.val))

/-- VEC_EOI: the message falls due again if PENDING is still 1. -/
def State.vecEoi (s : State) (v : Nat) : State :=
  if s.msixLive v then ({ s with host := { s.host with sent := s.host.sent.erase v } } : State).msixDue v else s.msixScan

/-- VEC_EOI. -/
def execVecEoi (v : Fin 64) (w : Word) (s : State) : Outcome State Fault Refusal :=
  .next (s.reach 0x007 (fun t => if bitOf w.toNat 0 then t.vecEoi v.val else t))

/-! ### The IOMMU (R557) -/

/-- Where an access of a source (0 PCIe, 1 ETH0, 2 ETH1) goes: the lowest-numbered enabled window that holds every byte and permits it. -/
def State.iommu (s : State) (src iova n : Nat) (write : Bool) : Option Nat :=
  ((List.range 8).find? (fun w =>
    let base := s.rd F.IOM_WIN_IOVA src w / 4096 * 4096
    s.rdB F.IOM_WIN_CFG_EN src w && s.rdB (if write then F.IOM_WIN_CFG_W else F.IOM_WIN_CFG_R) src w
      && decide (base ≤ iova ∧ iova + n ≤ base + s.rd F.IOM_WIN_LEN src w * 4096))).map
    (fun w => s.rd F.IOM_WIN_PA src w / 4096 * 4096 + (iova - s.rd F.IOM_WIN_IOVA src w / 4096 * 4096))

/-- A refused access is counted and its IOVA recorded. -/
def State.iommuFault (s : State) (src iova : Nat) : State :=
  if src = 0 then
    (((s.inc F.PCIE_IOMMU_FAULT_CNT 0 0).wr F.PCIE_IOMMU_FAULT 0 0 iova).wr F.PCIE_IOMMU_FAULT_VALID 0 0 1).raise 0x0B0 4
  else
    (((s.inc F.ETH_IOMMU_FAULT_CNT (src - 1) 0).wr F.ETH_IOMMU_FAULT (src - 1) 0 iova).wr F.ETH_IOMMU_FAULT_VALID (src - 1) 0 1).raise (0x0B0 + src) 3

/-- An initiator outside the commands reads n bytes: from memory, where a PROV page (R289), an address that does not exist (R147) and a
poisoned word (R118) give an error response; from another member, with free values (log 21); from a register, with a width no register takes
(R19), zeros. -/
def State.extRead (s : State) (a n : Nat) : State × Option (List Byte) :=
  match s.locate a with
  | .remote m => (s.skRead m none a n, some (s.remoteBytes n))
  | .reg pg o => (s.badAccess pg o, some (List.replicate n 0#8))
  | _ =>
    if s.guarded a n none then (s.guardRefuse, none)
    else (s.noteRead a n, (s.peek a n).bind (fun x => if x.2 then none else some x.1))

/-- An initiator outside the commands writes bytes: whether the write was performed. -/
def State.extWrite (s : State) (a : Nat) (bs : List Byte) : State × Bool :=
  match s.locate a with
  | .remote m => (s.skWrite m none a bs, true)
  | .reg pg o => (s.badAccess pg o, true)
  | _ => if s.guarded a bs.length none then (s.guardRefuse, false) else (s.poke a bs, s.pokeOk a bs.length)

/-- A DMA read of an Ethernet port. -/
def State.dmaRead (s : State) (port iova n : Nat) : State × Option (List Byte) :=
  match s.iommu (port + 1) iova n false with
  | some a => s.extRead a n
  | none => (s.iommuFault (port + 1) iova, none)

/-- A DMA write of an Ethernet port: performed, or refused. -/
def State.dmaWrite (s : State) (port iova : Nat) (bs : List Byte) : State × Bool :=
  match s.iommu (port + 1) iova bs.length true with
  | some a => s.extWrite a bs
  | none => (s.iommuFault (port + 1) iova, false)

/-! ### The PCIe link (R563) -/

/-- A reset of the endpoint: link, configuration space, MSI-X table and pending bits, and nothing else. -/
def State.pcieReset (s : State) : State :=
  let s0 := if s.rdB F.PCIE_LINK_STAT_DL_UP 0 0 then (s.inc F.PCIE_LINK_DOWN_CNT 0 0).raise 0x0B0 1 else s
  let s1 := ((s0.wr F.PCIE_LINK_STAT_DL_UP 0 0 0).wr F.PCIE_LINK_STAT_SPEED 0 0 0).wr F.PCIE_LINK_STAT_WIDTH 0 0 0
  (List.range 64).foldl (fun t v =>
    ((((t.wr F.PCIE_MSIX_ADDR_LO 0 v 0).wr F.PCIE_MSIX_ADDR_HI 0 v 0).wr F.PCIE_MSIX_DATA 0 v 0).wr F.PCIE_MSIX_CTRL 0 v 1)) (s1.wr F.PCIE_PBA 0 0 0)

/-- The endpoint's pads are live. -/
def State.pcieOn (s : State) : Bool := s.pageOn 0x0B0 && !s.inReset 0x0B0 && !bitOf (s.rd F.PWR_PAD_HELD 0 0) 18

/-- PERST. -/
def execPerst (s : State) : Outcome State Fault Refusal :=
  .next (if s.pcieOn then ((s.pcieReset).inc F.PCIE_PERST_CNT 0 0).raise 0x0B0 2 else s)

/-- The link trains within the limits of LINK_CFG. -/
def State.pcieLinkUp (s : State) (speed width : Nat) : State :=
  if s.pcieOn && !s.rdB F.PCIE_LINK_STAT_DL_UP 0 0 && decide (1 ≤ speed ∧ speed ≤ min 4 (s.rd F.PCIE_LINK_CFG_MAX_SPEED 0 0))
      && [1, 2, 4].contains width && decide (width ≤ s.rd F.PCIE_LINK_CFG_MAX_WIDTH 0 0) then
    (((s.wr F.PCIE_LINK_STAT_DL_UP 0 0 1).wr F.PCIE_LINK_STAT_SPEED 0 0 speed).wr F.PCIE_LINK_STAT_WIDTH 0 0 width).raise 0x0B0 0
  else s

/-- PCIE_LINK_UP. -/
def execPcieLinkUp (speed width : BitVec 3) (s : State) : Outcome State Fault Refusal := .next (s.pcieLinkUp speed.toNat width.toNat)

/-- PCIE_LINK_DOWN. -/
def execPcieLinkDown (s : State) : Outcome State Fault Refusal := .next (if s.rdB F.PCIE_LINK_STAT_DL_UP 0 0 then s.pcieReset else s)

/-! ### Ethernet (R568 to R571) -/

/-- A port runs: powered, out of reset, its pads live. -/
def State.ethOn (s : State) (port : Nat) : Bool :=
  s.pageOn (0x0B1 + port) && !s.inReset (0x0B1 + port) && !bitOf (s.rd F.PWR_PAD_HELD 0 0) (19 + port)

/-- Bytes as a big-endian number. -/
def beAt (bs : List Byte) (ofs n : Nat) : Nat := ((bs.drop ofs).take n).foldl (fun a b => a * 256 + b.toNat) 0

/-- Length of the Ethernet header, with a VLAN tag, and the frame's EtherType. -/
def ethHead (bs : List Byte) : Nat := if beAt bs 12 2 = 0x8100 then 18 else 14
def ethType (bs : List Byte) : Nat := beAt bs (ethHead bs - 2) 2

/-- A PTP frame (log 60): EtherType 0x88F7, or UDP over IPv4 or IPv6 to port 319 or 320. -/
def isPtp (bs : List Byte) : Bool :=
  let h := ethHead bs
  let udp (p : Nat) : Bool := beAt bs (p + 2) 2 == 319 || beAt bs (p + 2) 2 == 320
  ethType bs == 0x88F7
    || (ethType bs == 0x0800 && beAt bs (h + 9) 1 == 17 && udp (h + beAt bs h 1 % 16 * 4))
    || (ethType bs == 0x86DD && beAt bs (h + 6) 1 == 17 && udp (h + 40))

/-- The port takes the destination: its own address, a group address, or any (log 60). -/
def State.ethAccepts (s : State) (port : Nat) (bs : List Byte) : Bool :=
  s.rdB F.ETH_MAC_CFG_PROMISC port 0 || leAt bs 0 6 == s.rd F.ETH_MAC_ADDR port 0 || bitOf (leAt bs 0 1) 0

/-- A discarded frame. -/
def State.ethDrop (s : State) (f : Fld) (port : Nat) : State := (s.inc f port 0).raise (0x0B1 + port) 2

/-- Entries of a ring, from its LOG2 (4 to 12). -/
def ringLen (l : Nat) : Nat := 2 ^ min 12 (max 4 l)

/-- A received frame (without its FCS) goes into the descriptor at RX_HEAD. -/
def State.ethReceive (s : State) (port : Nat) (bs : List Byte) : State :=
  let h := s.rd F.ETH_RX_HEAD port 0
  if h = s.rd F.ETH_RX_TAIL port 0 then s.ethDrop F.ETH_RX_NODESC_CNT port
  else
    let da := s.rd F.ETH_RX_BASE port 0 + h % ringLen (s.rd F.ETH_RING_LOG2_RX port 0) * 32
    match s.dmaRead port da 16 with
    | (s1, none) => s1
    | (s1, some d) =>
      let cap := leAt d 8 2
      let body := bs.take cap
      let w := if body.isEmpty then (s1, true) else s1.dmaWrite port (leAt d 0 6) body
      let status := if w.2 then (if cap < bs.length then 1 else 0) else 2
      let back := toBytes 2 bs.length ++ [BitVec.ofNat 8 (b2n (isPtp bs))]
      let w2 := w.1.dmaWrite port (da + 8) back
      let w3 := w2.1.dmaWrite port (da + 16) (toBytes 8 s.si ++ [BitVec.ofNat 8 status])
      if w2.2 && w3.2 then ((w3.1.addW F.ETH_RX_HEAD port 0 1).addW F.ETH_RX_FRAMES port 0 1).raise (0x0B1 + port) 0 else w3.1

/-- ETH_RX_FRAME: FCS, length, PAUSE and the destination first. -/
def State.ethRx (s : State) (port : Nat) (bs : List Byte) (fcsOk : Bool) : State :=
  if s.ethOn port && s.rdB F.ETH_MAC_CFG_EN port 0 && s.rdB F.ETH_PHY_STAT_LINK port 0 then
    if !fcsOk then s.ethDrop F.ETH_RX_CRC_CNT port
    else if bs.length + 4 < 64 ∨ s.rd F.ETH_MTU port 0 < bs.length + 4 then s.ethDrop F.ETH_RX_LEN_CNT port
    else if ethType bs = 0x8808 then s.inc F.ETH_PAUSE_RX_CNT port 0
    else if s.ethAccepts port bs then s.ethReceive port bs
    else s
  else s

/-- ETH_RX_FRAME. -/
def execEthRxFrame (port : Fin 2) (bytes : List Byte) (fcsOk : Bool) (s : State) : Outcome State Fault Refusal :=
  .next (s.ethRx port.val bytes fcsOk)

/-- A tail write, accepted as R199 gives for the ring's size. -/
def State.ethTail (s : State) (port : Nat) (tail head log : Fld) (v : Nat) : State :=
  let n := ringLen (s.rd log port 0)
  if (v % 65536 + 65536 - s.rd tail port 0) % 65536 ≤ n ∧ (v % 65536 + 65536 - s.rd head port 0) % 65536 ≤ n then s.wr tail port 0 v else s

/-- ETH_TX_TAIL. -/
def execEthTxTail (port : Fin 2) (v : Word) (s : State) : Outcome State Fault Refusal :=
  .next (s.reach (0x0B1 + port.val) (fun t => t.ethTail port.val F.ETH_TX_TAIL F.ETH_TX_HEAD F.ETH_RING_LOG2_TX v.toNat))

/-- ETH_RX_TAIL. -/
def execEthRxTail (port : Fin 2) (v : Word) (s : State) : Outcome State Fault Refusal :=
  .next (s.reach (0x0B1 + port.val) (fun t => t.ethTail port.val F.ETH_RX_TAIL F.ETH_RX_HEAD F.ETH_RING_LOG2_RX v.toNat))

/-- Bytes put over others from an offset, inside their length. -/
def putOver (bs : List Byte) (ofs : Nat) (new : List Byte) : List Byte :=
  (bs.zip (List.range bs.length)).map (fun x => if ofs ≤ x.2 ∧ x.2 < ofs + new.length then new.getD (x.2 - ofs) 0 else x.1)

/-- R571: the egress time as originTimestamp: seconds in 6 bytes and nanoseconds in 4, big-endian; UDP4 clears the UDP checksum. -/
def oneStep (bs : List Byte) (ofs si : Nat) (udp4 : Bool) : List Byte :=
  let ts := (toBytes 6 (si / 1000000000)).reverse ++ (toBytes 4 (si % 1000000000)).reverse
  let t := putOver bs ofs ts
  if udp4 then putOver t (ethHead bs + beAt bs (ethHead bs) 1 % 16 * 4 + 6) [0#8, 0#8] else t

/-- ETH_TX_FRAME: the descriptor at TX_HEAD. -/
def State.ethTx (s : State) (port : Nat) : State :=
  let h := s.rd F.ETH_TX_HEAD port 0
  if s.ethOn port && s.rdB F.ETH_MAC_CFG_EN port 0 && s.rdB F.ETH_PHY_STAT_LINK port 0 && h != s.rd F.ETH_TX_TAIL port 0 then
    let da := s.rd F.ETH_TX_BASE port 0 + h % ringLen (s.rd F.ETH_RING_LOG2_TX port 0) * 32
    match s.dmaRead port da 16 with
    | (s1, none) => s1
    | (s1, some d) =>
      let n := leAt d 8 2
      let fl := leAt d 10 1
      let long := decide (n + 4 < 64 ∨ s.rd F.ETH_MTU port 0 < n + 4)
      let r := if long then (s1, none) else s1.dmaRead port (leAt d 0 6) n
      let s2 : State := match r.2 with
        | some bs =>
          let f := if bitOf fl 1 then oneStep bs (leAt d 12 2) s.si (bitOf fl 2) else bs
          (r.1.emit (.ethTx port f s.si)).addW F.ETH_TX_FRAMES port 0 1
        | none => r.1
      let status := if long then 2 else if r.2.isSome then 0 else 1
      let w1 := if bitOf fl 0 && status == 0 then s2.dmaWrite port (da + 16) (toBytes 8 s.si) else (s2, true)
      let w2 := w1.1.dmaWrite port (da + 24) [BitVec.ofNat 8 status]
      if w1.2 && w2.2 then
        let t := w2.1.addW F.ETH_TX_HEAD port 0 1
        if status = 0 then t.raise (0x0B1 + port) 1 else t
      else w2.1
  else s

/-- ETH_TX_FRAME. -/
def execEthTxFrame (port : Fin 2) (s : State) : Outcome State Fault Refusal := .next (s.ethTx port.val)

/-- ETH_LINK_CHANGE: auto-negotiation has ended at a speed (1 100 Mb/s, 2 1000 Mb/s), or the link is down (0). -/
def State.ethLink (s : State) (port speed : Nat) : State :=
  let want := s.rd F.ETH_MAC_CFG_SPEED port 0
  if s.ethOn port && s.rd F.ETH_PHY_STAT_SPEED port 0 != speed && (speed == 0 || want == 0 || want == speed) then
    ((s.wrB F.ETH_PHY_STAT_LINK port 0 (speed != 0)).wr F.ETH_PHY_STAT_SPEED port 0 speed).raise (0x0B1 + port) 4
  else s

/-- ETH_LINK_CHANGE. -/
def execEthLinkChange (port : Fin 2) (speed : Fin 3) (s : State) : Outcome State Fault Refusal := .next (s.ethLink port.val speed.val)

/-! ### PTP and PPS (R572, R574) -/

/-- SI candidate PTP0 or PTP1 has a live event, or none. -/
def State.ptpLive (s : State) (port : Nat) (b : Bool) : State :=
  let t := if port = 0 then { s with orr := { s.orr with ptp0Live := b } } else { s with orr := { s.orr with ptp1Live := b } }
  t.refCheckAll

/-- PTP_MEAS: the write of PTP_MEAS_HI delivers a reference event. -/
def State.ptpMeas (s : State) (port v : Nat) : State :=
  let t := s.wr F.ETH_PTP_MEAS port 0 (s.rd F.ETH_PTP_MEAS port 0 % 2 ^ 32 + v % 2 ^ 32 * 2 ^ 32)
  ({ t with host := { t.host with ptpAt := (port, s.now) :: t.host.ptpAt.filter (fun x => x.1 != port) } } : State).ptpLive port true

/-- PTP_MEAS. -/
def execPtpMeas (port : Fin 2) (v : Word) (s : State) : Outcome State Fault Refusal :=
  .next (s.reach (0x0B1 + port.val) (fun t => t.ptpMeas port.val v.toNat))

/-- PTP_TIMEOUT: the last event is PTP_TIMEOUT seconds old; 0 reads as 1. -/
def State.ptpTimeout (s : State) (port : Nat) : State :=
  if s.host.ptpAt.any (fun x => x.1 == port && decide (x.2 + max 1 (s.rd F.ETH_PTP_QUAL_TIMEOUT port 0) * 1000000000 ≤ s.now)) then
    ({ s with host := { s.host with ptpAt := s.host.ptpAt.filter (fun x => x.1 != port) } } : State).ptpLive port false
  else s

/-- PTP_TIMEOUT. -/
def execPtpTimeout (port : Fin 2) (s : State) : Outcome State Fault Refusal := .next (s.ptpTimeout port.val)

/-- The pads of group 22 and page 0x0B1 are live. -/
def State.gnssOn (s : State) : Bool := s.pageOn 0x0B1 && !s.inReset 0x0B1 && !bitOf (s.rd F.PWR_PAD_HELD 0 0) 22

/-- PPS_EDGE: an active edge is qualified, or a glitch. -/
def State.ppsEdge (s : State) (rising : Bool) : State :=
  if s.gnssOn && s.rdB F.ETH_PPS_CFG_EN 0 0 && rising != s.rdB F.ETH_PPS_CFG_POL 0 0 then
    let ok := match s.host.ppsAt with
      | some t => decide (t + 1500000000 ≤ s.now) || decide (t + 999000000 ≤ s.now ∧ s.now ≤ t + 1001000000)
      | none => true
    if ok then
      let t := (((s.wr F.ETH_PPS_SI 0 0 s.si).wr F.ETH_PPS_GT 0 0 s.gt).inc F.ETH_PPS_CNT 0 0).raise 0x0B1 5
      ({ t with host := { t.host with ppsAt := some s.now }, orr := { t.orr with ppsLive := true } } : State).refCheckAll
    else (s.inc F.ETH_PPS_GLITCH_CNT 0 0).raise 0x0B1 6
  else s

/-- PPS_EDGE. -/
def execPpsEdge (rising : Bool) (s : State) : Outcome State Fault Refusal := .next (s.ppsEdge rising)

/-- PPS_MISSING. -/
def State.ppsMissing (s : State) : State :=
  if s.orr.ppsLive && s.host.ppsAt.any (fun t => decide (t + 1500000000 ≤ s.now)) then
    ({ s with orr := { s.orr with ppsLive := false } } : State).refCheckAll
  else s

/-- PPS_MISSING. -/
def execPpsMissing (s : State) : Outcome State Fault Refusal := .next s.ppsMissing

/-! ### The UARTs (R573, R575) -/

/-- Both FIFOs hold 4 KiB. -/
def uartDepth : Nat := 4096

/-- The FIFO levels shown. -/
def State.gnSync (s : State) : State :=
  (s.wr F.ETH_UART_STAT_RX_COUNT 0 0 s.host.gnRx.length).wr F.ETH_UART_STAT_TX_COUNT 0 0 s.host.gnTx.length

/-- The host UART's levels, and its two level events. -/
def State.huSync (s : State) : State :=
  let s1 := (s.wr F.HIO_HU_STAT_RX_COUNT 0 0 s.host.huRx.length).wr F.HIO_HU_STAT_TX_COUNT 0 0 s.host.huTx.length
  if s1.rdB F.HIO_HU_CFG_EN 0 0 then
    let s2 := if s1.rd F.HIO_HU_LEVEL_RX_LEVEL 0 0 ≤ s.host.huRx.length then s1.raise 0x0B4 0 else s1
    if s.host.huTx.length ≤ s1.rd F.HIO_HU_LEVEL_TX_LEVEL 0 0 then s2.raise 0x0B4 1 else s2
  else s1

/-- GNSS_RX_BYTE. -/
def execGnssRxByte (b : Byte) (s : State) : Outcome State Fault Refusal :=
  .next (if s.gnssOn then
    (if uartDepth ≤ s.host.gnRx.length then s.inc F.ETH_UART_OVF_CNT 0 0
     else ({ s with host := { s.host with gnRx := s.host.gnRx ++ [b] } } : State).gnSync)
    else s)

/-- A write of UART_TX. -/
def State.gnPut (s : State) (v : Nat) : State :=
  if uartDepth ≤ s.host.gnTx.length then s
  else ({ s with host := { s.host with gnTx := s.host.gnTx ++ [BitVec.ofNat 8 v] } } : State).gnSync

/-- GNSS_TX_BYTE. -/
def execGnssTxByte (v : Word) (s : State) : Outcome State Fault Refusal := .next (s.reach 0x0B1 (fun t => t.gnPut v.toNat))

/-- The host UART's pads and page are live. -/
def State.hioOn (s : State) : Bool := s.pageOn 0x0B4 && !bitOf (s.rd F.PWR_PAD_HELD 0 0) 23

/-- HU_RX_BYTE. -/
def execHuRxByte (b : Byte) (good : Bool) (s : State) : Outcome State Fault Refusal :=
  .next (if s.hioOn && s.rdB F.HIO_HU_CFG_EN 0 0 then
    (if !good then (s.inc F.HIO_HU_FRAME_CNT 0 0).raise 0x0B4 13
     else if uartDepth ≤ s.host.huRx.length then (s.inc F.HIO_HU_OVF_CNT 0 0).raise 0x0B4 13
     else ({ s with host := { s.host with huRx := s.host.huRx ++ [b] } } : State).huSync)
    else s)

/-- A write of HU_TX. -/
def State.huPut (s : State) (v : Nat) : State :=
  if uartDepth ≤ s.host.huTx.length then s
  else ({ s with host := { s.host with huTx := s.host.huTx ++ [BitVec.ofNat 8 v] } } : State).huSync

/-- HU_TX_BYTE. -/
def execHuTxByte (v : Word) (s : State) : Outcome State Fault Refusal := .next (s.reach 0x0B4 (fun t => t.huPut v.toNat))

/-- UART_BYTE_SENT: the oldest byte of a transmit FIFO (0 GNSS, 1 host) leaves on the line. -/
def State.uartSent (s : State) (port : Nat) : State :=
  if port = 0 then
    match s.host.gnTx with
    | b :: t => if s.gnssOn then (({ s with host := { s.host with gnTx := t } } : State).emit (.uart 0 b)).gnSync else s
    | [] => s
  else
    match s.host.huTx with
    | b :: t =>
      if s.hioOn && s.rdB F.HIO_HU_CFG_EN 0 0 then (({ s with host := { s.host with huTx := t } } : State).emit (.uart 1 b)).huSync else s
    | [] => s

/-- UART_BYTE_SENT. -/
def execUartByteSent (port : Fin 2) (s : State) : Outcome State Fault Refusal := .next (s.uartSent port.val)

/-! ### GPIO (R576) -/

/-- The level of a line: GPIO_OUT where it is driven, else the board's level, else its pull; a line that nothing drives or pulls keeps its
last level. -/
def State.gpioLevel (s : State) (n : Nat) : Bool :=
  if bitOf (s.rd F.HIO_GPIO_OE 0 0) n then bitOf (s.rd F.HIO_GPIO_OUT 0 0) n
  else if bitOf s.host.pinDrv n then bitOf s.host.pinLvl n
  else
    let p := bitsOf (s.rd F.HIO_GPIO_PULL 0 0) (2 * n) 2
    if p = 1 then false else if p = 2 then true else bitOf s.host.pinLvl n

/-- Edges between two states raise their events; GPIO_IN follows the pins. -/
def State.gpioEdges (s old : State) : State :=
  let one (t : State) (n : Nat) : State :=
    let a := old.gpioLevel n
    let b := s.gpioLevel n
    let hit := (!a && b && bitOf (s.rd F.HIO_GPIO_RISE_EN 0 0) n) || (a && !b && bitOf (s.rd F.HIO_GPIO_FALL_EN 0 0) n)
    if hit then (t.raise 0x0B4 (n + 2)).wr F.HIO_GPIO_EDGE_GT 0 0 s.gt else t
  let t := (List.range 11).foldl one s
  t.wr F.HIO_GPIO_IN 0 0 (((List.range 11).filter t.gpioLevel).foldl setBit 0)

/-- The board drives a line to a level, or lets it go. -/
def State.gpioPin (s : State) (n : Nat) (drive level : Bool) : State :=
  let h := s.host
  let t : State := { s with host := { h with pinDrv := if drive then setBit h.pinDrv n else clrBit h.pinDrv n,
                                             pinLvl := if (if drive then level else s.gpioLevel n) then setBit h.pinLvl n else clrBit h.pinLvl n } }
  if s.hioOn then t.gpioEdges s else t

/-- GPIO_EDGE. -/
def execGpioEdge (n : Fin 11) (drive level : Bool) (s : State) : Outcome State Fault Refusal := .next (s.gpioPin n.val drive level)

end Sys2Proof.Machine
end

