-- ==== Sys2Proof/Machine/Sensor.lean ====
section
/-! DEFINITION. Sensor controllers: bundles and in-band interrupts (spec/09, R330 to R334). -/

namespace Sys2Proof.Machine

open Host

/-- QUEUED and BUSY of a controller: the bundle on the bus has left the queue (log 38). -/
def State.scSync (s : State) (c : Nat) : State :=
  let q := (s.ctrl c).queue
  (s.wr F.SC_STAT_QUEUED 0 c (q.filter (fun b => !b.started)).length).wrB F.SC_STAT_BUSY 0 c (q.any (fun b => b.started))

/-- R334: a write entry is in order: 1 to 4 data bytes, no reserved bit. -/
def entryOk (e : List Byte) : Bool := decide (1 ≤ bitsOf (leAt e 1 1) 0 3 ∧ bitsOf (leAt e 1 1) 0 3 ≤ 4) && leAt e 1 1 / 8 == 0

/-- R334: the header of a bundle is in order for controller c. -/
def State.bundleOk (s : State) (c : Nat) (h : List Byte) : Bool :=
  bitsOf (leAt h 0 1) 6 2 != 3 && decide (1 ≤ leAt h 1 1 ∧ leAt h 1 1 ≤ 32) && s.rd F.SC_PROF_CTRL 0 (leAt h 0 1 % 64) == c
    && leAt h 2 1 / 2 == 0 && leAt h 3 1 == 0 && leAt h 18 2 == 0

/-- The latest frame start of a stream, if its write window has not opened yet (R330). -/
def State.windowFrame (s : State) (st : Nat) : Option Frame :=
  match (s.cam.frames.filter (fun f => f.stream == st)).getLast? with
  | some f => if s.gt < f.capGt + s.rd F.SC_PROF_WIN_WR_OFS 0 st then some f else none
  | none => none

/-- R330, R334: a bundle read from memory, checked, and queued or marked INVALID. -/
def State.bundlePush (s : State) (c a : Nat) : State :=
  let x := s.ctrl c
  if 16 ≤ (x.queue.filter (fun b => !b.started)).length then s.inc F.SC_PUSH_FULL_CNT 0 c
  else
    let bad (t : State) : State := (((t.poke (a + 16) [5#8]).poke (a + 24) (toBytes 8 t.gt)).inc F.SC_BAD_BUNDLE_CNT 0 0).raise 0x0B8 5
    match s.fetch a 32 with
    | none => bad s
    | some h =>
      let n := leAt h 1 1
      let entries := if s.bundleOk c h then s.fetch (a + 32) (8 * n) else none
      match entries with
      | none => bad s
      | some es =>
        if (List.range n).all (fun i => entryOk (es.drop (8 * i))) then
          let st := leAt h 0 1 % 64
          let k := leAt h 0 1 / 64
          let m := leAt h 4 4 % 2 ^ 26
          let f := (s.windowFrame st).filter (fun f => k == 0 || (k == 2 && f.id % 2 ^ 26 == m))
          let b : Bundle := { addr := a, stream := st, whenK := k, nwr := n, arm := bitOf (leAt h 2 1) 0, m,
                              due := if k = 1 then leAt h 8 8 else (f.map (fun f => f.capGt + s.rd F.SC_PROF_WIN_WR_OFS 0 st)).getD 0,
                              frame := f.map (fun f => f.id % 2 ^ 26) }
          ((s.poke (a + 16) [0#8]).setCtrl { x with queue := x.queue ++ [b] }).scSync c
        else bad s

/-- A write of SC_PUSH_HI. -/
def State.scPushHi (s : State) (c v : Nat) : State :=
  (s.wr F.SC_PUSH_HI 0 c v).bundlePush c (s.rd F.SC_PUSH_LO 0 c + v % 65536 * 2 ^ 32)

/-- SC_PUSH: a write of SC_PUSH_HI. -/
def execScPush (c : Fin 8) (v : Word) (s : State) : Outcome State Fault Refusal :=
  .next (s.reach 0x0B8 (fun t => t.scPushHi c.val v.toNat))

/-- R333: every queued bundle completes CANCELLED. -/
def State.scFlush (s : State) (c : Nat) : State :=
  let x := s.ctrl c
  let t := (x.queue.filter (fun b => !b.started)).foldl (fun t b => t.bundleEnd b 4 0 0xFFFFFFFF) s
  (t.setCtrl { x with queue := x.queue.filter (fun b => b.started) }).scSync c

/-- SC_FLUSH. -/
def execScFlush (c : Fin 8) (s : State) : Outcome State Fault Refusal := .next (s.reach 0x0B8 (fun t => t.scFlush c.val))

/-- A bundle has come due. -/
def State.bundleDue (s : State) (b : Bundle) : Bool := !b.started && (b.whenK == 1 || b.frame.isSome) && decide (b.due ≤ s.gt)

/-- R330: the bundle of earliest due moment, then in queue order, goes out on an idle bus. -/
def State.bundleStart (s : State) (c : Nat) : State :=
  let x := s.ctrl c
  if s.pageOn 0x0B8 && !s.inReset 0x0B8 && s.rd F.SC_CFG_MODE 0 c != 0 && s.rd F.SC_CFG_MODE 0 c != 3 && x.queue.all (fun b => !b.started) then
    match leastPair (fun (y : Bundle × Nat) => (y.1.due, y.2)) ((x.queue.zip (List.range x.queue.length)).filter (fun y => s.bundleDue y.1)) with
    | some (_, i) => (s.setCtrl { x with queue := modAt (fun b => { b with started := true }) x.queue i }).scSync c
    | none => s
  else s

/-- BUNDLE_START. -/
def execBundleStart (c : Fin 8) (s : State) : Outcome State Fault Refusal := .next (s.bundleStart c.val)

/-- The bytes of the first n writes of a bundle leave on the bus: target, register address, data. -/
def State.busWrites (s : State) (c : Nat) (b : Bundle) (n : Nat) : State :=
  (List.range n).foldl (fun t i =>
    let e := ((t.peek (b.addr + 32 + 8 * i) 8).map (fun x => x.1)).getD []
    t.emit (.sensor c (e.take 1 ++ (e.drop 2).take 2 ++ (e.drop 4).take (bitsOf (leAt e 1 1) 0 3)))) s

/-- R331, R332: the last write of the bundle on the bus completes. -/
def State.bundleComplete (s : State) (c : Nat) : State :=
  let x := s.ctrl c
  match x.queue.find? (fun b => b.started) with
  | none => s
  | some b =>
    let s1 := (s.busWrites c b b.nwr).setCtrl { x with queue := x.queue.filter (fun y => !y.started) }
    if b.whenK = 1 then (s1.bundleEnd b 1 0 0xFFFFFFFF).scSync c
    else
      let d := max 1 (s.rd F.SC_PROF_DELAY 0 b.stream)
      let late := decide (b.due - s.rd F.SC_PROF_WIN_WR_OFS 0 b.stream + s.rd F.SC_PROF_WIN_WR_LATEST 0 b.stream < s.gt)
      let n := (b.frame.getD 0 + d + b2n late) % 0x3FFFFFF
      let fid := b.stream * 2 ^ 26 + n
      let s2 : State := if late then (((s1.bundleEnd b 2 0 fid).inc F.SC_LATE_WR_CNT 0 c).raise 0x0B8 2) else s1.bundleEnd b 1 0 fid
      (if b.arm then s2.svArm b.stream fid else s2).scSync c

/-- BUNDLE_COMPLETE. -/
def execBundleComplete (c : Fin 8) (s : State) : Outcome State Fault Refusal := .next (s.bundleComplete c.val)

/-- R333: write i of the bundle on the bus fails; later ones are not sent. -/
def State.bundleNack (s : State) (c i : Nat) : State :=
  let x := s.ctrl c
  match x.queue.find? (fun b => b.started && decide (i < b.nwr)) with
  | none => s
  | some b =>
    let s1 := (s.busWrites c b (i + 1)).setCtrl { x with queue := x.queue.filter (fun y => !y.started) }
    (((s1.bundleEnd b 3 i 0xFFFFFFFF).inc F.SC_NACK_CNT 0 c).raise 0x0B8 1).scSync c

/-- BUNDLE_NACK. -/
def execBundleNack (c : Fin 8) (i : Fin 32) (s : State) : Outcome State Fault Refusal := .next (s.bundleNack c.val i.val)

/-- An in-band interrupt on an I3C bus: queued with its GT and up to four payload bytes, or lost (spec/09). -/
def State.ibi (s : State) (c addr : Nat) (payload : List Byte) : State :=
  if s.pageOn 0x0B8 && !s.inReset 0x0B8 && s.rd F.SC_CFG_MODE 0 c == 2 then
    if 16 ≤ s.cam.ibi.length then (s.inc F.SC_IBI_LOST_CNT 0 0).raise 0x0B8 4
    else ({ s with cam := { s.cam with ibi := s.cam.ibi ++ [(addr, payload.take 4, s.gt)] } }).raise 0x0B8 3
  else s

/-- IBI_RECEIVE. -/
def execIbiReceive (c : Fin 8) (addr : BitVec 7) (payload : List Byte) (s : State) : Outcome State Fault Refusal :=
  .next (s.ibi c.val addr.toNat payload)

/-! ### Retraction (R288, R296 to R300) -/

/-- The commands whose frame set a frame is in (R279, R383), whatever its standing. -/
def State.holdsFrame (s : State) (c : Cmd) (f : Nat) : Bool :=
  c.bound == some f || c.frames.contains f || s.tbufs.any (fun b => b.frame == f && b.cmds.contains c.id)

/-- R296: commands reached so far and those that fence on one of them, n times over. -/
def State.reachFences (s : State) : Nat → List Nat → List Nat
  | 0, r => r
  | n + 1, r =>
    let hit (c : Cmd) : Bool := r.contains c.id || c.desc.fences.any (fun f => (s.fenceCmd f).any (fun d => r.contains d.id))
    s.reachFences n ((s.sch.cmds.filter hit).map (fun c => c.id))

/-- The commands a frame's retraction reaches, in dependency order: every command before those that fence on it, which were
accepted after it (R298). -/
def State.reached (s : State) (f : Nat) : List Nat :=
  sortNat (s.reachFences s.sch.cmds.length ((s.sch.cmds.filter (fun c => s.holdsFrame c f)).map (fun c => c.id)))

/-- R288: the pages that a command last wrote provisionally are zeroed and set CLEAR. -/
def State.zeroPages (s : State) (id : Nat) : State :=
  let t := (s.cam.pages.filter (fun p => p.2 == id)).foldl (fun t p => t.poke (p.1 * 4096) (List.replicate 4096 0#8)) s
  { t with cam := { t.cam with pages := t.cam.pages.filter (fun p => p.2 != id) } }

/-- R297, Table SPC-3: one reached command closes RETRACTED by its state. -/
def State.retractCmd (s : State) (id : Nat) : State :=
  match s.cmd id with
  | none => s
  | some c =>
    if c.phase = .commit then
      let t := if c.drained then s else s.drain id
      let u := (t.updCmd id (fun x => { x with acks := 0 })).commitComplete id
      (u.zeroPages id).close id 4
    else if c.phase = .prov then (s.zeroPages id).close id 4
    else (s.updCmd id (fun x => { x with resv := [] })).killClose id 4

/-- RETRACTION: the first queued frame's retraction, whole (R299). -/
def State.retraction (s : State) : State :=
  match s.cam.retractQ with
  | [] => s
  | f :: rest =>
    let s1 := ((s.svRetract f).jobRetract)
    let s2 := (s1.reached f).foldl State.retractCmd s1
    let s3 := { s2 with cam := { s2.cam with retractQ := rest } }
    if rest.isEmpty then (s3.wr F.SPC_SPEC_STAT_RETRACT_BUSY 0 0 0).raise 0x006 4 else s3

end Sys2Proof.Machine
end

