-- ==== Sys2Proof/Machine/Reset.lean ====
section
/-! DEFINITION. What a reset of a block clears (spec/21, R701; Table REG-6): the registers of its pages and its internal state. The blocks
that a power domain switches off lose the same. -/

namespace Sys2Proof.Machine

/-- The page of a key (Fld.key). -/
def keyPage (k : Nat) : Nat := k / 65536 / 4096

/-- The fields that a reset of the PCIE and ETH pages keeps: DB_SRC and the IOMMU windows. -/
def keptIds : List Nat :=
  [F.PCIE_DB_SRC, F.IOM_WIN_IOVA, F.IOM_WIN_PA, F.IOM_WIN_LEN, F.IOM_WIN_CFG_R, F.IOM_WIN_CFG_W, F.IOM_WIN_CFG_EN].map (fun f => f.id)

/-- A key that a reset of its page clears. -/
def keyLost (page k : Nat) : Bool := keyPage k == page && !(keptIds.contains (k / 65536 % 4096))

/-- Every live field and every shadow copy of a page at its reset value; an armed commit cancelled (R693). -/
def State.clearPage (s : State) (page : Nat) : State :=
  { s with regs := s.regs.filter (fun c => !keyLost page c.1), shad := s.shad.filter (fun c => !keyLost page c.1),
           lat := s.lat.filter (fun c => !keyLost page c.1), armed := s.armed.filter (fun a => a.page != page) }

/-- A port's pool, frames and windows. -/
def State.clearPort (s : State) (p : Nat) : State :=
  let mine (st : Nat) : Bool := st / 4 == p
  { s with cam := { s.cam with
      bufs := s.cam.bufs.filter (fun b => b.port != p)
      frames := updWhere (fun f => mine f.stream) (fun f => { f with isOpen := false, buf := none, nbufs := 0 }) s.cam.frames
      counts := s.cam.counts.filter (fun c => !mine c.1)
      wins := if p = 0 then [] else s.cam.wins } }

/-- A Sieve's contexts, buffers and frames; the capture buffers it held are released. -/
def State.clearSieve (s : State) (v : Nat) : State :=
  let held := (s.sv.ctxs.filter (fun x => x.inst == v)).flatMap (fun x => x.wait ++ (x.run.map (fun r => r.frame)).toList)
  let t : State := { s with sv := { insts := s.sv.insts.filter (fun x => x.num != v), ctxs := s.sv.ctxs.filter (fun x => x.inst != v),
                                    bufs := s.sv.bufs.filter (fun b => b.inst != v) } }
  ({ t with cam := { t.cam with bufs := updWhere (fun b => held.contains b.frame) (fun b => { b with refs := b.refs.erase BufRef.sieve })
                                          t.cam.bufs } } : State).bufSweep

/-- A consumer's references on Sieve output buffers released (0 MANDOLINE, 1 COMPOSITOR). -/
def State.dropRefs (s : State) (bit : Nat) : State :=
  ({ s with sv := { s.sv with bufs := s.sv.bufs.map (fun b => { b with refs := clrBit b.refs bit }) } } : State).svSweep

/-- The audio front end: everything but the sample index, which never stops (R499), and a deferred OFF request. -/
def State.clearAudio (s : State) : State :=
  { s with pil := { t0 := s.pil.t0, done := s.pil.done, frame := ceilDiv s.pil.done 160, liveFrom := s.pil.done, offReq := s.pil.offReq } }

/-- The internal state of a block of Table REG-6 cleared; its registers are at their reset values already. -/
def State.clearInner (s : State) (i : Nat) : State :=
  if i < 16 then s.clearPort i
  else if i = 16 then { s with cam := { s.cam with ctrls := [], ibi := [] } }
  else if i = 17 then s.clearSieve 0
  else if i = 18 then s.clearSieve 1
  else if i = 19 then ({ s with md := {}, tbufs := [] } : State).dropRefs 0
  else if i = 20 then { s with orb := { nextZone := s.orb.nextZone } }
  else if i = 21 then ({ s with vid := { s.vid with outs := [], waiting := [], cur := none, holds := [] }, maskValid := [] } : State).dropRefs 1
  else if i = 22 then { s with vid := { s.vid with sessions := [] } }
  else if i = 24 then ({ s with host := { s.host with gnRx := [], gnTx := [], ppsAt := none }, orr := { s.orr with ppsLive := false } } : State).ptpLive 0 false
  else if i = 25 then s.ptpLive 1 false
  else if i = 26 then s.brReset
  else if i = 27 then s.clearAudio
  else s

/-- The page of a block of Table REG-6. -/
def blockPage (i : Nat) : Nat :=
  if i < 16 then 0x060 + i
  else [0x0B8, 0x070, 0x071, 0x078, 0x07C, 0x0A0, 0x0A1, 0x0B0, 0x0B1, 0x0B2, 0x090, 0x081].getD (i - 16) 0

/-- R701: a block's registers and its internal state; a PCIE reset has exactly the effect of PERST# (R563). -/
def State.clearBlock (s : State) (i : Nat) : State :=
  if i = 23 then s.pcieReset else (s.clearPage (blockPage i)).clearInner i

end Sys2Proof.Machine
end

