-- ==== Sys2Proof/Machine/Power.lean ====
section
/-! DEFINITION. Power (spec/16, spec/22, R707 to R713; spec/23, R723 to R726): requests and transitions, what each switch-off loses and each
start keeps, operating points, pads, the input supply, the thermal protection and the supply outputs. -/

namespace Sys2Proof.Machine

open Host

def pwPage : Nat := 0x003

/-! ### What a switch-off loses and a start keeps (Table BRG-1) -/

/-- Fields of the main domain that outlive it: the Orrery channels' states and frequencies (R725), and what is fused. -/
def fusedIds : List Nat :=
  [F.ORR_CH_STAT_STATE, F.ORR_CH_STAT_SEL_REF, F.ORR_CH_STAT_SEL_QUAL, F.ORR_CH_FREQ_OFS, F.SEC_FUSE_CFG_BOOT_POLICY, F.SEC_FUSE_CFG_JTAG_LOCK,
    F.SEC_FUSE_CFG_GRADE, F.SEC_SVN_FUSED, F.SEC_KEY_HASH, F.SYS_REV_ID_GRADE, F.SYS_UID_LO, F.SYS_UID_HI].map (fun f => f.id)

/-- A page of the Pilot domain. -/
def pilotPage (p : Nat) : Bool := p == 0x080 || p == 0x081 || p == 0x090

/-- A key that outlives the main domain. -/
def keyStays (k : Nat) : Bool := pilotPage (keyPage k) || fusedIds.contains (k / 65536 % 4096)

/-- What firmware puts into its resume record of the pages it owns: REPAIR and FWMBOX whole, the firmware's version in SYS, what it has
loaded into the Orrery and the Orbit enable. -/
def keySaved (k : Nat) : Bool :=
  keyPage k == 0x001 || keyPage k == 0x0D0
    || ([F.OB_CTRL_EN, F.ORR_GRID_CTRL_NOMINAL_HZ, F.ORR_ZC_DELAY, F.SYS_FW_VER_LO, F.SYS_FW_VER_HI, F.SYS_FW_SVN, F.SYS_FW_DIGEST].map
        (fun f => f.id)).contains (k / 65536 % 4096)

/-- The scheduler and the arbiter as a resume record keeps them, or as a boot afresh finds them. -/
def State.firmwareOff (s : State) (rest : Bool) : State :=
  if rest then
    { s with
        sch := { orders := s.sch.orders.filter (fun o => o.ctx == fwCtx), fwRing := s.sch.fwRing, fwPart := s.sch.fwPart, fwF := s.sch.fwF,
                 fwB := s.sch.fwB, nextId := s.sch.nextId }
        br := { s.br with arbOn := false, raises := [] }
        pwr := { s.pwr with saved := s.regs.filter (fun c => keySaved c.1) } }
  else
    { s with
        sch := { nextId := s.sch.nextId }
        br := { s.br with arbOn := false, reqs := [], raises := [], lamps := [], zones := [], clamps := [], bootEnd := none, points := [] }
        captures := [], recipes := [], rep := { ledger := s.rep.ledger }
        pwr := { s.pwr with saved := [] } }

/-- The main domain goes off (R522, R523, R542): every block of it loses its registers and its state, every pad group is held. -/
def State.mainOff (s0 : State) (rest : Bool) : State :=
  let s := (s0.flashBreak.orrMainOff).firmwareOff rest
  let o := s.orr
  let t : State := { s with
    regs := s.regs.filter (fun c => keyStays c.1), shad := [], lat := s.lat.filter (fun c => keyStays c.1), armed := []
    tiles := [], sk := {}, cam := {}, sv := {}, tbufs := [], md := {}, orb := {}, maskValid := [], vid := {}
    host := { pinDrv := s.host.pinDrv, pinLvl := s.host.pinLvl }
    fw := { brown := s.fw.brown, vinLow := s.fw.vinLow, pilotSec := s.fw.pilotSec, hver := if rest then s.fw.hver else 0,
            banks := if rest then s.fw.banks else [[], []], running := if rest then s.fw.running else 0 }
    orr := { grid := o.grid, sich := o.sich, nominal60 := o.nominal60, phaseZeroAt := o.phaseZeroAt, siSecond := o.siSecond,
             ppsSecond := o.ppsSecond, refilled := o.refilled, lastCross := o.lastCross, period := o.period }
    pwr := { s.pwr with mainOn := false, rising := false, offAt := s.now, trans := none, gate := 0, hosts := 0, groups := [{}, {}, {}],
                        ports := 0xFFFF, folded := s.pwr.folded.filter (fun x => x.1 == 12) } }
  (t.forget pantryBase (pantryBase + 18 * pantryStride)).wr F.PWR_PAD_HELD 0 0 0xFFFFFF

/-- The Larder and the vaults lose their contents (R129, R138). -/
def State.memoryOff (s : State) : State :=
  (s.forget larderBase (larderBase + 0x1000000)).forget cellarBase (cellarBase + 18 * vaultSize)

/-- The Pilot domain goes off: its registers, its SRAM, its clocks and its firmware (R34, R548). The Farside is not touched. -/
def State.pilotOff (s : State) : State :=
  let t : State := { s with
    regs := s.regs.filter (fun c => !pilotPage (keyPage c.1) && !(([F.ORR_CH_STAT_STATE, F.ORR_CH_STAT_SEL_REF, F.ORR_CH_STAT_SEL_QUAL,
      F.ORR_CH_FREQ_OFS].map (fun f => f.id)).contains (c.1 / 65536 % 4096)))
    lat := [], br := {}, pil := {}, orr := {}, fw := { brown := false }
    pwr := { s.pwr with pilotOn := false, st := 5, cause := 1, wake := false, tripBlock := false, tripped := false, rising := false,
                        pilotRising := false, folded := [] } }
  t.forget pilotBase (pilotBase + 0x1000000)

/-- A field's junction temperature as a signed number. -/
def signed8 (v : Nat) : Int := toS 8 v

/-! ### Operating points (R536 to R540) -/

def opReqFld (g : Nat) : Fld := if g = 0 then F.PWR_GRP_OP_REQ_KG0 else if g = 1 then F.PWR_GRP_OP_REQ_KG1 else F.PWR_GRP_OP_REQ_KG2
def opCurFld (g : Nat) : Fld := if g = 0 then F.PWR_GRP_OP_CUR_KG0 else if g = 1 then F.PWR_GRP_OP_CUR_KG1 else F.PWR_GRP_OP_CUR_KG2

/-- Kettle clock and supply of an operating point (Tables SCO-3, PWR-4). -/
def opMhz (op : Nat) : Nat := [1000, 800, 600, 400].getD op 400
def opMv (op : Nat) : Nat := [800, 720, 650, 600].getD op 600

/-- A partition has an in-service Kettle on a tile of group g. -/
def State.partInGroup (s : State) (part g : Nat) : Bool :=
  (s.partKettles part).any (fun k => s.inService k && (s.tileOf k).any (fun p => p / 6 == g))

/-- R536, R551: the point that group g is to run at. -/
def State.opTarget (s : State) (g : Nat) : Nat :=
  if s.rdB F.PWR_THERM_STAT_EMERG 0 0 then 3
  else ((List.range 16).filter (fun part => s.partInGroup part g)).foldl (fun m part => min m (s.rd F.SCH_PART_CFG_OP_FLOOR 0 part))
    (s.rd (opReqFld g) 0 0)

def State.grp (s : State) (g : Nat) : GrpSt := s.pwr.groups.getD g {}
def State.setGrp (s : State) (g : Nat) (x : GrpSt) : State := { s with pwr := { s.pwr with groups := setAt s.pwr.groups g x } }

/-- R538, R540: the next step towards a target: upward supply, bias, relock; downward relock, bias, supply. -/
def nextStep (x : GrpSt) (t : Nat) : Option (Nat × Nat) :=
  if t < x.pll then
    if t < x.supply then some (1, t) else if t = 0 ∧ x.bias = false then some (2, 1) else some (3, t)
  else if x.pll < t then some (3, t)
  else if x.bias = true ∧ t ≠ 0 then some (2, 0)
  else if t = 0 ∧ x.bias = false then some (2, 1)
  else if x.supply ≠ t then some (1, t)
  else none

/-- R539: a supply that falls below what 500 MHz needs takes the bypass clock of a PLL in FAULT down first. -/
def State.bypassFall (s : State) (g op : Nat) : State :=
  if s.rdB F.CLK_PLL_STAT_ON_BYPASS 0 g && decide (clockAtSupply (opMv op) < 500) then
    (s.wr F.CLK_PLL_STAT_BYPASS_DIV2 0 g 1).wr F.CLK_PLL_STAT_DELIVERED_MHZ 0 g 250
  else s

/-- GRP_OP_CUR.OP_BUSY: a group is changing. -/
def State.opBusySync (s : State) : State := s.wrB F.PWR_GRP_OP_CUR_OP_BUSY 0 0 (s.pwr.groups.any (fun x => x.step.isSome))

/-- R537: a raised floor comes into force when every group of its partition has reached it. -/
def State.floorSettle (s : State) : State :=
  let waits (part : Nat) : Bool := (List.range 3).any (fun g => s.partInGroup part g &&
    decide (s.rd F.SCH_PART_CFG_OP_FLOOR 0 part < s.rd (opCurFld g) 0 0))
  { s with sch := { s.sch with floorReq := s.sch.floorReq.filter (fun x => waits x.1) } }

/-- The sequencer of a group starts its next step, or has none. -/
def State.opKick (s : State) (g : Nat) : State :=
  let x := s.grp g
  if x.step.isSome then s
  else
    match nextStep x (s.opTarget g) with
    | some (kind, v) =>
      let t := s.setGrp g { x with step := some (kind, v) }
      let u := if kind = 3 then (t.wr F.CLK_PLL_CFG_TARGET_MHZ 0 g (opMhz v)).pllRelock g
        else if kind = 1 ∧ x.supply < v then t.bypassFall g v else t
      u.opBusySync
    | none => s
def State.opKickAll (s : State) : State := if s.pwr.mainOn then ((s.opKick 0).opKick 1).opKick 2 else s

/-- OP_CHANGE_STEP: the step in progress has settled; a relock has settled once it delivers, or has ended in FAULT. -/
def State.opStep (s : State) (g : Nat) : State :=
  let x := s.grp g
  if !s.pwr.mainOn then s
  else
    match x.step with
    | some (kind, v) =>
      if kind = 3 ∧ s.orr.relocking.contains g = true then s
      else
        let y : GrpSt := if kind = 1 then { x with supply := v, step := none } else if kind = 2 then { x with bias := v == 1, step := none }
          else { x with pll := v, step := none }
        let t0 := s.setGrp g y
        let t : State := { t0 with orr := { t0.orr with supply := setAt t0.orr.supply g (opMv y.supply) } }
        if (nextStep y (t.opTarget g)).isSome then t.opKick g
        else (((t.wr (opCurFld g) 0 0 y.pll).opBusySync).floorSettle).raise pwPage 5
    | none => s.opKick g

/-- OP_CHANGE_STEP. -/
def execOpChangeStep (g : Fin 3) (s : State) : Outcome State Fault Refusal := .next (s.opStep g.val)

/-- A write of GRP_OP_REQ. -/
def State.opReqWrite (s : State) (v : Nat) : State :=
  (((s.wr F.PWR_GRP_OP_REQ_KG0 0 0 (bitsOf v 0 2)).wr F.PWR_GRP_OP_REQ_KG1 0 0 (bitsOf v 4 2)).wr F.PWR_GRP_OP_REQ_KG2 0 0 (bitsOf v 8 2)).opKickAll

/-- GRP_OP_REQ_WRITE. -/
def execGrpOpReqWrite (v : Word) (s : State) : Outcome State Fault Refusal := .next (s.reach pwPage (fun t => t.opReqWrite v.toNat))

/-- OP_FLOOR_WRITE: a write of PART_CFG. A floor is a lower number for a faster point: one that rises waits for its groups (R537), one that
falls is in force at once, subject to R242. B_SLOTS is a field of the same word. -/
def State.floorWrite (s : State) (part v : Nat) : State :=
  let old := s.rd F.SCH_PART_CFG_OP_FLOOR 0 part
  let new := bitsOf v 0 2
  let s1 := if bitsOf v 8 5 ≤ 28 then s.wr F.SCH_PART_CFG_B_SLOTS 0 part (bitsOf v 8 5) else s
  if new = old then s1
  else if old < new then
    if s1.capAt part new / 4 < s1.rd F.SCH_PART_URG_BUDGET 0 part then s1.partErr F.SCH_PART_ERR_BUDGET part
    else
      let t : State := { s1 with sch := { s1.sch with floorReq := s1.sch.floorReq.filter (fun x => x.1 != part) } }
      ((t.wr F.SCH_PART_CFG_OP_FLOOR 0 part new)).opKickAll
  else
    let t := s1.wr F.SCH_PART_CFG_OP_FLOOR 0 part new
    let keep := ((s1.sch.floorReq.find? (fun x => x.1 == part)).map (fun x => x.2)).getD old
    let u : State := { t with sch := { t.sch with floorReq := (part, keep) :: t.sch.floorReq.filter (fun x => x.1 != part) } }
    (u.floorSettle).opKickAll

/-- OP_FLOOR_WRITE. -/
def execOpFloorWrite (v : Word) (s : State) : Outcome State Fault Refusal :=
  .next (s.reach 0x005 (fun t => t.floorWrite (t.rd F.SCH_PART_SEL 0 0) v.toNat))

/-! ### Temperature (R549 to R552) -/

/-- A thermal emergency starts: every group is driven to OP3. -/
def State.emergStart (s : State) : State :=
  ((((s.wr F.PWR_THERM_STAT_EMERG 0 0 1).inc F.PWR_THERM_EMERG_CNT 0 0).raise pwPage 4).breachSync).opKickAll

/-- The highest reading of the sensors: WARN and EMERG are judged on it (R720). -/
def State.tjSample (s : State) (temp src : Nat) : State :=
  let s1 := (s.wr F.PWR_TJ_MAX_TEMP 0 0 temp).wr F.PWR_TJ_MAX_SRC 0 0 src
  let warm := decide (signed8 (s.rd F.PWR_THERM_CFG_WARN 0 0) ≤ signed8 temp)
  let s2 := if warm && !s.rdB F.PWR_THERM_STAT_WARN 0 0 then s1.raise pwPage 3 else s1
  let s3 := s2.wrB F.PWR_THERM_STAT_WARN 0 0 warm
  if signed8 (s.rd F.PWR_THERM_CFG_EMERG 0 0) ≤ signed8 temp ∧ s.rdB F.PWR_THERM_STAT_EMERG 0 0 = false then s3.emergStart else s3

/-- THERM_WARN. -/
def execThermWarn (temp : Byte) (sensor : Fin 21) (s : State) : Outcome State Fault Refusal :=
  .next (if s.pwr.mainOn then s.tjSample temp.toNat sensor.val else s)

/-- THERM_EMERG. -/
def execThermEmerg (temp : Byte) (sensor : Fin 21) (s : State) : Outcome State Fault Refusal :=
  .next (if s.pwr.mainOn then s.tjSample temp.toNat sensor.val else s)

/-- THERM_EMERG_END: TJ_MAX has stayed below EMERG - 5 for 100 ms. -/
def State.emergEnd (s : State) (temp src : Nat) : State :=
  if s.pwr.mainOn && s.rdB F.PWR_THERM_STAT_EMERG 0 0 && decide (signed8 temp < signed8 (s.rd F.PWR_THERM_CFG_EMERG 0 0) - 5) then
    ((((s.wr F.PWR_THERM_STAT_EMERG 0 0 0).raise pwPage 4).breachSync).tjSample temp src).opKickAll
  else s

/-- THERM_EMERG_END. -/
def execThermEmergEnd (temp : Byte) (sensor : Fin 21) (s : State) : Outcome State Fault Refusal := .next (s.emergEnd temp.toNat sensor.val)

/-- THERM_TRIP: TJ_MAX has stayed at TRIP for 1 ms: every domain but PILOT goes off at once, as in DEEP. -/
def State.thermTrip (s : State) (temp : Nat) : State :=
  if s.pwr.mainOn && decide (signed8 (s.rd F.PWR_THERM_CFG_TRIP 0 0) ≤ signed8 temp) then
    let t := (s.mainOff false).memoryOff
    { t with pwr := { t.pwr with st := 4, cause := 2, tripBlock := true, tripped := true, resume := 0 } }
  else s

/-- THERM_TRIP. -/
def execThermTrip (temp : Byte) (_sensor : Fin 21) (s : State) : Outcome State Fault Refusal := .next (s.thermTrip temp.toNat)

/-- TRIP_WAKE_UNBLOCK: TJ_MAX is below EMERG - 10, at the fused EMERG (the main domain is off). -/
def execTripWakeUnblock (temp : Byte) (s : State) : Outcome State Fault Refusal :=
  .next (if s.pwr.tripBlock && decide (signed8 temp.toNat < signed8 (F.PWR_THERM_CFG_EMERG.rst 0 0) - 10) then
    { s with pwr := { s.pwr with tripBlock := false } } else s)

/-! ### Requests (R524 to R528) -/

/-- A request is refused or ignored: PS_STAT.ERR and its event. -/
def State.psErr (s : State) (code : Nat) : State := (s.wr F.PWR_PS_STAT_ERR 0 0 code).raise pwPage 1

/-- A context is not FREE. -/
def State.ctxBusy (s : State) : Bool := (List.range 256).any (fun c => s.rd F.CTX_STAT_STATE c 0 != 0)

/-- R524: gating these Kettles would leave a partition above its urgent limit, or with a context and no Kettle. -/
def State.gateRefused (s : State) (mask : Nat) : Bool :=
  (List.range 16).any (fun part =>
    let left := (s.partKettles part).filter (fun k => s.rd F.RP_KMAP_STATE 0 k == 0 && (s.tileOf k).isSome && !bitOf mask k)
    let f := opFactor (s.floorOf part)
    let t := if s.orr.nominal60 then 16666 else 20000
    decide (left.length * (t * f.2 / f.1) / 4 < s.rd F.SCH_PART_URG_BUDGET 0 part)
      || (left.isEmpty && (List.range 256).any (fun c => s.rd F.CTX_STAT_STATE c 0 != 0 && s.rd F.CTX_CFG_PART c 0 == part)))

/-- A request is accepted: BUSY until the device is in the target state. -/
def State.psAccept (s : State) (to_ gate : Nat) : State :=
  let t : State := { s with pwr := { s.pwr with trans := some (to_, s.pwr.st), gate, wake := false } }
  t.wr F.PWR_PS_STAT_BUSY 0 0 1

/-- R525, R633: a request is judged while nothing is under way; while a remap runs, only RUN is. -/
def State.psReq (s : State) (to_ : Nat) (k : State → State) : State :=
  if s.rdB F.PWR_PS_STAT_BUSY 0 0 || (to_ != 0 && s.rdB F.RP_RM_STAT_BUSY 0 0) then s.psErr 1 else k s

/-- A request for RUN (R524, R526). -/
def State.psRun (s : State) : State :=
  s.psReq 0 (fun u => if u.gateRefused (u.rd F.PWR_KGATE 0 0) then u.psErr 3 else u.psAccept 0 (u.rd F.PWR_KGATE 0 0))

/-- PS_REQ_RUN. -/
def execPsReqRun (s : State) : Outcome State Fault Refusal := .next (s.reach pwPage State.psRun)

/-- R527: what stands against WATCH. -/
def State.watchRefusal (s : State) : Option Nat :=
  let m := s.rd F.PWR_WATCH_CFG_KMASK 0 0
  let bad := (List.range 16).any (fun k => bitOf m k && !(s.rd F.RP_KMAP_STATE 0 k == 0 && (s.tileOf k).isSome))
  if 2 < popcount 16 m ∨ bad = true ∨ 4 < popcount 16 (s.rd F.PWR_WATCH_PORTS 0 0) then some 4
  else if s.rdB F.SV_CTRL_EN 1 0 || s.rdB F.MD_CTRL_EN 0 0 || s.rdB F.CP_CTRL_EN 0 0 || s.rdB F.EN_CTRL_EN 0 0 then some 5
  else if s.gateRefused (0xFFFF - m) then some 3
  else none

/-- A request for WATCH (R527). -/
def State.psWatch (s : State) : State :=
  s.psReq 2 (fun u =>
    match u.watchRefusal with
    | some e => u.psErr e
    | none => u.psAccept 2 (0xFFFF - u.rd F.PWR_WATCH_CFG_KMASK 0 0))

/-- PS_REQ_WATCH. -/
def execPsReqWatch (s : State) : Outcome State Fault Refusal := .next (s.reach pwPage State.psWatch)

/-- REST, DEEP and OFF (R526, R599, R534): a mailbox command ends first; the PDM rate of REST and DEEP is called for. -/
def State.psDown (s : State) (to_ : Nat) : State :=
  s.psReq to_ (fun u =>
    if u.ctxBusy then u.psErr 2
    else
      let t := (u.mbEnd 0x0C).psAccept to_ u.pwr.gate
      if to_ = 5 then (if t.rdB F.PA_STAT_IN_PROGRESS 0 0 then t.offDefer else t) else t.pdmCall 1)

/-- PS_REQ_REST. -/
def execPsReqRest (s : State) : Outcome State Fault Refusal := .next (s.reach pwPage (fun t => t.psDown 3))

/-- PS_REQ_DEEP. -/
def execPsReqDeep (s : State) : Outcome State Fault Refusal := .next (s.reach pwPage (fun t => t.psDown 4))

/-- PS_REQ_OFF: its entry waits for the deferral of R516. -/
def execPsReqOff (s : State) : Outcome State Fault Refusal := .next (s.reach pwPage (fun t => t.psDown 5))

/-- A KGATE write: in RUN a request for the Kettles it names; in WATCH it is kept for the return to RUN. -/
def State.kgateReq (s : State) (v : Nat) : State :=
  if s.rdB F.PWR_PS_STAT_BUSY 0 0 then s.psErr 1
  else if s.pwr.st ≠ 0 then s.wr F.PWR_KGATE 0 0 v
  else if s.gateRefused (v % 65536) then s.psErr 3
  else (s.wr F.PWR_KGATE 0 0 v).psAccept 0 (v % 65536)

/-- KGATE_WRITE. -/
def execKgateWrite (v : Word) (s : State) : Outcome State Fault Refusal := .next (s.reach pwPage (fun t => t.kgateReq v.toNat))

/-- KETTLE_GATED: a Kettle to be gated has its 32 slots FREE: its tile, with its Pantry, goes off. -/
def State.kettleGate (s : State) (k : Nat) : State :=
  match s.tileOf k with
  | some p =>
    if s.pwr.mainOn && bitOf s.pwr.gate k && s.rd F.RP_KMAP_STATE 0 k == 0 && !bitOf (s.rd F.PWR_KGATED 0 0) k && (s.tile p).slots.isEmpty then
      let t := ((s.killCanary p).clearPage (0x010 + p)).forget (pantryPlace p 0) (pantryPlace p pantrySize)
      ({ t with tiles := t.tiles.filter (fun x => x.num != p) } : State).wr F.PWR_KGATED 0 0 (setBit (s.rd F.PWR_KGATED 0 0) k)
    else s
  | none => s

/-- KETTLE_GATED. -/
def execKettleGated (k : Fin 16) (s : State) : Outcome State Fault Refusal := .next (s.kettleGate k.val)

/-- KETTLE_UNGATED (R529): the Pantry is zero, every granule FREE, and the Kettle is back in service. -/
def State.kettleUngate (s : State) (k : Nat) : State :=
  match s.tileOf k with
  | some p =>
    if s.pwr.mainOn && !bitOf s.pwr.gate k && bitOf (s.rd F.PWR_KGATED 0 0) k then
      (((s.clearPantry p).wr F.PWR_KGATED 0 0 (clrBit (s.rd F.PWR_KGATED 0 0) k)).wr F.KT_ID_LOGICAL p 0 k).wr F.KT_CTRL_EN p 0 1
    else s
  | none => s

/-- KETTLE_UNGATED. -/
def execKettleUngated (k : Fin 16) (s : State) : Outcome State Fault Refusal := .next (s.kettleUngate k.val)

/-- Every Kettle that KMAP has in service is gated as it is to be. -/
def State.gateDone (s : State) : Bool :=
  (List.range 16).all (fun k => s.rd F.RP_KMAP_STATE 0 k != 0 || (s.tileOf k).isNone || bitOf (s.rd F.PWR_KGATED 0 0) k == bitOf s.pwr.gate k)

/-! ### Transitions (R530 to R534) -/

/-- PS_STAT.CUR: 0 ACTIVE, 1 TRIMMED, 2 WATCH. -/
def State.psCur (s : State) : Nat :=
  if s.pwr.st = 2 then 2
  else if (List.range 16).any (fun k => bitOf (s.rd F.PWR_KGATED 0 0) k && s.rd F.RP_KMAP_STATE 0 k == 0) then 1 else 0

/-- The transition is complete. -/
def State.transDone (s : State) : State :=
  let t : State := { s with pwr := { s.pwr with trans := none } }
  ((t.wr F.PWR_PS_STAT_BUSY 0 0 0).inc F.PWR_TRANS_CNT 0 0).raise pwPage 0

/-- Pad groups held as their domains go off. -/
def State.padHold (s : State) (mask : Nat) : State := s.wr F.PWR_PAD_HELD 0 0 (s.rd F.PWR_PAD_HELD 0 0 ||| mask)

/-- The blocks and ports that WATCH switches off lose what a reset of them clears. -/
def State.watchEnter (s : State) : State :=
  let ports := s.rd F.PWR_WATCH_PORTS 0 0
  let gone := (List.range 16).filter (fun p => !bitOf ports p)
  let t := (gone ++ [18, 19, 20, 21, 22, 23, 25]).foldl State.clearBlock s.skLeave
  let u := (t.clearPage 0x0C0).padHold ((0xFFFF - ports) + 2 ^ 18 + 2 ^ 20 + 2 ^ 21)
  { u with pwr := { u.pwr with st := 2, ports, hosts := 2 ^ (u.rd F.PWR_WATCH_CFG_HOST 0 0 % 4),
                               folded := u.pwr.folded.filter (fun x => x.1 == 12 || bitsOf ports (4 * (x.1 / 3)) 4 != 0) } }

/-- RUN: every domain on; the cores that HOST_EN names are powered and started. -/
def State.runEnter (s : State) : State :=
  { s with pwr := { s.pwr with st := 0, ports := 0xFFFF, hosts := setBit (s.rd F.PWR_HOST_EN 0 0) 0 } }

/-- R521, R530: the next schedule point of each output is loaded as a Pilot LEVEL timer, into timers that are off. -/
def State.loadTimers (s : State) : List (Nat × Nat) → State
  | [] => s
  | (i, due) :: rest =>
    match (List.range 16).find? (fun n => !s.rdB F.PL_TMR_CFG_EN 0 n) with
    | some n =>
      let o := s.rd F.BR_SP_OUT_OUTPUT 0 i
      let lv := lampClamp (s.rd F.BR_SP_OUT_SMIN 0 i) (s.rd F.BR_SP_LIM_SMAX 0 i) (topLevel ((s.br.reqs.filter (fun r => r.out == o)).map
        (fun r => (min r.level 1000, r.ramp)))).1
      let t := (((s.wr F.PL_TMR_GT 0 n due).wr F.PL_TMR_MSG 0 n (o + lv * 65536)).wr F.PL_TMR_MSG 0 (16 + n) (s.rd F.BR_SP_LIM_RAMP_MS 0 i)).wr
        F.PL_TMR_CFG_ACTION 0 n 1
      (t.wr F.PL_TMR_CFG_EN 0 n 1).loadTimers rest
    | none => s

/-- The main rails go off into REST, DEEP or OFF. -/
def State.railsOff (s : State) (to_ : Nat) : State :=
  let s1 := if to_ = 5 then s else s.loadTimers (s.br.points.mergeSort (fun a b => decide (a.2 ≤ b.2)))
  let resume := if s.rd F.PWR_RESUME_CFG_TARGET 0 0 = 1 then 2 else 0
  let t := s1.mainOff (to_ == 3)
  let u := if to_ = 3 then t else t.memoryOff
  let v : State := { u with pwr := { u.pwr with st := to_, cause := if to_ = 3 then 4 else 5, resume := if to_ = 3 then resume else 0,
                                                trans := none } }
  if to_ = 5 then v.pilotOff else v

/-- TRANSITION_COMPLETE: the steps of the transition under way are done. -/
def State.transition (s : State) : State :=
  match s.pwr.trans with
  | some (to_, from_) =>
    if !s.pwr.mainOn || (to_ == 5 && s.pil.offReq.isSome) then s
    else if 3 ≤ to_ then s.railsOff to_
    else if from_ = 3 ∧ s.fwReady = false then s
    else if s.gateDone then
      let prev := if to_ = from_ ∨ from_ = 3 then s else s.wr F.PWR_PS_STAT_PREV 0 0 s.psCur
      (if to_ = 2 then (if from_ = 2 then prev else prev.watchEnter) else prev.runEnter).transDone
    else s
  | none => s

/-- TRANSITION_COMPLETE. -/
def execTransitionComplete (s : State) : Outcome State Fault Refusal := .next s.transition

/-- TRANSITION_ABORT (R531): a wake cause before the main rails go off: the device goes back to the state it came from. -/
def State.transAbort (s : State) : State :=
  let t : State := { s with pwr := { s.pwr with trans := none, wake := false } }
  ((((t.wr F.PWR_PS_STAT_BUSY 0 0 0).psErr 6).inc F.PWR_ABORT_CNT 0 0)).pdmCall 0

/-- WAKE_CAUSE: an enabled cause has latched: it cuts an entry short, or starts the wake at least 100 us after the rails went off. -/
def State.wakeGo (s : State) : State :=
  if !s.pwr.wake || !s.pwr.pilotOn then s
  else if s.pwr.mainOn then
    if s.pwr.trans.any (fun x => x.1 == 3 || x.1 == 4) then s.transAbort else s
  else if (s.pwr.st == 3 || s.pwr.st == 4) && !s.pwr.tripBlock && !s.pwr.rising && decide (s.pwr.offAt + 100000 ≤ s.now) then
    { s with pwr := { s.pwr with rising := true, wake := false } }
  else s

/-- WAKE_CAUSE. -/
def execWakeCause (s : State) : Outcome State Fault Refusal := .next s.wakeGo

/-! ### Starts (R698, R723 to R726) -/

/-- A start of the main domain: the registers have their reset values already; what the start itself sets. -/
def State.mainStart (s : State) (cause : Nat) : State :=
  let kept := cause == 3 || cause == 4
  let s1 := ((s.wr F.SYS_RST_CAUSE_CAUSE 0 0 cause).wr F.PWR_PS_STAT_PREV 0 0 ([0, 5, 4, 0, 3, 4].getD cause 0)).wr F.PWR_PAD_HELD 0 0
    (if cause = 1 then 0 else 0xFFFFFF)
  let s2 := (List.range 18).foldl (fun t v => t.wr F.VC_STAT_STATE v 0 (if kept then 4 else 1)) s1
  let s3 := s2.wrB F.TV_STAT_LARDER_INIT_DONE 0 0 kept
  let s4 : State := { s3 with pwr := { s3.pwr with mainOn := true, rising := false, st := 0, hosts := 1, gate := 0, ports := 0xFFFF,
                                                   trans := if cause = 4 then some (s3.pwr.resume, 3) else none } }
  let s5 := s4.orrMainOn
  if cause = 4 then
    let g := if s5.pwr.resume = 2 then 0xFFFF - s5.rd F.PWR_WATCH_CFG_KMASK 0 0 else 0
    ({ s5 with pwr := { s5.pwr with gate := g } } : State).wr F.PWR_PS_STAT_BUSY 0 0 1
  else s5

/-- MAIN_POWER_GOOD: the straps and the sensors have been sampled (R586, R720). -/
def State.mainPowerGood (s : State) (bootsel : Bool) (cab temp src : Nat) : State :=
  if s.pwr.rising && s.pwr.pilotOn && !s.pwr.mainOn then
    let c := s.pwr.cause
    let t := ((s.mainStart c).wrB F.SEC_STRAP_BOOTSEL 0 0 bootsel).wr F.SK_STAT_CAB_ID 0 0 cab
    let u := if c = 1 then t else t.pdmCall 0
    (u.tjSample temp src).streamResume
  else s

/-- MAIN_POWER_GOOD. -/
def execMainPowerGood (bootsel : Bool) (cab : Fin 8) (temp : Byte) (sensor : Fin 21) (s : State) : Outcome State Fault Refusal :=
  .next (s.mainPowerGood bootsel cab.val temp.toNat sensor.val)

/-- PILOT_POWER_GOOD: GT starts at 0:0000 (R34), SI time at 0, and the main rails rise. -/
def State.pilotPowerGood (s : State) : State :=
  if s.pwr.pilotRising && !s.pwr.pilotOn then
    { s with gt := 0, si := 0, siSub := 0, pil := { t0 := s.now }
             pwr := { s.pwr with pilotOn := true, pilotRising := false, rising := true, cause := 1 } }
  else s

/-- PILOT_POWER_GOOD. -/
def execPilotPowerGood (s : State) : Outcome State Fault Refusal := .next s.pilotPowerGood

/-- OFF is left: the Pilot rail rises (R533). -/
def State.leaveOff (s : State) : State := if s.pwr.st = 5 ∧ s.pwr.pilotOn = false then { s with pwr := { s.pwr with pilotRising := true } } else s

/-- VIN_START. -/
def execVinStart (s : State) : Outcome State Fault Refusal := .next s.leaveOff

/-- PWR_ON_EDGE: while VIN is above VIN_START. -/
def execPwrOnEdge (mv : BitVec 16) (s : State) : Outcome State Fault Refusal := .next (if 10200 < mv.toNat then s.leaveOff else s)

/-! ### The input supply (R545 to R548, R603, R604) -/

/-- VIN_WARN: VIN has fallen through WARN_MV. -/
def State.vinWarn (s : State) (mv : Nat) : State :=
  if s.pwr.mainOn && !s.fw.vinLow && decide (mv < s.rd F.PWR_VIN_CFG_WARN_MV 0 0) then
    let t : State := { s with fw := { s.fw with vinLow := true } }
    (((t.wr F.PWR_VIN_MV 0 0 mv).inc F.PWR_VIN_WARN_CNT 0 0).raise pwPage 2).flashQuiesce
  else s

/-- VIN_WARN. -/
def execVinWarn (mv : BitVec 16) (s : State) : Outcome State Fault Refusal := .next (s.vinWarn mv.toNat)

/-- VIN_WARN_CLEAR: firmware resumes normal flash use. -/
def State.vinClear (s : State) (mv : Nat) : State :=
  if s.pwr.mainOn && s.fw.vinLow && decide (s.rd F.PWR_VIN_CFG_WARN_MV 0 0 ≤ mv) then
    ({ s with fw := { s.fw with vinLow := false } } : State).wr F.PWR_VIN_MV 0 0 mv
  else s

/-- VIN_WARN_CLEAR. -/
def execVinWarnClear (mv : BitVec 16) (s : State) : Outcome State Fault Refusal := .next (s.vinClear mv.toNat)

/-- VIN_UV: every Nearside domain goes off; the Farside is not disturbed. -/
def execVinUv (s : State) : Outcome State Fault Refusal := .next ((s.mainOff false).memoryOff).pilotOff

/-! ### Host cores, pads and supply outputs -/

/-- A write of HOST_EN: host core 0 is always powered in RUN. -/
def State.hostEn (s : State) (v : Nat) : State :=
  let u := s.wr F.PWR_HOST_EN 0 0 (setBit (v % 16) 0)
  if u.pwr.st = 0 then { u with pwr := { u.pwr with hosts := setBit (v % 16) 0 } } else u

/-- HOST_EN_WRITE. -/
def execHostEnWrite (v : Word) (s : State) : Outcome State Fault Refusal :=
  .next (s.reach pwPage (fun t => t.hostEn v.toNat))

/-- The domain that owns a pad group is on. -/
def State.padOwnerOn (s : State) (g : Nat) : Bool :=
  s.pwr.mainOn && (if g < 16 then bitOf s.pwr.ports g else if g = 18 ∨ g = 20 ∨ g = 21 then s.pwr.st != 2 else true)

/-- PAD_RELEASE, group by group (R543). -/
def State.padRelease (s : State) (v : Nat) : State :=
  ((List.range 24).filter (fun g => bitOf v g)).foldl (fun t g =>
    if bitOf (t.rd F.PWR_PAD_HELD 0 0) g && t.padOwnerOn g then t.wr F.PWR_PAD_HELD 0 0 (clrBit (t.rd F.PWR_PAD_HELD 0 0) g)
    else t.inc F.PWR_PAD_ERR_CNT 0 0) s

/-- PAD_RELEASE. -/
def execPadRelease (v : Word) (s : State) : Outcome State Fault Refusal := .next (s.reach pwPage (fun t => t.padRelease v.toNat))

/-- A supply output is on: bank b while one of its ports is powered, MIC_VDD in every state except OFF (R713). -/
def State.supplyOn (s : State) (o : Nat) : Bool :=
  if o = 12 then s.pwr.pilotOn else s.pwr.mainOn && bitsOf s.pwr.ports (4 * (o / 3)) 4 != 0

/-- SUPPLY_FOLDBACK. -/
def execSupplyFoldback (out : Fin 13) (s : State) : Outcome State Fault Refusal :=
  .next (if s.supplyOn out.val && s.pwr.folded.all (fun x => x.1 != out.val) then
    { s with pwr := { s.pwr with folded := (out.val, s.now) :: s.pwr.folded } } else s)

/-- FOLDBACK_RETRY: 100 ms after the last trial the output tries again, and stays within its limit or folds back once more. -/
def execFoldbackRetry (out : Fin 13) (ok : Bool) (s : State) : Outcome State Fault Refusal :=
  .next (if s.pwr.folded.any (fun x => x.1 == out.val && decide (x.2 + 100000000 ≤ s.now)) then
    let rest := s.pwr.folded.filter (fun x => x.1 != out.val)
    { s with pwr := { s.pwr with folded := if ok then rest else (out.val, s.now) :: rest } } else s)

end Sys2Proof.Machine
end

