-- ==== Sys2Proof/Machine/Firmware.lean ====
section
/-! DEFINITION. Boot, firmware's start and the mailbox (spec/18; spec/23, R724 to R730): BOOT_SELECT to FW_READY, the update commands, the live
handover, REBOOT and the TAP. -/

namespace Sys2Proof.Machine

open Host

def mbPage : Nat := 0x0D0

/-- RST_CAUSE of the present start: 1 COLD, 2 THERM_TRIP, 3 REBOOT, 4 REST_WAKE, 5 DEEP_WAKE. -/
def State.rstCause (s : State) : Nat := s.rd F.SYS_RST_CAUSE_CAUSE 0 0

def State.fwGo (s : State) (st : Nat) : State := s.wr F.FW_STATE_STATE 0 0 st

/-! ### Loading an image (R585, R591) -/

/-- What the registers say of the image that runs (R585): its header and its digest. -/
def State.runShow (s : State) (h digest : List Byte) : State :=
  let t := (((((s.wr F.FW_RUN_VER 0 0 (leAt h 8 8)).wr F.FW_RUN_SVN 0 0 (leAt h 0x10 4)).wr F.SYS_FW_VER_LO 0 0 (leAt h 8 4)).wr F.SYS_FW_VER_HI 0 0
    (leAt h 12 4)).wr F.SYS_FW_SVN 0 0 (leAt h 0x10 4))
  (List.range 12).foldl (fun u w => (u.wr F.FW_RUN_DIGEST 0 w (leAt digest (4 * w) 4)).wr F.SYS_FW_DIGEST 0 w (leAt digest (4 * w) 4))
    { t with fw := { t.fw with hver := leAt h 0x18 2 } }

/-- Bytes at the start of the Pilot SRAM. -/
def State.pilotLoad (s : State) (k : Nat) : List Byte → State
  | [] => s
  | b :: t => (s.setByte (pilotPlace k) b).pilotLoad (k + 1) t

/-- R591: the sections of an accepted image go to their places: SOUS to the STANDBY bank, which becomes RUNNING; PILOT to the Pilot SRAM at a
start from OFF or a REBOOT only; HOST to logical vault 0. Then firmware initialises, its first step the barrier link (R728). -/
def State.imageLoad (s : State) (img : List Byte) (src : Nat) : State :=
  let sb := 1 - s.fw.running
  let s1 : State := { s with fw := { s.fw with banks := setAt s.fw.banks sb (sectBytes img 1), running := sb } }
  let pil := sectBytes img 2
  let s2 := if s.rstCause = 1 ∨ s.rstCause = 3 then
      let t := ((s1.pilotLoad 0 pil).wr F.FW_STATE_PILOT_STALE 0 0 0).clearAudio
      { t with fw := { t.fw with pilotSec := pil } }
    else s1.wrB F.FW_STATE_PILOT_STALE 0 0 (s1.fw.pilotSec != pil)
  let s3 := match (sections img).find? (fun x => x.type == 3) with
    | some x => s2.poke (cellarBase + x.load) ((img.drop x.ofs).take x.len)
    | none => s2
  ((((s3.runShow img (imageDigest img)).wr F.FW_STATE_SRC 0 0 src).fwGo 3).slotSync).brEnable 1

/-! ### Choosing an image (R586, R590, Table FW-5) -/

/-- Table FW-5: the flash slots, and a host load, are sources. -/
def State.bootSources (s : State) : Bool × Bool :=
  let p := s.rd F.SEC_FUSE_CFG_BOOT_POLICY 0 0
  if p = 0 then (!s.rdB F.SEC_STRAP_BOOTSEL 0 0, s.rdB F.SEC_STRAP_BOOTSEL 0 0) else (p == 1 || p == 3, p == 2 || p == 3)

/-- R590: the countdown of a trial, or its revert. -/
def State.trialCount (s : State) : State × Bool :=
  let r := s.bootRec
  if r.trial then
    if r.tries = 0 then (s.recWrite (s.recFor { r with active := r.prev, prev := r.active, trial := false, reverted := true }), true)
    else (s.recWrite { r with tries := r.tries - 1 }, false)
  else (s, false)

def slotResultFld (k : Nat) : Fld := if k = 2 then F.FW_BOOT_STAT_SLOT_B else F.FW_BOOT_STAT_SLOT_A

/-- A slot judged, with its result recorded. -/
def State.slotTry (s : State) (k : Nat) : State × Nat :=
  let code := s.slotCode k
  ((s.sigNote code).wr (slotResultFld k) 0 0 code, code)

/-- R590: the flash slots in order. The answer says whether one has been loaded. -/
def State.bootFlash (s0 : State) : State × Bool :=
  let (s, reverted) := s0.trialCount
  let r := s.bootRec
  let shown (t : State) (fallback : Bool) : State :=
    let u := ((t.wrB F.FW_STATE_FALLBACK 0 0 fallback).wrB F.FW_STATE_TRIAL 0 0 (r.trial && !fallback)).wr F.FW_BOOT_STAT_RESULT 0 0
      (if reverted then 2 else if fallback then 1 else 0)
    if reverted then u.raise mbPage 5 else u
  let a := s.slotTry r.active
  if a.2 = 0 then (shown (a.1.imageLoad (a.1.slotImage r.active) r.active) false, true)
  else
    let b := a.1.slotTry (3 - r.active)
    if b.2 = 0 then (shown (b.1.imageLoad (b.1.slotImage (3 - r.active)) (3 - r.active)) true, true) else (b.1, false)

/-- R590, R586: an image is chosen and loaded, or the ROM waits for a host load, once the Larder is zeroed, or finds no image. -/
def State.bootSelect (s : State) : State :=
  if s.pwr.mainOn && s.rd F.FW_STATE_STATE 0 0 == 0 && s.rstCause != 4 then
    let wait (t : State) : State := if t.rdB F.TV_STAT_LARDER_INIT_DONE 0 0 then t.fwGo 1 else s
    if s.bootSources.1 then
      let (t, done) := s.bootFlash
      if done then t else if s.bootSources.2 then wait t else ((t.wr F.FW_BOOT_STAT_RESULT 0 0 0x30).fwGo 15).slotSync
    else wait s
  else s

/-- BOOT_SELECT. -/
def execBootSelect (s : State) : Outcome State Fault Refusal := .next s.bootSelect

/-- R586: the image that a host has placed in the Larder is checked from check 2 on, and loaded, or refused with its code. -/
def State.bootDoorbell (s : State) (v : Nat) : State :=
  if bitOf v 0 && s.rd F.FW_STATE_STATE 0 0 == 1 then
    let ofs := s.rd F.FW_HOST_LOAD_OFS 0 0
    let len := s.rd F.FW_HOST_LOAD_LEN 0 0
    if ofs % 4096 ≠ 0 ∨ 0x1000000 < ofs + len then s.wr F.FW_BOOT_STAT_RESULT 0 0 0x20
    else
      let t := s.noteRead (larderBase + ofs) len
      match s.peek (larderBase + ofs) len with
      | some (img, bad) =>
        let code := if bad then 0x24 else t.imageCode img len
        if code = 0 then (t.imageLoad (img.take (leAt img 0x14 4)) 3).wr F.FW_BOOT_STAT_RESULT 0 0 3
        else (t.sigNote code).wr F.FW_BOOT_STAT_RESULT 0 0 code
      | none => t.wr F.FW_BOOT_STAT_RESULT 0 0 0x20
  else s

/-- BOOT_DOORBELL. -/
def execBootDoorbell (v : Word) (s : State) : Outcome State Fault Refusal := .next (s.reach mbPage (fun t => t.bootDoorbell v.toNat))

/-! ### Initialisation and READY (R594, R595, R634, R640, R728, R730) -/

/-- R595: SVN_FUSED rises to the SVN of the newest record's image. -/
def State.svnBurn (s : State) : State :=
  let v := min s.bootRec.svn 64
  if s.rd F.SEC_SVN_FUSED 0 0 < v then (s.wr F.SEC_SVN_FUSED 0 0 v).raise 0x0E0 0 else s

/-- R640: one entry of the repair ledger applied. -/
def State.ledgerApply (s : State) (e : LedgerEnt) : State :=
  if e.kind = 0 then s.sparePut e.tile false e.unit
  else if e.kind = 1 then s.sparePut e.tile true e.unit
  else if e.kind = 3 then
    let p := s.rd F.RP_KMAP_PHYS 0 e.logical
    ((s.wr F.RP_TILE_STAT_STATE 0 p 2).wr F.RP_TILE_STAT_STATE 0 e.tile 1).wr F.RP_KMAP_PHYS 0 e.logical e.tile
  else if e.kind = 4 then
    let t := (s.wr F.RP_KMAP_STATE 0 e.logical 3).wr F.RP_STAT_DEGRADED 0 0 1
    if e.cause = 4 then t.wr F.RP_KMAP_PHYS 0 e.logical 0x1F else t
  else if e.kind = 5 then s.wr F.RP_TILE_STAT_STATE 0 e.tile 2
  else s

/-- R634: a KETTLE repair that the ledger shows decided and not carried out: the lowest SPARE tile serves the Kettle, with no copy. -/
def State.ledgerFinish (s : State) (k : Nat) : State :=
  let mine := s.rep.ledger.filter (fun e => e.logical == k && (e.kind == 2 || e.kind == 3 || e.kind == 4))
  match mine.getLast? with
  | some e =>
    if e.kind = 2 then
      match s.spareTile with
      | some q => let t := s.ledgerAdd 3 q 0 k e.cause
                  t.ledgerApply { seq := 0, gt := 0, kind := 3, tile := q, unit := 0, logical := k, cause := e.cause }
      | none => s.kettleOut k e.cause
    else s
  | none => s

/-- R634, R640: the ledger applied in SEQ order. -/
def State.ledgerBoot (s : State) : State :=
  let l := s.rep.ledger
  let t := l.foldl State.ledgerApply s
  let u := (t.wr F.RP_LEDGER_SEQ 0 0 ((l.getLast?.map (fun e => e.seq)).getD 0)).wr F.RP_LEDGER_FREE 0 0 (16384 - l.length)
  (List.range 16).foldl State.ledgerFinish u

/-- The tiles and vaults take the logical numbers that KMAP gives them, and their Kettles are enabled. -/
def State.kettlesUp (s : State) : State :=
  (List.range 16).foldl (fun t k =>
    match t.tileOf k with
    | some p =>
      let u := t.wr F.VC_STAT_LOGICAL p 0 k
      if u.rd F.RP_KMAP_STATE 0 k = 0 then (u.wr F.KT_ID_LOGICAL p 0 k).wr F.KT_CTRL_EN p 0 1 else u
    | none => t) s

/-- R237: the buckets of firmware's own context are full. -/
def State.fwBuckets (s : State) : State :=
  let b (cls : Nat) (t : State) : State := t.setBkt { ctx := bktKey fwCtx cls, cls, burstAtOpen := t.bktBurst fwCtx cls, level := t.bktBurst fwCtx cls }
  b 2 (b 1 s)

/-- R728, 4: a lamp schedule point loaded. -/
def State.spLoad (s : State) (e : SpEnt) : State :=
  let i := e.point.val
  ((((((s.wr F.BR_SP_GT 0 i e.gt.toNat).wr F.BR_SP_PERIOD 0 i e.period.toNat).wr F.BR_SP_OUT_OUTPUT 0 i e.output.toNat).wr F.BR_SP_OUT_SMIN 0 i
    e.smin.toNat).wr F.BR_SP_LIM_SMAX 0 i e.smax.toNat).wr F.BR_SP_LIM_RAMP_MS 0 i e.ramp.toNat).spEnable i 1

/-- R728, 4: a standing order of firmware loaded; one of class U is refused (R236). -/
def State.orderLoad (s : State) (e : FwOrder) : State :=
  let d := parseDesc e.template
  if e.template.length = 64 ∧ d.cls ≠ 0 then s.orderArm (fwSoNum e.num) fwCtx d e.period.toNat e.anchor.toNat e.phase.toNat else s

/-- R728: the steps of INIT; the self-test's repairs are decided as soon as firmware acts. -/
def State.fwInit (s : State) (b : FwBoot) : State :=
  let s1 := s.ledgerBoot
  let s2 := ((s1.wr F.ORR_ZC_DELAY 0 0 b.zcDelay.toNat).wrB F.ORR_GRID_CTRL_NOMINAL_HZ 0 0 b.hz60).wr F.RP_CANARY_CFG_TEST_SEED 0 0 b.testSeed.toNat
  let s3 := b.orders.foldl State.orderLoad (b.points.foldl State.spLoad s2)
  let s4 : State := { s3 with captures := b.captures.filter (fun c => c.period == 0 || decide (0x1000 ≤ c.period)) }
  let s5 := ((s4.kettlesUp).wr F.OB_CTRL_EN 0 0 1).orbStat
  let s6 := (s5.fwBuckets.fwGo 4).raise mbPage 1
  let s7 := b.fails.foldl (fun t x => t.classify x.tile.val (x.cols.map (fun c => c.val)) (x.banks.map (fun c => c.val)) x.other) s6
  s7.lampBoot b.level.toNat b.hold.toNat

/-- R594, R595: the record that a FALLBACK writes, and the burn at READY. -/
def State.readyRecord (s : State) : State :=
  if s.rdB F.FW_STATE_FALLBACK 0 0 then
    let slot := s.rd F.FW_STATE_SRC 0 0
    (s.recWrite (s.recFor { s.bootRec with active := slot, prev := 3 - slot, trial := false })).slotSync
  else if s.bootRec.trial then s
  else s.svnBurn

/-- A resume from REST (Table BRG-1): firmware is back with what its resume record holds. -/
def State.fwResume (s : State) : State :=
  let t : State := { s with regs := s.pwr.saved.foldl (fun m c => storePut c.1 c.2 m) s.regs, pwr := { s.pwr with saved := [] },
                            br := { s.br with arbOn := true } }
  (t.kettlesUp.orbStat).fwBuckets

/-- R552: the boot after a thermal trip says so. -/
def State.tripNote (s : State) : State :=
  if s.pwr.tripped then ({ s with pwr := { s.pwr with tripped := false } } : State).wr F.PWR_PS_STAT_LAST_TRIP 0 0 1 else s

/-! ### The mailbox (R597 to R601, R605, R610, R611) -/

/-- R598: the slot that the newest record does not name as ACTIVE. -/
def State.targetSlot (s : State) : Nat := 3 - s.bootRec.active

/-- R598: a trial or a live activation is unconfirmed, or the running image came from the target slot. -/
def State.updBlocked (s : State) : Bool :=
  s.bootRec.trial || s.rdB F.FW_STATE_LIVE 0 0 || s.rd F.FW_STATE_SRC 0 0 == s.targetSlot

/-- A supply warning stands: no flash program or erase starts (R603). -/
def State.flashHeld (s : State) : Bool := s.fw.brown || s.fw.vinLow

/-- A command that goes on until MB_COMPLETE or LIVE_HANDOVER. -/
def State.mbActs (s : State) : State := { s with fw := { s.fw with acting := true } }

/-- R605, R606, R611: an image read, checked and put into the STANDBY bank, to wait for the handover. -/
def State.liveLoad (s : State) (slot : Nat) : State :=
  let img := s.slotImage slot
  let code := s.slotCode slot
  if code ≠ 0 then (s.sigNote code).mbEnd code
  else if sectBytes img 2 ≠ s.fw.pilotSec then s.mbEnd 0x0B
  else if leAt img 0x18 2 < s.fw.hver ∨ s.fw.hver < leAt img 0x1A 2 then s.mbEnd 0x0A
  else
    { s with fw := { s.fw with acting := true, standby := some (slot, s.slotHeader slot, imageDigest img),
                               banks := setAt s.fw.banks (1 - s.fw.running) (sectBytes img 1) } }

/-- A record written, and a command that ends with it. -/
def State.recEnd (s : State) (r : BootRec) : State := (s.recWrite r).mbEnd 0

/-- UPD_BEGIN. -/
def State.updBegin (s : State) (len : Nat) : State :=
  if s.updBlocked then s.mbEnd 0x09
  else if s.rdB F.PWR_PS_STAT_BUSY 0 0 then s.mbEnd 0x01
  else if len = 0 ∨ len % 4096 ≠ 0 ∨ imageMax < len then s.mbEnd 0x02
  else if s.flashHeld then s.mbEnd 0x0C
  else s.mbActs

/-- The source of UPD_WRITE lies in the Larder or in a vault. -/
def updSource (a len : Nat) : Bool :=
  decide (larderBase ≤ a ∧ a + len ≤ larderBase + 0x1000000)
    || decide (cellarBase ≤ a ∧ a + len ≤ cellarBase + 16 * vaultSize ∧ (a - cellarBase) % vaultSize + len ≤ vaultSize)

/-- UPD_WRITE: the slot's header is not part of what it programs. -/
def State.updWrite (s : State) (ofs addr len : Nat) : State :=
  if s.slotStat s.targetSlot ≠ 1 then s.mbEnd 0x01
  else if ofs % 4096 ≠ 0 ∨ ofs < 4096 ∨ len % 4096 ≠ 0 ∨ 0x400000 < len ∨ slotSize < ofs + len ∨ updSource addr len = false then s.mbEnd 0x02
  else if s.flashHeld then s.mbEnd 0x0C
  else s.mbActs

/-- UPD_ACTIVATE. -/
def State.updActivate (s : State) (how : Nat) : State :=
  if 1 < how then s.mbEnd 0x02
  else if s.updBlocked then s.mbEnd 0x09
  else if s.slotStat s.targetSlot ≠ 2 then s.mbEnd 0x01
  else if how = 1 then (if s.rdB F.PWR_PS_STAT_BUSY 0 0 then s.mbEnd 0x01 else s.liveLoad s.targetSlot)
  else if s.flashHeld then s.mbEnd 0x0C
  else s.recEnd (s.recFor { s.bootRec with active := s.targetSlot, prev := s.bootRec.active, trial := true, tries := 3, reverted := false })

/-- UPD_CONFIRM (R601, R610). -/
def State.updConfirm (s : State) : State :=
  let live := s.rdB F.FW_STATE_LIVE 0 0
  if s.rd F.FW_STATE_SRC 0 0 = 3 ∨ (s.bootRec.trial = false ∧ live = false) then s.mbEnd 0
  else if s.flashHeld then s.mbEnd 0x0C
  else if live then
    let t := s.recWrite (s.recFor { s.bootRec with active := s.rd F.FW_STATE_SRC 0 0, prev := s.bootRec.active, trial := false, reverted := false })
    ((t.wr F.FW_STATE_LIVE 0 0 0).svnBurn).mbEnd 0
  else if s.rdB F.FW_STATE_TRIAL 0 0 then
    (((s.recWrite { s.bootRec with trial := false }).wr F.FW_STATE_TRIAL 0 0 0).svnBurn).mbEnd 0
  else s.mbEnd 0x01

/-- UPD_REVERT: of a trial boot, or of a live activation (R611); else R598. -/
def State.updRevert (s : State) : State :=
  if s.rdB F.FW_STATE_LIVE 0 0 then s.liveLoad s.bootRec.active
  else if s.rdB F.FW_STATE_TRIAL 0 0 && s.bootRec.trial then
    if s.flashHeld then s.mbEnd 0x0C
    else s.recEnd (s.recFor { s.bootRec with active := s.bootRec.prev, prev := s.bootRec.active, trial := false, reverted := true })
  else if s.updBlocked then s.mbEnd 0x09
  else s.mbEnd 0x01

/-- INFO: MB_OUT packs the slot states, the record's SEQ and both versions in a way that is not given. -/
def State.mbInfo (s : State) : State :=
  let what := [s.slotStat 1, s.slotStat 2, s.bootRec.seq, leAt (s.slotHeader 1) 8 8, leAt (s.slotHeader 2) 8 8]
  ((List.range 4).foldl (fun t i => t.wr F.FW_MB_OUT 0 i (Config.freeFun 60 (i :: what))) s).mbEnd 0

/-- Registers and internal fields that a REBOOT carries over: SCRATCH (R699), what was sampled, and the hottest sensor. -/
def rebootIds : List Nat :=
  [F.SYS_SCRATCH, F.SEC_STRAP_BOOTSEL, F.SK_STAT_CAB_ID, F.PWR_TJ_MAX_TEMP, F.PWR_TJ_MAX_SRC, F.PWR_THERM_STAT_WARN,
    F.PWR_THERM_STAT_EMERG].map (fun f => f.id)

/-- R724: REBOOT: pads held, memories kept, the main domain reset. -/
def State.reboot (s : State) : State :=
  let keep := s.regs.filter (fun c => rebootIds.contains (c.1 / 65536 % 4096))
  let t := s.mainOff false
  ({ t with regs := keep.foldl (fun m c => storePut c.1 c.2 m) t.regs } : State).mainStart 3

/-- TAP_LOCK: bits of the fuse are burned and never cleared. -/
def State.tapLock (s : State) (v : Nat) : State :=
  if v = 2 then (s.wr F.SEC_FUSE_CFG_JTAG_LOCK 0 0 (s.rd F.SEC_FUSE_CFG_JTAG_LOCK 0 0 ||| 2)).mbEnd 0 else s.mbEnd 0x02

/-- Firmware acts on the mailbox command. An unlisted code ends with a result that the table does not give. -/
def State.mbAct (s : State) : State :=
  match s.fw.cmd with
  | some (code, args) =>
    let a (k : Nat) : Nat := args.getD (k + 1) 0
    if s.fw.acting then s
    else if code = 0x01 then s.mbInfo
    else if code = 0x10 then s.updBegin (a 0)
    else if code = 0x11 then s.updWrite (a 0) (a 1 + 2 ^ 32 * a 2) (a 3)
    else if code = 0x12 then (if s.flashHeld then s.mbEnd 0x0C else s.mbActs)
    else if code = 0x13 then s.updActivate (a 0)
    else if code = 0x14 then s.updConfirm
    else if code = 0x15 then s.updRevert
    else if code = 0x16 then (if s.flashHeld then s.mbEnd 0x0C else s.mbActs)
    else if code = 0x20 then (if s.ctxBusy then s.mbEnd 0x01 else s.reboot)
    else if code = 0x30 then s.tapLock (a 0)
    else (s.mbEnd (s.freeVal 8)).tookFree
  | none => s

/-- Table HST-3 for MB_SRC. -/
def State.mbPermits (s : State) (src : Src) : Bool :=
  let v := s.rd F.FW_MB_SRC 0 0
  v == 0 || src == .sous || (v == 1 && src == .host) || (v == 2 && src == .pcie)

/-- R597: a write of MB_CMD. -/
def State.mbIssue (s : State) (src : Src) (code : Nat) : State :=
  if s.mbPermits src && !s.rdB F.FW_MB_STAT_BUSY 0 0 then
    let args := s.targetSlot :: (List.range 6).map (fun i => s.rd F.FW_MB_ARG 0 i)
    let t := ({ s with fw := { s.fw with cmd := some (code, args), acting := false } } : State).wr F.FW_MB_STAT_BUSY 0 0 1
    if t.fwReady then t.mbAct else t
  else s.inc F.FW_MB_DENY_CNT 0 0

/-- A mailbox command: its arguments written to MB_ARG0 on, then MB_CMD. -/
def State.mbCall (s : State) (src : Src) (code : Nat) (args : List Nat) : State :=
  s.reach mbPage (fun t => ((args.zip (List.range 6)).foldl (fun u x => u.wr F.FW_MB_ARG 0 x.2 x.1) t).mbIssue src code)

/-- INFO. -/
def execInfo (src : Src) (s : State) : Outcome State Fault Refusal := .next (s.mbCall src 0x01 [])

/-- UPD_BEGIN. -/
def execUpdBegin (src : Src) (len : Word) (s : State) : Outcome State Fault Refusal := .next (s.mbCall src 0x10 [len.toNat])

/-- UPD_WRITE. -/
def execUpdWrite (src : Src) (ofs : Word) (addr : BitVec 64) (len : Word) (s : State) : Outcome State Fault Refusal :=
  .next (s.mbCall src 0x11 [ofs.toNat, addr.toNat, addr.toNat / 2 ^ 32, len.toNat])

/-- UPD_VERIFY. -/
def execUpdVerify (src : Src) (s : State) : Outcome State Fault Refusal := .next (s.mbCall src 0x12 [])

/-- UPD_ACTIVATE NEXT_BOOT. -/
def execUpdActivateNextBoot (src : Src) (s : State) : Outcome State Fault Refusal := .next (s.mbCall src 0x13 [0])

/-- UPD_ACTIVATE LIVE. -/
def execUpdActivateLive (src : Src) (s : State) : Outcome State Fault Refusal := .next (s.mbCall src 0x13 [1])

/-- UPD_CONFIRM. -/
def execUpdConfirm (src : Src) (s : State) : Outcome State Fault Refusal := .next (s.mbCall src 0x14 [])

/-- UPD_REVERT. -/
def execUpdRevert (src : Src) (s : State) : Outcome State Fault Refusal := .next (s.mbCall src 0x15 [])

/-- UPD_ABORT. -/
def execUpdAbort (src : Src) (s : State) : Outcome State Fault Refusal := .next (s.mbCall src 0x16 [])

/-- REBOOT. -/
def execReboot (src : Src) (s : State) : Outcome State Fault Refusal := .next (s.mbCall src 0x20 [])

/-- TAP_LOCK. -/
def execTapLock (src : Src) (v : Word) (s : State) : Outcome State Fault Refusal := .next (s.mbCall src 0x30 [v.toNat])

/-- A chunk programmed from its source (UPD_WRITE); a source that gives an error response ends the command with a flash error. -/
def State.chunkWrite (s : State) (slot ofs addr len : Nat) : State :=
  let t := s.noteRead addr len
  match s.peek addr len with
  | some (bs, false) => (t.flashWr (slotOfs slot + ofs) bs).mbEnd 0
  | _ => t.mbEnd 0x0D

/-- MB_COMPLETE: a long command finishes, or the flash reports an error. -/
def State.mbComplete (s : State) (err : Bool) : State :=
  match s.fw.cmd, s.fw.standby with
  | some (code, slot :: args), none =>
    if !(s.fwReady && s.fw.acting) then s
    else if err then (s.flashBreak).mbEnd 0x0D
    else if code = 0x10 then
      ((s.flashErase (slotOfs slot) slotSize).flashWr (slotOfs slot) (toBytes 4 0)).mbEnd 0
    else if code = 0x11 then s.chunkWrite slot (args.getD 0 0) (args.getD 1 0 + 2 ^ 32 * args.getD 2 0) (args.getD 3 0)
    else if code = 0x12 then
      let c := s.imageCode (s.slotImage slot) imageMax
      if c = 0 then (s.flashWr (slotOfs slot + 4) (toBytes 4 0)).mbEnd 0 else (s.sigNote c).mbEnd c
    else if code = 0x16 then (s.flashErase (slotOfs slot) slotSize).mbEnd 0
    else s
  | _, _ => s

/-- MB_COMPLETE. -/
def execMbComplete (flashError : Bool) (s : State) : Outcome State Fault Refusal := .next (s.mbComplete flashError)

/-- FW_READY: firmware reaches READY, and acts on a mailbox command that waits. -/
def State.ready (s : State) (b : FwBoot) : State :=
  if s.pwr.mainOn && s.rstCause == 4 && s.rd F.FW_STATE_STATE 0 0 == 0 then s.fwResume.mbAct
  else if s.pwr.mainOn && s.rd F.FW_STATE_STATE 0 0 == 3 then (((s.fwInit b).readyRecord).tripNote).mbAct
  else s

/-- FW_READY. -/
def execFwReady (boot : FwBoot) (s : State) : Outcome State Fault Refusal := .next (s.ready boot)

/-! ### The live handover (R607 to R609) -/

/-- The closing records that the handover has held are written first (R609). -/
def State.heldRecords (s : State) : State :=
  ((s.sch.cmds.filter (fun c => c.phase == .commit && c.desc.cls != 0)).mergeSort (fun a b => decide (a.commitNo ≤ b.commitNo))).foldl
    (fun t c => t.commitComplete c.id) s

/-- The handover ends: the new image runs, or the old one resumes (R608). -/
def State.handoverEnd (s : State) (valid : Bool) (pause : Nat) : State :=
  let t := (s.wr F.SCH_SCHED_STAT_HANDOVER 0 0 0).fwGo 4
  let u := match s.fw.standby with
    | some (slot, h, digest) =>
      if valid then
        let v : State := { t with fw := { t.fw with running := 1 - t.fw.running } }
        ((((((v.runShow h digest).wr F.FW_STATE_SRC 0 0 slot).wrB F.FW_STATE_LIVE 0 0 (slot != v.bootRec.active)).wr F.FW_LIVE_PAUSE_US 0 0 pause).inc
          F.FW_LIVE_CNT 0 0).raise mbPage 2).mbEnd 0
      else (t.raise mbPage 3).mbEnd 0x0A
    | none => t.raise mbPage 3
  u.heldRecords

/-- LIVE_HANDOVER: at the first moment with no firmware transaction open the handover starts; its second moment ends it. -/
def State.liveHandover (s : State) (valid : Bool) (pause : Nat) : State :=
  if !s.pwr.mainOn then s
  else if s.rdB F.SCH_SCHED_STAT_HANDOVER 0 0 then s.handoverEnd valid pause
  else if s.fwReady && s.fw.standby.isSome then (s.wr F.SCH_SCHED_STAT_HANDOVER 0 0 1).fwGo 5
  else s

/-- LIVE_HANDOVER. -/
def execLiveHandover (valid : Bool) (pauseUs : BitVec 12) (s : State) : Outcome State Fault Refusal := .next (s.liveHandover valid pauseUs.toNat)

/-! ### The test access port (R612, Table FW-11) -/

/-- A TAP instruction: 0 BYPASS, 1 IDCODE, 2 SAMPLE/PRELOAD, 3 EXTEST, 4 any other; one that JTAG_LOCK does not permit loads BYPASS. -/
def State.tapLoad (s : State) (i : Nat) : State :=
  let lock := s.rd F.SEC_FUSE_CFG_JTAG_LOCK 0 0
  if !s.pwr.mainOn then s
  else if lock = 0 ∨ i ≤ (if lock = 1 then 3 else 1) then s.emit (.tap i)
  else ((s.emit (.tap 0)).inc F.SEC_TAP_DENY_CNT 0 0).raise 0x0E0 2

/-- TAP_INSTRUCTION. -/
def execTapInstruction (instr : Fin 5) (s : State) : Outcome State Fault Refusal := .next (s.tapLoad instr.val)

end Sys2Proof.Machine
end

