-- ==== Sys2Proof/Machine/Array.lean ====
section
/-! DEFINITION. The arithmetic of a pass and of the Whisk: lanes, stationary tiles, sums, requantisation, tables, output formats
(spec/03, R79 to R81, R94 to R100; spec/05, R158, R163, R189). -/

namespace Sys2Proof.Machine

/-! ### The Griddle (R79 to R81) -/

/-- The 4-bit value at nibble j of a list of bytes, the low half of a byte first (PRESUMED, log 40). -/
def nibble (bs : List Byte) (j : Nat) : Nat := bitsOf ((bs.getD (j / 2) 0#8).toNat) (4 * (j % 2)) 4

/-- The lanes of a slice: signed integers, or BF16 words. -/
def sliceLanes (fmt : Nat) (bs : List Byte) : List Nat :=
  if fmt = 2 then (List.range 128).map (nibble bs)
  else if fmt = 3 then (List.range 64).map (fun j => leAt bs (2 * j) 2)
  else (List.range 64).map (fun j => (bs.getD j 0#8).toNat)

/-- The width of an activation in bits. -/
def actBits (fmt : Nat) : Nat := if fmt = 2 then 4 else if fmt = 3 then 16 else 8

/-- R163: lanes from n on carry zero. -/
def zeroFrom (n : Nat) (ls : List Nat) : List Nat := ls.take n ++ List.replicate (ls.length - n) 0

/-- The lanes of PAD_VALUE below n (R162). -/
def padLanes (fmt value n : Nat) : List Nat :=
  zeroFrom n (List.replicate (fmtKV fmt) (value % 2 ^ actBits fmt))

/-- The stationary operand of K-element k and column n: INT4 x INT4 has two K-elements in a byte, the even one low (PRESUMED,
log 40). -/
def stationary (fmt : Nat) (tile : List Byte) (k n : Nat) : Nat :=
  if fmt = 0 then (tile.getD (k * 128 + n) 0#8).toNat
  else if fmt = 1 then nibble tile (k * 128 + n)
  else if fmt = 2 then bitsOf ((tile.getD (k / 2 * 128 + n) 0#8).toNat) (4 * (k % 2)) 4
  else leAt tile (k * 256 + 2 * n) 2

/-- R80: one INT32 sum, modulo 2^32. -/
def dotInt (fmt : Nat) (lanes : List Nat) (tile : List Byte) (n : Nat) : Nat :=
  let wb := if fmt = 0 then 8 else 4
  ofS 32 (((lanes.zip (List.range lanes.length)).map (fun x => toS (actBits fmt) x.1 * toS wb (stationary fmt tile x.2 n))).sum)

/-- R81: one FP32 sum, from row 0 down: every product exact, every addition rounded. -/
def dotFp (lanes : List Nat) (tile : List Byte) (n : Nat) : Nat :=
  (lanes.zip (List.range lanes.length)).foldl
    (fun acc x => f32.enc true ((f32.decZ acc).add ((bf16.decZ x.1).mul (bf16.decZ (stationary 3 tile x.2 n))))) 0

/-- The 128 results of a vector. -/
def vecSums (fmt : Nat) (tile : List Byte) (lanes : List Nat) : List Nat :=
  (List.range 128).map (fun n => if fmt = 3 then dotFp lanes tile n else dotInt fmt lanes tile n)

/-- R94: a later pass adds into the entries. -/
def addRows (fp : Bool) (a b : List (List Nat)) : List (List Nat) :=
  (a.zip b).map (fun x => (x.1.zip x.2).map (fun y => if fp then f32Add y.1 y.2 else (y.1 + y.2) % 2 ^ 32))

/-! ### The Whisk (R97 to R100, Table LAD-8) -/

/-- The values of an entry between two operations: INT32 or FP32 words; the clamped values so far; free values taken. -/
structure WhiskVal where
  fp : Bool
  vals : List Nat
  sat : Nat := 0
  fresh : Nat
deriving DecidableEq, Repr

/-- 128 free values in the place of results the specification does not state. -/
def WhiskVal.free (w : WhiskVal) (fp : Bool) : WhiskVal :=
  { w with fp, vals := (List.range 128).map (fun n => Config.freeValue (w.fresh + n) % 2 ^ 32), fresh := w.fresh + 128 }

/-- R97: one requantised value, and whether it was clamped. ReLU acts before the zero point is added (DEDUCED, log 41). -/
def requant (op : WhiskOp) (mult zp : Int) (acc : Int) : Int × Bool :=
  let r := roundAway (acc * mult) (2 ^ op.shift)
  let y := zp + (if op.relu then max 0 r else r)
  (clampI op.qmin op.qmax y, decide (y < op.qmin ∨ op.qmax < y))

/-- REQUANT on an entry, with its parameter bytes: MULT[128] then ZP[128], 32 bits each (PRESUMED, log 41). The
specification gives it no meaning on FP32 values: those are free values, clamped. -/
def WhiskVal.requant (w0 : WhiskVal) (op : WhiskOp) (par : List Byte) : WhiskVal :=
  let w := if w0.fp then w0.free false else w0
  let ys := (w.vals.zip (List.range 128)).map (fun x =>
    Machine.requant op (toS 32 (leAt par (4 * x.2) 4)) (toS 32 (leAt par (512 + 4 * x.2) 4)) (toS 32 x.1))
  { w with fp := false, vals := ys.map (fun y => ofS 32 y.1), sat := w.sat + (ys.filter (fun y => y.2)).length }

/-- A value as FP32: INT32 is converted, where the conversion is exact, else a free value of its operand. -/
def toF32 (fp : Bool) (v : Nat) : Nat :=
  if fp then v
  else
    let w := f32.enc false (Fp.ofInt (toS 32 v))
    if (f32.dec w) = Fp.ofInt (toS 32 v) ∨ toS 32 v = 0 ∨ (toS 32 v).natAbs ≤ 2 ^ 24 then w else Config.freeFun 40 [v] % 2 ^ 32

/-- R98: the table activation in FP32, each written operation rounded. The contents of the four tables, X_MIN and X_SCALE are
not given (log 42): they are free values of the tile and the table. -/
def tableAct (tile : Nat) (op : WhiskOp) (x : Nat) : Nat :=
  let cfg (k : Nat) : Nat := Config.freeFun 43 [tile, op.table, k] % 2 ^ 32
  let t (i : Nat) : Nat := cfg (2 + i)
  let u := f32Mul (f32Sub x (cfg 0)) (cfg 1)
  match f32.decZ u with
  | .nan => f32.qnan
  | v =>
    if (Fp.ofInt 255).lt v then (if op.tailHi then x else t 255)
    else if v.lt (Fp.ofInt 0) then (if op.tailLo then 0 else t 0)
    else
      let i := min (((v.q?).map Q.floor).getD 0).toNat 254
      let f := f32Sub u (f32.enc false (Fp.ofInt i))
      f32Add (t i) (f32Mul f (f32Sub (t (i + 1)) (t i)))

/-- ADD, SUB and MUL with a Pantry operand, whose layout is not given: its values are free (log 42). INT32 wraps as R80. -/
def WhiskVal.elementwise (w : WhiskVal) (op : Nat) : WhiskVal :=
  let b := (w.free w.fp)
  let f (x y : Nat) : Nat :=
    if w.fp then (if op = 3 then f32Add x y else if op = 4 then f32Sub x y else f32Mul x y)
    else ofS 32 (if op = 3 then toS 32 x + toS 32 y else if op = 4 then toS 32 x - toS 32 y else toS 32 x * toS 32 y)
  { b with vals := (w.vals.zip b.vals).map (fun x => f x.1 x.2) }

/-- One operation of a Whisk list on an entry. Pooling, softmax and layer norm give results whose values or geometry the
specification bounds or leaves open: free values (log 42). -/
def WhiskVal.apply (w : WhiskVal) (tile : Nat) (op : WhiskOp) (par : List Byte) : WhiskVal :=
  if op.op = 1 then w.requant op par
  else if op.op = 2 then { w with fp := true, vals := w.vals.map (fun v => tableAct tile op (toF32 w.fp v)) }
  else if op.op = 3 ∨ op.op = 4 ∨ op.op = 5 then w.elementwise op.op
  else if op.op = 6 ∨ op.op = 7 then w.free w.fp
  else w.free true

/-- The bytes of parameters an operation reads: where it reads any of a stated layout. -/
def WhiskOp.parLen (op : WhiskOp) : Nat := if op.op = 1 then 1024 else 0

/-- A result in an output format: the value itself where the format holds it, else a free value of it (log 42). -/
def outVal (fmt : Nat) (fp : Bool) (v : Nat) : Nat :=
  let w := if fmt = 0 then 8 else if fmt = 1 then 4 else if fmt = 2 then 16 else 32
  let free := Config.freeFun 44 [fmt, b2n fp, v] % 2 ^ w
  if fmt ≤ 1 then
    match (if fp then (match f32.dec v with
        | .num _ q => if q.n % (q.d : Int) = 0 then some (q.n / (q.d : Int)) else none
        | _ => none) else some (toS 32 v)) with
    | some i => if -(2 ^ (w - 1) : Int) ≤ i ∧ i < 2 ^ (w - 1) then ofS w i else free
    | none => free
  else
    let word := toF32 fp v
    if fmt = 3 then word
    else if f32.dec word = .nan then bf16.qnan
    else if word % 65536 = 0 then word / 65536 else free

/-- A result is a NaN (R100). -/
def outNan (fmt v : Nat) : Bool :=
  if fmt = 2 then bf16.dec v == .nan else if fmt = 3 then f32.dec v == .nan else false

/-- 128 results as bytes. -/
def outBytes (fmt : Nat) (vs : List Nat) : List Byte :=
  if fmt = 0 then vs.map (BitVec.ofNat 8)
  else if fmt = 1 then (List.range (vs.length / 2)).map (fun i => BitVec.ofNat 8 (vs.getD (2 * i) 0 + 16 * vs.getD (2 * i + 1) 0))
  else vs.flatMap (toBytes (if fmt = 2 then 2 else 4))

end Sys2Proof.Machine
end

