-- ==== Sys2Proof/Machine/Kettle.lean ====
section
/-! DEFINITION. A Kettle cycle by cycle: choice of the next step, tile loads, flips, issue, drain, the Whisk, kills, and the cycle
counters (spec/03, R69 to R105; spec/05, R150 to R185). -/

namespace Sys2Proof.Machine

open Host

/-! ### The recipe of a slot -/

/-- The recipe a slot runs. -/
def State.slotRecipe (s : State) (x : Slot) : Option Recipe := (s.cmd x.cmd).bind (fun c => s.recipe c.desc.recipe)

/-- The rows of the batch in a slot (R184); 0 without a batch. -/
def State.batchRows (s : State) (x : Slot) : Nat :=
  match s.cmd x.cmd, s.slotRecipe x with
  | some c, some r => if c.batch.isSome then (s.members (c.batch.getD c.id)).length * r.fillRows else 0
  | _, _ => 0

/-- The recipe and the nest of a slot's next pass. -/
def State.nextNest (s : State) (x : Slot) : Option (Recipe × Nest) :=
  match s.slotRecipe x with
  | some r => if x.stage < r.nStages then some (r, r.nest x.stage x.part (s.batchRows x)) else none
  | none => none

/-- The commands in a slot: the batch's members, or the one command. -/
def State.team (s : State) (x : Slot) : List Nat :=
  match s.cmd x.cmd with
  | some c => if c.batch.isSome then (s.members (c.batch.getD c.id)).map (fun m => m.id) else [c.id]
  | none => []

/-- What is in a slot ends with a disposition (R186): records, then the kill of its slots. -/
def State.failSlot (s : State) (p n disp : Nat) : State :=
  match s.slot p n with
  | some x => ((s.team x).foldl (fun t i => t.close i disp) s).killCmd x.cmd
  | none => s

/-! ### Ranks, blocks and readiness -/

/-- R245: the RANK of a slot. -/
def State.rankOf (s : State) (p : Nat) (x : Slot) : Nat :=
  let on := (s.tile p).slots.filterMap (fun y => (s.cmd y.cmd).map (fun c => (y, c)))
  match s.cmd x.cmd with
  | some c =>
    if x.cls = 1 then
      min 127 (1 + (on.filter (fun y => y.1.cls == 1 && decide (y.2.desc.deadline < c.desc.deadline
        ∨ (y.2.desc.deadline = c.desc.deadline ∧ y.2.id < c.id)))).length)
    else if x.cls = 2 then
      min 255 (128 + (on.filter (fun y => y.1.cls == 2 && decide (y.2.fTag < c.fTag ∨ (y.2.fTag = c.fTag ∧ y.2.id < c.id)))).length)
    else 0
  | none => 0

/-- Blocks held on a tile, and blocks free (masks of eight). -/
def TileSt.blocksUsed (t : TileSt) : Nat := t.slots.foldl (fun m x => m ||| t.blocksOf x) 0
def TileSt.blocksFree (t : TileSt) : Nat := 255 - t.blocksUsed

/-- The lowest k blocks of a mask. -/
def lowBlocks : Nat → Nat → Nat
  | 0, _ => 0
  | k + 1, m =>
    match (List.range 8).find? (bitOf m) with
    | some i => setBit (lowBlocks k (clrBit m i)) i
    | none => 0

/-- R92: the blocks a chain of M vectors holds. -/
def blocksFor (m : Nat) : Nat := ceilDiv m 64

/-- The next pass opens a chain and its blocks are not free. -/
def State.lacksBlocks (s : State) (p : Nat) (x : Slot) : Bool :=
  match s.nextNest x with
  | some (_, n) => n.first x.pass && decide (popcount 8 (s.tile p).blocksFree < blocksFor n.m)
  | none => false

/-- Stage i's C-level transfer is complete (R177). -/
def xferDone (r : Recipe) (x : Slot) (i : Nat) : Bool := !r.hasC i || decide (i < x.xferNext)

/-- Halo rows that a part expects for a stage, and has received (R172, R177). -/
def haloNeed (r : Recipe) (i j : Nat) : Nat :=
  if r.halo i then
    (if j = 0 then 0 else ((r.part i (j - 1)).map (fun e => e.sendDn)).getD 0)
      + (if j + 1 < r.nParts then ((r.part i (j + 1)).map (fun e => e.sendUp)).getD 0 else 0)
  else 0
def haloHave (x : Slot) (i : Nat) : Nat := storeGet 0 x.haloRx i

/-- R177 but for the halo rows; and the halo rows. -/
def stageReady (r : Recipe) (x : Slot) : Bool := x.pass != 0 || (xferDone r x x.stage && decide (x.stage ≤ x.doneStages))
def haloReady (r : Recipe) (x : Slot) : Bool := x.pass != 0 || decide (haloNeed r x.stage x.part ≤ haloHave x x.stage)

/-- R76: the slot's next step is ready. -/
def State.stepReady (s : State) (p : Nat) (x : Slot) : Bool :=
  (x.st == 1 || x.st == 2) &&
  match s.nextNest x with
  | some (r, _) => stageReady r x && haloReady r x && (x.cls == 0 || !s.lacksBlocks p x)
  | none => false

/-- A stage is held only by R177's halo condition. -/
def State.haloHeld (s : State) (p : Nat) : Bool :=
  (s.tile p).slots.any (fun x => (x.st == 1 || x.st == 2) &&
    match s.nextNest x with
    | some (r, _) => stageReady r x && !haloReady r x
    | none => false)

/-! ### The timing of the chosen pass (R82 to R91) -/

/-- The chosen pass: its slot, its recipe and nest. -/
def State.chosenPass (s : State) (p : Nat) : Option (Slot × Recipe × Nest) :=
  match (s.tile p).chosen with
  | some n =>
    match s.slot p n with
    | some x => (s.nextNest x).map (fun y => (x, y.1, y.2))
    | none => none
  | none => none

/-- The bank of the next pass: opposite to that of the pass before it (R86). -/
def TileSt.nextBank (t : TileSt) : Nat := (t.prev.map (fun r => 1 - r.bank)).getD 0

/-- The start of the chosen pass's load: not before the choice, the row buses, R85 and R90 for BROADCAST, R87. -/
def TileSt.loadStart (t : TileSt) (ripple : Bool) : Nat :=
  match t.load with
  | some l => l
  | none =>
    let bc := match t.prev with
      | some r => if ripple then 0 else if r.ripple then r.first + 1 else r.first
      | none => 0
    let bank := match t.prev2 with
      | some r => r.final + 128
      | none => 0
    max (max t.chosenAt t.busFree) (max bc bank)

/-- The flip of a BROADCAST pass (R83), and the earliest first issue of the chosen pass (R84, R88). -/
def TileSt.flipAt (t : TileSt) : Nat :=
  max (match t.prev with
    | some r => r.final + 191
    | none => 0) (t.loadStart false + 64)
def TileSt.issueAt (t : TileSt) (ripple : Bool) : Nat :=
  if ripple then
    max (match t.prev with
      | some r => r.final + 1
      | none => 0) (t.loadStart true + 1)
  else t.flipAt + 1

/-- The cycle at which the chosen pass will issue; none where none is chosen or it waits for accumulator blocks. -/
def State.planned (s : State) (p : Nat) : Option Nat :=
  match s.chosenPass p with
  | some (x, _, n) => if s.lacksBlocks p x then none else some (max (s.tile p).cyc ((s.tile p).issueAt n.ripple))
  | none => none

/-- Time can run to a cycle: no pass is due to issue before it. -/
def State.canRun (s : State) (p c : Nat) : Bool :=
  match s.planned p with
  | some i => decide (c ≤ i)
  | none => true

/-! ### Cycle classes (Table KET-5) -/

/-- The class of a cycle: 0 ISSUE, 1 DRAIN, 2 RIPPLE_STALL, 3 FEED_WAIT, 4 KILL, 5 IDLE. `ripple`: the mode of the chosen pass. -/
def TileSt.classAt (t : TileSt) (ripple : Bool) (c : Nat) : Nat :=
  let inArray := t.prev.any (fun r => decide (c ≤ r.final + 191))
  if t.prev.any (fun r => decide (r.first ≤ c ∧ c ≤ r.final)) then 0
  else if t.chosen.isSome && decide (t.chosenAt ≤ c) then
    if !ripple && inArray then 1
    else if ripple && inArray && decide (c < t.issueAt true) then 2
    else 3
  else if t.flights.any (fun f => decide (c ≤ f.final + 191) && t.slots.any (fun x => x.num == f.slot && x.st == 3)) then 4
  else 5

/-- Where a class may change. -/
def TileSt.cuts (t : TileSt) (ripple : Bool) : List Nat :=
  ((t.prev.toList.flatMap (fun (r : PassRec) => [r.first, r.final + 1, r.final + 192])) ++ [t.chosenAt, t.issueAt ripple]
    ++ t.flights.map (fun (f : Flight) => f.final + 192)).mergeSort (fun a b => decide (a ≤ b))

/-- The spans between cuts from lo to hi: start and length. -/
def spans (lo hi : Nat) : List Nat → List (Nat × Nat)
  | [] => if lo < hi then [(lo, hi - lo)] else []
  | c :: cs => if lo < c ∧ c < hi then (lo, c - lo) :: spans c hi cs else spans lo hi cs

/-- The counter of a class. -/
def cycFld (k : Nat) : Fld :=
  if k = 0 then F.KT_ISSUE_CYC else if k = 1 then F.KT_DRAIN_CYC else if k = 2 then F.KT_RIPPLE_STALL_CYC
  else if k = 3 then F.KT_FEED_WAIT_CYC else if k = 4 then F.KT_KILL_CYC else F.KT_IDLE_CYC

/-- The mode of the chosen pass. -/
def State.chosenRipple (s : State) (p : Nat) : Bool := ((s.chosenPass p).map (fun y => y.2.2.ripple)).getD false

/-- R104, R105: every cycle before c is counted in one class. -/
def State.advance (s : State) (p c : Nat) : State :=
  let t := s.tile p
  if c ≤ t.cyc then s
  else
    let u := s.setTile { t with cyc := c }
    let v := if s.haloHeld p then u.inc F.KT_HALO_WAIT_CYC p 0 (c - t.cyc) else u
    if s.rdB F.KT_CNT_CTRL_FREEZE p 0 then v
    else
      let rp := s.chosenRipple p
      (spans t.cyc c (t.cuts rp)).foldl (fun w x => w.addW (cycFld (t.classAt rp x.1)) p 0 x.2) v

/-! ### HALTED -/

/-- HALT is set and the array is empty. -/
def State.halted (s : State) (p : Nat) : Bool :=
  let t := s.tile p
  s.rdB F.KT_CTRL_HALT p 0 && t.flights.isEmpty && t.chosen.isNone

/-- Event 3 when HALTED became 1. -/
def State.noteHalt (s0 s : State) (p : Nat) : State := if !s0.halted p && s.halted p then s.raise (0x010 + p) 3 else s

/-- A tile that runs: powered and not gated. -/
def State.tileRuns (s : State) (p : Nat) : Bool := s.pwr.mainOn && !s.tileGated p

/-! ### Choice (R76, R92, R93) -/

/-- R93: RUNNING non-U commands that hold blocks are killed, highest RANK first, then the higher slot, until the blocks that are
free or will be freed are enough. -/
def State.accKill (s : State) (p need : Nat) : Nat → State
  | 0 => s
  | n + 1 =>
    let t := s.tile p
    let freed := t.slots.foldl (fun m x => if x.st = 3 then m ||| t.blocksOf x else m) t.blocksFree
    if need ≤ popcount 8 freed then s
    else
      match leastBy (fun x : Slot => 65536 - (s.rankOf p x * 32 + x.num))
          (t.slots.filter (fun x => x.cls != 0 && x.st == 2 && t.blocksOf x != 0)) with
      | some x => ((s.killCmd x.cmd).inc F.SCH_URG_KILL_CNT 0 0).accKill p need n
      | none => s

/-- The slot that a choice takes: a U-class one first, then by RANK and number. -/
def State.choice (s : State) (p : Nat) : Option Slot :=
  let c := (s.tile p).slots.filter (s.stepReady p)
  let u := c.filter (fun x => x.cls == 0)
  leastBy (fun x => s.rankOf p x * 32 + x.num) (if u.isEmpty then c else u)

/-- STEP_CHOOSE: at the first issue cycle of the current pass, or once no pass is issuing, `wait` cycles on. -/
def State.stepChoose (s : State) (p wait : Nat) : State :=
  let t := s.tile p
  if !s.tileRuns p || !s.rdB F.KT_CTRL_EN p 0 || s.rdB F.KT_CTRL_HALT p 0 || t.chosen.isSome then s
  else
    let at_ := match t.prev with
      | some r => if t.cyc ≤ r.first + 1 then r.first else max t.cyc (r.final + 1) + wait
      | none => t.cyc + wait
    let s1 := s.advance p at_
    match s1.choice p with
    | some x =>
      let s2 := s1.setTile { s1.tile p with chosen := some x.num, chosenAt := at_, load := none, flip := none }
      if x.cls = 0 ∧ s2.lacksBlocks p x = true then
        s2.accKill p (((s2.nextNest x).map (fun y => blocksFor y.2.m)).getD 0) 32
      else s2
    | none => s

/-- STEP_CHOOSE. -/
def execStepChoose (tile : Fin 18) (wait : Nat) (s : State) : Outcome State Fault Refusal := .next (s.stepChoose tile.val wait)

/-! ### Load and flip -/

/-- TILE_LOAD_START: the chosen pass's tile load starts; it holds the row buses for 64 cycles (R82). -/
def State.tileLoad (s : State) (p : Nat) : State :=
  match s.chosenPass p with
  | some (_, _, n) =>
    let t := s.tile p
    if t.load.isSome then s
    else
      let l := t.loadStart n.ripple
      (s.setTile { t with load := some l, busFree := l + 64 }).advance p l
  | none => s

/-- TILE_LOAD_START. -/
def execTileLoadStart (tile : Fin 18) (s : State) : Outcome State Fault Refusal := .next (s.tileLoad tile.val)

/-- BANK_FLIP: a BROADCAST pass flips every cell at the later of the drain and the end of its load (R83). -/
def State.bankFlip (s : State) (p : Nat) : State :=
  match s.chosenPass p with
  | some (_, _, n) =>
    let t := s.tile p
    if n.ripple || t.load.isNone || t.flip.isSome then s
    else (s.setTile { t with flip := some t.flipAt }).advance p (t.flipAt + 1)
  | none => s

/-- BANK_FLIP. -/
def execBankFlip (tile : Fin 18) (s : State) : Outcome State Fault Refusal := .next (s.bankFlip tile.val)

/-! ### Issue -/

/-- R113: every granule of a range is tagged for the slot or SHARED. -/
def TileSt.tagOk (t : TileSt) (n ofs len : Nat) : Bool :=
  len == 0 || (List.range ((ofs + len - 1) / 16384 - ofs / 16384 + 1)).all (fun i =>
    let g := t.tag (ofs / 16384 + i)
    g == n || g == 0x3E)

/-- R113: a refused access: counted, its event raised, the command ends FAULT_RECIPE. -/
def State.tagViol (s : State) (p n : Nat) : State := ((s.inc F.KT_TAG_VIOL_CNT p 0).raise (0x010 + p) 7).failSlot p n 0x53

/-- A first poisoned place of a range of a Pantry. -/
def State.badPlace (s : State) (p ofs len : Nat) : Option Nat :=
  ((List.range len).map (fun k => pantryPlace p (ofs + k))).find? s.isPoison

/-- What the accesses of a slot meet: nothing, a tag violation, or poisoned data (R113, R118). -/
def State.accessFault (s : State) (p n : Nat) (rs : List (Nat × Nat)) : Option State :=
  if rs.any (fun r => !(s.tile p).tagOk n r.1 r.2) then some (s.tagViol p n)
  else
    match rs.findSome? (fun r => s.badPlace p r.1 r.2) with
    | some pl => some ((s.noteUE pl).failSlot p n 0x50)
    | none => none

/-- The vectors of the next pass: what feeds each. -/
def passSources (r : Recipe) (n : Nest) (q : Nat) : List VecSrc := (List.range n.m).map (r.vecSrc n q)

/-- The Pantry ranges a pass reads: its tile, and its slices. -/
def passReads (r : Recipe) (n : Nest) (q : Nat) : List (Nat × Nat) :=
  ((r.tileStart n q).toNat, 64 * fmtRow n.fmt) :: (passSources r n q).filterMap (fun v => match v with
    | .slice a _ => some (a.toNat, fmtSlice n.fmt)
    | .pad _ _ => none)

/-- The results of a pass: 128 sums a vector (R79 to R81, R158 to R163). -/
def State.passRows (s : State) (p : Nat) (r : Recipe) (n : Nest) (q : Nat) : List (List Nat) :=
  let tile := s.bytesAt (pantryPlace p (r.tileStart n q).toNat) (64 * fmtRow n.fmt)
  (passSources r n q).map (fun v => match v with
    | .slice a lanes => vecSums n.fmt tile (zeroFrom lanes (sliceLanes n.fmt (s.bytesAt (pantryPlace p a.toNat) (fmtSlice n.fmt))))
    | .pad value lanes => vecSums n.fmt tile (padLanes n.fmt value lanes))

/-- Start of service (Table CMD-4): at the first issue of the command's first step; a within-budget U-class start later than
25 us is counted (R254). Part 0 gives the record's Kettle. -/
def State.issueStart (s : State) (p part id : Nat) : State :=
  match s.cmd id with
  | some c =>
    let s1 := if c.started.isSome then s else s.startService id
    let s2 := if part = 0 then s1.updCmd id (fun x => { x with kettle := p + 32 * s.rd F.SK_STAT_CAB_ID 0 0 }) else s1
    if c.desc.cls = 0 ∧ c.everStarted = false ∧ c.waitedUrgent = false then
      let d := s.now - c.consumedAt
      let s3 := s2.wr F.SCH_URG_START_MAX 0 0 (max (s2.rd F.SCH_URG_START_MAX 0 0) (min d 0xFFFFFFFF))
      if 25000 < d then (s3.inc F.SCH_URG_LATE_START_CNT 0 0).raise 0x005 2 else s3
    else s2
  | none => s

/-- The records of a tile after a pass has issued at cycle c0. -/
def TileSt.issued (t : TileSt) (x : Slot) (r : Recipe) (n : Nest) (c0 : Nat) (rows : List (List Nat)) : TileSt :=
  let q := x.pass
  let per := if n.fmt = 3 then 4 else 1
  let final := c0 + n.m * per - 1
  let fp := n.fmt == 3
  let held := if n.first q then lowBlocks (blocksFor n.m) t.blocksFree else x.blocks
  let acc := if n.first q then rows else addRows fp x.acc rows
  let stageEnd := q + 1 == n.passes
  let last := n.last q
  let whisk := !(r.whisk x.stage).isEmpty
  let y := { x with st := 2, steps := x.steps + 1, stage := if stageEnd then x.stage + 1 else x.stage,
                    pass := if stageEnd then 0 else q + 1, issuedStages := max x.issuedStages (x.stage + 1),
                    blocks := if last then 0 else held, acc := if last then [] else acc }
  let ro : List Readout := if last && whisk then
      [{ slot := x.num, cmd := x.cmd, first := c0, per, stage := x.stage, blocks := held, rows := acc, fp,
         addrs := (List.range n.m).map (fun m => (r.outAddr n q m).toNat), lastPass := stageEnd }] else []
  { t with
      slots := updWhere (fun z => z.num == x.num) (fun _ => y) t.slots
      chosen := none, load := none, flip := none, prev2 := t.prev
      prev := some { slot := x.num, bank := t.nextBank, ripple := n.ripple, first := c0, final }
      flights := t.flights ++ [{ slot := x.num, first := c0, final, ends := stageEnd && x.stage + 1 == r.nStages && !whisk }]
      readouts := t.readouts ++ ro }

/-- PASS_ISSUE: the chosen pass issues its first vector at the cycle its interlocks give (R83 to R91), once its accumulator
blocks are free. -/
def State.passIssue (s : State) (p : Nat) : State :=
  match s.chosenPass p, s.planned p with
  | some (x, r, n), some c0 =>
    let t := s.tile p
    if t.load.isNone || (!n.ripple && t.flip.isNone) || !s.tileRuns p then s
    else
      let s1 := s.advance p c0
      match s1.accessFault p x.num (passReads r n x.pass) with
      | some f => f
      | none =>
        let rows := s1.passRows p r n x.pass
        let pads := ((passSources r n x.pass).filter (fun v => match v with
          | .pad _ _ => true
          | .slice _ _ => false)).length
        let s2 := s1.setTile ((s1.tile p).issued x r n c0 rows)
        let s3 := (s2.ktCount F.KT_PASS_CNT p).inc F.KT_PAD_VEC_CNT p 0 pads
        let s4 := if x.st = 1 then (s3.team x).foldl (fun u i => u.issueStart p x.part i) s3 else s3
        s4.advance p (c0 + 1)
  | _, _ => s

/-- PASS_ISSUE. -/
def execPassIssue (tile : Fin 18) (s : State) : Outcome State Fault Refusal := .next (s.passIssue tile.val)

/-! ### Drain, readout, write -/

/-- Stage i's last Whisk write is performed (R177); at the last stage the slot is COMMITTING (Table KET-1). -/
def Slot.stageDone (x : Slot) (r : Recipe) (i : Nat) : Slot :=
  { x with doneStages := max x.doneStages (i + 1), st := if x.st = 2 ∧ i + 1 = r.nStages then 4 else x.st }

/-- PASS_DRAIN: the last result of the oldest pass in the array is written at t + 191. -/
def State.passDrain (s : State) (p : Nat) : State :=
  let t := s.tile p
  match t.flights with
  | f :: rest =>
    if s.canRun p (f.final + 192) then
      let s1 := s.advance p (f.final + 192)
      let s2 := s1.setTile { s1.tile p with flights := rest }
      let s3 := if f.ends then s2.updSlot p f.slot (fun x => if x.st = 2 then { x with st := 4 } else x) else s2
      s.noteHalt s3 p
    else s
  | [] => s

/-- PASS_DRAIN. -/
def execPassDrain (tile : Fin 18) (s : State) : Outcome State Fault Refusal := .next (s.passDrain tile.val)

/-- WHISK_READ: the oldest readout with an entry left is read, no earlier than s + m + 192 (R95). A parity error ends the command
FAULT_ECC (R96). With the last entry read the chain's blocks are free (R92). -/
def State.whiskRead (s : State) (p : Nat) (parity : Bool) : State :=
  match (s.tile p).readouts.find? (fun r => decide (r.readN < r.rows.length)) with
  | some r =>
    let c := r.first + r.readN * r.per + (r.per - 1) + 192
    if s.canRun p (c + 1) then
      let s1 := s.advance p (c + 1)
      if parity then ((s1.raise (0x010 + p) 2).failSlot p r.slot 0x50).canaryAtOnce p
      else
        let t := s1.tile p
        let same (y : Readout) : Bool := y.slot == r.slot && y.first == r.first
        let upd (y : Readout) : Readout :=
          { y with readN := y.readN + 1, blocks := if y.readN + 1 = y.rows.length then 0 else y.blocks }
        s1.setTile { t with readouts := updWhere same upd t.readouts }
    else s
  | none => s

/-- WHISK_READ. -/
def execWhiskRead (tile : Fin 18) (parity : Bool) (s : State) : Outcome State Fault Refusal := .next (s.whiskRead tile.val parity)

/-- R190, R191: the output ranges that a write of the FINAL stage covers, and whether a block of it lies outside the declared
regions or the window. -/
def State.coverOf (s : State) (x : Slot) (r : Recipe) (addr len : Nat) : List (Nat × Nat) × Bool :=
  let rows := s.batchRows x
  let o := addr - r.wbBase
  let po := r.partOut x.part
  let per := r.fillRows * r.fillRowOut
  let base := if rows = 0 then po.1 + o else o
  let fits := decide (r.wbBase ≤ addr) && decide (o + len ≤ (if rows = 0 then po.2 else rows * r.fillRowOut))
  let inRegion (b : Nat) : Bool :=
    let c := if rows = 0 ∨ per = 0 then b else b % per
    r.regions.any (fun g => decide (g.1 ≤ c ∧ c < g.1 + g.2))
  ([(base, len)], !fits || (List.range len).any (fun k => !inRegion (base + k)))

/-- Bytes stored in a Pantry; a narrow write of a poisoned word leaves it poisoned and counts (R111). -/
def State.pantryStore (s : State) (p ofs : Nat) (bs : List Byte) (bad : Bool) : State :=
  let ps := (List.range bs.length).map (fun k => pantryPlace p (ofs + k))
  let t := match ps.find? (fun a => s.isPoison a && !wholeWord ps a) with
    | some a => s.noteUE a
    | none => s
  t.putPlaces ps bad ps bs

/-- The result of an entry: the operations of the list in order; only the last one writes (R189). -/
def State.whiskRow (s : State) (p : Nat) (r : Recipe) (o : Readout) (row : List Nat) : WhiskVal :=
  (r.whisk o.stage).foldl (fun w op => w.apply p op (s.bytesAt (pantryPlace p op.param) op.parLen))
    { fp := o.fp, vals := row, fresh := s.fresh }

/-- WHISK_WRITE: the oldest result read and not yet written goes to the Pantry; the stage's last write lets the next stage start,
the command's last moves its slot to COMMITTING. -/
def State.whiskWrite (s : State) (p : Nat) : State :=
  match (s.tile p).readouts.find? (fun r => decide (r.written < r.readN)) with
  | some o =>
    match s.slot p o.slot with
    | some x =>
      match s.slotRecipe x with
      | some r =>
        let fmt := r.stageFmt o.stage
        let addr := o.addrs.getD o.written 0
        let params := ((r.whisk o.stage).filter (fun w => w.parLen != 0)).map (fun w => (w.param, w.parLen))
        match s.accessFault p x.num params with
        | some f => f
        | none =>
          let w := s.whiskRow p r o (o.rows.getD o.written [])
          let outs := w.vals.map (outVal fmt w.fp)
          let bs := outBytes fmt outs
          if !(s.tile p).tagOk x.num addr bs.length then s.tagViol p x.num
          else
            let s1 := ({ s with fresh := w.fresh }).pantryStore p addr bs false
            let s2 := s1.inc F.KT_WHISK_SAT_CNT p 0 w.sat
            let nan := outs.any (outNan fmt)
            let s3 := if nan && !s2.rdB F.KT_WHISK_STAT_NAN_SEEN p 0 then (s2.wr F.KT_WHISK_STAT_NAN_SEEN p 0 1).raise (0x010 + p) 4
              else s2
            let cov : List (Nat × Nat) × Bool := if r.finalStage o.stage then s3.coverOf x r addr bs.length else ([], false)
            let t := s3.tile p
            let fin := o.written + 1 == o.rows.length
            let same (y : Readout) : Bool := y.slot == o.slot && y.first == o.first
            let ros := if fin then t.readouts.filter (fun y => !same y)
              else updWhere same (fun y => { y with written := y.written + 1 }) t.readouts
            let upd (y : Slot) : Slot :=
              let z := { y with wrote := cov.1 ++ y.wrote, outside := y.outside || cov.2 }
              if fin && o.lastPass then z.stageDone r o.stage else z
            s3.setTile { t with readouts := ros, slots := updWhere (fun y => y.num == x.num) upd t.slots }
      | none => s
    | none => s
  | none => s

/-- WHISK_WRITE. -/
def execWhiskWrite (tile : Fin 18) (s : State) : Outcome State Fault Refusal := .next (s.whiskWrite tile.val)

/-! ### Kills -/

/-- KILL: after `wait` cycles a kill for rerun reaches a slot, and every part of its command with it (R101, R168). -/
def State.killArrive (s : State) (p n wait : Nat) : State :=
  match s.slot p n with
  | some x =>
    let c := match s.planned p with
      | some i => min i ((s.tile p).cyc + wait)
      | none => (s.tile p).cyc + wait
    (s.advance p c).killCmd x.cmd
  | none => s

/-- KILL. -/
def execKill (tile : Fin 18) (n : Fin 32) (wait : Nat) (s : State) : Outcome State Fault Refusal :=
  .next (s.killArrive tile.val n.val wait)

/-- KILL_COMPLETE: the last vector of a KILLING slot leaves the array, its halo writes are acknowledged (R174), and the slot is
freed (R260). -/
def State.killDone (s : State) (p n : Nat) : State :=
  match s.slot p n with
  | some x =>
    let t := s.tile p
    let gone := (t.flights.filter (fun f => f.slot == n)).foldl (fun m f => max m (f.final + 192)) 0
    if x.st = 3 ∧ x.haloOut = [] ∧ s.canRun p gone = true then
      let s1 := s.advance p gone
      let s2 := s1.setTile { s1.tile p with flights := (s1.tile p).flights.filter (fun f => f.slot != n) }
      s.noteHalt ((s2.slotFree p n).raise (0x010 + p) 0) p
    else s
  | none => s

/-- KILL_COMPLETE. -/
def execKillComplete (tile : Fin 18) (n : Fin 32) (s : State) : Outcome State Fault Refusal := .next (s.killDone tile.val n.val)

/-! ### CNT_CTRL -/

/-- A CNT_CTRL write: FREEZE is stored, CLEAR zeroes the counters of Table KET-7. -/
def State.cntCtrl (s : State) (p v : Nat) : State :=
  let s1 := s.wr F.KT_CNT_CTRL_FREEZE p 0 (bitsOf v 0 1)
  if bitOf v 1 then
    [F.KT_ISSUE_CYC, F.KT_DRAIN_CYC, F.KT_RIPPLE_STALL_CYC, F.KT_FEED_WAIT_CYC, F.KT_KILL_CYC, F.KT_IDLE_CYC, F.KT_PASS_CNT,
      F.KT_KILL_CNT].foldl (fun t f => t.wr f p 0 0) s1
  else s1

/-- KETTLE_CNT_CLEAR: a write of CNT_CTRL with CLEAR = 1. -/
def execKettleCntClear (tile : Fin 18) (freeze : Bool) (s : State) : Outcome State Fault Refusal :=
  .next (s.reach (0x010 + tile.val) (fun t => t.cntCtrl tile.val (b2n freeze + 2)))

/-- A KT_CTRL write: EN from 0 to 1 finds both banks unused (R91); HALT. -/
def State.ktCtrl (s : State) (p v : Nat) : State :=
  let s1 := if bitOf v 0 && !s.rdB F.KT_CTRL_EN p 0 then s.setTile { s.tile p with prev := none, prev2 := none } else s
  s.noteHalt ((s1.wr F.KT_CTRL_EN p 0 (bitsOf v 0 1)).wr F.KT_CTRL_HALT p 0 (bitsOf v 1 1)) p

end Sys2Proof.Machine
end

