-- ==== Sys2Proof/Machine/Memory.lean ====
section
/-! DEFINITION. C-level transfers and halo exchange (spec/05, R151, R152, R170 to R177, R184), Pantry arbitration, the vault
controllers, the interleave windows and the Larder (spec/04, R106 to R138). -/

namespace Sys2Proof.Machine

open Host

/-! ### C-level transfers -/

/-- The stage whose transfer is next. -/
def nextXfer (r : Recipe) (x : Slot) : Option Nat :=
  (List.range r.nStages).find? (fun i => decide (x.xferNext ≤ i) && r.hasC i)

/-- The runs of a stage's transfer: the argument address and the advance of the destination, one for each batch member in a
stage with the FILL flag (R184). -/
def State.xferRuns (s : State) (x : Slot) (r : Recipe) (i : Nat) : List (Nat × Nat) :=
  let team := (s.team x).filterMap s.cmd
  if r.fill i ∧ s.batchRows x ≠ 0 then
    (team.zip (List.range team.length)).map (fun m => (m.1.desc.arg, m.2 * r.fillRows * r.fillRowIn))
  else (team.take 1).map (fun c => (c.desc.arg, 0))

/-- Every move of the transfer: source address and Pantry destination (R151, R152, R170). -/
def State.xferMoves (s : State) (x : Slot) (r : Recipe) (i : Nat) : List (Nat × Nat) :=
  let o := r.stageAt i 4 4
  let sp := r.nspace o 0
  (s.xferRuns x r i).flatMap (fun run =>
    (List.range (r.cIters i x.part)).map (fun k =>
      let m := r.cMove i x.part k
      ((m.1 + (if sp = 1 then (r.constBase : Int) else if sp = 2 then (run.1 : Int) else 0)).toNat, m.2.toNat + run.2)))

/-- The moves performed in order; the first that faults ends the command (R113, R118, R147, R289). -/
def State.runMoves (s : State) (p n : Nat) (dom : Option Nat) (len : Nat) : List (Nat × Nat) → State
  | [] => s
  | (src, dst) :: t =>
    let r := s.cmdRead ((s.slot p n).map (fun x => x.cmd)) dom src len
    match r.2 with
    | .fault d => r.1.failSlot p n d
    | .bytes bs =>
      if !(r.1.tile p).tagOk n dst len then r.1.tagViol p n
      else (r.1.pantryStore p dst bs false).runMoves p n dom len t

/-- CLEVEL_XFER_START: one at a time, in stage order, after the first issue of stage i - 1 - LEAD (R176). -/
def State.xferStart (s : State) (p n : Nat) : State :=
  match s.slot p n with
  | some x =>
    match s.slotRecipe x with
    | some r =>
      match nextXfer r x with
      | some i =>
        if (x.st = 1 ∨ x.st = 2) ∧ x.xferBusy = false ∧ (i ≤ r.lead i ∨ i - 1 - r.lead i < x.issuedStages) then
          let s1 := (s.updSlot p n (fun y => { y with xferBusy := true })).wr F.KT_LD_XFER_BUSY p 0
            (setBit (s.rd F.KT_LD_XFER_BUSY p 0) n)
          let dom := (s.cmd x.cmd).bind s.cmdDom
          s1.runMoves p n dom (r.run64 (r.stageAt i 4 4) * 64) (s.xferMoves x r i)
        else s
      | none => s
    | none => s
  | none => s

/-- CLEVEL_XFER_START. -/
def execClevelXferStart (tile : Fin 18) (n : Fin 32) (s : State) : Outcome State Fault Refusal :=
  .next (s.xferStart tile.val n.val)

/-- CLEVEL_XFER_DONE: the transfer in progress completes; its bytes are counted. -/
def State.xferEnd (s : State) (p n : Nat) : State :=
  match s.slot p n with
  | some x =>
    if x.xferBusy then
      let s1 := s.wr F.KT_LD_XFER_BUSY p 0 (clrBit (s.rd F.KT_LD_XFER_BUSY p 0) n)
      match s.slotRecipe x with
      | some r =>
        match nextXfer r x with
        | some i =>
          (s1.updSlot p n (fun y => { y with xferBusy := false, xferNext := i + 1 })).addW F.KT_XFER_BYTES p 0
            (r.cBytes i x.part * (s.xferRuns x r i).length)
        | none => s1
      | none => s1.updSlot p n (fun y => { y with xferBusy := false })
    else s
  | none => s

/-- CLEVEL_XFER_DONE. -/
def execClevelXferDone (tile : Fin 18) (n : Fin 32) (s : State) : Outcome State Fault Refusal :=
  .next (s.xferEnd tile.val n.val)

/-! ### Halo exchange (R172 to R174) -/

/-- The slot that runs part j of a command: tile and slot. -/
def State.partSlot (s : State) (cmd j : Nat) : Option (Nat × Slot) :=
  s.tiles.findSome? (fun t => (t.slots.find? (fun x => x.cmd == cmd && x.part == j)).map (fun x => (t.num, x)))

/-- One halo row of global number g goes to the neighbour's local buffer, checked against its slot (R113, R146). -/
def State.haloRow (s : State) (p n : Nat) (x : Slot) (r : Recipe) (i j g : Nat) : State :=
  let o := r.stageAt i 0 4
  let pitch := r.winW o 5
  let iy (k : Nat) : Int := ((r.part i k).map (fun e => e.iy0)).getD 0
  let local_ (k : Nat) : Nat := ((r.nbase o 0 : Int) + ((g : Int) - iy k) * pitch).toNat
  match s.partSlot x.cmd j with
  | some (q, y) =>
    let src := pantryPlace p (local_ x.part)
    let bad := (List.range pitch).any (fun k => s.isPoison (src + k))
    if !(s.tile q).tagOk y.num (local_ j) pitch then s.tagViol q y.num
    else
      let s1 := (s.pantryStore q (local_ j) (s.bytesAt src pitch) bad).updSlot p n
        (fun z => { z with haloOut := z.haloOut ++ [(q, y.num, i)] })
      (s1.wr F.KT_LD_HALO_PEND_COUNT p 0 (s1.rd F.KT_LD_HALO_PEND_COUNT p 0 + 1)).inc F.KT_HALO_TX_BYTES p 0 pitch
  | none => s

/-- HALO_SEND: the rows of the next halo stage, once the part's last Whisk write of the stage before is performed. -/
def State.haloSend (s : State) (p n : Nat) : State :=
  match s.slot p n with
  | some x =>
    match s.slotRecipe x with
    | some r =>
      match (List.range r.nStages).find? (fun i => decide (x.haloSent < i) && r.halo i) with
      | some i =>
        if x.st = 2 ∧ i ≤ x.doneStages then
          match r.part i x.part, r.part (i - 1) x.part with
          | some e, some b =>
            let up := if x.part = 0 then [] else (List.range e.sendUp).map (fun k => (x.part - 1, b.oy0 + k))
            let dn := if x.part + 1 < r.nParts then
              (List.range e.sendDn).map (fun k => (x.part + 1, b.oy0 + b.ohPart - e.sendDn + k)) else []
            (up ++ dn).foldl (fun t m => t.haloRow p n x r i m.1 m.2) (s.updSlot p n (fun y => { y with haloSent := i }))
          | _, _ => s
        else s
      | none => s
    | none => s
  | none => s

/-- HALO_SEND. -/
def execHaloSend (tile : Fin 18) (n : Fin 32) (s : State) : Outcome State Fault Refusal := .next (s.haloSend tile.val n.val)

/-- HALO_ACK: the oldest halo write of a slot is acknowledged: the row is there, LD_HALO_PEND falls. -/
def State.haloAck (s : State) (p n : Nat) : State :=
  match s.slot p n with
  | some x =>
    match x.haloOut with
    | (q, m, i) :: rest =>
      let s1 := (s.updSlot p n (fun y => { y with haloOut := rest })).updSlot q m
        (fun y => if y.cmd = x.cmd then { y with haloRx := storeSet 0 y.haloRx i (storeGet 0 y.haloRx i + 1) } else y)
      s1.wr F.KT_LD_HALO_PEND_COUNT p 0 (s1.rd F.KT_LD_HALO_PEND_COUNT p 0 - 1)
    | [] => s
  | none => s

/-- HALO_ACK. -/
def execHaloAck (tile : Fin 18) (n : Fin 32) (s : State) : Outcome State Fault Refusal := .next (s.haloAck tile.val n.val)

/-! ### Pantry arbitration (R106 to R118) -/

/-- R108: the request that a bank serves: rank 1; then one of rank 3 to 6 that has waited 8 cycles; then by rank. Among equals,
the one that came first. -/
def arbitrate (l : List (Nat × Nat × PantryReq)) : Option (Nat × Nat × PantryReq) :=
  match l.find? (fun x => x.2.2.rank.val == 1) with
  | some x => some x
  | none =>
    match l.find? (fun x => decide (3 ≤ x.2.2.rank.val) && decide (8 ≤ x.2.1)) with
    | some x => some x
    | none => leastBy (fun x => x.2.2.rank.val) l

/-- A served access: checked by tag (R113, R114), performed, its ECC acted on (R111, R117, R118). -/
def State.pantryServe (s : State) (p : Nat) (q : PantryReq) : State :=
  let ofs := q.ofs.toNat
  let bank := ofs / 64 % 32
  let len := min 64 (match q.write with
    | some bs => bs.length
    | none => q.len)
  let slot := if q.rank.val = 6 then none else q.slot.map (fun n => n.val)
  if slot.any (fun n => !(s.tile p).tagOk n ofs len) then s.tagViol p (slot.getD 0)
  else
    let ps := (List.range len).map (fun k => pantryPlace p (ofs + k))
    let hit := (ps.head?).getD (pantryPlace p ofs)
    let s1 := if q.ecc.val = 1 then (s.noteCE hit).pantryCe p bank
      else if q.ecc.val = 2 then s.setPoison hit true else s
    match q.write with
    | some bs =>
      let s2 := s1.pantryStore p ofs (bs.take len) false
      if q.ecc.val = 2 ∧ wholeWord ps hit = false then s2.repairUnit p true bank 1 else s2
    | none =>
      let s2 := if q.rank.val = 6 then { s1 with rdata := ofBytes (ps.map s1.byteAt), rerr := ps.any s1.isPoison } else s1
      match ps.find? s2.isPoison with
      | some pl =>
        let s3 := s2.noteUE pl
        let s4 := if q.ecc.val = 2 then s3.repairUnit p true bank 1 else s3
        match slot with
        | some n => if q.rank.val = 2 then s4 else s4.failSlot p n 0x50
        | none => s4
      | none => s2

/-- PANTRY_ACCESS: the requests that arrive at a bank join those that wait there, and the bank serves one; `same`: in the
Kettle cycle of the tile's last PANTRY_ACCESS. -/
def State.pantryAccess (s : State) (p bank : Nat) (arrive : List PantryReq) (same : Bool) : State :=
  if !s.tileRuns p then s
  else
    let t := s.tile p
    let news := (arrive.filter (fun q => q.rank.val != 0 && q.ofs.toNat / 64 % 32 == bank
      && decide (q.ofs.toNat % 64 + (match q.write with
        | some bs => bs.length
        | none => q.len) ≤ 64))).map (fun q => (bank, 0, q))
    let here := t.waiting.filter (fun x => x.1 == bank) ++ news
    let others := t.waiting.filter (fun x => x.1 != bank)
    match arbitrate here with
    | some x =>
      let left := (here.erase x).map (fun y => (y.1, y.2.1 + 1, y.2.2))
      let waits := left.any (fun y => decide (3 ≤ y.2.2.rank.val))
      let counted := same && t.waited
      let s1 := s.setTile { t with waiting := others ++ left, waited := counted || waits }
      let s2 := if waits && !counted then s1.inc F.KT_BANK_WAIT_CYC p 0 else s1
      s2.pantryServe p x.2.2
    | none => s

/-- PANTRY_ACCESS. -/
def execPantryAccess (tile : Fin 18) (bank : Fin 32) (arrive : List PantryReq) (same : Bool) (s : State) :
    Outcome State Fault Refusal :=
  .next (s.pantryAccess tile.val bank.val arrive same)

/-! ### Vault controllers (Table CEL-4, R123 to R129) -/

/-- A vault controller goes from one state to another. -/
def State.vaultMove (s : State) (v from_ to_ : Nat) (k : State → State) : State :=
  if s.pwr.mainOn && s.rd F.VC_STAT_STATE v 0 == from_ then k (s.wr F.VC_STAT_STATE v 0 to_) else s

/-- VAULT_INIT_DONE: INIT to ACTIVE; the vault of a tile that is not RETIRED leaves OFF for INIT as the main domain powers up. -/
def execVaultInitDone (v : Fin 18) (s : State) : Outcome State Fault Refusal :=
  .next (if s.rd F.VC_STAT_STATE v.val 0 = 0 ∧ s.rd F.RP_TILE_STAT_STATE 0 v.val ≠ 2 then s.vaultMove v.val 0 2 id else s.vaultMove v.val 1 2 id)

/-- VAULT_SR_ENTRY: SR_ALLOW = 1 and the own Kettle gated, after 1 ms without access. -/
def execVaultSrEntry (v : Fin 18) (s : State) : Outcome State Fault Refusal :=
  .next (if s.rdB F.VC_CTRL_SR_ALLOW v.val 0 && s.tileGated v.val then s.vaultMove v.val 2 3 id else s)

/-- VAULT_SR_ENTERED: SR_ENTERING to SELF_REFRESH. -/
def execVaultSrEntered (v : Fin 18) (s : State) : Outcome State Fault Refusal :=
  .next (s.vaultMove v.val 3 4 (fun t => t.inc F.VC_SR_ENTRY_CNT v.val 0))

/-- VAULT_SR_EXIT: an access arrives, not in REST (R127). -/
def execVaultSrExit (v : Fin 18) (s : State) : Outcome State Fault Refusal :=
  .next (s.vaultMove v.val 4 5 (fun t => t.raise (0x030 + v.val) 4))

/-- VAULT_SR_EXITED: SR_EXITING to ACTIVE. -/
def execVaultSrExited (v : Fin 18) (s : State) : Outcome State Fault Refusal := .next (s.vaultMove v.val 5 2 id)

/-- TEMP_BAND_CHANGE (R123). -/
def execTempBandChange (v : Fin 18) (band : Fin 3) (temp : BitVec 8) (s : State) : Outcome State Fault Refusal :=
  .next (if s.pwr.mainOn then
    let t := (s.wr F.VC_TEMP v.val 0 temp.toNat).wr F.VC_STAT_TEMP_BAND v.val 0 band.val
    if s.rd F.VC_STAT_TEMP_BAND v.val 0 = band.val then t else t.raise (0x030 + v.val) 2
  else s)

/-- SCRUB_PASS: every word of the vault is read once; `ce` words are corrected, those of `bad` are found uncorrectable and
marked poisoned (R125, R126). -/
def State.scrubPass (s : State) (v ce : Nat) (bad : List Nat) : State :=
  if s.pwr.mainOn && s.rdB F.VC_CTRL_SCRUB_EN v 0 && s.rd F.VC_STAT_STATE v 0 == 2 then
    let s1 := (s.inc F.VC_SCRUB_PASS_CNT v 0).raise (0x030 + v) 3
    let s2 := if ce = 0 then s1 else (s1.inc F.VC_ECC_CE_CNT v 0 ce).raise (0x030 + v) 0
    (bad.foldl (fun t o => (t.setPoison (vaultPlace v o) true).noteUE (vaultPlace v o)) s2) |> fun t =>
      if bad = [] then t else t.vaultUe v
  else s

/-- SCRUB_PASS. -/
def execScrubPass (v : Fin 18) (ce : Nat) (bad : List (BitVec 30)) (s : State) : Outcome State Fault Refusal :=
  .next (s.scrubPass v.val ce (bad.map (fun b => b.toNat)))

/-! ### Interleave windows (R130 to R134) and the Larder (R138) -/

/-- R132: what an enabled window must satisfy. -/
def State.windowOk (s : State) (w v : Nat) : Bool :=
  let cnt := bitsOf v 4 3
  decide (bitsOf v 0 4 + 2 ^ cnt ≤ 16) && decide (cnt ≤ 4) && decide (bitsOf v 8 4 ≤ 8)
    && decide (1 ≤ s.rd F.TV_IWIN_LEN 0 w) && decide (s.rd F.TV_IWIN_OFS 0 w + s.rd F.TV_IWIN_LEN 0 w ≤ 1024)

/-- An IWIN_CFG write (R132, R133). -/
def State.iwinWrite (s0 : State) (w v : Nat) : State :=
  let s := s0.lockWord F.TV_IWIN_CFG_EN 0 w v
  if s.rdB F.TV_IWIN_CFG_EN 0 w && bitOf v 31 then s
  else
    let t := ((s.wr F.TV_IWIN_CFG_FIRST 0 w (bitsOf v 0 4)).wr F.TV_IWIN_CFG_COUNT_LOG2 0 w (bitsOf v 4 3)).wr
      F.TV_IWIN_CFG_GRAN_LOG2 0 w (bitsOf v 8 4)
    if !bitOf v 31 then t.wr F.TV_IWIN_CFG_EN 0 w 0
    else if s.windowOk w v then t.wr F.TV_IWIN_CFG_EN 0 w 1
    else (t.wr F.TV_IWIN_STAT_CFG_ERR 0 w 1).raise 0x050 5

/-- IWIN_ENABLE: a write of IWIN_CFG with EN = 1. -/
def execIwinEnable (w : Fin 8) (v : Word) (s : State) : Outcome State Fault Refusal :=
  .next (s.reach 0x050 (fun t => t.iwinWrite w.val (setBit v.toNat 31)))

/-- IWIN_DISABLE: a write of IWIN_CFG with EN = 0. -/
def execIwinDisable (w : Fin 8) (v : Word) (s : State) : Outcome State Fault Refusal :=
  .next (s.reach 0x050 (fun t => t.iwinWrite w.val (clrBit v.toNat 31)))

/-- LARDER_INIT_DONE: every Larder word is zero (R138). -/
def execLarderInitDone (s : State) : Outcome State Fault Refusal :=
  .next (if s.pwr.mainOn && !s.rdB F.TV_STAT_LARDER_INIT_DONE 0 0 then
    ((s.forget larderBase (larderBase + 0x1000000)).wr F.TV_STAT_LARDER_INIT_DONE 0 0 1).raise 0x050 6
  else s)

end Sys2Proof.Machine
end

