-- ==== Sys2Proof/Machine/View.lean ====
section
/-! DEFINITION. What a register field reads as (spec/21, R683 to R689; the register tables of every chapter): its stored value, or what the
device's state gives it. -/

namespace Sys2Proof.Machine

/-- BLK_ID.KIND: the first page of the block kind. -/
def pageKind (page : Nat) : Nat :=
  if 0x100 ≤ page then 0x100 else if 0x010 ≤ page ∧ page ≤ 0x021 then 0x010 else if 0x030 ≤ page ∧ page ≤ 0x041 then 0x030
  else if 0x060 ≤ page ∧ page ≤ 0x06F then 0x060 else if page = 0x071 then 0x070 else if page = 0x0B2 then 0x0B1 else page

/-- Table REG-2: BLK_CAP0 and BLK_CAP1. Spare columns and spare banks unmapped follow the maps of the tile. -/
def State.blkCap (s : State) (page : Nat) : Nat × Nat :=
  if 0x010 ≤ page ∧ page ≤ 0x021 then
    let p := page - 0x010
    let cols := ((List.range 4).filter (fun j => !bitOf (s.rd F.RP_COLMAP 0 p) (8 * j + 7))).length
    let banks := ((List.range 2).filter (fun j => !bitOf (s.rd F.RP_BANKMAP 0 p) (7 * j + 5))).length
    (128 + cols * 2 ^ 8 + banks * 2 ^ 16, 8 + 32 * 2 ^ 8)
  else if 0x030 ≤ page ∧ page ≤ 0x041 then (1024, 8)
  else if 0x060 ≤ page ∧ page ≤ 0x06F then (4 + 4 * 2 ^ 4, 2500)
  else if page = 0x070 ∨ page = 0x071 then (64 + 3 * 2 ^ 8, 1200)
  else if page = 0x078 then (16 + 4 * 2 ^ 8 + 8 * 2 ^ 16, 0)
  else if page = 0x07C then (256 + 64 * 2 ^ 16, 8)
  else if page = 0x0A0 ∨ page = 0x0A1 ∨ page = 0x0B8 then (8, 0)
  else if page = 0x007 then (64, 0)
  else if page = 0x0C0 then (if s.rd F.SEC_FUSE_CFG_GRADE 0 0 = 1 then 0 else 2, 8)
  else if page = 0x0B1 then (3, 0)
  else if page = 0x0B2 then (1, 0)
  else (0, 0)

/-- The common registers that follow the state of their page (Table REG-1). -/
def State.viewReg (s : State) (f : Fld) (page : Nat) : Option Nat :=
  if f.id = F.REG_BLK_ID_PAGE.id then some page
  else if f.id = F.REG_BLK_ID_KIND.id then some (pageKind page)
  else if f.id = F.REG_BLK_CAP0.id then some (s.blkCap page).1
  else if f.id = F.REG_BLK_CAP1.id then some (s.blkCap page).2
  else if f.id = F.REG_BLK_STAT_RESET_ACTIVE.id then some (b2n (s.inReset page))
  else if f.id = F.REG_BLK_STAT_SHADOW_PENDING.id ∨ f.id = F.REG_SHADOW_STAT_PENDING.id then some (b2n (s.shadowPending page))
  else if f.id = F.REG_SHADOW_STAT_ARMED.id then some (b2n (s.armed.any (fun a => a.page == page)))
  else if f.id = F.REG_EVT_PEND.id then some (s.rd F.REG_EVT_RAW page 0 &&& s.rd F.REG_EVT_EN page 0)
  else if f.id = F.REG_EVT_CLR.id ∨ f.id = F.REG_EVT_SET.id then some (s.rd F.REG_EVT_RAW page 0)
  else none

/-- KT_STAT.ARRAY: the class of the present cycle (Table KET-6). -/
def State.arrayStat (s : State) (p : Nat) : Nat :=
  let t := s.tile p
  let c := t.classAt (s.chosenRipple p) t.cyc
  let loading := t.load.isSome && t.flights.isEmpty && !(t.slots.any (fun x => t.chosen == some x.num && s.lacksBlocks p x))
  if c = 0 then 2 else if c = 1 then 3 else if c = 2 then 4 else if c = 3 then (if loading then 1 else 5) else if c = 4 then 6 else 0

/-- The slots of a tile in a state, as a mask. -/
def State.slotMask (s : State) (p : Nat) (q : Slot → Bool) : Nat :=
  ((s.tile p).slots.filter q).foldl (fun m x => setBit m x.num) 0

/-- The Kettle page's status (Tables KET-6, KET-8, CEL-8). -/
def State.viewKt (s : State) (f : Fld) (p i : Nat) : Option Nat :=
  let t := s.tile p
  let slot (g : Slot → Nat) : Option Nat := some ((t.slots.find? (fun x => x.num == i)).map g |>.getD 0)
  if f.id = F.KT_STAT_ARRAY.id then some (s.arrayStat p)
  else if f.id = F.KT_STAT_BANK.id then some ((t.prev.map (fun r => r.bank)).getD 0)
  else if f.id = F.KT_STAT_MODE.id then some (b2n ((t.prev.map (fun r => r.ripple)).getD false))
  else if f.id = F.KT_STAT_STEP_SLOT.id then some ((t.prev.map (fun r => r.slot)).getD 0)
  else if f.id = F.KT_STAT_ACC_FREE.id then some t.blocksFree
  else if f.id = F.KT_STAT_HALTED.id then some (b2n (s.halted p))
  else if f.id = F.KT_SLOT_BUSY.id then some (s.slotMask p (fun _ => true))
  else if f.id = F.KT_SLOT_RUN.id then some (s.slotMask p (fun x => x.st == 2))
  else if f.id = F.KT_SLOT_COMMIT.id then some (s.slotMask p (fun x => x.st == 4))
  else if f.id = F.KT_SLOT_KILL.id then some (s.slotMask p (fun x => x.st == 3))
  else if f.id = F.KT_SLOT_STATE.id then slot (fun x => x.st)
  else if f.id = F.KT_SLOT_CLASS.id then slot (fun x => x.cls)
  else if f.id = F.KT_SLOT_RANK.id then slot (s.rankOf p)
  else if f.id = F.KT_SLOT_ACC_HELD.id then slot t.blocksOf
  else if f.id = F.KT_SLOT_STEP_LSB.id then slot (fun x => x.steps % 256)
  else if f.id = F.KT_GRANULE_FREE.id then some t.granuleFree
  else if f.id = F.KT_GTAG.id then some (leAt ((List.range 4).map (fun j => BitVec.ofNat 8 (t.tag (4 * i + j)))) 0 4)
  else none

/-- Books and levels of a Sieve output, a frame program and the Orbit engine (R353, R382, R401). -/
def State.svBooks (s : State) (v i : Nat) : Nat × Nat × Nat :=
  let bs := s.sv.bufs.filter (fun b => b.inst == v && b.ctx == i % 64 && b.out == i / 64)
  let w := (bs.filter (fun b => b.writing)).length
  (s.rd F.SV_OUT_CFG_NBUF v i - bs.length, w, bs.length - w)
def State.pgBooks (s : State) (p : Nat) : Nat × Nat × Nat :=
  let bs := s.tbufs.filter (fun b => b.prog == p && b.used)
  let w := (bs.filter (fun b => b.write)).length
  (s.rd F.MD_PG_POOL_CFG_NBUF 0 p - bs.length, w, bs.length - w)

/-- Fields of the scheduler's pages, the cameras and the pipelines that follow their state. -/
def State.viewBooks (s : State) (f : Fld) (p i : Nat) : Option Nat :=
  if f.id = F.SCH_SCHED_STAT_FW_RUN.id then some (b2n s.fwRun)
  else if f.id = F.SCH_PART_CAP.id then some (s.partCap i)
  else if f.id = F.SCH_BKT_RATE.id ∧ i / 4 = fwCtx then some (s.bktRate fwCtx (i % 4))
  else if f.id = F.SCH_BKT_BURST.id ∧ i / 4 = fwCtx then some (s.bktBurst fwCtx (i % 4))
  else if f.id = F.SPC_SPEC_STAT_GRACE.id then some s.grace
  else if f.id = F.CSI_POOL_BOOKS_FREE.id then some (s.poolBooks p).1
  else if f.id = F.CSI_POOL_BOOKS_CAPTURING.id then some (s.poolBooks p).2.1
  else if f.id = F.CSI_POOL_BOOKS_HELD.id then some (s.poolBooks p).2.2
  else if f.id = F.SV_OUT_BOOKS_FREE.id then some (s.svBooks p i).1
  else if f.id = F.SV_OUT_BOOKS_WRITING.id then some (s.svBooks p i).2.1
  else if f.id = F.SV_OUT_BOOKS_HELD.id then some (s.svBooks p i).2.2
  else if f.id = F.MD_PG_BOOKS_FREE.id then some (s.pgBooks i).1
  else if f.id = F.MD_PG_BOOKS_WRITING.id then some (s.pgBooks i).2.1
  else if f.id = F.MD_PG_BOOKS_HELD.id then some (s.pgBooks i).2.2
  else if f.id = F.OB_BOOKS_FREE.id then some s.orbFree
  else if f.id = F.OB_BOOKS_QUEUED.id then some s.orb.queue.length
  else if f.id = F.OB_BOOKS_RUNNING.id then some (b2n s.orb.running.isSome)
  else if f.id = F.OB_BOOKS_COMMITTING.id then some s.orb.committing.length
  else if f.id = F.CP_OC_BOOKS_FREE.id then some (s.ocBooks i).1
  else if f.id = F.CP_OC_BOOKS_WRITING.id then some (s.ocBooks i).2.1
  else if f.id = F.CP_OC_BOOKS_HELD.id then some (s.ocBooks i).2.2
  else none

/-- The head of the Farside reply queue, of the IBI FIFO, of a UART receive FIFO, as their registers show them. -/
def State.dqHead (s : State) : Nat :=
  match s.br.dqReplies with
  | r :: _ => leAt r 0 7 + 2 ^ 63
  | [] => 0
def State.ibiHead (s : State) : Nat :=
  match s.cam.ibi with
  | (a, pay, _) :: _ => a % 256 + pay.length % 256 * 2 ^ 8 + 2 ^ 16
  | [] => 0
def fifoHead : List Byte → Nat
  | b :: _ => b.toNat + 2 ^ 8
  | [] => 0

/-- Every other field that follows the device's state. -/
def State.viewRest (s : State) (f : Fld) (p i : Nat) : Option Nat :=
  if f.id = F.ORR_GT.id then some s.gt
  else if f.id = F.ORR_SI.id then some s.si
  else if f.id = F.ORR_MAP_STAT_MAP_VALID.id then some (b2n s.mapValid)
  else if f.id = F.ORR_CH_QUAL0.id then some (leAt ((List.range 4).map (fun k => BitVec.ofNat 8 (s.refQual i k))) 0 4)
  else if f.id = F.ORR_CH_QUAL1.id then some (leAt ((List.range 4).map (fun k => BitVec.ofNat 8 (s.refQual i (4 + k)))) 0 4)
  else if f.id = F.ORR_CH_HOLD_EST.id then some (s.holdEst i)
  else if f.id = F.VC_STAT_POISON_PRESENT.id then
    some (b2n (s.poison.any (fun x => x.2 && decide (vaultPlace p 0 ≤ x.1 * 8 ∧ x.1 * 8 < vaultPlace (p + 1) 0))))
  else if f.id = F.BR_DQ_REPLY.id then some s.dqHead
  else if f.id = F.BR_ARB_LEVEL_PRESENT_LEVEL.id then some (s.lampLevel i)
  else if f.id = F.BR_ARB_LEVEL_SMIN.id then some (s.clampOf i).smin
  else if f.id = F.BR_ARB_SMAX.id then some (s.clampOf i).smax
  else if f.id = F.PL_STAT_MAIN_ON.id then some (b2n s.pwr.mainOn)
  else if f.id = F.PL_STAT_PFW_RUN.id then some (b2n (s.pwr.pilotOn && !s.fw.pilotSec.isEmpty))
  else if f.id = F.PA_ASAMP.id then some (s.pil.done - 1)
  else if f.id = F.PA_EV_POP.id then some s.evPop.2
  else if f.id = F.PWR_PS_STAT_CUR.id then some s.psCur
  else if f.id = F.IA_PAGE_PEND.id then
    some (((List.range 32).filter (fun j => mappedPage (32 * i + j) && s.line (32 * i + j))).foldl setBit 0)
  else if f.id = F.IA_VEC_STAT_PENDING.id then some (b2n (s.vecPending i))
  else if f.id = F.SC_IBI_POP.id then some s.ibiHead
  else if f.id = F.ETH_UART_RX.id then some (fifoHead s.host.gnRx)
  else if f.id = F.HIO_HU_RX.id then some (fifoHead s.host.huRx)
  else if f.id = F.RP_STAT_SPARE_TILES.id then some ((List.range 18).filter (fun t => s.rd F.RP_TILE_STAT_STATE 0 t == 0)).length
  else if f.id = F.RP_STAT_IN_SERVICE.id then some s.nService
  else none

/-- Fields whose value the specification leaves to what the model does not hold: the lines of a camera port, the flits and waits of a Trivet
link, the longest transaction, and on a head the capacity of another member's partition (log 71). -/
def State.viewFree (s : State) (f : Fld) (p : Nat) : Bool :=
  f.isIn [F.TV_LINK_FLITS, F.TV_LINK_WAIT_CYC, F.SCH_TXN_MAX]
    || (f.isIn [F.CSI_PHY_STAT_CLK_HS, F.CSI_PHY_STAT_LANE_HS, F.CSI_PHY_STAT_DESKEW_DONE, F.CSI_PHY_STAT_ULPS] && s.rdB F.CSI_PHY_CFG_EN p 0)
    || (f.id == F.SCH_PART_CAP.id && s.rd F.SK_STAT_ROLE 0 0 == 1)

/-- What a field reads as. -/
def State.view (s : State) (f : Fld) (p i : Nat) : Nat :=
  if s.viewFree f p then s.freeVal f.width
  else
    match (if f.page = 0 ∧ f.npg = 0x4000 then s.viewReg f p else if f.page = 0x010 then s.viewKt f p i else none) with
    | some v => v % 2 ^ f.width
    | none =>
      match s.viewBooks f p i with
      | some v => v % 2 ^ f.width
      | none => ((s.viewRest f p i).getD (s.rd f p i)) % 2 ^ f.width

end Sys2Proof.Machine
end

