-- ==== Sys2Proof/Machine/Router.lean ====
section
/-! DEFINITION. The register window (spec/21): every read and every write of a register word, the common registers of a page, shadow copies and
commits, block resets. A word with a rule of its own goes to the operation that its chapter gives; every other word is performed field by
field. -/

namespace Sys2Proof.Machine

open Host

/-! ### Reads -/

/-- The answer of an access: what it returns, and whether it is an error response. -/
def State.answer (s : State) (v : Nat) (err : Bool := false) : State := { s with rdata := v, rerr := err }

/-- The bucket fields that BKT_CTX and BKT_CLASS address nothing for (R649), or address FW's, which are read-only (R237). -/
def State.bktDead (s : State) : Bool :=
  !s.rdB F.SCH_BKT_CTX_FW 0 0 && decide (255 < s.rd F.SCH_BKT_CTX 0 0)
    && (s.rd F.SK_STAT_ROLE 0 0 != 1 || s.rd F.SCH_BKT_CLASS 0 0 == 0)

/-- The bits of a part as the word reads: a HI half that a read of its LO latched (R58), else the field. A WO field reads zero. -/
def State.partView (s : State) (q : Part) : Nat :=
  if q.fld.ty = .wo then 0
  else if (q.fld.sel = .bkt ∨ q.fld.sel = .bctx) ∧ s.bktDead = true then 0
  else if q.fld.latch ∧ q.shift = 32 then storeGet 0 s.lat (q.fld.key q.p q.i) % 2 ^ q.width
  else bitsOf (s.view q.fld q.p q.i) q.shift q.width

/-- What a read of the word changes: the HI half latched (R58), an RC field cleared (R17) with the FIFO entry it shows popped. -/
def State.partRead (s : State) (q : Part) : State :=
  let f := q.fld
  let s1 : State := if s.viewFree f q.p then s.tookFree else s
  if f.latch ∧ q.shift = 0 then
    { s1 with lat := storeSet 0 s1.lat (f.key q.p q.i) (s.view f q.p q.i / 2 ^ 32) }
  else if f.ty ≠ .rc then s1
  else if f.id = F.PA_EV_POP.id then s1.evPop.1
  else if f.id = F.BR_DQ_REPLY.id then
    if q.shift = 32 then { s1 with br := { s1.br with dqReplies := s1.br.dqReplies.tail } } else s1
  else if f.id = F.SC_IBI_POP.id then
    match s1.cam.ibi with
    | (_, pay, g) :: t =>
      (({ s1 with cam := { s1.cam with ibi := t } } : State).wr F.SC_IBI_PAY 0 0 (leAt pay 0 4)).wr F.SC_IBI_GT 0 0 g
    | [] => s1
  else if f.id = F.ETH_UART_RX.id then ({ s1 with host := { s1.host with gnRx := s1.host.gnRx.tail } } : State).gnSync
  else if f.id = F.HIO_HU_RX.id then ({ s1 with host := { s1.host with huRx := s1.host.huRx.tail } } : State).huSync
  else s1.wr f q.p q.i 0

/-- The RWS parts of the word at an offset. -/
def State.rwsParts (s : State) (page ofs : Nat) : List Part := (s.parts page ofs).filter (fun q => q.fld.ty == .rws)

/-- A 32-bit read of a register, with its value (R17 to R19, R33, R58, R689, R694, R701). -/
def State.regRead (s : State) (page ofs : Nat) : State × Nat :=
  if !mappedPage page then (s.unmapped page, 0)
  else if !s.pageOn page then (s, 0)
  else if 0x040 ≤ ofs ∧ s.liveOff page = true then (s, 0)
  else if 0x800 ≤ ofs then
    let ps := s.rwsParts page (ofs - 0x800)
    if ps.isEmpty then (s.accFault page 2 ofs, 0)
    else (s, (ps.map (fun q => bitsOf (s.rdSh q.fld q.p q.i) q.shift q.width * 2 ^ q.lsb)).sum)
  else
    let ps := s.parts page ofs
    (ps.foldl State.partRead s, (ps.map (fun q => s.partView q * 2 ^ q.lsb)).sum)

/-! ### Shadow copies (R689 to R693) -/

/-- A write of RWS fields lands in their shadow copies; under COMMIT_AT 0 it commits itself (R691). -/
def State.shadowWrite (s : State) (page ofs v : Nat) : State :=
  let t := (s.rwsParts page ofs).foldl (fun u q =>
    u.wrSh q.fld q.p q.i (putBits (u.rdSh q.fld q.p q.i) q.shift q.width (bitsOf v q.lsb q.width))) s
  if s.rd F.REG_SHADOW_CTRL_COMMIT_AT page 0 = 0 then t.commitPage page else t

/-- The count that the next frame start of a stream carries (R304), and whether the stream is enabled. -/
def State.nextCount (s : State) (st : Nat) : Nat := storeGet 0 s.cam.counts st
def State.strEnabled (s : State) (st : Nat) : Bool := s.rdB F.CSI_STR_CTRL_EN (st / 4) (st % 4)

/-- ARM (R692, Table REG-3): COMMIT_AT, STREAM and the present SHADOW_ARG are taken; a moment that has passed commits at once. -/
def State.shadowArm (s : State) (page : Nat) : State :=
  let mode := s.rd F.REG_SHADOW_CTRL_COMMIT_AT page 0
  let st := s.rd F.REG_SHADOW_CTRL_STREAM page 0
  let arg := s.rd F.REG_SHADOW_ARG_LO page 0 + s.rd F.REG_SHADOW_ARG_HI page 0 * 2 ^ 32
  let t : State := { s with armed := s.armed.filter (fun a => a.page != page) }
  if mode = 0 then t.commitPage page
  else if mode = 2 ∧ arg ≤ t.gt then t.commitLate page
  else if mode = 3 ∧ t.strEnabled st = true ∧ serialLt 26 arg (t.nextCount st) = true then t.commitLate page
  else { t with armed := ({ page, mode, stream := st, arg } : Armed) :: t.armed }

/-- A write of SHADOW_CTRL (R692). -/
def State.shadowCtrl (s : State) (page v : Nat) : State :=
  let at_ := bitsOf v 0 2
  let st := bitsOf v 8 6
  if s.armed.any (fun a => a.page == page) && !bitOf v 2 && !bitOf v 3 then
    if at_ ≠ s.rd F.REG_SHADOW_CTRL_COMMIT_AT page 0 ∨ st ≠ s.rd F.REG_SHADOW_CTRL_STREAM page 0 then s.accFault page 1 0x030 else s
  else
    let t := (s.wr F.REG_SHADOW_CTRL_COMMIT_AT page 0 at_).wr F.REG_SHADOW_CTRL_STREAM page 0 st
    if bitOf v 3 then { t with armed := t.armed.filter (fun a => a.page != page) }
    else if bitOf v 2 then t.shadowArm page
    else t

/-! ### Counters and block resets (R697 to R701) -/

/-- The counters of a page whose names end in _CNT, by number. -/
def counterIds (page : Nat) : List Nat := ((pageFields page).filter (fun f => f.counter)).map (fun f => f.id)

/-- CNT_CLEAR (R697): every saturating _CNT counter of the page is zeroed. -/
def State.cntClear (s : State) (page : Nat) : State :=
  { s with regs := s.regs.filter (fun c => !(keyPage c.1 == page && (counterIds page).contains (c.1 / 65536 % 4096))) }

/-- The condition of Table REG-6 for a reset of block i from an initiator. -/
def State.rstOk (s : State) (src : Src) (i : Nat) : Bool :=
  if i < 16 then !s.rdB F.CSI_PHY_CFG_EN i 0 && (List.range 4).all (fun vc => !s.rdB F.CSI_STR_CTRL_EN i vc)
  else if i = 16 then (List.range 8).all (fun c => s.rd F.SC_CFG_MODE 0 c == 0)
  else if i = 17 ∨ i = 18 then !s.rdB F.SV_CTRL_EN (i - 17) 0 && (List.range 64).all (fun c => !s.rdB F.SV_CTX_CFG_EN (i - 17) c)
  else if i = 19 then
    !s.rdB F.MD_CTRL_EN 0 0 && (List.range 16).all (fun p => !s.rdB F.MD_PG_CTRL_EN 0 p)
      && (List.range 4).all (fun q => !s.rdB F.MD_JQ_CFG_EN 0 q)
  else if i = 20 then !s.rdB F.OB_CTRL_EN 0 0 && s.orbFree == 8
  else if i = 21 then !s.rdB F.CP_CTRL_EN 0 0
  else if i = 22 then !s.rdB F.EN_CTRL_EN 0 0
  else if i = 23 then true
  else if i = 24 ∨ i = 25 then !s.rdB F.ETH_MAC_CFG_EN (i - 24) 0
  else if i = 26 then !s.rdB F.BR_CTRL_EN 0 0 && brTrusted src
  else if i = 27 then !s.rdB F.PA_CTRL_EN 0 0 && brTrusted src
  else false

/-- One bit of RST_REQ (R700): denied and recorded, satisfied by a reset in progress, or the block enters reset with the registers of its
page at their reset values. -/
def State.rstBit (s : State) (src : Src) (i : Nat) : State :=
  if !s.rstOk src i then
    ((s.inc F.RST_DENY_CNT 0 0).wr F.RST_DENY_LAST_INDEX 0 0 i).wr F.RST_DENY_LAST_VALID 0 0 1
  else if bitOf (s.rd F.RST_ACTIVE 0 0) i then s
  else
    let t := if i = 23 then s.pcieReset else s.clearPage (blockPage i)
    t.wr F.RST_ACTIVE 0 0 (setBit (t.rd F.RST_ACTIVE 0 0) i)

/-- A write of RST_REQ: each bit is judged on its own. -/
def State.rstReq (s : State) (src : Src) (v : Nat) : State :=
  ((List.range 28).filter (fun i => bitOf v i)).foldl (fun t i => t.rstBit src i) s

/-- BLOCK_RESET_DONE (R701): the block's internal state is clear, the references it held are released, RST_ACTIVE falls. -/
def State.rstDone (s : State) (i : Nat) : State :=
  if bitOf (s.rd F.RST_ACTIVE 0 0) i then
    let t := if i = 23 then s else s.clearBlock i
    t.wr F.RST_ACTIVE 0 0 (clrBit (t.rd F.RST_ACTIVE 0 0) i)
  else s

/-! ### Words with a rule of their own -/

/-- Programs of the Simmer started through the generic write: their lengths are free values (log 56). -/
def State.simWrite (s : State) (v : Nat) : State :=
  let n0 := s.freeVal 19
  let n1 := s.tookFree.freeVal 19
  ((s.tookFree.tookFree).simCtrl 0 (bitOf v 0) n0).simCtrl 1 (bitOf v 1) n1

/-- A write of AG_CFG (Table CSI-8): EN stays 0 with more than 16 members or with a stream that is in another enabled group. -/
def State.agWrite (s : State) (g v : Nat) : State :=
  let m := s.rd F.AG_MEMBERS 0 g
  let shared := (List.range 4).any (fun h => h != g && s.rdB F.AG_CFG_EN 0 h && (s.rd F.AG_MEMBERS 0 h &&& m) != 0)
  let t := (s.wr F.AG_CFG_TOL 0 g (bitsOf v 0 24)).wr F.AG_CFG_POLICY 0 g (bitsOf v 24 1)
  if !bitOf v 31 then
    ({ t with cam := { t.cam with wins := t.cam.wins.filter (fun w => w.group != g) } } : State).wr F.AG_CFG_EN 0 g 0
  else if s.rdB F.AG_CFG_EN 0 g then t
  else if popcount 64 m ≤ 16 ∧ shared = false then t.wr F.AG_CFG_EN 0 g 1
  else t

/-- A write of JQ_CFG: enabling zeroes JQ_HEAD, JQ_TAIL and the count of jobs (Table MAN-11). -/
def State.jqCfg (s : State) (q v : Nat) : State :=
  let t := s.wordWrite 0x078 (0x608 + 0x20 * q) v
  if bitOf v 4 && !s.rdB F.MD_JQ_CFG_EN 0 q then ((t.wr F.MD_JQ_HEAD 0 q 0).wr F.MD_JQ_TAIL 0 q 0).wr F.MD_JQ_DONE 0 q 0
  else if !bitOf v 4 then { t with md := { t.md with jobs := t.md.jobs.filter (fun j => j.queue != q) } }
  else t

/-- PS_REQ (R523, Table PWR-4): other values of TARGET are ignored. -/
def State.psWrite (s : State) (v : Nat) : State :=
  let k := v % 8
  if k = 0 then s.psRun else if k = 2 then s.psWatch else if k = 3 ∨ k = 4 ∨ k = 5 then s.psDown k else s

/-- CTX_CMD (Table CMD-1). -/
def State.ctxCommand (s : State) (c v : Nat) : State :=
  let k := v % 4
  if k = 1 then s.ctxCmd c (fun t => t.ctxOpen c) else if k = 2 then s.ctxCmd c (fun t => t.ctxClose c)
  else if k = 3 then s.ctxCmd c (fun t => t.ctxAdopt c) else s

/-- The context page (Table CMD-9): its trigger words; every other word field by field. -/
def State.ctxWord (s : State) (c ofs v : Nat) : State :=
  if ofs = 0x05C then s.ctxCommand c v
  else if ofs = 0x064 then s.doorbell c v
  else if ofs = 0x074 then s.cqHead c v
  else if ofs = 0x078 then s.lease c v
  else if ofs = 0x0C8 then (if v % 4 = 1 then s.soArm c else if v % 4 = 2 then s.soDisarm c else s)
  else s.wordWrite (0x100 + c) ofs v

/-- The offsets of a table of blocks: which block, and the offset within it, for n blocks of `size` bytes from `base`. -/
def blockAt (base size n ofs : Nat) : Option (Nat × Nat) :=
  if base ≤ ofs ∧ ofs < base + n * size then some ((ofs - base) / size, (ofs - base) % size) else none

/-- PWR, ORRERY, CLKRST and the scheduler's pages. -/
def State.coreWord (s : State) (src : Src) (page ofs v : Nat) : State :=
  let plain := s.wordWrite page ofs v
  if page = 0x001 then (if ofs = 0x04C then s.rmCmd v else plain)
  else if page = 0x002 then
    match blockAt 0x040 0x10 5 ofs, blockAt 0x100 0x10 8 ofs with
    | some (n, 0), _ => s.pllTargetWrite n v
    | some (n, 4), _ => if bitOf v 0 then s.pllRelock n else s
    | _, some (n, 0) => s.mclkTargetWrite n v
    | _, _ => if ofs = 0x200 then s.rstReq src v else plain
  else if page = 0x003 then
    if ofs = 0x040 then s.psWrite v
    else if ofs = 0x04C then s.kgateReq v
    else if ofs = 0x05C then s.hostEn v
    else if ofs = 0x060 then s.opReqWrite v
    else if ofs = 0x094 then s.padRelease v
    else plain
  else if page = 0x004 then
    if ofs = 0x050 then s.snapTake v
    else if ofs = 0x114 then s.realignWrite v
    else if ofs = 0x180 ∨ ofs = 0x184 then plain.realignLost
    else if ofs = 0x080 ∨ ofs = 0x0C0 ∨ ofs = 0x090 ∨ ofs = 0x0D0 ∨ ofs = 0x110 then plain.refCheckAll
    else plain
  else if page = 0x005 then
    if ofs = 0x044 then (if bitOf v 0 then s.snapRequest else s)
    else if ofs = 0x104 then s.kmaskWrite (s.rd F.SCH_PART_SEL 0 0) v
    else if ofs = 0x108 then s.floorWrite (s.rd F.SCH_PART_SEL 0 0) v
    else if ofs = 0x10C then s.budgetWrite (s.rd F.SCH_PART_SEL 0 0) v
    else if (ofs = 0x148 ∨ ofs = 0x14C ∨ ofs = 0x170) ∧ (s.bktDead = true ∨ s.rdB F.SCH_BKT_CTX_FW 0 0 = true) then s
    else plain
  else if page = 0x006 then (if ofs = 0x094 then s.domCfg (s.rd F.SPC_DOM_SEL 0 0) (bitOf v 0) else plain)
  else
    match blockAt 0x100 0x10 64 ofs with
    | some (n, 8) => if bitOf v 0 then s.vecEoi n else s
    | _ => plain

/-- Kettle, Trivet, camera, sensor and Sieve pages. -/
def State.frontWord (s : State) (page ofs v : Nat) : State :=
  let plain := s.wordWrite page ofs v
  if 0x010 ≤ page ∧ page ≤ 0x021 then
    if ofs = 0x040 then s.ktCtrl (page - 0x010) v else if ofs = 0x098 then s.cntCtrl (page - 0x010) v else plain
  else if page = 0x050 then
    match blockAt 0x100 0x10 8 ofs with
    | some (w, 0) => s.iwinWrite w v
    | _ => plain
  else if 0x060 ≤ page ∧ page ≤ 0x06F then
    if ofs = 0x090 then s.refRelease (page - 0x060) v
    else
      match blockAt 0x100 0x40 4 ofs, blockAt 0x400 0x20 4 ofs with
      | some (vc, 0), _ => s.strWrite (page - 0x060) vc v
      | _, some (g, 8) => if page = 0x060 then s.agWrite g v else plain
      | _, _ => plain
  else if page = 0x0B8 then
    match blockAt 0x040 0x20 8 ofs with
    | some (c, 8) => s.scPushHi c v
    | some (c, 12) => if bitOf v 0 then s.scFlush c else s
    | _ => plain
  else
    let i := page - 0x070
    if ofs = 0x040 then plain.svSync i
    else if ofs = 0x084 then s.relCmd i v
    else if ofs = 0x104 then s.svCfgWrite i v
    else if ofs = 0x114 then s.pbNext i v
    else plain

/-- Mandoline, Orbit, Compositor and Encoder pages. -/
def State.mediaWord (s : State) (page ofs v : Nat) : State :=
  let plain := s.wordWrite page ofs v
  if page = 0x078 then
    if ofs = 0x040 then plain.mdSync
    else
      match blockAt 0x100 0x40 16 ofs, blockAt 0x600 0x20 4 ofs with
      | some (p, 0), _ => s.pgCtrl p v
      | some (p, 0x38), _ => s.pgRelease p v
      | _, some (q, 8) => s.jqCfg q v
      | _, some (q, 12) => s.jqTail q v
      | _, _ => plain
  else if page = 0x07C then (if ofs = 0x040 then plain.orbStat else plain)
  else if page = 0x0A0 then
    match blockAt 0x100 0x80 8 ofs with
    | some (o, 0) => s.ocCtrl o v
    | some (o, 0x34) => s.maskReload o v
    | some (o, 0x58) => s.lyPost o 0 v
    | some (o, 0x78) => s.lyPost o 1 v
    | _ => plain
  else
    match blockAt 0x100 0x40 8 ofs with
    | some (n, 0) => s.esCfg n v
    | some (n, 0x24) => s.bsRd n v
    | some (n, 0x28) => s.forceIdr n v
    | _ => plain

/-- The BARRIER page: TX_MSG, TX_PUSH and the SP registers take writes from Sous firmware and the Pilot controller only. -/
def State.barrierWord (s : State) (src : Src) (ofs v : Nat) : State :=
  let plain (t : State) : State := t.wordWrite 0x090 ofs v
  if ofs = 0x040 then (s.wr F.BR_CTRL_PILOT_HB 0 0 (bitsOf v 1 1)).brEnable (v % 2)
  else if 0x060 ≤ ofs ∧ ofs ≤ 0x068 then s.brGuard src plain
  else if ofs = 0x070 then s.brGuard src (fun t => if bitOf v 0 then t.brPush else t)
  else if ofs = 0x090 then (if bitOf v 0 then s.rxPop else s)
  else if ofs = 0x10C then (if bitOf v 0 then s.brDqPush else s)
  else if ofs = 0x198 then s.brGuard src (fun t => t.spEnable (t.rd F.BR_SP_SEL 0 0) v)
  else if 0x180 ≤ ofs ∧ ofs ≤ 0x194 then s.brGuard src plain
  else plain s

/-- The Pilot's pages, the host side, the Skewer, firmware. -/
def State.edgeWord (s : State) (src : Src) (page ofs v : Nat) : State :=
  let plain := s.wordWrite page ofs v
  if page = 0x081 then
    if ofs = 0x040 then s.paCtrl v
    else if ofs = 0x064 then (if bitOf v 0 then s.freezeRelease else s)
    else if ofs = 0x0A0 then s.simWrite v
    else if ofs = 0x0E8 then s.exportStart v
    else plain
  else if page = 0x0B0 then
    match blockAt 0x400 0x10 64 ofs, blockAt 0x200 0x20 8 ofs with
    | some (n, 12), _ => if bitOf v 0 then plain else plain.msixUnmask n
    | _, some (_, 0) | _, some (_, 8) => s.wordWrite page ofs (v / 4096 * 4096)
    | _, _ => plain
  else if page = 0x0B1 ∨ page = 0x0B2 then
    let n := page - 0x0B1
    if ofs = 0x074 then s.ethTail n F.ETH_TX_TAIL F.ETH_TX_HEAD F.ETH_RING_LOG2_TX v
    else if ofs = 0x07C then s.ethTail n F.ETH_RX_TAIL F.ETH_RX_HEAD F.ETH_RING_LOG2_RX v
    else if ofs = 0x0C4 then s.ptpMeas n v
    else if ofs = 0x0D0 then plain.refCheckAll
    else if ofs = 0x608 ∧ n = 0 then s.gnPut v
    else
      match blockAt 0x200 0x20 8 ofs with
      | some (_, 0) | some (_, 8) => s.wordWrite page ofs (v / 4096 * 4096)
      | _ => plain
  else if page = 0x0B4 then
    if ofs = 0x04C then s.huPut v
    else if ofs = 0x040 ∨ ofs = 0x054 then plain.huSync
    else if ofs = 0x080 ∨ ofs = 0x084 ∨ ofs = 0x088 then (if s.hioOn then plain.gpioEdges s else plain)
    else plain
  else if page = 0x0C0 then
    if ofs = 0x040 then s.skCtrl v
    else if ofs = 0x04C then s.joinGo v true
    else if ofs = 0x100 then s.cabWrite src 0 v
    else if ofs = 0x104 then s.cabWrite src 1 v
    else if ofs = 0x108 then s.cabWrite src 2 v
    else plain
  else if page = 0x0D0 then
    if ofs = 0x0B8 then s.bootDoorbell v else if ofs = 0x0D8 then s.mbIssue src (v % 256) else plain
  else plain

/-- A live register word written. -/
def State.liveWord (s : State) (src : Src) (page ofs v : Nat) : State :=
  if !(s.rwsParts page ofs).isEmpty then s.shadowWrite page ofs v
  else if 0x100 ≤ page then s.ctxWord (page - 0x100) ofs v
  else if page ≤ 0x007 ∧ page ≠ 0 then s.coreWord src page ofs v
  else if page = 0x090 then s.barrierWord src ofs v
  else if page = 0x078 ∨ page = 0x07C ∨ page = 0x0A0 ∨ page = 0x0A1 then s.mediaWord page ofs v
  else if (0x010 ≤ page ∧ page ≤ 0x021) ∨ (0x050 ≤ page ∧ page ≤ 0x071) ∨ page = 0x0B8 then s.frontWord page ofs v
  else s.edgeWord src page ofs v

/-! ### The common registers (Table REG-1) -/

/-- EVT_CLR: each 1 clears its EVT_RAW bit (R685); a level event that still holds comes back. -/
def State.evtClr (s : State) (page v : Nat) : State :=
  let t := s.wr F.REG_EVT_RAW page 0 (clrMask (s.rd F.REG_EVT_RAW page 0) (v % 2 ^ 32))
  (if page = 0x0B4 then t.huSync else t).msixScan

/-- EVT_SET: each 1 sets its EVT_RAW bit. -/
def State.evtSet (s : State) (page v : Nat) : State :=
  s.wr F.REG_EVT_RAW page 0 (s.rd F.REG_EVT_RAW page 0 ||| (v % 2 ^ 32))

/-- A common register written. -/
def State.commonWord (s : State) (page ofs v : Nat) : State :=
  if ofs = 0x010 then (if bitOf v 0 then s.cntClear page else s)
  else if ofs = 0x024 then s.evtClr page v
  else if ofs = 0x028 then s.evtSet page v
  else if ofs = 0x030 then s.shadowCtrl page v
  else s.wordWrite page ofs v

/-- A register word written on a page that is mapped and on. -/
def State.pageWord (s : State) (src : Src) (page ofs v : Nat) : State :=
  if ofs < 0x040 then s.commonWord page ofs v
  else if s.liveOff page then s
  else if 0x800 ≤ ofs then
    if (s.rwsParts page (ofs - 0x800)).isEmpty then s.accFault page 2 ofs else s.shadowWrite page (ofs - 0x800) v
  else s.liveWord src page ofs v

/-- A 32-bit write of a register by an initiator (R18, R33, R562, R688, R694). Afterwards the vectors whose lines have fallen are no longer
pending (R565). -/
def State.regWrite (s : State) (src : Src) (page ofs v : Nat) : State :=
  if !mappedPage page then s.unmapped page
  else if !s.pageOn page then s
  else if 0x100 ≤ page ∧ s.dbPermits src (page - 0x100) = false then (s.inc F.PCIE_DB_SRC_DENY_CNT 0 0).raise 0x0B0 5
  else (s.pageWord src page ofs (v % 2 ^ 32)).msixScan

end Sys2Proof.Machine
end

