-- ==== Sys2Proof/Machine/Gateway.lean ====
section
/-! DEFINITION. The rows that reach any register: the register rows of spec/21, inbound PCIe accesses (spec/17, R556 to R560), remote reads and
writes (spec/20, R668, R669), and the rows of the Mandoline and the Sieve whose notify writes may ring a doorbell (spec/11, R379, R388). -/

namespace Sys2Proof.Machine

open Host

/-! ### Accesses by address -/

/-- A read of n bytes at a device address by an initiator outside the commands: a naturally aligned 32-bit access of a register reads it;
every other is `extRead`. -/
def State.busRead (s : State) (a n : Nat) : State × Option (List Byte) :=
  match s.locate a with
  | .reg pg o => if n = 4 ∧ o % 4 = 0 then let r := s.regRead pg o; (r.1, some (toBytes 4 r.2)) else s.extRead a n
  | _ => s.extRead a n

/-- The runs of enabled bytes of a write: how far into the write each begins, and its bytes. -/
def runsFrom : Nat → List (Option Byte) → List (Nat × List Byte)
  | _, [] => []
  | k, none :: t => runsFrom (k + 1) t
  | k, some b :: t =>
    match runsFrom (k + 1) t with
    | (j, bs) :: rest => if j = k + 1 then (k, b :: bs) :: rest else (k, [b]) :: (j, bs) :: rest
    | [] => [(k, [b])]

/-- A write of one run of bytes at a device address: a naturally aligned 32-bit access of a register writes it; every other is `extWrite`. -/
def State.runWrite (s : State) (src : Src) (a : Nat) (bs : List Byte) : State × Bool :=
  match s.locate a with
  | .reg pg o => if bs.length = 4 ∧ o % 4 = 0 then (s.regWrite src pg o (leAt bs 0 4), true) else s.extWrite a bs
  | _ => s.extWrite a bs

/-- A run is refused: it meets a PROV page (R289) or an address that takes no write (R147); what the refusal records. -/
def State.runRefused (s : State) (a : Nat) (bs : List Byte) : Option State :=
  match s.locate a with
  | .remote _ | .reg _ _ => none
  | _ =>
    if s.guarded a bs.length none then some s.guardRefuse
    else if s.pokeOk a bs.length then none
    else some (s.addrFault a)

/-- A write with byte enables: refused whole when one of its runs is, else each run in rising order. -/
def State.busWrite (s : State) (src : Src) (a : Nat) (bytes : List (Option Byte)) : State × Bool :=
  let rs := runsFrom 0 bytes
  match rs.findSome? (fun r => s.runRefused (a + r.1) r.2) with
  | some t => (t, false)
  | none => (rs.foldl (fun t r => (t.runWrite src (a + r.1) r.2).1) s, true)

/-! ### Notify writes (R379, R388) -/

/-- One notify: a 32-bit write by the Mandoline; one that fails is counted and not retried. -/
def State.notifyOne (s : State) (n : Nat × Nat) : State :=
  let r := s.busWrite .mandoline n.1 ((toBytes 4 n.2).map some)
  if r.2 then r.1 else (r.1.inc F.MD_NOTIFY_ERR_CNT 0 0).raise 0x078 5

/-- The notify writes under way are performed in order. -/
def State.notifyFlush (s : State) : State :=
  s.md.notifies.foldl State.notifyOne { s with md := { s.md with notifies := [] } }

/-- BAND_DONE. -/
def execBandDone (s : State) : Outcome State Fault Refusal := .next s.bandDone.notifyFlush

/-- JOB_END. -/
def execJobEnd (q : Fin 4) (s : State) : Outcome State Fault Refusal := .next (s.jobEnd q.val).notifyFlush

/-- FRAME_STALE. -/
def execFrameStale (frame : BitVec 32) (s : State) : Outcome State Fault Refusal := .next (s.frameStale frame.toNat).notifyFlush

/-- RETRACTION (R296, R299, R474): the retracted frame's dependents, and the base buffers that the Compositor holds of it. -/
def execRetraction (s : State) : Outcome State Fault Refusal :=
  .next (match s.cam.retractQ.head? with
    | some f => (s.retraction.baseRelease f).notifyFlush
    | none => s)

/-- PG_ENABLE. -/
def execPgEnable (p : Fin 16) (v : Word) (s : State) : Outcome State Fault Refusal :=
  .next (s.reach 0x078 (fun t => (t.pgCtrl p.val v.toNat).notifyFlush))

/-- STRIPE_START. -/
def execStripeStart (v : Fin 2) (s : State) : Outcome State Fault Refusal := .next (s.svScan.stripeStart v.val).notifyFlush

/-- SIEVE_CTX_ENABLE. -/
def execSieveCtxEnable (v : Fin 2) (w : Word) (s : State) : Outcome State Fault Refusal :=
  .next (s.reach (svPage v.val) (fun t => (t.svCfgWrite v.val w.toNat).notifyFlush))

/-! ### Register rows (spec/21) -/

/-- A register write, with the notify writes it sets off. -/
def State.put (s : State) (src : Src) (page ofs v : Nat) : State := (s.regWrite src page ofs v).notifyFlush

/-- EVT_CLR. -/
def execEvtClr (src : Src) (page : BitVec 14) (v : Word) (s : State) : Outcome State Fault Refusal := .next (s.put src page.toNat 0x024 v.toNat)

/-- EVT_SET. -/
def execEvtSet (src : Src) (page : BitVec 14) (v : Word) (s : State) : Outcome State Fault Refusal := .next (s.put src page.toNat 0x028 v.toNat)

/-- SHADOW_WRITE: at the live offset or at live offset + 0x800 (R689). -/
def execShadowWrite (src : Src) (page : BitVec 14) (ofs : BitVec 12) (v : Word) (s : State) : Outcome State Fault Refusal :=
  .next (s.put src page.toNat (ofs.toNat / 4 * 4) v.toNat)

/-- SHADOW_ARM: a write of SHADOW_CTRL with ARM = 1. -/
def execShadowArm (src : Src) (page : BitVec 14) (v : Word) (s : State) : Outcome State Fault Refusal :=
  .next (s.put src page.toNat 0x030 (setBit v.toNat 2))

/-- SHADOW_DISARM: a write of SHADOW_CTRL with DISARM = 1. -/
def execShadowDisarm (src : Src) (page : BitVec 14) (v : Word) (s : State) : Outcome State Fault Refusal :=
  .next (s.put src page.toNat 0x030 (setBit v.toNat 3))

/-- The moment of an armed commit has come (Table REG-3): the frame start it waits for, or its GT. -/
def State.commitDue (s : State) (a : Armed) : Bool := a.due || (a.mode == 2 && decide (a.arg ≤ s.gt))

/-- SHADOW_COMMIT. -/
def execShadowCommit (page : BitVec 14) (s : State) : Outcome State Fault Refusal :=
  .next (if s.armed.any (fun a => a.page == page.toNat && s.commitDue a) then s.commitPage page.toNat else s)

/-- CNT_CLEAR: a write of BLK_CTRL with CNT_CLEAR = 1. -/
def execCntClear (src : Src) (page : BitVec 14) (s : State) : Outcome State Fault Refusal := .next (s.put src page.toNat 0x010 1)

/-- BLOCK_RESET_REQ: a write of RST_REQ. -/
def execBlockResetReq (src : Src) (v : Word) (s : State) : Outcome State Fault Refusal := .next (s.put src 0x002 0x200 v.toNat)

/-- BLOCK_RESET_DONE. -/
def execBlockResetDone (i : Fin 28) (s : State) : Outcome State Fault Refusal := .next (s.rstDone i.val)

/-- UNMAPPED_ACCESS: a read or a write alike. -/
def execUnmappedAccess (page : BitVec 14) (s : State) : Outcome State Fault Refusal :=
  .next (if mappedPage page.toNat then s else (s.unmapped page.toNat).answer 0)

/-- BAD_WIDTH_ACCESS: a read or a write alike. -/
def execBadWidthAccess (page : BitVec 14) (ofs : BitVec 12) (s : State) : Outcome State Fault Refusal :=
  .next ((s.badAccess page.toNat ofs.toNat).answer 0)

/-- OFF_PAGE_ACCESS (R33): it reads zero, writes nothing and raises no fault. -/
def execOffPageAccess (page : BitVec 14) (_ofs : BitVec 12) (s : State) : Outcome State Fault Refusal :=
  .next (if mappedPage page.toNat && !s.pageOn page.toNat then s.answer 0 else s)

/-- A read of a register word, answered. -/
def State.readOut (s : State) (page ofs : Nat) : State := let r := s.regRead page ofs; r.1.answer r.2

/-- RC_READ. -/
def execRcRead (page : BitVec 14) (ofs : BitVec 12) (s : State) : Outcome State Fault Refusal := .next (s.readOut page.toNat (ofs.toNat / 4 * 4))

/-- LO_READ_LATCH. -/
def execLoReadLatch (page : BitVec 14) (ofs : BitVec 12) (s : State) : Outcome State Fault Refusal := .next (s.readOut page.toNat (ofs.toNat / 4 * 4))

/-- REGISTER_WRITE. -/
def execRegisterWrite (src : Src) (page : BitVec 14) (ofs : BitVec 12) (v : Word) (s : State) : Outcome State Fault Refusal :=
  .next (s.put src page.toNat (ofs.toNat / 4 * 4) v.toNat)

/-! ### Inbound PCIe accesses (R556 to R560) -/

/-- An access of BAR0 or BAR4 of n enabled bytes: one or two 32-bit accesses, or one of a bad width. -/
def barWidth (o n : Nat) : Nat := if n = 4 ∧ o % 4 = 0 then 1 else if n = 8 ∧ o % 8 = 0 then 2 else 0

/-- A read through BAR0 (pages from 0) or BAR4 (pages from 0x100): low word first. -/
def State.barRead (s : State) (base o n : Nat) : State :=
  let page := base + o / 0x1000
  let ofs := o % 0x1000
  let w := barWidth o n
  if w = 0 then (s.badAccess page ofs).answer 0
  else
    let lo := s.regRead page ofs
    if w = 1 then lo.1.answer lo.2
    else
      let hi := lo.1.regRead page (ofs + 4)
      hi.1.answer (lo.2 + hi.2 * 2 ^ 32)

/-- A write through BAR0 or BAR4: its enabled bytes are one aligned word, or an aligned pair of words, or it is of a bad width. -/
def State.barWrite (s : State) (base o : Nat) (bytes : List (Option Byte)) : State :=
  match runsFrom 0 bytes with
  | [] => s
  | [(k, bs)] =>
    let page := base + (o + k) / 0x1000
    let ofs := (o + k) % 0x1000
    let w := barWidth (o + k) bs.length
    if w = 0 then s.badAccess page ofs
    else
      let lo := s.regWrite .pcie page ofs (leAt bs 0 4)
      if w = 1 then lo else lo.regWrite .pcie page (ofs + 4) (leAt bs 4 4)
  | (k, _) :: _ => s.badAccess (base + (o + k) / 0x1000) ((o + k) % 0x1000)

/-- A read through BAR2: a refused one is an Unsupported Request (R557). -/
def State.iovaRead (s : State) (o n : Nat) : State :=
  match s.iommu 0 o n false with
  | none => ((s.iommuFault 0 o).inc F.PCIE_UR_CNT 0 0).answer 0 true
  | some a =>
    match s.busRead a n with
    | (t, some bs) => t.answer (leAt bs 0 n)
    | (t, none) => t.answer 0 true

/-- A write through BAR2: a refused one is discarded (R557). -/
def State.iovaWrite (s : State) (o : Nat) (bytes : List (Option Byte)) : State :=
  match s.iommu 0 o bytes.length true with
  | none => s.iommuFault 0 o
  | some a => (s.busWrite .pcie a bytes).1

/-- An access of a BAR: it lies within the BAR, on a link that is up. -/
def State.pcieIn (s : State) (bar o n : Nat) (write : Option (List (Option Byte))) : State :=
  if s.pcieOn && s.rdB F.PCIE_LINK_STAT_DL_UP 0 0 && decide (o + n ≤ (if bar = 1 then 0x1000000 else 0x100000)) then
    match write with
    | none => if bar = 1 then s.iovaRead o n else s.barRead (bar / 2 * 0x100) o n
    | some bytes => if bar = 1 then s.iovaWrite o bytes else s.barWrite (bar / 2 * 0x100) o bytes
  else s

/-- PCIE_INBOUND: BAR0, BAR2 or BAR4; a read of len bytes, or a write of bytes with their enables. -/
def execPcieInbound (bar : Fin 3) (ofs : BitVec 24) (len : BitVec 9) (write : Option (List (Option Byte))) (s : State) :
    Outcome State Fault Refusal :=
  .next (s.pcieIn bar.val ofs.toNat (match write with | some b => b.length | none => len.toNat) write).notifyFlush

/-! ### Remote reads and writes (R646, R668, R669) -/

/-- An address that a message carries, at this member. -/
def State.homeAddr (s : State) (a : Nat) : Nat := s.skMe * 2 ^ 44 + a % 2 ^ 44

/-- RD: answered with RD_DATA, or with ERR where the access is refused. -/
def execRd (src : Fin 8) (tag : BitVec 16) (addr : Addr) (len : BitVec 9) (s : State) : Outcome State Fault Refusal :=
  .next (s.skOnce src.val tag.toNat (fun t =>
    match t.busRead (t.homeAddr addr.toNat) len.toNat with
    | (u, some bs) => (u, 5, bs)
    | (u, none) => (u, 7, [])))

/-- WR: acknowledged, or answered with ERR where the access is refused. -/
def execWr (src : Fin 8) (tag : BitVec 16) (addr : Addr) (bytes : List (Option Byte)) (s : State) : Outcome State Fault Refusal :=
  .next (s.skOnce src.val tag.toNat (fun t =>
    let r := t.busWrite (.member src) (t.homeAddr addr.toNat) bytes
    (r.1.notifyFlush, if r.2 then 6 else 7, [])))

end Sys2Proof.Machine
end

