-- ==== Sys2Proof/Machine/Dispatch.lean ====
section
/-! DEFINITION. The meaning of every command: one arm per row of the table. -/

namespace Sys2Proof.Machine

open Host

def exec (i : Instr) (s : State) : Host.Outcome State Fault Refusal :=
  match i with
  | .zcStamp m => Sys2Proof.Machine.execZcStamp m s
  | .zcMiss => Sys2Proof.Machine.execZcMiss s
  | .mainsStat m => Sys2Proof.Machine.execMainsStat m s
  | .gridPhaseZero ofs phaseErr freqOfs => Sys2Proof.Machine.execGridPhaseZero ofs phaseErr freqOfs s
  | .siSecondBoundary ofs phaseErr freqOfs => Sys2Proof.Machine.execSiSecondBoundary ofs phaseErr freqOfs s
  | .switchDwellElapsed ch ofs => Sys2Proof.Machine.execSwitchDwellElapsed ch ofs s
  | .chLock ch ofs => Sys2Proof.Machine.execChLock ch ofs s
  | .holdoverLimit ch ofs => Sys2Proof.Machine.execHoldoverLimit ch ofs s
  | .holdEstLost ch ofs => Sys2Proof.Machine.execHoldEstLost ch ofs s
  | .realign v => Sys2Proof.Machine.execRealign v s
  | .realignDecision g => Sys2Proof.Machine.execRealignDecision g s
  | .fsyncPulse n => Sys2Proof.Machine.execFsyncPulse n s
  | .gridOutPulse => Sys2Proof.Machine.execGridOutPulse s
  | .ppsOutPulse => Sys2Proof.Machine.execPpsOutPulse s
  | .snapTake v => Sys2Proof.Machine.execSnapTake v s
  | .loReadLatch page ofs => Sys2Proof.Machine.execLoReadLatch page ofs s
  | .pllTargetWrite n v => Sys2Proof.Machine.execPllTargetWrite n v s
  | .pllRelock n => Sys2Proof.Machine.execPllRelock n s
  | .pllLock n => Sys2Proof.Machine.execPllLock n s
  | .pllBypassEnd n => Sys2Proof.Machine.execPllBypassEnd n s
  | .pllFault n => Sys2Proof.Machine.execPllFault n s
  | .mclkTargetWrite n v => Sys2Proof.Machine.execMclkTargetWrite n v s
  | .mclkSlewDone n => Sys2Proof.Machine.execMclkSlewDone n s
  | .refill => Sys2Proof.Machine.execRefill s
  | .schedulePoint k => Sys2Proof.Machine.execSchedulePoint k s
  | .captureOccurrence num => Sys2Proof.Machine.execCaptureOccurrence num s
  | .standingOccurrence num => Sys2Proof.Machine.execStandingOccurrence num s
  | .stepChoose tile wait => Sys2Proof.Machine.execStepChoose tile wait s
  | .tileLoadStart tile => Sys2Proof.Machine.execTileLoadStart tile s
  | .bankFlip tile => Sys2Proof.Machine.execBankFlip tile s
  | .passIssue tile => Sys2Proof.Machine.execPassIssue tile s
  | .passDrain tile => Sys2Proof.Machine.execPassDrain tile s
  | .whiskRead tile parity => Sys2Proof.Machine.execWhiskRead tile parity s
  | .whiskWrite tile => Sys2Proof.Machine.execWhiskWrite tile s
  | .kill tile n wait => Sys2Proof.Machine.execKill tile n wait s
  | .killComplete tile n => Sys2Proof.Machine.execKillComplete tile n s
  | .kettleCntClear tile freeze => Sys2Proof.Machine.execKettleCntClear tile freeze s
  | .pantryAccess tile bank arrive same => Sys2Proof.Machine.execPantryAccess tile bank arrive same s
  | .vaultInitDone v => Sys2Proof.Machine.execVaultInitDone v s
  | .vaultSrEntry v => Sys2Proof.Machine.execVaultSrEntry v s
  | .vaultSrEntered v => Sys2Proof.Machine.execVaultSrEntered v s
  | .vaultSrExit v => Sys2Proof.Machine.execVaultSrExit v s
  | .vaultSrExited v => Sys2Proof.Machine.execVaultSrExited v s
  | .tempBandChange v band temp => Sys2Proof.Machine.execTempBandChange v band temp s
  | .scrubPass v ce bad => Sys2Proof.Machine.execScrubPass v ce bad s
  | .iwinEnable w v => Sys2Proof.Machine.execIwinEnable w v s
  | .iwinDisable w v => Sys2Proof.Machine.execIwinDisable w v s
  | .larderInitDone => Sys2Proof.Machine.execLarderInitDone s
  | .trivetWriteAck id n ce ue => Sys2Proof.Machine.execTrivetWriteAck id n ce ue s
  | .recipeRegister addr constBase => Sys2Proof.Machine.execRecipeRegister addr constBase s
  | .clevelXferStart tile n => Sys2Proof.Machine.execClevelXferStart tile n s
  | .clevelXferDone tile n => Sys2Proof.Machine.execClevelXferDone tile n s
  | .haloSend tile n => Sys2Proof.Machine.execHaloSend tile n s
  | .haloAck tile n => Sys2Proof.Machine.execHaloAck tile n s
  | .fillBatchRelease id => Sys2Proof.Machine.execFillBatchRelease id s
  | .ctxOpen src c => Sys2Proof.Machine.execCtxOpen src c s
  | .ctxClose src c => Sys2Proof.Machine.execCtxClose src c s
  | .ctxAdopt src c => Sys2Proof.Machine.execCtxAdopt src c s
  | .lease src c v => Sys2Proof.Machine.execLease src c v s
  | .leaseExpire c => Sys2Proof.Machine.execLeaseExpire c s
  | .orphanHoldEnd c => Sys2Proof.Machine.execOrphanHoldEnd c s
  | .doorbell src c v => Sys2Proof.Machine.execDoorbell src c v s
  | .descriptorConsume c => Sys2Proof.Machine.execDescriptorConsume c s
  | .cqHeadWrite src c v => Sys2Proof.Machine.execCqHeadWrite src c v s
  | .nop id => Sys2Proof.Machine.execNop id s
  | .runRecipe id => Sys2Proof.Machine.execRunRecipe id s
  | .copy id => Sys2Proof.Machine.execCopy id s
  | .fence id => Sys2Proof.Machine.execFence id s
  | .waitGt id => Sys2Proof.Machine.execWaitGt id s
  | .waitGtReached id => Sys2Proof.Machine.execWaitGtReached id s
  | .signal id => Sys2Proof.Machine.execSignal id s
  | .lampRequest id => Sys2Proof.Machine.execLampRequest id s
  | .captureBind id => Sys2Proof.Machine.execCaptureBind id s
  | .orbitSolve id => Sys2Proof.Machine.execOrbitSolve id s
  | .commitEnter id => Sys2Proof.Machine.execCommitEnter id s
  | .commitComplete id => Sys2Proof.Machine.execCommitComplete id s
  | .soArm src who => Sys2Proof.Machine.execSoArm src who s
  | .soDisarm src who => Sys2Proof.Machine.execSoDisarm src who s
  | .urgFifoDispatch k => Sys2Proof.Machine.execUrgFifoDispatch k s
  | .fDispatch => Sys2Proof.Machine.execFDispatch s
  | .bDispatch part ks => Sys2Proof.Machine.execBDispatch part ks s
  | .deadline id => Sys2Proof.Machine.execDeadline id s
  | .booksSnap => Sys2Proof.Machine.execBooksSnap s
  | .booksSnapCapture => Sys2Proof.Machine.execBooksSnapCapture s
  | .partKmaskWrite v => Sys2Proof.Machine.execPartKmaskWrite v s
  | .partUrgBudgetWrite v => Sys2Proof.Machine.execPartUrgBudgetWrite v s
  | .opFloorWrite v => Sys2Proof.Machine.execOpFloorWrite v s
  | .confirmDeadline frame => Sys2Proof.Machine.execConfirmDeadline frame s
  | .retraction => Sys2Proof.Machine.execRetraction s
  | .specRaiseExpire cmd o => Sys2Proof.Machine.execSpecRaiseExpire cmd o s
  | .domEnable v => Sys2Proof.Machine.execDomEnable v s
  | .domDisable v => Sys2Proof.Machine.execDomDisable v s
  | .frameStart port vc vcx hdr => Sys2Proof.Machine.execFrameStart port vc vcx hdr s
  | .lineReceive port pkt => Sys2Proof.Machine.execLineReceive port pkt s
  | .frameEnd port vc vcx hdr => Sys2Proof.Machine.execFrameEnd port vc vcx hdr s
  | .frameStale frame => Sys2Proof.Machine.execFrameStale frame s
  | .agWindowClose g => Sys2Proof.Machine.execAgWindowClose g s
  | .streamEnable port vc v => Sys2Proof.Machine.execStreamEnable port vc v s
  | .refRelease port v => Sys2Proof.Machine.execRefRelease port v s
  | .bindHoldExpire cmd => Sys2Proof.Machine.execBindHoldExpire cmd s
  | .scPush c v => Sys2Proof.Machine.execScPush c v s
  | .scFlush c => Sys2Proof.Machine.execScFlush c s
  | .bundleStart c => Sys2Proof.Machine.execBundleStart c s
  | .bundleComplete c => Sys2Proof.Machine.execBundleComplete c s
  | .bundleNack c k => Sys2Proof.Machine.execBundleNack c k s
  | .ibiReceive c addr payload => Sys2Proof.Machine.execIbiReceive c addr payload s
  | .stripeStart v => Sys2Proof.Machine.execStripeStart v s
  | .stripeSuspend v => Sys2Proof.Machine.execStripeSuspend v s
  | .stripeDelivered v => Sys2Proof.Machine.execStripeDelivered v s
  | .sieveRelCmd v w => Sys2Proof.Machine.execSieveRelCmd v w s
  | .hostHoldExpire v c o k => Sys2Proof.Machine.execHostHoldExpire v c o k s
  | .pbNextWrite v w => Sys2Proof.Machine.execPbNextWrite v w s
  | .sieveCtxEnable v w => Sys2Proof.Machine.execSieveCtxEnable v w s
  | .pgEnable p v => Sys2Proof.Machine.execPgEnable p v s
  | .pgReady p => Sys2Proof.Machine.execPgReady p s
  | .bandStart => Sys2Proof.Machine.execBandStart s
  | .bandDone => Sys2Proof.Machine.execBandDone s
  | .pgRel p v => Sys2Proof.Machine.execPgRel p v s
  | .pgHoldExpire p k => Sys2Proof.Machine.execPgHoldExpire p k s
  | .bindShed id => Sys2Proof.Machine.execBindShed id s
  | .jqTail q v => Sys2Proof.Machine.execJqTail q v s
  | .jobStart q => Sys2Proof.Machine.execJobStart q s
  | .crop => Sys2Proof.Machine.execCrop s
  | .decodeRecord => Sys2Proof.Machine.execDecodeRecord s
  | .jobEnd q => Sys2Proof.Machine.execJobEnd q s
  | .solveStart => Sys2Proof.Machine.execSolveStart s
  | .solveComplete ce ue => Sys2Proof.Machine.execSolveComplete ce ue s
  | .levelSet m => Sys2Proof.Machine.execLevelSet m s
  | .daliQuery m status data => Sys2Proof.Machine.execDaliQuery m status data s
  | .nsHeartbeat m => Sys2Proof.Machine.execNsHeartbeat m s
  | .failsafeCfg m => Sys2Proof.Machine.execFailsafeCfg m s
  | .paramWriteStart m => Sys2Proof.Machine.execParamWriteStart m s
  | .paramWriteChunk m => Sys2Proof.Machine.execParamWriteChunk m s
  | .paramCommit m => Sys2Proof.Machine.execParamCommit m s
  | .levelAck m => Sys2Proof.Machine.execLevelAck m s
  | .levelAckTimeout o => Sys2Proof.Machine.execLevelAckTimeout o s
  | .daliReply m => Sys2Proof.Machine.execDaliReply m s
  | .ioStat m => Sys2Proof.Machine.execIoStat m s
  | .fsHeartbeat m => Sys2Proof.Machine.execFsHeartbeat m s
  | .fsFault m => Sys2Proof.Machine.execFsFault m s
  | .barrierRetx => Sys2Proof.Machine.execBarrierRetx s
  | .barrierLinkUp lat => Sys2Proof.Machine.execBarrierLinkUp lat s
  | .barrierTxPush src v => Sys2Proof.Machine.execBarrierTxPush src v s
  | .barrierRxPop v => Sys2Proof.Machine.execBarrierRxPop v s
  | .dqPush v => Sys2Proof.Machine.execDqPush v s
  | .spEnable src v => Sys2Proof.Machine.execSpEnable src v s
  | .fsPowerup => Sys2Proof.Machine.execFsPowerup s
  | .fsVinLow => Sys2Proof.Machine.execFsVinLow s
  | .fsVinStop => Sys2Proof.Machine.execFsVinStop s
  | .zeroCrossing period age rms freq => Sys2Proof.Machine.execZeroCrossing period age rms freq s
  | .flywheelCrossing => Sys2Proof.Machine.execFlywheelCrossing s
  | .mainsFlagChange half rms freq => Sys2Proof.Machine.execMainsFlagChange half rms freq s
  | .brownoutWarn => Sys2Proof.Machine.execBrownoutWarn s
  | .dapcStep o delayed => Sys2Proof.Machine.execDapcStep o delayed s
  | .daliBusFail => Sys2Proof.Machine.execDaliBusFail s
  | .daliBusRecover => Sys2Proof.Machine.execDaliBusRecover s
  | .fieldInputChange v => Sys2Proof.Machine.execFieldInputChange v s
  | .zoneOpen id => Sys2Proof.Machine.execZoneOpen id s
  | .zoneClose id => Sys2Proof.Machine.execZoneClose id s
  | .lampBootHoldEnd => Sys2Proof.Machine.execLampBootHoldEnd s
  | .compositorBoundary o => Sys2Proof.Machine.execCompositorBoundary o s
  | .pictureStart => Sys2Proof.Machine.execPictureStart s
  | .pictureDone => Sys2Proof.Machine.execPictureDone s
  | .maskReload o v => Sys2Proof.Machine.execMaskReload o v s
  | .lyPost o l v => Sys2Proof.Machine.execLyPost o l v s
  | .compOutputEnable o v => Sys2Proof.Machine.execCompOutputEnable o v s
  | .encodeStart n => Sys2Proof.Machine.execEncodeStart n s
  | .encodeDone n len qp => Sys2Proof.Machine.execEncodeDone n len qp s
  | .encSessionEnable n v => Sys2Proof.Machine.execEncSessionEnable n v s
  | .forceIdr n v => Sys2Proof.Machine.execForceIdr n v s
  | .bsRdWrite n v => Sys2Proof.Machine.execBsRdWrite n v s
  | .pdmRateChange => Sys2Proof.Machine.execPdmRateChange s
  | .xfadeEnd => Sys2Proof.Machine.execXfadeEnd s
  | .featureFrame => Sys2Proof.Machine.execFeatureFrame s
  | .audioStreamHop => Sys2Proof.Machine.execAudioStreamHop s
  | .simmerStart v len0 len1 => Sys2Proof.Machine.execSimmerStart v len0 len1 s
  | .simmerEval slot overrun scores => Sys2Proof.Machine.execSimmerEval slot overrun scores s
  | .freezeExpire => Sys2Proof.Machine.execFreezeExpire s
  | .freezeRel v => Sys2Proof.Machine.execFreezeRel v s
  | .offDeferEnd => Sys2Proof.Machine.execOffDeferEnd s
  | .exportStart v => Sys2Proof.Machine.execExportStart v s
  | .exportDone => Sys2Proof.Machine.execExportDone s
  | .pilotTimerWake n => Sys2Proof.Machine.execPilotTimerWake n s
  | .pilotTimerLevel n => Sys2Proof.Machine.execPilotTimerLevel n s
  | .psReqRun => Sys2Proof.Machine.execPsReqRun s
  | .psReqWatch => Sys2Proof.Machine.execPsReqWatch s
  | .psReqRest => Sys2Proof.Machine.execPsReqRest s
  | .psReqDeep => Sys2Proof.Machine.execPsReqDeep s
  | .psReqOff => Sys2Proof.Machine.execPsReqOff s
  | .kgateWrite v => Sys2Proof.Machine.execKgateWrite v s
  | .kettleGated k => Sys2Proof.Machine.execKettleGated k s
  | .kettleUngated k => Sys2Proof.Machine.execKettleUngated k s
  | .transitionComplete => Sys2Proof.Machine.execTransitionComplete s
  | .wakeCause => Sys2Proof.Machine.execWakeCause s
  | .pilotPowerGood => Sys2Proof.Machine.execPilotPowerGood s
  | .mainPowerGood bootsel cab temp sensor => Sys2Proof.Machine.execMainPowerGood bootsel cab temp sensor s
  | .vinStart => Sys2Proof.Machine.execVinStart s
  | .pwrOnEdge mv => Sys2Proof.Machine.execPwrOnEdge mv s
  | .vinWarn mv => Sys2Proof.Machine.execVinWarn mv s
  | .vinUv => Sys2Proof.Machine.execVinUv s
  | .thermWarn temp sensor => Sys2Proof.Machine.execThermWarn temp sensor s
  | .thermEmerg temp sensor => Sys2Proof.Machine.execThermEmerg temp sensor s
  | .thermEmergEnd temp sensor => Sys2Proof.Machine.execThermEmergEnd temp sensor s
  | .thermTrip temp sensor => Sys2Proof.Machine.execThermTrip temp sensor s
  | .grpOpReqWrite v => Sys2Proof.Machine.execGrpOpReqWrite v s
  | .opChangeStep g => Sys2Proof.Machine.execOpChangeStep g s
  | .hostEnWrite v => Sys2Proof.Machine.execHostEnWrite v s
  | .padRelease v => Sys2Proof.Machine.execPadRelease v s
  | .pcieInbound bar ofs len write => Sys2Proof.Machine.execPcieInbound bar ofs len write s
  | .msixSend v => Sys2Proof.Machine.execMsixSend v s
  | .msixUnmask v => Sys2Proof.Machine.execMsixUnmask v s
  | .vecEoi v w => Sys2Proof.Machine.execVecEoi v w s
  | .perst => Sys2Proof.Machine.execPerst s
  | .pcieLinkUp speed width => Sys2Proof.Machine.execPcieLinkUp speed width s
  | .pcieLinkDown => Sys2Proof.Machine.execPcieLinkDown s
  | .ethRxFrame port bytes fcsOk => Sys2Proof.Machine.execEthRxFrame port bytes fcsOk s
  | .ethTxTail port v => Sys2Proof.Machine.execEthTxTail port v s
  | .ethRxTail port v => Sys2Proof.Machine.execEthRxTail port v s
  | .ethTxFrame port => Sys2Proof.Machine.execEthTxFrame port s
  | .ptpMeas port v => Sys2Proof.Machine.execPtpMeas port v s
  | .ptpTimeout port => Sys2Proof.Machine.execPtpTimeout port s
  | .ppsEdge rising => Sys2Proof.Machine.execPpsEdge rising s
  | .ppsMissing => Sys2Proof.Machine.execPpsMissing s
  | .gnssRxByte b => Sys2Proof.Machine.execGnssRxByte b s
  | .gnssTxByte v => Sys2Proof.Machine.execGnssTxByte v s
  | .huRxByte b good => Sys2Proof.Machine.execHuRxByte b good s
  | .huTxByte v => Sys2Proof.Machine.execHuTxByte v s
  | .gpioEdge n drive level => Sys2Proof.Machine.execGpioEdge n drive level s
  | .bootSelect => Sys2Proof.Machine.execBootSelect s
  | .bootDoorbell v => Sys2Proof.Machine.execBootDoorbell v s
  | .fwReady boot => Sys2Proof.Machine.execFwReady boot s
  | .info src => Sys2Proof.Machine.execInfo src s
  | .updBegin src len => Sys2Proof.Machine.execUpdBegin src len s
  | .updWrite src ofs addr len => Sys2Proof.Machine.execUpdWrite src ofs addr len s
  | .updVerify src => Sys2Proof.Machine.execUpdVerify src s
  | .updActivateNextBoot src => Sys2Proof.Machine.execUpdActivateNextBoot src s
  | .updActivateLive src => Sys2Proof.Machine.execUpdActivateLive src s
  | .updConfirm src => Sys2Proof.Machine.execUpdConfirm src s
  | .updRevert src => Sys2Proof.Machine.execUpdRevert src s
  | .updAbort src => Sys2Proof.Machine.execUpdAbort src s
  | .reboot src => Sys2Proof.Machine.execReboot src s
  | .tapLock src v => Sys2Proof.Machine.execTapLock src v s
  | .mbComplete flashError => Sys2Proof.Machine.execMbComplete flashError s
  | .liveHandover valid pauseUs => Sys2Proof.Machine.execLiveHandover valid pauseUs s
  | .tapInstruction instr => Sys2Proof.Machine.execTapInstruction instr s
  | .canaryStart => Sys2Proof.Machine.execCanaryStart s
  | .canaryComplete cols banks other => Sys2Proof.Machine.execCanaryComplete cols banks other s
  | .ageRefresh tile margin => Sys2Proof.Machine.execAgeRefresh tile margin s
  | .rmCmd v => Sys2Proof.Machine.execRmCmd v s
  | .remapStart => Sys2Proof.Machine.execRemapStart s
  | .drainComplete => Sys2Proof.Machine.execDrainComplete s
  | .migrationComplete fault => Sys2Proof.Machine.execMigrationComplete fault s
  | .columnRemap tile => Sys2Proof.Machine.execColumnRemap tile s
  | .bankRemap tile => Sys2Proof.Machine.execBankRemap tile s
  | .portTrained port neigh lanes => Sys2Proof.Machine.execPortTrained port neigh lanes s
  | .laneFail port lanes => Sys2Proof.Machine.execLaneFail port lanes s
  | .flitReceive port bytes => Sys2Proof.Machine.execFlitReceive port bytes s
  | .replayTimeout port => Sys2Proof.Machine.execReplayTimeout port s
  | .retrainTimeout port => Sys2Proof.Machine.execRetrainTimeout port s
  | .rd src tag addr len => Sys2Proof.Machine.execRd src tag addr len s
  | .wr src tag addr bytes => Sys2Proof.Machine.execWr src tag addr bytes s
  | .ctxWr src tag orig which c v => Sys2Proof.Machine.execCtxWr src tag orig which c v s
  | .skewerKill src tag ctx seq => Sys2Proof.Machine.execSkewerKill src tag ctx seq s
  | .delegate src ctx part attempt reruns kettles desc => Sys2Proof.Machine.execDelegate src ctx part attempt reruns kettles desc s
  | .rdData src tag bytes => Sys2Proof.Machine.execRdData src tag bytes s
  | .wrAck src tag => Sys2Proof.Machine.execWrAck src tag s
  | .err src tag => Sys2Proof.Machine.execErr src tag s
  | .report src ctx seq what disp b20 place => Sys2Proof.Machine.execReport src ctx seq what disp b20 place s
  | .handoff src ctx part desc => Sys2Proof.Machine.execHandoff src ctx part desc s
  | .skewerHeartbeat m running => Sys2Proof.Machine.execSkewerHeartbeat m running s
  | .skewerHbSend => Sys2Proof.Machine.execSkewerHbSend s
  | .memberHbTimeout m portsDown => Sys2Proof.Machine.execMemberHbTimeout m portsDown s
  | .memberLost m => Sys2Proof.Machine.execMemberLost m s
  | .lostAck src lost => Sys2Proof.Machine.execLostAck src lost s
  | .join members => Sys2Proof.Machine.execJoin members s
  | .skJoinGo v ok => Sys2Proof.Machine.execSkJoinGo v ok s
  | .headUnreachable => Sys2Proof.Machine.execHeadUnreachable s
  | .time port gridQ siQ => Sys2Proof.Machine.execTime port gridQ siQ s
  | .echo port latNs => Sys2Proof.Machine.execEcho port latNs s
  | .skewTimeTimeout => Sys2Proof.Machine.execSkewTimeTimeout s
  | .cabDoorbell src v => Sys2Proof.Machine.execCabDoorbell src v s
  | .cabLease src v => Sys2Proof.Machine.execCabLease src v s
  | .cabCqhead src v => Sys2Proof.Machine.execCabCqhead src v s
  | .evtClr src page v => Sys2Proof.Machine.execEvtClr src page v s
  | .evtSet src page v => Sys2Proof.Machine.execEvtSet src page v s
  | .shadowWrite src page ofs v => Sys2Proof.Machine.execShadowWrite src page ofs v s
  | .shadowArm src page v => Sys2Proof.Machine.execShadowArm src page v s
  | .shadowDisarm src page v => Sys2Proof.Machine.execShadowDisarm src page v s
  | .shadowCommit page => Sys2Proof.Machine.execShadowCommit page s
  | .cntClear src page => Sys2Proof.Machine.execCntClear src page s
  | .blockResetReq src v => Sys2Proof.Machine.execBlockResetReq src v s
  | .blockResetDone k => Sys2Proof.Machine.execBlockResetDone k s
  | .unmappedAccess page => Sys2Proof.Machine.execUnmappedAccess page s
  | .badWidthAccess page ofs => Sys2Proof.Machine.execBadWidthAccess page ofs s
  | .offPageAccess page ofs => Sys2Proof.Machine.execOffPageAccess page ofs s
  | .rcRead page ofs => Sys2Proof.Machine.execRcRead page ofs s
  | .registerWrite src page ofs v => Sys2Proof.Machine.execRegisterWrite src page ofs v s
  | .supplyFoldback out => Sys2Proof.Machine.execSupplyFoldback out s
  | .foldbackRetry out ok => Sys2Proof.Machine.execFoldbackRetry out ok s
  | .handOffTake => Sys2Proof.Machine.execHandOffTake s
  | .hbPeriodSend => Sys2Proof.Machine.execHbPeriodSend s
  | .unknownType m => Sys2Proof.Machine.execUnknownType m s
  | .rxUnknown m => Sys2Proof.Machine.execRxUnknown m s
  | .barrierLinkDown => Sys2Proof.Machine.execBarrierLinkDown s
  | .daliCollision => Sys2Proof.Machine.execDaliCollision s
  | .relayCoilFault => Sys2Proof.Machine.execRelayCoilFault s
  | .vinWarnClear mv => Sys2Proof.Machine.execVinWarnClear mv s
  | .tripWakeUnblock temp => Sys2Proof.Machine.execTripWakeUnblock temp s
  | .ethLinkChange port speed => Sys2Proof.Machine.execEthLinkChange port speed s
  | .uartByteSent port => Sys2Proof.Machine.execUartByteSent port s

end Sys2Proof.Machine
end

