-- ==== Sys2Proof/Machine/Tick.lean ====
section
/-! DEFINITION. The passing of time: what the device's clocks do while no command is waiting. -/

namespace Sys2Proof.Machine

/-- One phase unit of time passes. Elapsed time always runs on; GT (R34, R37: the counter lives in the Pilot domain) and
SI time advance with it, at the nominal rate, while the Pilot domain is on, and audio samples arrive (R499). DESIGN CHOICE (log 6). -/
def State.tick (s0 : State) : State :=
  let s := s0.audioTick
  let n := s.nowSub + s.siPerUnit
  let s1 := { s with now := s.now + n / 19660800, nowSub := n % 19660800 }
  if s.pwr.pilotOn then
    let t := s.siSub + s.siPerUnit
    { s1 with gt := (s.gt + 1) % 2 ^ 64, si := (s.si + t / 19660800) % 2 ^ 64, siSub := t % 19660800 }
  else s1

end Sys2Proof.Machine
end

