-- ==== Sys2Proof/Safety.lean ====
section
/-! DEFINITION. What a sound run is, in the terms the statements use: the canonical forms of the sparse stores, and the queue's discipline. -/

namespace Sys2Proof.Machine

/-- The canonical form of memory: addresses strictly rising, and no entry equal to what an unlisted address reads as. -/
def Memory.wf (m : List Host.Cell) : Bool := storeSorted m && m.all (fun c => c.2 != memDflt c.1)

/-- The canonical forms of the state: registers, shadow copies, memory and poison marks, each listed once and in rising order. -/
structure State.Canon (s : State) : Prop where
  regs : storeSorted s.regs = true
  shad : storeSorted s.shad = true
  mem : Memory.wf s.mem = true
  poison : storeSorted s.poison = true

/-- What an effect may do to the stores: it keeps every canonical form, and leaves the queue of waiting commands alone. -/
structure Moves (s t : State) : Prop where
  regs : storeSorted s.regs = true → storeSorted t.regs = true
  shad : storeSorted s.shad = true → storeSorted t.shad = true
  mem : Memory.wf s.mem = true → Memory.wf t.mem = true
  poison : storeSorted s.poison = true → storeSorted t.poison = true
  queue : t.pending = s.pending

/-- The state is as before but for the fields listed (each with its page and index), and every byte of memory reads as before. -/
structure Changes (s t : State) (written : List (Fld × Nat × Nat)) : Prop where
  fields : ∀ (f : Fld) (p i : Nat), (∀ x ∈ written, x.1.key x.2.1 x.2.2 ≠ f.key p i) → t.rd f p i = s.rd f p i
  bytes : ∀ a, t.byteAt a = s.byteAt a

/-- A page whose registers an access reaches (R3, R33, R694, R701): mapped, its domain on, its block out of reset, and its ports not fused
off. -/
def State.live (s : State) (page : Nat) : Bool :=
  mappedPage page && s.pageOn page && !s.inReset page && !(page == 0x0C0 && s.rd F.SEC_FUSE_CFG_GRADE 0 0 == 1)

/-- A source's write of a context page is performed: the page is live and DB_SRC permits the source (R562). -/
def State.liveCtx (s : State) (src : Src) (c : Nat) : Bool := s.live (0x100 + c) && s.dbPermits src c

end Sys2Proof.Machine
end

