-- ==== Sys2Proof/Certificates/Slice0/Obligations.lean ====
section
/-! DEFINITION. The statements about the model, for the provers: each a proposition, with the rules of the specification that it says. -/

open Sys2Proof Sys2Proof.Machine Host

/-- One step: the front command, on the state with the rest of the queue (that an empty queue lets time pass is the model's choice, log 6). -/
def Obligations.StepTakesFrontCommand : Prop :=
  (∀ (c : Instr) (rest : List Instr) (s : State), step { s with pending := c :: rest } = exec c { s with pending := rest }) ∧
  (∀ s : State, s.pending = [] → step s = .next s.tick ∧ s.tick.pending = [])

/-- An inductive invariant: the canonical form of every store, over every command of the table; each step consumes one command. -/
def Obligations.EveryStepKeepsCanonicalForm : Prop :=
  ∀ s : State, s.Canon → ∃ t, step s = .next t ∧ t.Canon ∧ t.pending = s.pending.tail

/-- The state after reset meets the invariant that every step keeps. -/
def Obligations.ResetIsCanonical : Prop :=
  State.reset.Canon ∧ State.reset.pending = [] ∧ State.reset.mem = [] ∧ State.reset.gt = 0 ∧
  (∀ (f : Fld) (p i : Nat), State.reset.rd f p i = f.rst p i ∧ State.reset.rdSh f p i = f.rst p i)

/-- R59 to R64. -/
def Obligations.PllAndMclkCommands : Prop :=
  (∀ (n : Fin 5) (v : Word) (s : State), s.live 0x002 = true → pllInRange n (v.toNat % 4096) = true →
    ∃ t, exec (.pllTargetWrite n v) s = .next t ∧ t.rd F.CLK_PLL_CFG_TARGET_MHZ 0 n = v.toNat % 4096 ∧
      Changes s t [(F.CLK_PLL_CFG_TARGET_MHZ, 0, n)]) ∧
  (∀ (n : Fin 5) (v : Word) (s : State), s.live 0x002 = true → pllInRange n (v.toNat % 4096) = false →
    ∃ t, exec (.pllTargetWrite n v) s = .next t ∧ t.rd F.REG_BLK_FAULT_LOCKED_WR 0x002 0 = 1 ∧
      Changes s t [(F.REG_EVT_RAW, 0x002, 0), (F.REG_BLK_FAULT_LOCKED_WR, 0x002, 0), (F.REG_BLK_FAULT_OFS, 0x002, 0)]) ∧
  (∀ (n : Fin 5) (s : State), s.live 0x002 = true →
    ∃ t, exec (.pllRelock n) s = .next t ∧ t.rd F.CLK_PLL_STAT_LOCKED 0 n = 0 ∧ t.rd F.CLK_PLL_STAT_ON_BYPASS 0 n = 1 ∧
      t.rd F.CLK_PLL_STAT_FAULT 0 n = 0 ∧
      t.rd F.CLK_PLL_STAT_DELIVERED_MHZ 0 n =
        (if s.pllClamp n (s.orr.pllTarget.getD n 0) (s.rd F.CLK_PLL_CFG_TARGET_MHZ 0 n) < 500 then 250 else 500)) ∧
  (∀ (n : Fin 5) (s : State), n.val ∈ s.orr.relocking → n.val ∉ s.orr.lockHeld → s.rd F.CLK_PLL_STAT_FAULT 0 n ≠ 1 →
    ∃ t, exec (.pllLock n) s = .next t ∧ t.rd F.CLK_PLL_STAT_LOCKED 0 n = 1 ∧ Changes s t [(F.CLK_PLL_STAT_LOCKED, 0, n)]) ∧
  (∀ (n : Fin 5) (s : State), n.val ∈ s.orr.lockHeld →
    s.rd F.CLK_PLL_CFG_TARGET_MHZ 0 n ≤ s.pllClamp n (s.orr.pllTarget.getD n 0) (s.rd F.CLK_PLL_CFG_TARGET_MHZ 0 n) →
    ∃ t, exec (.pllBypassEnd n) s = .next t ∧ t.rd F.CLK_PLL_STAT_ON_BYPASS 0 n = 0 ∧ t.rd F.CLK_PLL_STAT_BYPASS_DIV2 0 n = 0 ∧
      t.rd F.CLK_PLL_STAT_DELIVERED_MHZ 0 n = s.rd F.CLK_PLL_CFG_TARGET_MHZ 0 n % 4096 ∧
      Changes s t [(F.CLK_PLL_STAT_ON_BYPASS, 0, n), (F.CLK_PLL_STAT_BYPASS_DIV2, 0, n), (F.CLK_PLL_STAT_DELIVERED_MHZ, 0, n)]) ∧
  (∀ (n : Fin 5) (s : State), n.val ∈ s.orr.relocking → n.val ∉ s.orr.lockHeld →
    ∃ t, exec (.pllFault n) s = .next t ∧ t.rd F.CLK_PLL_STAT_FAULT 0 n = 1) ∧
  (∀ (n : Fin 8) (v : Word) (s : State), s.live 0x002 = true → 6000000 ≤ v.toNat → v.toNat ≤ 48000000 →
    ∃ t, exec (.mclkTargetWrite n v) s = .next t ∧ t.rd F.CLK_MCLK_TARGET 0 n = v.toNat ∧
      t.rd F.CLK_MCLK_FLAG_SLEWING 0 n = (if v.toNat = s.rd F.CLK_MCLK_STAT_FREQ 0 n then 0 else 1) ∧
      Changes s t [(F.CLK_MCLK_TARGET, 0, n), (F.CLK_MCLK_FLAG_SLEWING, 0, n)]) ∧
  (∀ (n : Fin 8) (v : Word) (s : State), s.live 0x002 = true → (v.toNat < 6000000 ∨ 48000000 < v.toNat) →
    ∃ t, exec (.mclkTargetWrite n v) s = .next t ∧ t.rd F.CLK_MCLK_FLAG_RANGE_ERR 0 n = 1 ∧
      Changes s t [(F.CLK_MCLK_FLAG_RANGE_ERR, 0, n), (F.REG_EVT_RAW, 0x004, 0)]) ∧
  (∀ (n : Fin 8) (s : State), s.rd F.CLK_MCLK_FLAG_SLEWING 0 n = 1 →
    ∃ t, exec (.mclkSlewDone n) s = .next t ∧ t.rd F.CLK_MCLK_STAT_FREQ 0 n = s.rd F.CLK_MCLK_TARGET 0 n % 2 ^ 32 ∧
      t.rd F.CLK_MCLK_FLAG_SLEWING 0 n = 0 ∧ Changes s t [(F.CLK_MCLK_STAT_FREQ, 0, n), (F.CLK_MCLK_FLAG_SLEWING, 0, n)])

/-- R35, R36 (on a link with nothing outstanding, so that RX_ACK frees nothing). -/
def Obligations.MainsStampsQualify : Prop :=
  (∀ (m : List Byte) (s : State), s.pwr.pilotOn = true → s.pwr.mainOn = true → s.rd F.BR_STAT_LINK 0 0 = 2 → s.br.outst = [] →
    s.br.rxq.length < 64 → brGood m = true → leAt m 1 1 = 0x81 → s.br.rxNext.getD (leAt m 2 2) = leAt m 2 2 → s.orr.restart = false →
    -0x199A ≤ s.crossErr (s.crossing (leAt m 8 2)) → s.crossErr (s.crossing (leAt m 8 2)) ≤ 0x199A →
    ∃ t, exec (.zcStamp m) s = .next t ∧ t.orr.zcRun = (if s.orr.adverse then 0 else s.orr.zcRun + 1) ∧ t.orr.missRun = 0 ∧
      t.orr.qualified = (s.orr.qualified || (!s.orr.adverse && decide (50 ≤ s.orr.zcRun + 1))) ∧
      t.orr.lastCross = s.crossing (leAt m 8 2) ∧ t.br.rxq = s.br.rxq ++ [m] ∧ t.br.rxNext = some ((leAt m 2 2 + 1) % 65536) ∧
      ∀ a, t.byteAt a = s.byteAt a) ∧
  (∀ (m : List Byte) (s : State), s.pwr.pilotOn = true → s.pwr.mainOn = true → s.rd F.BR_STAT_LINK 0 0 = 2 → s.br.outst = [] →
    s.br.rxq.length < 64 → brGood m = true → leAt m 1 1 = 0x81 → s.br.rxNext.getD (leAt m 2 2) = leAt m 2 2 → s.orr.restart = false →
    leAt m 10 2 ≠ 0xFFFF → (s.crossErr (s.crossing (leAt m 8 2)) < -0x199A ∨ 0x199A < s.crossErr (s.crossing (leAt m 8 2))) →
    ∃ t, exec (.zcStamp m) s = .next t ∧ t.orr = s.orr ∧ t.br.rxq = s.br.rxq ++ [m] ∧ ∀ a, t.byteAt a = s.byteAt a) ∧
  (∀ (s : State) (e : Nat), s.expected = some e → s.pwr.mainOn = true → e + 0x199A + s.usToUnits 60 ≤ s.gt →
    ∃ t, exec .zcMiss s = .next t ∧ t.rd F.ORR_ZC_MISS 0 0 = satInc (s.rd F.ORR_ZC_MISS 0 0) % 2 ^ 32 ∧ t.orr.zcRun = 0 ∧
      t.orr.missRun = s.orr.missRun + 1 ∧ t.orr.qualified = (s.orr.qualified && decide (s.orr.missRun + 1 < 3)) ∧
      ∀ a, t.byteAt a = s.byteAt a) ∧
  (∀ (m : List Byte) (s : State), s.pwr.pilotOn = true → s.rd F.BR_STAT_LINK 0 0 = 2 → s.br.outst = [] →
    brGood m = true → leAt m 1 1 = 0x82 → bitOf (leAt m 8 1) 4 = false →
    ∃ t, exec (.mainsStat m) s = .next t ∧ t.rd F.BR_STAT_MAINS_FLAGS 0 0 = leAt m 8 1 % 2 ^ F.BR_STAT_MAINS_FLAGS.width ∧
      t.orr.qualified = (s.orr.qualified && !(bitOf (leAt m 8 1) 0 || bitOf (leAt m 8 1) 1 || bitOf (leAt m 8 1) 3)) ∧
      t.orr.zcRun = (if bitOf (leAt m 8 1) 0 || bitOf (leAt m 8 1) 1 || bitOf (leAt m 8 1) 3 then 0 else s.orr.zcRun) ∧
      t.br.lastMains = m ∧ ∀ a, t.byteAt a = s.byteAt a)

/-- R39 to R43, R47, R55, R729, Table ORR-2. -/
def Obligations.ChannelReferenceEvents : Prop :=
  (∀ (ofs : BitVec 64) (e f : BitVec 32) (s : State), s.gt % 65536 = 0 → s.orr.phaseZeroAt ≠ some s.gt → s.pwr.mainOn = true →
    s.rd F.ORR_CH_CTRL_REF_EN 0 0 = 0 → s.chState 0 = 0 → s.rd F.SK_STAT_ROLE 0 0 = 0 →
    ∃ t, exec (.gridPhaseZero ofs e f) s = .next t ∧ t.orr.phaseZeroAt = some s.gt ∧
      t.orr.nominal60 = s.rdB F.ORR_GRID_CTRL_NOMINAL_HZ 0 0 ∧ t.rd F.ORR_MAP_GT 0 0 = s.gt % 2 ^ 64 ∧ t.rd F.ORR_MAP_SI 0 0 = s.si % 2 ^ 64 ∧
      t.rd F.ORR_MAP_SEQ 0 0 = (s.rd F.ORR_MAP_SEQ 0 0 + 2) % 2 ^ 32 ∧ t.gt = s.gt ∧ ∀ a, t.byteAt a = s.byteAt a) ∧
  (∀ (ofs : BitVec 64) (e f : BitVec 32) (s : State), s.si / 1000000000 ≠ s.orr.siSecond → s.pwr.mainOn = true →
    ∃ t, exec (.siSecondBoundary ofs e f) s = .next t ∧ t.orr.siSecond = s.si / 1000000000 ∧ t.gt = s.gt ∧ ∀ a, t.byteAt a = s.byteAt a) ∧
  (∀ (ofs : BitVec 64) (s : State) (b : Nat), b < 8 → s.pwr.mainOn = true → (s.refCheck 1).dwellCand 1 = some b →
    (s.refCheck 1).dwellDone 1 b = true →
    ∃ t, exec (.switchDwellElapsed 1 ofs) s = .next t ∧ t.rd F.ORR_CH_STAT_SEL_REF 0 1 = b ∧ t.chState 1 = 1 ∧
      t.rd F.ORR_CH_STAT_DWELL_ACTIVE 0 1 = 0 ∧
      t.rd F.ORR_CH_STEP_CNT 0 1 = satInc (s.rd F.ORR_CH_STEP_CNT 0 1) % 2 ^ F.ORR_CH_STEP_CNT.width ∧
      t.gt = s.gt ∧ ∀ a, t.byteAt a = s.byteAt a) ∧
  (∀ (ch : Fin 2) (ofs : BitVec 64) (s : State), (s.evaluate ch ofs.toInt).chState ch = 1 →
    10 ≤ ((s.evaluate ch ofs.toInt).chan ch).lockRun →
    ∃ t, exec (.chLock ch ofs) s = .next t ∧ t = (((s.evaluate ch ofs.toInt).wr F.ORR_CH_STAT_STATE 0 ch 2).raise 0x004 ch).refCheckAll) ∧
  (∀ (ch : Fin 2) (ofs : BitVec 64) (s : State), s.pwr.mainOn = true → s.rd F.ORR_CH_CTRL_REF_EN 0 ch = 0 → s.chState ch = 3 →
    s.rd F.ORR_CH_HOLD_HOLDOVER_LIMIT 0 ch * 1000000000 ≤ s.holdNs ch →
    ∃ t, exec (.holdoverLimit ch ofs) s = .next t ∧ t.chState ch = 4 ∧ bitOf (t.rd F.REG_EVT_RAW 0x004 0) 6 = true ∧ t.gt = s.gt ∧
      ∀ a, t.byteAt a = s.byteAt a) ∧
  (∀ (ch : Fin 2) (ofs : BitVec 64) (s : State), s.pwr.mainOn = true → s.rd F.ORR_CH_CTRL_REF_EN 0 ch = 0 → s.chState ch = 3 →
    s.rd F.ORR_CH_HOLD_LOST_ERR 0 ch ≤ s.holdEst ch →
    ∃ t, exec (.holdEstLost ch ofs) s = .next t ∧ t.chState ch = 4 ∧ bitOf (t.rd F.REG_EVT_RAW 0x004 0) 6 = true ∧ t.gt = s.gt ∧
      ∀ a, t.byteAt a = s.byteAt a)

/-- R57. -/
def Obligations.SnapCapturesGtAndSi : Prop :=
  (∀ (v : Word) (s : State), s.live 0x004 = true → v.toNat % 2 = 1 →
    ∃ t, exec (.snapTake v) s = .next t ∧ t.rd F.ORR_SNAP_GT 0 0 = s.gt % 2 ^ 64 ∧ t.rd F.ORR_SNAP_SI 0 0 = s.si % 2 ^ 64 ∧
      Changes s t [(F.ORR_SNAP_GT, 0, 0), (F.ORR_SNAP_SI, 0, 0)]) ∧
  (∀ (v : Word) (s : State), s.live 0x004 = true → v.toNat % 2 = 0 → exec (.snapTake v) s = .next s)

/-- R51, R53, R65 to R67. -/
def Obligations.PulsesAndRealign : Prop :=
  (∀ (v : Word) (s : State), s.live 0x004 = true →
    (∀ g < 6, bitOf (s.rd F.ORR_REALIGN_PEND_GRP 0 0 ||| (v.toNat % 64)) g = true → s.groupHasOutput g = true) →
    s.rd F.ORR_REALIGN_PEND_GRP 0 0 < 64 →
    ∃ t, exec (.realign v) s = .next t ∧ t.rd F.ORR_REALIGN_PEND_GRP 0 0 = (s.rd F.ORR_REALIGN_PEND_GRP 0 0 ||| (v.toNat % 64)) ∧
      Changes s t [(F.ORR_REALIGN_PEND_GRP, 0, 0)]) ∧
  (∀ (v : Word) (g : Fin 6) (s : State), s.live 0x004 = true → v.toNat % 64 = 2 ^ g.val → s.rd F.ORR_REALIGN_PEND_GRP 0 0 = 0 →
    s.groupHasOutput g = false →
    ∃ t, exec (.realign v) s = .next t ∧ t.rd F.ORR_GRP_OFS 0 g = 0 ∧ t.rd F.ORR_REALIGN_PEND_GRP 0 0 = 0 ∧
      Changes s t [(F.ORR_GRP_OFS, 0, g), (F.ORR_REALIGN_PEND_GRP, 0, 0), (F.REG_EVT_RAW, 0x004, 0)]) ∧
  (∀ (g : Fin 6) (s : State), bitOf (s.rd F.ORR_REALIGN_PEND_GRP 0 0) g = true →
    (s.outputsOf g).any (fun n => s.firesAt n (s.grpOfs g) || s.firesAt n 0) = true →
    ∃ t, exec (.realignDecision g) s = .next t ∧ t.rd F.ORR_GRP_OFS 0 g = 0 ∧
      t.rd F.ORR_REALIGN_PEND_GRP 0 0 = clrBit (s.rd F.ORR_REALIGN_PEND_GRP 0 0) g % 64 ∧
      Changes s t [(F.ORR_GRP_OFS, 0, g), (F.ORR_REALIGN_PEND_GRP, 0, 0), (F.REG_EVT_RAW, 0x004, 0)]) ∧
  (∀ (n : Fin 16) (s : State), s.pwr.mainOn = true → s.rd F.ORR_REALIGN_PEND_GRP 0 0 = 0 → s.orr.realigned = [] →
    s.firesAt n (s.grpOfs (s.pulseGroup n)) = true → s.orr.lastPulse.find? (fun x => x.1 == n.val) = none →
    ∃ t, exec (.fsyncPulse n) s = .next t ∧ t.outs = .pulse n s.gt :: s.outs ∧ Changes s t []) ∧
  (∀ s : State, s.pwr.mainOn = true → s.rd F.ORR_REALIGN_PEND_GRP 0 0 = 0 → s.orr.realigned = [] →
    s.firesAt 16 (s.grpOfs 4) = true → s.orr.lastPulse.find? (fun x => x.1 == 16) = none →
    ∃ t, exec .gridOutPulse s = .next t ∧ t.outs = .pulse 16 s.gt :: s.outs ∧ Changes s t []) ∧
  (∀ s : State, s.pwr.mainOn = true → s.rd F.ORR_REALIGN_PEND_GRP 0 0 = 0 → s.orr.realigned = [] →
    s.firesAt 17 (s.grpOfs 5) = true → s.orr.lastPulse.find? (fun x => x.1 == 17) = none →
    ∃ t, exec .ppsOutPulse s = .next t ∧ t.outs = .pulse 17 (s.pulseAt 17).toNat :: s.outs ∧
      t.orr.ppsSecond = (s.pulseAt 17 - s.grpOfs 5).toNat / 1000000000 ∧ Changes s t []) ∧
  (∀ (num : Nat) (s : State) (c : CaptureEnt), s.captures.find? (fun x => x.num == num) = some c → c.due ≤ s.gt → s.fwReady = true →
    (c.period = 0 ∨ s.gt < c.due + c.period) →
    ∃ t, exec (.captureOccurrence num) s = .next t ∧ t.rd F.ORR_FSYNC_CFG_PHASE 0 (c.output % 16) = bitsOf c.cfg 0 16 ∧
      t.rd F.ORR_FSYNC_CFG_EN 0 (c.output % 16) = bitsOf c.cfg 31 1 ∧
      t.captures.find? (fun x => x.num == num) = (if c.period = 0 then none else some { c with due := c.due + c.period }) ∧
      ∀ a, t.byteAt a = s.byteAt a) ∧
  (∀ (num : Nat) (s : State) (c : CaptureEnt), s.captures.find? (fun x => x.num == num) = some c → s.fwReady = true → c.period ≠ 0 →
    c.due + c.period ≤ s.gt →
    ∃ t, exec (.captureOccurrence num) s = .next t ∧ t.rd F.ORR_EPH_MISS 0 0 = satInc (s.rd F.ORR_EPH_MISS 0 0) % 2 ^ 32 ∧
      t.captures.find? (fun x => x.num == num) = some { c with due := c.due + c.period } ∧ Changes s t [(F.ORR_EPH_MISS, 0, 0)])

/-- R199, R200, R206. -/
def Obligations.DoorbellAndCqHeadWrites : Prop :=
  (∀ (src : Src) (c : BitVec 8) (v : Word) (s : State), s.liveCtx src c.toNat = true → s.rd F.CTX_STAT_STATE c.toNat 0 = 1 →
    (v.toNat % 65536 + 65536 - s.rd F.CTX_SQ_TAIL c.toNat 0) % 65536 ≤ s.sqSize c.toNat →
    (v.toNat % 65536 + 65536 - s.rd F.CTX_SQ_HEAD c.toNat 0) % 65536 ≤ s.sqSize c.toNat →
    ∃ t, exec (.doorbell src c v) s = .next t ∧ t.rd F.CTX_SQ_TAIL c.toNat 0 = v.toNat % 65536 ∧
      Changes s t [(F.CTX_SQ_TAIL, c.toNat, 0)]) ∧
  (∀ (src : Src) (c : BitVec 8) (v : Word) (s : State), s.liveCtx src c.toNat = true → s.rd F.CTX_STAT_STATE c.toNat 0 = 1 →
    ¬ ((v.toNat % 65536 + 65536 - s.rd F.CTX_SQ_TAIL c.toNat 0) % 65536 ≤ s.sqSize c.toNat ∧
       (v.toNat % 65536 + 65536 - s.rd F.CTX_SQ_HEAD c.toNat 0) % 65536 ≤ s.sqSize c.toNat) →
    ∃ t, exec (.doorbell src c v) s = .next t ∧
      t.rd F.CTX_DB_BAD_CNT c.toNat 0 = satInc (s.rd F.CTX_DB_BAD_CNT c.toNat 0) % 2 ^ 32 ∧
      Changes s t [(F.CTX_DB_BAD_CNT, c.toNat, 0), (F.REG_EVT_RAW, 0x100 + c.toNat, 0)]) ∧
  (∀ (src : Src) (c : BitVec 8) (v : Word) (s : State), s.liveCtx src c.toNat = true → s.rd F.CTX_STAT_STATE c.toNat 0 ≠ 1 →
    ∃ t, exec (.doorbell src c v) s = .next t ∧
      t.rd F.CTX_DB_IGNORED_CNT c.toNat 0 = satInc (s.rd F.CTX_DB_IGNORED_CNT c.toNat 0) % 2 ^ 32 ∧
      Changes s t [(F.CTX_DB_IGNORED_CNT, c.toNat, 0), (F.REG_EVT_RAW, 0x100 + c.toNat, 0)]) ∧
  (∀ (src : Src) (c : BitVec 8) (v : Word) (s : State), s.liveCtx src c.toNat = true →
    (v.toNat % 65536 + 65536 - s.rd F.CTX_CQ_HEAD c.toNat 0) % 65536
      ≤ (s.rd F.CTX_CQ_TAIL c.toNat 0 + 65536 - s.rd F.CTX_CQ_HEAD c.toNat 0) % 65536 →
    ∃ t, exec (.cqHeadWrite src c v) s = .next t ∧ t.rd F.CTX_CQ_HEAD c.toNat 0 = v.toNat % 65536 ∧
      Changes s t [(F.CTX_CQ_HEAD, c.toNat, 0)]) ∧
  (∀ (src : Src) (c : BitVec 8) (v : Word) (s : State), s.liveCtx src c.toNat = true →
    (s.rd F.CTX_CQ_TAIL c.toNat 0 + 65536 - s.rd F.CTX_CQ_HEAD c.toNat 0) % 65536
      < (v.toNat % 65536 + 65536 - s.rd F.CTX_CQ_HEAD c.toNat 0) % 65536 →
    ∃ t, exec (.cqHeadWrite src c v) s = .next t ∧
      t.rd F.CTX_DB_BAD_CNT c.toNat 0 = satInc (s.rd F.CTX_DB_BAD_CNT c.toNat 0) % 2 ^ 32 ∧
      Changes s t [(F.CTX_DB_BAD_CNT, c.toNat, 0), (F.REG_EVT_RAW, 0x100 + c.toNat, 0)])

/-- Table CMD-1, R194 to R197, R227, R228, R232, R233, R243, R263. -/
def Obligations.ContextLifecycle : Prop :=
  (∀ (src : Src) (c : BitVec 8) (s : State), s.liveCtx src c.toNat = true → s.fwReady = true → s.rd F.CTX_STAT_STATE c.toNat 0 = 0 →
    s.ringsOk c.toNat = true → s.urgAlloc (s.rd F.CTX_CFG_PART c.toNat 0) + s.bktRate (s.cabCtx c.toNat) 0
      ≤ s.rd F.SCH_PART_URG_BUDGET 0 (s.rd F.CTX_CFG_PART c.toNat 0) →
    ∃ t, exec (.ctxOpen src c) s = .next t ∧ t.rd F.CTX_STAT_STATE c.toNat 0 = 1 ∧
      t.rd F.CTX_STAT_GEN c.toNat 0 = genNext (s.rd F.CTX_STAT_GEN c.toNat 0) % 128 ∧ t.rd F.CTX_LAST_SEQ c.toNat 0 = 0 ∧
      t.rd F.CTX_SQ_TAIL c.toNat 0 = 0 ∧ t.rd F.CTX_SQ_HEAD c.toNat 0 = 0 ∧ t.rd F.CTX_CQ_TAIL c.toNat 0 = 0 ∧
      t.rd F.CTX_CQ_HEAD c.toNat 0 = 0 ∧ t.rd F.CTX_LEASE_EXP c.toNat 0 = (s.gt + s.leasePeriod c.toNat * 65536) % 2 ^ 64 ∧
      t.rd F.CTX_STAT_CMD_BUSY c.toNat 0 = 0 ∧
      (∀ k < 3, (t.bkt (s.cabCtx c.toNat) k).level = s.bktBurst (s.cabCtx c.toNat) k) ∧
      Changes s t [(F.CTX_STAT_STATE, c.toNat, 0), (F.CTX_STAT_GEN, c.toNat, 0), (F.CTX_LAST_SEQ, c.toNat, 0), (F.CTX_SQ_TAIL, c.toNat, 0),
        (F.CTX_SQ_HEAD, c.toNat, 0), (F.CTX_CQ_TAIL, c.toNat, 0), (F.CTX_CQ_HEAD, c.toNat, 0), (F.CTX_LEASE_EXP, c.toNat, 0),
        (F.CTX_STAT_CMD_BUSY, c.toNat, 0), (F.REG_EVT_RAW, 0x100 + c.toNat, 0)]) ∧
  (∀ (src : Src) (c : BitVec 8) (v : Word) (s : State), s.liveCtx src c.toNat = true → s.rd F.CTX_STAT_STATE c.toNat 0 = 1 →
    v.toNat % 128 = s.rd F.CTX_STAT_GEN c.toNat 0 → s.gt < s.rd F.CTX_LEASE_EXP c.toNat 0 →
    ∃ t, exec (.lease src c v) s = .next t ∧ t.rd F.CTX_LEASE_EXP c.toNat 0 = (s.gt + s.leasePeriod c.toNat * 65536) % 2 ^ 64 ∧
      Changes s t [(F.CTX_LEASE_EXP, c.toNat, 0)]) ∧
  (∀ (src : Src) (c : BitVec 8) (v : Word) (s : State), s.liveCtx src c.toNat = true →
    (s.rd F.CTX_STAT_STATE c.toNat 0 ≠ 1 ∨ v.toNat % 128 ≠ s.rd F.CTX_STAT_GEN c.toNat 0 ∨ s.rd F.CTX_LEASE_EXP c.toNat 0 ≤ s.gt) →
    ∃ t, exec (.lease src c v) s = .next t ∧
      t.rd F.CTX_LEASE_BAD_CNT c.toNat 0 = satInc (s.rd F.CTX_LEASE_BAD_CNT c.toNat 0) % 2 ^ 32 ∧
      Changes s t [(F.CTX_LEASE_BAD_CNT, c.toNat, 0)]) ∧
  (∀ (c : BitVec 8) (s : State), s.rd F.CTX_STAT_STATE c.toNat 0 = 1 → s.rd F.CTX_LEASE_EXP c.toNat 0 ≤ s.gt → s.fwReady = true →
    s.rdB F.CTX_CFG_POLICY c.toNat 0 = false →
    ∃ t, exec (.leaseExpire c) s = .next t ∧ t.rd F.CTX_STAT_STATE c.toNat 0 = 2 ∧
      (t.ctx (s.cabCtx c.toNat)).holdEnd = s.rd F.CTX_LEASE_EXP c.toNat 0 + s.orphanHold c.toNat * 65536 ∧
      Changes s t [(F.CTX_STAT_STATE, c.toNat, 0), (F.REG_EVT_RAW, 0x100 + c.toNat, 0)]) ∧
  (∀ (src : Src) (c : BitVec 8) (s : State), s.liveCtx src c.toNat = true → s.fwReady = true → s.rd F.CTX_STAT_STATE c.toNat 0 = 2 →
    s.gt < (s.ctx (s.cabCtx c.toNat)).holdEnd →
    ∃ t, exec (.ctxAdopt src c) s = .next t ∧ t.rd F.CTX_STAT_STATE c.toNat 0 = 1 ∧
      t.rd F.CTX_STAT_GEN c.toNat 0 = genNext (s.rd F.CTX_STAT_GEN c.toNat 0) % 128 ∧
      t.rd F.CTX_LEASE_EXP c.toNat 0 = (s.gt + s.leasePeriod c.toNat * 65536) % 2 ^ 64 ∧
      Changes s t [(F.CTX_STAT_STATE, c.toNat, 0), (F.CTX_STAT_GEN, c.toNat, 0), (F.CTX_LEASE_EXP, c.toNat, 0),
        (F.CTX_STAT_CMD_BUSY, c.toNat, 0), (F.REG_EVT_RAW, 0x100 + c.toNat, 0)]) ∧
  (∀ (src : Src) (c : BitVec 8) (s : State), s.liveCtx src c.toNat = true → s.fwReady = true → s.rd F.SK_STAT_ROLE 0 0 = 0 →
    (s.rd F.CTX_STAT_STATE c.toNat 0 = 1 ∨ s.rd F.CTX_STAT_STATE c.toNat 0 = 2) → s.rdB F.CTX_CFG_POLICY c.toNat 0 = false →
    s.sch.cmds.any (fun x => x.ctx == c.toNat) = true →
    ∃ t, exec (.ctxClose src c) s = .next t ∧ t.rd F.CTX_STAT_STATE c.toNat 0 = 3 ∧ t.sch = s.sch ∧
      Changes s t [(F.CTX_STAT_STATE, c.toNat, 0), (F.CTX_STAT_CMD_BUSY, c.toNat, 0), (F.REG_EVT_RAW, 0x100 + c.toNat, 0)]) ∧
  (∀ (src : Src) (c : BitVec 8) (s : State), s.liveCtx src c.toNat = true → s.fwReady = true → s.rd F.SK_STAT_ROLE 0 0 = 0 →
    (s.rd F.CTX_STAT_STATE c.toNat 0 = 1 ∨ s.rd F.CTX_STAT_STATE c.toNat 0 = 2) → s.sch.cmds.any (fun x => x.ctx == c.toNat) = false →
    ∃ t, exec (.ctxClose src c) s = .next t ∧ t.rd F.CTX_STAT_STATE c.toNat 0 = 0 ∧
      t.sch.orders = s.sch.orders.filter (fun o => o.ctx != c.toNat) ∧ ∀ a, t.byteAt a = s.byteAt a) ∧
  (∀ (c : BitVec 8) (s : State), s.rd F.SK_STAT_ROLE 0 0 = 0 → s.rd F.CTX_STAT_STATE c.toNat 0 = 2 → (s.ctx c.toNat).holdEnd ≤ s.gt →
    s.fwReady = true → s.sch.cmds.any (fun x => x.ctx == c.toNat) = false →
    ∃ t, exec (.orphanHoldEnd c) s = .next t ∧ t.rd F.CTX_STAT_STATE c.toNat 0 = 0 ∧
      t.sch.orders = s.sch.orders.filter (fun o => o.ctx != c.toNat) ∧ ∀ a, t.byteAt a = s.byteAt a)

/-- R201, R202, R215, R218, R234 to R236, R247 to R250, R265, R736. -/
def Obligations.AcceptanceAndHandOff : Prop :=
  (∀ (c : BitVec 8) (s : State) (bs : List Byte), s.pwr.mainOn = true → s.rd F.CTX_STAT_STATE c.toNat 0 = 1 →
    s.rd F.CTX_SQ_HEAD c.toNat 0 ≠ s.rd F.CTX_SQ_TAIL c.toNat 0 →
    s.peek (s.sqBase c.toNat + s.rd F.CTX_SQ_HEAD c.toNat 0 % s.sqSize c.toNat * 64) 64 = some (bs, false) →
    (if (parseDesc bs).specOk then 2 else 1) ≤ s.cqFree c.toNat → ((parseDesc bs).cls = 0 ∨ s.handoffs.length < 1024) →
    (parseDesc bs).gen = s.rd F.CTX_STAT_GEN c.toNat 0 → serialLt 32 (s.rd F.CTX_LAST_SEQ c.toNat 0) (parseDesc bs).seq = true →
    ∃ t, exec (.descriptorConsume c) s = .next t ∧
      t.rd F.CTX_SQ_HEAD c.toNat 0 = (s.rd F.CTX_SQ_HEAD c.toNat 0 + 1) % 65536 ∧
      t.rd F.CTX_LAST_SEQ c.toNat 0 = (parseDesc bs).seq % 2 ^ 32 ∧ t.sch.nextId = s.sch.nextId + 1 ∧
      (t.ctx (s.cabCtx c.toNat)).accepted = ((s.ctx (s.cabCtx c.toNat)).accepted + 1) % 2 ^ 32) ∧
  (∀ (s : State) (c : Cmd) (rest : List Cmd), s.rd F.SK_STAT_ROLE 0 0 = 0 → s.fwReady = true → s.handoffs = c :: rest → s.cmd c.id = some c →
    c.desc.cls ≠ 0 → c.desc.cost ≤ s.bktBurst c.ctx c.desc.cls → s.fenceShed c.desc = none → c.desc.cost ≤ (s.bkt c.ctx c.desc.cls).level →
    s.waiters c.ctx c.desc.cls = [] →
    ∃ t, exec .handOffTake s = .next t ∧ (t.cmd c.id).map (fun x => (x.phase, x.debited)) = some (.ready, true) ∧
      (t.bkt c.ctx c.desc.cls).level = (s.bkt c.ctx c.desc.cls).level - c.desc.cost ∧ Changes s t []) ∧
  (∀ (k : Fin 16) (s : State) (c : Cmd),
    s.sch.cmds.find? (fun x => x.phase == .urgent && (s.partKettles (s.partOf x.ctx)).contains k.val) = some c → s.cmd c.id = some c →
    s.urgentReady k (s.needGrans c.desc) = true →
    ∃ t, exec (.urgFifoDispatch k) s = .next t ∧ (t.cmd c.id).map (fun x => x.phase) = some .running ∧
      t.slotsOf c.id ≠ [] ∧ ∀ a, t.byteAt a = s.byteAt a) ∧
  (∀ (src : Src) (c : BitVec 8) (s : State), s.liveCtx src c.toNat = true → s.rd F.CTX_STAT_STATE c.toNat 0 = 1 →
    s.rd F.CTX_SO_SEL c.toNat 0 < 8 →
    (parseDesc ((List.range 16).flatMap (fun w => toBytes 4 (s.rd F.CTX_SO_DESC c.toNat (w * 8 + s.rd F.CTX_SO_SEL c.toNat 0))))).cls ≠ 0 →
    ∃ t, exec (.soArm src (.ctx c)) s = .next t ∧ t.rd F.CTX_SO_STAT_ARMED c.toNat (s.rd F.CTX_SO_SEL c.toNat 0) = 1 ∧
      (t.sch.orders.find? (fun o => o.num == soNum (s.cabCtx c.toNat) (s.rd F.CTX_SO_SEL c.toNat 0))).map (fun o => o.occ) = some 1 ∧
      Changes s t [(F.CTX_SO_STAT_ARMED, c.toNat, s.rd F.CTX_SO_SEL c.toNat 0)]) ∧
  (∀ (src : Src) (n : Nat) (tmpl : List Byte) (per anc : BitVec 8) (ph : BitVec 16) (s : State), s.fwReady = true →
    (parseDesc tmpl).cls ≠ 0 → tmpl.length = 64 →
    ∃ t, exec (.soArm src (.firmware n tmpl per anc ph)) s = .next t ∧
      (t.sch.orders.find? (fun o => o.num == fwSoNum n)).map (fun o => (o.ctx, o.occ)) = some (fwCtx, 1) ∧ Changes s t []) ∧
  (∀ (src : Src) (c : BitVec 8) (s : State), s.liveCtx src c.toNat = true → s.rd F.CTX_STAT_STATE c.toNat 0 = 1 →
    s.rd F.CTX_SO_SEL c.toNat 0 < 8 →
    ∃ t, exec (.soDisarm src (.ctx c)) s = .next t ∧ t.rd F.CTX_SO_STAT_ARMED c.toNat (s.rd F.CTX_SO_SEL c.toNat 0) = 0 ∧
      t.sch.orders.find? (fun o => o.num == soNum (s.cabCtx c.toNat) (s.rd F.CTX_SO_SEL c.toNat 0)) = none ∧
      Changes s t [(F.CTX_SO_STAT_ARMED, c.toNat, s.rd F.CTX_SO_SEL c.toNat 0)]) ∧
  (∀ (src : Src) (n : Nat) (tmpl : List Byte) (per anc : BitVec 8) (ph : BitVec 16) (s : State), s.fwReady = true →
    ∃ t, exec (.soDisarm src (.firmware n tmpl per anc ph)) s = .next t ∧
      t.sch.orders.find? (fun o => o.num == fwSoNum n) = none ∧ Changes s t []) ∧
  (∀ (num : Nat) (s : State) (o : Order), s.sch.orders.find? (fun x => x.num == num) = some o → o.due ≤ s.gt →
    s.gt < o.due + o.period * 65536 → s.fwReady = true → s.soSkips o = false →
    ∃ t, exec (.standingOccurrence num) s = .next t ∧ t.sch.nextId = s.sch.nextId + 1 ∧
      (t.ctx o.ctx).accepted = ((s.ctx o.ctx).accepted + 1) % 2 ^ 32) ∧
  (∀ (num : Nat) (s : State) (o : Order), s.sch.orders.find? (fun x => x.num == num) = some o → s.fwReady = true →
    o.due + o.period * 65536 ≤ s.gt →
    ∃ t, exec (.standingOccurrence num) s = .next t ∧ t.rd F.ORR_EPH_MISS 0 0 = satInc (s.rd F.ORR_EPH_MISS 0 0) % 2 ^ 32 ∧
      (t.sch.orders.find? (fun x => x.num == num)).map (fun x => (x.occ, x.due)) = some (o.occ + 1, o.due + o.period * 65536) ∧
      Changes s t [(F.ORR_EPH_MISS, 0, 0)])

/-- R49, R239, R242, R263, R270. -/
def Obligations.RefillsAndBooks : Prop :=
  (∀ (s : State) (b : Bkt), s.orr.refilled < s.gt / 65536 → s.fwReady = true → s.sch.bkts = [b] → b.ctx < 256 → s.bktLive b = true →
    s.sch.cmds = [] →
    ∃ t, exec .refill s = .next t ∧ t.orr.refilled = s.orr.refilled + 1 ∧
      (t.bkt b.ctx b.cls).level = min (s.bktBurst b.ctx b.cls) (b.level + s.bktRate b.ctx b.cls) ∧
      (t.bkt b.ctx b.cls).credited = (b.credited + (min (s.bktBurst b.ctx b.cls) (b.level + s.bktRate b.ctx b.cls) - b.level)) % 2 ^ 64 ∧
      Changes s t []) ∧
  (∀ s : State, s.live 0x005 = true → ∃ t, exec .booksSnap s = .next t ∧ t.sch.snapReq = true ∧ Changes s t []) ∧
  (∀ s : State, s.sch.snapReq = true → s.rd F.SCH_SCHED_STAT_BOOKS_BUSY 0 0 = 0 →
    ∃ t, exec .booksSnapCapture s = .next t ∧ t.sch.snapReq = false ∧ t.rd F.SCH_SNAP_GT 0 0 = s.gt % 2 ^ 64 ∧
      t.rd F.SCH_BOOKS_SNAP_STAT_DONE 0 0 = 1 ∧
      (∀ k < 16, ∀ p, s.tileOf k = some p → t.rd F.SCH_KB_SLOTS0_FREE 0 k = (32 - (s.tile p).slots.length) % 2 ^ F.SCH_KB_SLOTS0_FREE.width) ∧
      ∀ a, t.byteAt a = s.byteAt a) ∧
  (∀ (v : Word) (s : State), s.live 0x005 = true →
    (∀ q < 16, q ≠ s.rd F.SCH_PART_SEL 0 0 → s.rd F.SCH_PART_KMASK 0 q &&& (v.toNat % 65536) = 0) →
    s.rd F.SCH_PART_URG_BUDGET 0 (s.rd F.SCH_PART_SEL 0 0)
      ≤ (s.wr F.SCH_PART_KMASK 0 (s.rd F.SCH_PART_SEL 0 0) v.toNat).partCap (s.rd F.SCH_PART_SEL 0 0) / 4 →
    ∃ t, exec (.partKmaskWrite v) s = .next t ∧ t.rd F.SCH_PART_KMASK 0 (s.rd F.SCH_PART_SEL 0 0) = v.toNat % 65536 ∧
      Changes s t [(F.SCH_PART_KMASK, 0, s.rd F.SCH_PART_SEL 0 0)]) ∧
  (∀ (v : Word) (s : State) (q : Nat), s.live 0x005 = true → q < 16 → q ≠ s.rd F.SCH_PART_SEL 0 0 →
    s.rd F.SCH_PART_KMASK 0 q &&& (v.toNat % 65536) ≠ 0 →
    ∃ t, exec (.partKmaskWrite v) s = .next t ∧ t.rd F.SCH_PART_ERR_OVERLAP 0 (s.rd F.SCH_PART_SEL 0 0) = 1 ∧
      Changes s t [(F.SCH_PART_ERR_OVERLAP, 0, s.rd F.SCH_PART_SEL 0 0), (F.REG_EVT_RAW, 0x005, 0)]) ∧
  (∀ (v : Word) (s : State), s.live 0x005 = true →
    (∀ q < 16, q ≠ s.rd F.SCH_PART_SEL 0 0 → s.rd F.SCH_PART_KMASK 0 q &&& (v.toNat % 65536) = 0) →
    (s.wr F.SCH_PART_KMASK 0 (s.rd F.SCH_PART_SEL 0 0) v.toNat).partCap (s.rd F.SCH_PART_SEL 0 0) / 4
      < s.rd F.SCH_PART_URG_BUDGET 0 (s.rd F.SCH_PART_SEL 0 0) →
    ∃ t, exec (.partKmaskWrite v) s = .next t ∧ t.rd F.SCH_PART_ERR_BUDGET 0 (s.rd F.SCH_PART_SEL 0 0) = 1 ∧
      Changes s t [(F.SCH_PART_ERR_BUDGET, 0, s.rd F.SCH_PART_SEL 0 0), (F.REG_EVT_RAW, 0x005, 0)]) ∧
  (∀ (v : Word) (s : State), s.live 0x005 = true → v.toNat % 2 ^ 24 ≤ s.partCap (s.rd F.SCH_PART_SEL 0 0) / 4 →
    ∃ t, exec (.partUrgBudgetWrite v) s = .next t ∧ t.rd F.SCH_PART_URG_BUDGET 0 (s.rd F.SCH_PART_SEL 0 0) = v.toNat % 2 ^ 24 ∧
      Changes s t [(F.SCH_PART_URG_BUDGET, 0, s.rd F.SCH_PART_SEL 0 0)]) ∧
  (∀ (v : Word) (s : State), s.live 0x005 = true → s.partCap (s.rd F.SCH_PART_SEL 0 0) / 4 < v.toNat % 2 ^ 24 →
    ∃ t, exec (.partUrgBudgetWrite v) s = .next t ∧ t.rd F.SCH_PART_ERR_BUDGET 0 (s.rd F.SCH_PART_SEL 0 0) = 1 ∧
      Changes s t [(F.SCH_PART_ERR_BUDGET, 0, s.rd F.SCH_PART_SEL 0 0), (F.REG_EVT_RAW, 0x005, 0)])

/-- R209 to R211, R221, R222, R326, R327, R398, Table CMD-3. -/
def Obligations.ActionsOfCommands : Prop :=
  (∀ x ∈ [((0 : Nat), Instr.nop), (3, Instr.fence), (5, Instr.signal), (6, Instr.lampRequest)], ∀ (id : Nat) (s : State) (c : Cmd),
    s.cmd id = some c → c.desc.opcode = x.1 → s.mayDispatch c = true → (c.desc.cls = 0 ∨ s.fwReady = true) →
    s.rd F.SK_STAT_ROLE 0 0 = 0 → (c.desc.cls ≠ 1 ∨ s.gt ≤ c.desc.deadline) →
    ∃ t, exec (x.2 id) s = .next t ∧
      (t.cmd id).map (fun y => (y.phase, y.started, y.commitNo)) = some (.commit, some s.now, s.sch.commits + 1) ∧
      t.sch.commits = s.sch.commits + 1) ∧
  (∀ (id : Nat) (s : State) (c : Cmd) (bs : List Byte), s.cmd id = some c → c.desc.opcode = 2 → s.mayDispatch c = true →
    (c.desc.cls = 0 ∨ s.fwReady = true) → s.rd F.SK_STAT_ROLE 0 0 = 0 → (c.desc.cls ≠ 1 ∨ s.gt ≤ c.desc.deadline) →
    s.cam.pages = [] → 0 < c.desc.outLen → s.peek c.desc.arg c.desc.outLen = some (bs, false) →
    ∃ t, exec (.copy id) s = .next t ∧
      (t.cmd id).map (fun y => (y.phase, y.started, y.staged)) = some (.commit, some s.now, bs)) ∧
  (∀ (id : Nat) (s : State) (c : Cmd), s.cmd id = some c → c.desc.opcode = 4 → s.mayDispatch c = true →
    (c.desc.cls = 0 ∨ s.fwReady = true) → s.rd F.SK_STAT_ROLE 0 0 = 0 → (c.desc.cls ≠ 1 ∨ s.gt ≤ c.desc.deadline) →
    ∃ t, exec (.waitGt id) s = .next t ∧
      (t.cmd id).map (fun y => (y.phase, y.started)) = some (if c.desc.arg ≤ s.gt then .commit else .running, some s.now)) ∧
  (∀ (id : Nat) (s : State) (c : Cmd), s.cmd id = some c → c.desc.opcode = 4 → c.phase = .running → c.desc.arg ≤ s.gt →
    s.rd F.SK_STAT_ROLE 0 0 = 0 → (c.desc.cls ≠ 1 ∨ s.gt ≤ c.desc.deadline) →
    ∃ t, exec (.waitGtReached id) s = .next t ∧
      (t.cmd id).map (fun y => (y.phase, y.commitNo)) = some (.commit, s.sch.commits + 1)) ∧
  (∀ (id : Nat) (s : State) (c : Cmd), s.cmd id = some c → c.desc.opcode = 7 → s.mayDispatch c = true →
    (c.desc.cls = 0 ∨ s.fwReady = true) → s.rd F.SK_STAT_ROLE 0 0 = 0 → bitOf c.desc.arg 8 = false →
    s.rdB F.CSI_STR_CTRL_EN (c.desc.arg % 64 / 4) (c.desc.arg % 64 % 4) = true →
    ∃ t, exec (.captureBind id) s = .next t ∧ (t.cmd id).map (fun y => (y.phase, y.bound)) = some (.running, c.bound) ∧ Changes s t []) ∧
  (∀ (id : Nat) (s : State) (c : Cmd) (f : Frame), s.cmd id = some c → c.desc.opcode = 7 → s.mayDispatch c = true →
    (c.desc.cls = 0 ∨ s.fwReady = true) → s.rd F.SK_STAT_ROLE 0 0 = 0 → (c.desc.cls ≠ 1 ∨ s.gt ≤ c.desc.deadline) → bitOf c.desc.arg 8 = true →
    s.rdB F.CSI_STR_CTRL_EN (c.desc.arg % 64 / 4) (c.desc.arg % 64 % 4) = true →
    s.rdB F.CSI_STR_CTRL_BIND_HOLD (c.desc.arg % 64 / 4) (c.desc.arg % 64 % 4) = false →
    (s.cam.frames.filter (fun g => g.stream == c.desc.arg % 64 && !g.isOpen && g.released)).getLast? = some f → s.frame f.id = some f →
    f.id / 2 ^ 26 = f.stream → f.standing = 1 → s.gt < f.ageGt → c.started = none → c.frames = [] → c.desc.fences = [] → s.tbufs = [] →
    ∃ t, exec (.captureBind id) s = .next t ∧
      (t.cmd id).map (fun y => (y.phase, y.bound, y.started)) = some (.commit, some f.id, some s.now)) ∧
  (∀ (id : Nat) (s : State) (c : Cmd), s.cmd id = some c → c.desc.opcode = 7 → s.mayDispatch c = true →
    (c.desc.cls = 0 ∨ s.fwReady = true) → s.rd F.SK_STAT_ROLE 0 0 = 0 → bitOf c.desc.arg 8 = true →
    s.cam.frames.filter (fun g => g.stream == c.desc.arg % 64 && !g.isOpen && g.released) = [] →
    ∃ t, exec (.captureBind id) s = .next t ∧ t.cmd id = none) ∧
  (∀ (id : Nat) (s : State) (c : Cmd), s.cmd id = some c → c.desc.opcode = 8 → s.mayDispatch c = true → s.fwReady = true →
    s.orbFree ≠ 0 → (c.desc.cls ≠ 1 ∨ c.desc.lateOk = true) →
    ∃ t, exec (.orbitSolve id) s = .next t ∧ (t.cmd id).map (fun y => y.phase) = some .running ∧
      t.orb.queue = s.orb.queue ++ [id] ∧ Changes s t [])

/-- R191, R204, R218, R222, R262, R266, R143. -/
def Obligations.CommitAndClosingRecord : Prop :=
  (∀ x ∈ [Instr.runRecipe, Instr.commitEnter], ∀ (id : Nat) (s : State) (c : Cmd), s.cmd id = some c → c.desc.opcode = 1 → c.phase = .running →
    c.batch = none → s.partsDone c = true → s.coverage c = true → s.rd F.SK_STAT_ROLE 0 0 = 0 → (c.desc.cls ≠ 1 ∨ s.gt ≤ c.desc.deadline) →
    ∃ t, exec (x id) s = .next t ∧
      (t.cmd id).map (fun y => (y.phase, y.commitNo)) = some (.commit, s.sch.commits + 1)) ∧
  (∀ (id : Nat) (s : State) (c : Cmd), s.cmd id = some c → c.desc.opcode ≠ 1 → c.phase = .running → s.actionDone c = true →
    s.rd F.SK_STAT_ROLE 0 0 = 0 → (c.desc.cls ≠ 1 ∨ s.gt ≤ c.desc.deadline) →
    ∃ t, exec (.commitEnter id) s = .next t ∧
      (t.cmd id).map (fun y => (y.phase, y.commitNo)) = some (.commit, s.sch.commits + 1)) ∧
  (∀ (id n : Nat) (s : State) (c : Cmd), s.cmd id = some c → c.phase = .commit → c.drained = true → 0 < c.acks →
    ∃ t, exec (.trivetWriteAck id n false none) s = .next t ∧ (t.cmd id).map (fun y => y.acks) = some (c.acks - n) ∧ Changes s t []) ∧
  (∀ (id n : Nat) (s : State) (c : Cmd), s.cmd id = some c → c.phase = .commit → c.drained = true → 0 < c.acks →
    ∃ t, exec (.trivetWriteAck id n true none) s = .next t ∧ (t.cmd id).map (fun y => y.acks) = some (c.acks - n) ∧
      t.rd F.TV_CE_CNT 0 0 = satInc (s.rd F.TV_CE_CNT 0 0) % 2 ^ 32 ∧ Changes s t [(F.TV_CE_CNT, 0, 0), (F.REG_EVT_RAW, 0x050, 0)]) ∧
  (∀ (id p : Nat) (s : State) (c : Cmd), s.sch.cmds = [c] → c.id = id → c.phase = .commit → c.drained = true → c.acks = 0 →
    (c.desc.cls = 0 ∨ s.rdB F.SCH_SCHED_STAT_HANDOVER 0 0 = false) → c.provCommit = false → c.fault = none → c.ctx ≠ fwCtx →
    s.rd F.SK_STAT_ROLE 0 0 = 0 → s.localPage c.ctx = some p → s.rd F.CTX_STAT_STATE p 0 = 1 →
    larderBase ≤ s.cqBase p + s.rd F.CTX_CQ_TAIL p 0 % s.cqSize p * 32 →
    s.cqBase p + s.rd F.CTX_CQ_TAIL p 0 % s.cqSize p * 32 + 32 ≤ larderBase + 0x1000000 →
    ∃ t, exec (.commitComplete id) s = .next t ∧ t.cmd id = none ∧ t.rd F.CTX_CQ_TAIL p 0 = (s.rd F.CTX_CQ_TAIL p 0 + 1) % 65536 ∧
      leAt (t.bytesAt (s.cqBase p + s.rd F.CTX_CQ_TAIL p 0 % s.cqSize p * 32) 32) 0 4 = c.desc.seq % 2 ^ 32 ∧
      leAt (t.bytesAt (s.cqBase p + s.rd F.CTX_CQ_TAIL p 0 % s.cqSize p * 32) 32) 6 1 = (if c.late then 1 else 0) ∧
      ∀ a, (a < s.cqBase p + s.rd F.CTX_CQ_TAIL p 0 % s.cqSize p * 32 ∨
        s.cqBase p + s.rd F.CTX_CQ_TAIL p 0 % s.cqSize p * 32 + 32 ≤ a) → t.byteAt a = s.byteAt a) ∧
  (∀ (id : Nat) (s : State) (c : Cmd), s.cmd id = some c → c.desc.cls = 1 → c.desc.deadline ≤ s.gt → c.phase = .held → s.fwReady = true →
    ∃ t, exec (.deadline id) s = .next t ∧ t.cmd id = none ∧
      t.rd F.SCH_SHED_DEADLINE_CNT 0 0 = satInc (s.rd F.SCH_SHED_DEADLINE_CNT 0 0) % 2 ^ 32)

/-- R180 to R183, R244, R264, R265. -/
def Obligations.DispatchAndBatches : Prop :=
  (∀ (s : State) (c : Cmd), s.fwReady = true → s.rd F.SK_STAT_ROLE 0 0 = 0 → s.sch.cmds = [c] → c.desc.cls = 1 → c.desc.opcode = 1 →
    c.batch = none → c.desc.lateOk = true → s.eligible c = true → s.frameSet c = [] →
    s.partsOf c.desc ≤ (s.candidates c).length →
    ∃ t, exec .fDispatch s = .next t ∧ (t.cmd c.id).map (fun y => (y.phase, y.resv)) = some (.running, []) ∧ ∀ a, t.byteAt a = s.byteAt a) ∧
  (∀ (part : Fin 16) (ks : List (Fin 128)) (s : State) (c : Cmd), s.fwReady = true → s.rd F.SK_STAT_ROLE 0 0 = 0 → s.headB part = some c →
    s.cmd c.id = some c → c.desc.cls = 2 → c.desc.opcode = 1 → c.batch = none → ks.length = s.partsOf c.desc → ks.Nodup →
    (∀ k ∈ ks, k.val < 16 ∧ (s.candidates c).contains k.val = true) → s.partOf c.ctx = part →
    ∃ t, exec (.bDispatch part ks) s = .next t ∧ (t.cmd c.id).map (fun y => (y.phase, y.resv)) = some (.running, []) ∧
      t.vt part = c.sTag ∧ ∀ a, t.byteAt a = s.byteAt a) ∧
  (∀ (id : Nat) (s : State) (c : Cmd), s.cmd id = some c → s.fwReady = true → ((s.batchOf c).head?.map (fun m => m.id)) = some id →
    s.batchDue c (s.batchOf c) = true →
    ∃ t, exec (.fillBatchRelease id) s = .next t ∧ (t.cmd id).map (fun y => (y.batch, y.released)) = some (some id, true) ∧
      (∀ m ∈ s.batchOf c, (t.cmd m.id).map (fun y => (y.batch, y.released)) = some (some id, true)) ∧ Changes s t [])

/-- R76, R82 to R88, R95 to R97, R113. -/
def Obligations.KettleStepsAndPasses : Prop :=
  (∀ (p : Fin 18) (wait : Nat) (s : State) (x : Slot), s.tileRuns p = true → s.rdB F.KT_CTRL_EN p 0 = true → s.rdB F.KT_CTRL_HALT p 0 = false →
    (s.tile p).chosen = none → (s.tile p).prev = none → (s.advance p ((s.tile p).cyc + wait)).choice p = some x → x.cls ≠ 0 →
    ∃ t, exec (.stepChoose p wait) s = .next t ∧ (t.tile p).chosen = some x.num ∧ (t.tile p).chosenAt = (s.tile p).cyc + wait ∧
      (t.tile p).load = none ∧ ∀ a, t.byteAt a = s.byteAt a) ∧
  (∀ (p : Fin 18) (wait : Nat) (s : State) (x : Slot) (r : PassRec), s.tileRuns p = true → s.rdB F.KT_CTRL_EN p 0 = true →
    s.rdB F.KT_CTRL_HALT p 0 = false → (s.tile p).chosen = none → (s.tile p).prev = some r → (s.tile p).cyc ≤ r.first + 1 →
    (s.advance p r.first).choice p = some x → x.cls ≠ 0 →
    ∃ t, exec (.stepChoose p wait) s = .next t ∧ (t.tile p).chosen = some x.num ∧ (t.tile p).chosenAt = r.first ∧
      ∀ a, t.byteAt a = s.byteAt a) ∧
  (∀ (p : Fin 18) (s : State) (y : Slot × Recipe × Nest), s.chosenPass p = some y → (s.tile p).load = none →
    ∃ t, exec (.tileLoadStart p) s = .next t ∧ (t.tile p).load = some ((s.tile p).loadStart y.2.2.ripple) ∧
      (t.tile p).busFree = (s.tile p).loadStart y.2.2.ripple + 64 ∧ ∀ a, t.byteAt a = s.byteAt a) ∧
  (∀ (p : Fin 18) (s : State) (y : Slot × Recipe × Nest), s.chosenPass p = some y → y.2.2.ripple = false → (s.tile p).load.isSome = true →
    (s.tile p).flip = none →
    ∃ t, exec (.bankFlip p) s = .next t ∧ (t.tile p).flip = some (s.tile p).flipAt ∧ ∀ a, t.byteAt a = s.byteAt a) ∧
  (∀ (p : Fin 18) (s : State) (x : Slot) (r : Recipe) (n : Nest) (c : Nat), s.chosenPass p = some (x, r, n) → s.planned p = some c →
    (s.tile p).load.isSome = true → (n.ripple = true ∨ (s.tile p).flip.isSome = true) → s.tileRuns p = true →
    ((s.advance p c).accessFault p x.num (passReads r n x.pass)).isNone = true → s.rdB F.KT_CNT_CTRL_FREEZE p 0 = false →
    ∃ t, exec (.passIssue p) s = .next t ∧ t.rd F.KT_PASS_CNT p 0 = satInc (s.rd F.KT_PASS_CNT p 0) % 2 ^ F.KT_PASS_CNT.width ∧
      (t.tile p).prev = some { slot := x.num, bank := (s.tile p).nextBank, ripple := n.ripple, first := c,
                               final := c + n.m * (if n.fmt = 3 then 4 else 1) - 1 } ∧
      (t.tile p).chosen = none ∧ ∀ a, t.byteAt a = s.byteAt a) ∧
  (∀ (p : Fin 18) (s : State) (f : Flight) (rest : List Flight), (s.tile p).flights = f :: rest → s.canRun p (f.final + 192) = true →
    ∃ t, exec (.passDrain p) s = .next t ∧ (t.tile p).flights = rest ∧ ∀ a, t.byteAt a = s.byteAt a) ∧
  (∀ (p : Fin 18) (s : State) (r : Readout), (s.tile p).readouts.find? (fun y => decide (y.readN < y.rows.length)) = some r →
    s.canRun p (r.first + r.readN * r.per + (r.per - 1) + 192 + 1) = true →
    ∃ t, exec (.whiskRead p false) s = .next t ∧
      (t.tile p).readouts = (s.tile p).readouts.map (fun y => if y.slot == r.slot && y.first == r.first then
        { y with readN := y.readN + 1, blocks := if y.readN + 1 = y.rows.length then 0 else y.blocks } else y) ∧
      ∀ a, t.byteAt a = s.byteAt a) ∧
  (∀ (p : Fin 18) (s : State) (r : Readout), (s.tile p).readouts.find? (fun y => decide (y.readN < y.rows.length)) = some r →
    s.canRun p (r.first + r.readN * r.per + (r.per - 1) + 192 + 1) = true →
    ∃ t, exec (.whiskRead p true) s = .next t ∧ bitOf (t.rd F.REG_EVT_RAW (0x010 + p) 0) 2 = true) ∧
  (∀ (p : Fin 18) (s : State) (o : Readout) (x : Slot) (r : Recipe) (bs : List Byte),
    (s.tile p).readouts.find? (fun y => decide (y.written < y.readN)) = some o → s.slot p o.slot = some x → s.slotRecipe x = some r →
    (s.accessFault p x.num (((r.whisk o.stage).filter (fun w => w.parLen != 0)).map (fun w => (w.param, w.parLen)))).isNone = true →
    bs = outBytes (r.stageFmt o.stage) ((s.whiskRow p r o (o.rows.getD o.written [])).vals.map
      (outVal (r.stageFmt o.stage) (s.whiskRow p r o (o.rows.getD o.written [])).fp)) →
    (s.tile p).tagOk x.num (o.addrs.getD o.written 0) bs.length = true →
    ∃ t, exec (.whiskWrite p) s = .next t ∧ t.bytesAt (pantryPlace p (o.addrs.getD o.written 0)) bs.length = bs ∧
      ∀ a, (a < pantryPlace p (o.addrs.getD o.written 0) ∨ pantryPlace p (o.addrs.getD o.written 0) + bs.length ≤ a) →
        t.byteAt a = s.byteAt a)

/-- R101, R102, R174, R260, Table KET-7. -/
def Obligations.KillsAndKettleCounters : Prop :=
  (∀ (p : Fin 18) (n : Fin 32) (wait : Nat) (s : State) (x : Slot), s.slot p n = some x → x.st = 1 →
    ∃ t, exec (.kill p n wait) s = .next t ∧ t.slot p n = none ∧ ∀ a, t.byteAt a = s.byteAt a) ∧
  (∀ (p : Fin 18) (n : Fin 32) (wait : Nat) (s : State) (x : Slot), s.slot p n = some x → x.st = 2 →
    ∃ t, exec (.kill p n wait) s = .next t ∧ (t.slot p n).map (fun y => (y.st, y.cmd)) = some (3, x.cmd) ∧ ∀ a, t.byteAt a = s.byteAt a) ∧
  (∀ (p : Fin 18) (n : Fin 32) (s : State) (x : Slot), s.slot p n = some x → x.st = 3 → x.haloOut = [] → s.planned p = none →
    ∃ t, exec (.killComplete p n) s = .next t ∧ t.slot p n = none ∧ bitOf (t.rd F.REG_EVT_RAW (0x010 + p) 0) 0 = true ∧
      ∀ a, t.byteAt a = s.byteAt a) ∧
  (∀ (p : Fin 18) (fr : Bool) (s : State), s.live (0x010 + p) = true →
    ∃ t, exec (.kettleCntClear p fr) s = .next t ∧ t.rd F.KT_CNT_CTRL_FREEZE p 0 = b2n fr ∧
      (∀ f ∈ [F.KT_ISSUE_CYC, F.KT_DRAIN_CYC, F.KT_RIPPLE_STALL_CYC, F.KT_FEED_WAIT_CYC, F.KT_KILL_CYC, F.KT_IDLE_CYC, F.KT_PASS_CNT,
        F.KT_KILL_CNT], t.rd f p 0 = 0) ∧
      Changes s t [(F.KT_CNT_CTRL_FREEZE, p, 0), (F.KT_ISSUE_CYC, p, 0), (F.KT_DRAIN_CYC, p, 0), (F.KT_RIPPLE_STALL_CYC, p, 0),
        (F.KT_FEED_WAIT_CYC, p, 0), (F.KT_KILL_CYC, p, 0), (F.KT_IDLE_CYC, p, 0), (F.KT_PASS_CNT, p, 0), (F.KT_KILL_CNT, p, 0)])

/-- R123, R125 to R128, Table CEL-4. -/
def Obligations.VaultControllers : Prop :=
  (∀ (v : Fin 18) (s : State), s.pwr.mainOn = true →
    (s.rd F.VC_STAT_STATE v 0 = 1 ∨ (s.rd F.VC_STAT_STATE v 0 = 0 ∧ s.rd F.RP_TILE_STAT_STATE 0 v ≠ 2)) →
    ∃ t, exec (.vaultInitDone v) s = .next t ∧ t.rd F.VC_STAT_STATE v 0 = 2 ∧ Changes s t [(F.VC_STAT_STATE, v, 0)]) ∧
  (∀ (v : Fin 18) (s : State), s.pwr.mainOn = true → s.rd F.VC_STAT_STATE v 0 = 2 → s.rdB F.VC_CTRL_SR_ALLOW v 0 = true →
    s.tileGated v = true →
    ∃ t, exec (.vaultSrEntry v) s = .next t ∧ t.rd F.VC_STAT_STATE v 0 = 3 ∧ Changes s t [(F.VC_STAT_STATE, v, 0)]) ∧
  (∀ (v : Fin 18) (s : State), s.pwr.mainOn = true → s.rd F.VC_STAT_STATE v 0 = 3 →
    ∃ t, exec (.vaultSrEntered v) s = .next t ∧ t.rd F.VC_STAT_STATE v 0 = 4 ∧
      t.rd F.VC_SR_ENTRY_CNT v 0 = satInc (s.rd F.VC_SR_ENTRY_CNT v 0) % 2 ^ F.VC_SR_ENTRY_CNT.width ∧
      Changes s t [(F.VC_STAT_STATE, v, 0), (F.VC_SR_ENTRY_CNT, v, 0)]) ∧
  (∀ (v : Fin 18) (s : State), s.pwr.mainOn = true → s.rd F.VC_STAT_STATE v 0 = 4 →
    ∃ t, exec (.vaultSrExit v) s = .next t ∧ t.rd F.VC_STAT_STATE v 0 = 5 ∧ bitOf (t.rd F.REG_EVT_RAW (0x030 + v) 0) 4 = true ∧
      Changes s t [(F.VC_STAT_STATE, v, 0), (F.REG_EVT_RAW, 0x030 + v, 0)]) ∧
  (∀ (v : Fin 18) (s : State), s.pwr.mainOn = true → s.rd F.VC_STAT_STATE v 0 = 5 →
    ∃ t, exec (.vaultSrExited v) s = .next t ∧ t.rd F.VC_STAT_STATE v 0 = 2 ∧ Changes s t [(F.VC_STAT_STATE, v, 0)]) ∧
  (∀ (v : Fin 18) (band : Fin 3) (temp : BitVec 8) (s : State), s.pwr.mainOn = true →
    ∃ t, exec (.tempBandChange v band temp) s = .next t ∧ t.rd F.VC_TEMP v 0 = temp.toNat ∧ t.rd F.VC_STAT_TEMP_BAND v 0 = band ∧
      (s.rd F.VC_STAT_TEMP_BAND v 0 ≠ band → bitOf (t.rd F.REG_EVT_RAW (0x030 + v) 0) 2 = true) ∧
      Changes s t [(F.VC_TEMP, v, 0), (F.VC_STAT_TEMP_BAND, v, 0), (F.REG_EVT_RAW, 0x030 + v, 0)]) ∧
  (∀ (v : Fin 18) (ce : Nat) (s : State), s.pwr.mainOn = true → s.rdB F.VC_CTRL_SCRUB_EN v 0 = true → s.rd F.VC_STAT_STATE v 0 = 2 →
    ∃ t, exec (.scrubPass v ce []) s = .next t ∧
      t.rd F.VC_SCRUB_PASS_CNT v 0 = satInc (s.rd F.VC_SCRUB_PASS_CNT v 0) % 2 ^ F.VC_SCRUB_PASS_CNT.width ∧
      (ce = 0 ∨ t.rd F.VC_ECC_CE_CNT v 0 = satInc (s.rd F.VC_ECC_CE_CNT v 0) ce % 2 ^ F.VC_ECC_CE_CNT.width) ∧
      Changes s t [(F.VC_SCRUB_PASS_CNT, v, 0), (F.VC_ECC_CE_CNT, v, 0), (F.REG_EVT_RAW, 0x030 + v, 0)])

/-- R106 to R118, R131 to R133, R138, R151, R152, R157, R172 to R177. -/
def Obligations.WindowsLarderAndTransfers : Prop :=
  (∀ (w : Fin 8) (v : Word) (s : State), s.live 0x050 = true → s.rdB F.TV_IWIN_CFG_EN 0 w = false → s.windowOk w (setBit v.toNat 31) = true →
    ∃ t, exec (.iwinEnable w v) s = .next t ∧ t.rd F.TV_IWIN_CFG_EN 0 w = 1 ∧ t.rd F.TV_IWIN_CFG_FIRST 0 w = bitsOf v.toNat 0 4 ∧
      t.rd F.TV_IWIN_CFG_COUNT_LOG2 0 w = bitsOf v.toNat 4 3 ∧ t.rd F.TV_IWIN_CFG_GRAN_LOG2 0 w = bitsOf v.toNat 8 4 ∧
      Changes s t [(F.TV_IWIN_CFG_FIRST, 0, w), (F.TV_IWIN_CFG_COUNT_LOG2, 0, w), (F.TV_IWIN_CFG_GRAN_LOG2, 0, w), (F.TV_IWIN_CFG_EN, 0, w)]) ∧
  (∀ (w : Fin 8) (v : Word) (s : State), s.live 0x050 = true → s.rdB F.TV_IWIN_CFG_EN 0 w = false → s.windowOk w (setBit v.toNat 31) = false →
    ∃ t, exec (.iwinEnable w v) s = .next t ∧ t.rd F.TV_IWIN_STAT_CFG_ERR 0 w = 1 ∧
      Changes s t [(F.TV_IWIN_CFG_FIRST, 0, w), (F.TV_IWIN_CFG_COUNT_LOG2, 0, w), (F.TV_IWIN_CFG_GRAN_LOG2, 0, w),
        (F.TV_IWIN_STAT_CFG_ERR, 0, w), (F.REG_EVT_RAW, 0x050, 0)]) ∧
  (∀ (w : Fin 8) (v : Word) (s : State), s.live 0x050 = true →
    ∃ t, exec (.iwinDisable w v) s = .next t ∧ t.rd F.TV_IWIN_CFG_EN 0 w = 0 ∧ ∀ a, t.byteAt a = s.byteAt a) ∧
  (∀ s : State, s.pwr.mainOn = true → s.rd F.TV_STAT_LARDER_INIT_DONE 0 0 = 0 →
    ∃ t, exec .larderInitDone s = .next t ∧ t.rd F.TV_STAT_LARDER_INIT_DONE 0 0 = 1 ∧ bitOf (t.rd F.REG_EVT_RAW 0x050 0) 6 = true ∧
      (∀ a, larderBase ≤ a → a < larderBase + 0x1000000 → t.byteAt a = 0#8) ∧
      ∀ a, (a < larderBase ∨ larderBase + 0x1000000 ≤ a) → t.byteAt a = s.byteAt a) ∧
  (∀ (p : Fin 18) (bank : Fin 32) (q : PantryReq) (s : State), s.tileRuns p = true → (s.tile p).waiting = [] → q.rank.val = 6 → q.ecc.val = 0 →
    q.write = none → q.ofs.toNat / 64 % 32 = bank → q.ofs.toNat % 64 + q.len ≤ 64 →
    (∀ k < q.len, s.isPoison (pantryPlace p (q.ofs.toNat + k)) = false) →
    ∃ t, exec (.pantryAccess p bank [q] false) s = .next t ∧ t.rdata = ofBytes (s.bytesAt (pantryPlace p q.ofs.toNat) q.len) ∧ t.rerr = false ∧
      Changes s t []) ∧
  (∀ (p : Fin 18) (bank : Fin 32) (q : PantryReq) (bs : List Byte) (s : State), s.tileRuns p = true → (s.tile p).waiting = [] →
    q.rank.val = 6 → q.ecc.val = 0 → q.write = some bs → q.ofs.toNat / 64 % 32 = bank → q.ofs.toNat % 64 + bs.length ≤ 64 →
    ∃ t, exec (.pantryAccess p bank [q] false) s = .next t ∧ t.bytesAt (pantryPlace p q.ofs.toNat) bs.length = bs ∧
      ∀ a, (a < pantryPlace p q.ofs.toNat ∨ pantryPlace p q.ofs.toNat + bs.length ≤ a) → t.byteAt a = s.byteAt a) ∧
  (∀ (p : Fin 18) (n : Fin 32) (s : State) (x : Slot) (r : Recipe) (i src dst : Nat) (bs : List Byte), s.slot p n = some x →
    s.slotRecipe x = some r → nextXfer r x = some i → (x.st = 1 ∨ x.st = 2) → x.xferBusy = false →
    (i ≤ r.lead i ∨ i - 1 - r.lead i < x.issuedStages) →
    s.xferMoves x r i = [(src, dst)] → s.cam.pages = [] → s.rd F.SK_STAT_ROLE 0 0 = 0 → bs ≠ [] →
    s.peek src (r.run64 (r.stageAt i 4 4) * 64) = some (bs, false) → (s.tile p).tagOk n dst (r.run64 (r.stageAt i 4 4) * 64) = true →
    ∃ t, exec (.clevelXferStart p n) s = .next t ∧ bitOf (t.rd F.KT_LD_XFER_BUSY p 0) n = true ∧
      t.bytesAt (pantryPlace p dst) bs.length = bs ∧
      ∀ a, (a < pantryPlace p dst ∨ pantryPlace p dst + bs.length ≤ a) → t.byteAt a = s.byteAt a) ∧
  (∀ (p : Fin 18) (n : Fin 32) (s : State) (x : Slot) (r : Recipe) (i : Nat), s.slot p n = some x → x.xferBusy = true →
    s.slotRecipe x = some r → nextXfer r x = some i →
    ∃ t, exec (.clevelXferDone p n) s = .next t ∧ bitOf (t.rd F.KT_LD_XFER_BUSY p 0) n = false ∧
      (t.slot p n).map (fun y => (y.xferBusy, y.xferNext)) = some (false, i + 1) ∧
      Changes s t [(F.KT_LD_XFER_BUSY, p, 0), (F.KT_XFER_BYTES, p, 0)]) ∧
  (∀ (p : Fin 18) (n : Fin 32) (s : State) (x : Slot) (r : Recipe) (i : Nat) (e b : PartEnt), s.slot p n = some x → s.slotRecipe x = some r →
    (List.range r.nStages).find? (fun k => decide (x.haloSent < k) && r.halo k) = some i → x.st = 2 → i ≤ x.doneStages →
    r.part i x.part = some e → r.part (i - 1) x.part = some b →
    ∃ t, exec (.haloSend p n) s = .next t ∧
      t = ((if x.part = 0 then [] else (List.range e.sendUp).map (fun k => (x.part - 1, b.oy0 + k))) ++
        (if x.part + 1 < r.nParts then (List.range e.sendDn).map (fun k => (x.part + 1, b.oy0 + b.ohPart - e.sendDn + k)) else [])).foldl
          (fun u m => u.haloRow p n x r i m.1 m.2) (s.updSlot p n (fun y => { y with haloSent := i }))) ∧
  (∀ (p : Fin 18) (n : Fin 32) (s : State) (x : Slot) (q m i : Nat) (rest : List (Nat × Nat × Nat)), s.slot p n = some x →
    x.haloOut = (q, m, i) :: rest →
    ∃ t, exec (.haloAck p n) s = .next t ∧ (t.slot p n).map (fun y => y.haloOut) = some rest ∧
      t.rd F.KT_LD_HALO_PEND_COUNT p 0 = (s.rd F.KT_LD_HALO_PEND_COUNT p 0 - 1) % 65536 ∧ Changes s t [(F.KT_LD_HALO_PEND_COUNT, p, 0)]) ∧
  (∀ (addr cb : Addr) (s : State) (lb img : List Byte), s.rd F.FW_STATE_STATE 0 0 = 4 → s.peek (addr.toNat + 8) 4 = some (lb, false) →
    s.peek addr.toNat (ofBytes lb) = some (img, false) →
    ({ id := leAt img 0x10 4, image := img, constBase := cb.toNat } : Recipe).valid = true →
    s.pokeOk cb.toNat ((img.drop (({ id := leAt img 0x10 4, image := img, constBase := cb.toNat } : Recipe).at 0x38 4)).take
      (({ id := leAt img 0x10 4, image := img, constBase := cb.toNat } : Recipe).at 0x3C 4)).length = true →
    ∃ t, exec (.recipeRegister addr cb) s = .next t ∧
      t.recipe (leAt img 0x10 4) = some { id := leAt img 0x10 4, image := img, constBase := cb.toNat })

/-- R67, R293, R422, R436, R461 to R467, R730 (receptions on a link with nothing outstanding, so that RX_ACK frees nothing). -/
def Obligations.LampArbiter : Prop :=
  (∀ (i : Fin 32) (due : Nat) (s : State), s.br.points.find? (fun p => p.1 == i.val) = some (i.val, due) →
    s.br.points.all (fun p => !(decide (p.2 < due)) && !(p.2 == due && decide (p.1 < i.val))) = true → due ≤ s.gt → s.fwReady = true →
    (s.rd F.BR_SP_PERIOD 0 i = 0 ∨ s.gt < due + s.rd F.BR_SP_PERIOD 0 i * 65536) → s.outEnabled (s.rd F.BR_SP_OUT_OUTPUT 0 i) = true →
    ∃ t, exec (.schedulePoint i) s = .next t ∧
      t.clampOf (s.rd F.BR_SP_OUT_OUTPUT 0 i) =
        ⟨s.rd F.BR_SP_OUT_OUTPUT 0 i, s.rd F.BR_SP_OUT_SMIN 0 i, s.rd F.BR_SP_LIM_SMAX 0 i, s.rd F.BR_SP_LIM_RAMP_MS 0 i⟩ ∧
      t.br.points.find? (fun p => p.1 == i.val) =
        (if s.rd F.BR_SP_PERIOD 0 i = 0 then none else some (i.val, due + s.rd F.BR_SP_PERIOD 0 i * 65536)) ∧
      ∀ a, t.byteAt a = s.byteAt a) ∧
  (∀ (i : Fin 32) (due : Nat) (s : State), s.br.points.find? (fun p => p.1 == i.val) = some (i.val, due) →
    s.br.points.all (fun p => !(decide (p.2 < due)) && !(p.2 == due && decide (p.1 < i.val))) = true → s.fwReady = true →
    s.rd F.BR_SP_PERIOD 0 i ≠ 0 → due + s.rd F.BR_SP_PERIOD 0 i * 65536 ≤ s.gt →
    ∃ t, exec (.schedulePoint i) s = .next t ∧ t.br.clamps = s.br.clamps ∧ t.br.lamps = s.br.lamps ∧
      t.rd F.ORR_EPH_MISS 0 0 = satInc (s.rd F.ORR_EPH_MISS 0 0) % 2 ^ 32 ∧ Changes s t [(F.ORR_EPH_MISS, 0, 0)]) ∧
  (∀ (src : Src) (v : Word) (s : State), s.live 0x090 = true → brTrusted src = true →
    ∃ t, exec (.spEnable src v) s = .next t ∧ t.rd F.BR_SP_CMD_EN 0 (s.rd F.BR_SP_SEL 0 0) = v.toNat % 2 ∧
      t.br.points.find? (fun p => p.1 == s.rd F.BR_SP_SEL 0 0) =
        (if v.toNat % 2 = 1 then some (s.rd F.BR_SP_SEL 0 0, s.rd F.BR_SP_GT 0 (s.rd F.BR_SP_SEL 0 0)) else none) ∧
      Changes s t [(F.BR_SP_CMD_EN, 0, s.rd F.BR_SP_SEL 0 0)]) ∧
  (∀ (src : Src) (v : Word) (s : State), s.live 0x090 = true → brTrusted src = false →
    ∃ t, exec (.spEnable src v) s = .next t ∧ t.br = s.br ∧
      t.rd F.BR_TX_DENY_CNT 0 0 = satInc (s.rd F.BR_TX_DENY_CNT 0 0) % 2 ^ F.BR_TX_DENY_CNT.width ∧ Changes s t [(F.BR_TX_DENY_CNT, 0, 0)]) ∧
  (∀ (id : Nat) (s : State) (z : LampZone), s.br.zones.find? (fun x => x.id == id) = some z → z.isOpen = false → z.start ≤ s.gt →
    s.gt < z.stop → s.outEnabled z.out = true →
    ∃ t, exec (.zoneOpen id) s = .next t ∧ (t.br.zones.find? (fun x => x.id == id)).map (fun x => x.isOpen) = some true ∧
      ({ key := .zone id, out := z.out, level := z.level, ramp := z.ramp } : LampReq) ∈ t.br.reqs ∧ ∀ a, t.byteAt a = s.byteAt a) ∧
  (∀ (id : Nat) (s : State) (z : LampZone), s.br.zones.find? (fun x => x.id == id) = some z → z.stop ≤ s.gt →
    ∃ t, exec (.zoneClose id) s = .next t ∧ t.br.zones.find? (fun x => x.id == id) = none ∧
      t.br.reqs = s.br.reqs.filter (fun r => r.key != .zone id) ∧ ∀ a, t.byteAt a = s.byteAt a) ∧
  (∀ (e : Nat) (s : State), s.br.bootEnd = some e → e ≤ s.gt →
    ∃ t, exec .lampBootHoldEnd s = .next t ∧ t.br.bootEnd = none ∧ t.br.reqs = s.br.reqs.filter (fun r => r.key != .boot) ∧
      ∀ a, t.byteAt a = s.byteAt a) ∧
  (∀ (cmd n : Nat) (o : BitVec 7) (s : State) (r : LampRaise), s.br.raises.find? (fun x => x.cmd == cmd && x.out == o.toNat) = some r →
    r.sentFor = some n → n + s.specHold ≤ s.gt / 65536 + 1 →
    ∃ t, exec (.specRaiseExpire cmd o) s = .next t ∧ t.br.raises.find? (fun x => x.cmd == cmd && x.out == o.toNat) = none ∧
      t.rd F.SPC_SPEC_REVERT_CNT 0 0 = satInc (s.rd F.SPC_SPEC_REVERT_CNT 0 0) % 2 ^ 32 ∧ bitOf (t.rd F.REG_EVT_RAW 0x006 0) 2 = true ∧
      ∀ a, t.byteAt a = s.byteAt a) ∧
  (∀ (m : List Byte) (s : State), s.pwr.pilotOn = true → s.rd F.BR_STAT_LINK 0 0 = 2 → s.br.outst = [] → brGood m = true → leAt m 1 1 = 0x83 →
    ∃ t, exec (.levelAck m) s = .next t ∧ (∀ l ∈ t.br.lamps, l.out = leAt m 6 1 → l.num = some (leAt m 4 2) → l.acked = true) ∧
      t.br.lamps.length = s.br.lamps.length ∧ t.br.rxNext = some ((leAt m 2 2 + 1) % 65536) ∧ ∀ a, t.byteAt a = s.byteAt a) ∧
  (∀ (o : BitVec 7) (s : State) (l : LampOut), s.br.lamps.find? (fun x => x.out == o.toNat) = some l → s.br.arbOn = true → l.acked = false →
    l.cycle + 2 ≤ s.gt / 65536 →
    ∃ t, exec (.levelAckTimeout o) s = .next t ∧
      (t.br.lamps.find? (fun x => x.out == o.toNat)).map (fun x => (x.level, x.ramp, x.spec, x.cycle, x.acked)) =
        some (l.level, l.ramp, l.spec, (s.gt / 65536 + 1) % 2 ^ 48, false) ∧ ∀ a, t.byteAt a = s.byteAt a) ∧
  (∀ (m : List Byte) (s : State), s.pwr.pilotOn = true → s.rd F.BR_STAT_LINK 0 0 = 2 → s.br.outst = [] → brGood m = true → leAt m 1 1 = 0x86 →
    bitOf (leAt m 5 1) 1 = false →
    ∃ t, exec (.fsHeartbeat m) s = .next t ∧ t.rd F.BR_STAT_FS_STATE 0 0 = leAt m 4 1 % 2 ^ F.BR_STAT_FS_STATE.width ∧
      (leAt m 4 1 = 2 → s.rd F.BR_STAT_FS_STATE 0 0 ≠ 2 → bitOf (t.rd F.REG_EVT_RAW 0x090 0) 4 = true) ∧ ∀ a, t.byteAt a = s.byteAt a)

/-- R429, R433 to R439, R446, R451, R458, Table FAR-6 (receptions on a link with nothing outstanding). -/
def Obligations.BarrierBlock : Prop :=
  (∀ (m : List Byte) (s : State), s.pwr.pilotOn = true → s.pwr.mainOn = true → s.rd F.BR_STAT_LINK 0 0 = 2 → s.br.outst = [] →
    s.br.rxq.length < 64 → brGood m = true → leAt m 1 1 = 0x87 →
    ∃ t, exec (.fsFault m) s = .next t ∧ t.br.rxq = s.br.rxq ++ [m] ∧ t.br.rxNext = some ((leAt m 2 2 + 1) % 65536) ∧
      bitOf (t.rd F.REG_EVT_RAW 0x090 0) 0 = true ∧ ∀ a, t.byteAt a = s.byteAt a) ∧
  (∀ (m : List Byte) (s : State), s.pwr.pilotOn = true → s.pwr.mainOn = true → s.rd F.BR_STAT_LINK 0 0 = 2 → s.br.outst = [] →
    s.br.rxq.length < 64 → brGood m = true → leAt m 1 1 = 0x85 →
    ∃ t, exec (.ioStat m) s = .next t ∧ t.br.rxq = s.br.rxq ++ [m] ∧ t.br.lastIo = m ∧
      (leAt m 5 1 ≠ 0 → bitOf (s.rd F.PL_WAKE_EN 0 0) 3 = true → t.pwr.wake = true ∧ bitOf (t.rd F.PL_WAKE_CAUSE 0 0) 3 = true) ∧
      ∀ a, t.byteAt a = s.byteAt a) ∧
  (∀ (m : List Byte) (s : State), s.pwr.pilotOn = true → s.rd F.BR_STAT_LINK 0 0 = 2 → s.br.outst = [] → brGood m = true →
    leAt m 1 1 = 0x84 → s.br.dqTags.contains (leAt m 4 1) = true →
    ∃ t, exec (.daliReply m) s = .next t ∧ t.br.dqTags = s.br.dqTags.erase (leAt m 4 1) ∧
      t.br.dqReplies = s.br.dqReplies ++ [(m.drop 5).take 7] ∧ bitOf (t.rd F.REG_EVT_RAW 0x090 0) 7 = true ∧ ∀ a, t.byteAt a = s.byteAt a) ∧
  (∀ (m : List Byte) (s : State), s.pwr.pilotOn = true → s.rd F.BR_STAT_LINK 0 0 = 2 → brGood m = true → brKnown (leAt m 1 1) = false →
    ∃ t, exec (.rxUnknown m) s = .next t ∧ t.rd F.BR_RX_UNKNOWN_CNT 0 0 = satInc (s.rd F.BR_RX_UNKNOWN_CNT 0 0) % 2 ^ F.BR_RX_UNKNOWN_CNT.width ∧
      t.br = { s.br with rxNext := some ((leAt m 2 2 + 1) % 65536) } ∧
      Changes s t [(F.BR_RX_UNKNOWN_CNT, 0, 0), (F.BR_RX_GAP_CNT, 0, 0), (F.REG_EVT_RAW, 0x090, 0)]) ∧
  (∀ (s : State) (m : BrMsg), s.rd F.BR_STAT_LINK 0 0 = 2 → m ∈ s.br.outst → m.sentAt + s.rd F.BR_CFG_RETX_US 0 0 * 1000 ≤ s.now →
    ∃ t, exec .barrierRetx s = .next t ∧ t.br.outst = s.br.outst.map (fun x => { x with sentAt := s.now }) ∧
      t.outs = (s.br.outst.map (fun x => Out.barrierTx x.bytes)).reverse ++ s.outs ∧
      t.rd F.BR_RETX_CNT 0 0 = satInc (s.rd F.BR_RETX_CNT 0 0) % 2 ^ F.BR_RETX_CNT.width ∧ Changes s t [(F.BR_RETX_CNT, 0, 0)]) ∧
  (∀ (lat : BitVec 16) (s : State), s.rd F.BR_STAT_LINK 0 0 = 1 → s.pwr.pilotOn = true → s.fs.on = true → lat.toNat ≤ 9000 →
    ∃ t, exec (.barrierLinkUp lat) s = .next t ∧ t.rd F.BR_STAT_LINK 0 0 = 2 ∧ t.rd F.BR_LAT_NS 0 0 = lat.toNat ∧ t.br.rxNext = none ∧
      t.orr.restart = true ∧ ∀ a, t.byteAt a = s.byteAt a) ∧
  (∀ s : State, s.rd F.BR_STAT_LINK 0 0 ≠ 0 →
    ∃ t, exec .barrierLinkDown s = .next t ∧ t.rd F.BR_STAT_LINK 0 0 = 0 ∧ bitOf (t.rd F.REG_EVT_RAW 0x090 0) 6 = true ∧
      Changes s t [(F.BR_STAT_LINK, 0, 0), (F.REG_EVT_RAW, 0x090, 0)]) ∧
  (∀ (src : Src) (v : Word) (s : State), s.live 0x090 = true → brTrusted src = true → v.toNat % 2 = 1 → s.rd F.BR_STAT_LINK 0 0 = 2 →
    s.pwr.pilotOn = true → s.br.txq = [] → s.br.outst = [] →
    ∃ t, exec (.barrierTxPush src v) s = .next t ∧
      t.outs = .barrierTx (brFrame (s.rd F.BR_TX_MSG 0 0 % 256) (s.rd F.BR_TX_SEQ_NEXT 0 0)
        (toBytes 3 (s.rd F.BR_TX_MSG 0 0 / 256) ++ toBytes 4 (s.rd F.BR_TX_MSG 0 1) ++ toBytes 3 (s.rd F.BR_TX_MSG 0 2))) :: s.outs ∧
      t.rd F.BR_TX_SEQ_NEXT 0 0 = (s.rd F.BR_TX_SEQ_NEXT 0 0 + 1) % 65536 ∧ t.rd F.BR_TX_CREDIT_AVAILABLE 0 0 = 7 ∧
      t.rd F.BR_TX_CREDIT_OUTSTANDING 0 0 = 1 ∧ ∀ a, t.byteAt a = s.byteAt a) ∧
  (∀ (src : Src) (v : Word) (s : State), s.live 0x090 = true → brTrusted src = true → v.toNat % 2 = 1 → s.rd F.BR_STAT_LINK 0 0 ≠ 2 →
    s.br.txq.length < 32 →
    ∃ t, exec (.barrierTxPush src v) s = .next t ∧ t.br.txq.length = s.br.txq.length + 1 ∧ t.outs = s.outs ∧ ∀ a, t.byteAt a = s.byteAt a) ∧
  (∀ (src : Src) (v : Word) (s : State), s.live 0x090 = true → brTrusted src = false →
    ∃ t, exec (.barrierTxPush src v) s = .next t ∧ t.br = s.br ∧
      t.rd F.BR_TX_DENY_CNT 0 0 = satInc (s.rd F.BR_TX_DENY_CNT 0 0) % 2 ^ F.BR_TX_DENY_CNT.width ∧ Changes s t [(F.BR_TX_DENY_CNT, 0, 0)]) ∧
  (∀ (v : Word) (s : State), s.live 0x090 = true → v.toNat % 2 = 1 →
    ∃ t, exec (.barrierRxPop v) s = .next t ∧ t.br = { s.br with rxq := s.br.rxq.tail } ∧ ∀ a, t.byteAt a = s.byteAt a) ∧
  (∀ (v : Word) (s : State), s.live 0x090 = true → v.toNat % 2 = 1 → s.br.dqTags.length < 4 →
    ∃ t, exec (.dqPush v) s = .next t ∧ t.br.dqTags = s.br.dqTags ++ [s.br.dqTag] ∧ t.br.dqTag = (s.br.dqTag + 1) % 256 ∧
      ∀ a, t.byteAt a = s.byteAt a) ∧
  (∀ s : State, s.pwr.pilotOn = true → (s.fwRun = true ∨ (s.pwr.mainOn = false ∧ s.rdB F.BR_CTRL_PILOT_HB 0 0 = true)) →
    s.rd F.BR_STAT_LINK 0 0 = 2 → s.br.txq.length < 32 →
    ∃ t, exec .hbPeriodSend s = .next t ∧ t.br.hbCycle = s.gt / 65536 ∧ ∀ a, t.byteAt a = s.byteAt a)

/-- R430; Table FAR-6 gives the Nearside's counter its event. -/
def Obligations.BadBarrierMessagesAreDiscarded : Prop :=
  (∀ (m : List Byte) (s : State) (c : Instr),
    c ∈ [Instr.zcStamp m, .mainsStat m, .levelAck m, .daliReply m, .ioStat m, .fsHeartbeat m, .fsFault m, .rxUnknown m] →
    s.pwr.pilotOn = true → s.rd F.BR_STAT_LINK 0 0 = 2 → brGood m = false →
    ∃ t, exec c s = .next t ∧ t.rd F.BR_RX_CRC_CNT 0 0 = satInc (s.rd F.BR_RX_CRC_CNT 0 0) % 2 ^ F.BR_RX_CRC_CNT.width ∧
      t = { s with regs := t.regs } ∧ Changes s t [(F.BR_RX_CRC_CNT, 0, 0), (F.REG_EVT_RAW, 0x090, 0)]) ∧
  (∀ (m : List Byte) (status : Fin 3) (data : List Byte) (s : State) (c : Instr),
    c ∈ [Instr.levelSet m, .daliQuery m status data, .nsHeartbeat m, .failsafeCfg m] →
    s.fs.on = true → brGood m = false →
    exec c s = .next { s with fs := { s.fs with crcCnt := satInc s.fs.crcCnt } }) ∧
  (∀ (m : List Byte) (s : State), s.fs.on = true → brGood m = false →
    (bitOf (leAt m 4 2) 0 = true → exec (.paramWriteStart m) s = .next { s with fs := { s.fs with crcCnt := satInc s.fs.crcCnt } }) ∧
    (bitOf (leAt m 4 2) 0 = false → bitOf (leAt m 4 2) 1 = false →
      exec (.paramWriteChunk m) s = .next { s with fs := { s.fs with crcCnt := satInc s.fs.crcCnt } }) ∧
    (bitOf (leAt m 4 2) 0 = false → bitOf (leAt m 4 2) 1 = true →
      exec (.paramCommit m) s = .next { s with fs := { s.fs with crcCnt := satInc s.fs.crcCnt } }) ∧
    ((leAt m 1 1 < 1 ∨ 5 < leAt m 1 1) → exec (.unknownType m) s = .next { s with fs := { s.fs with crcCnt := satInc s.fs.crcCnt } }))

/-- The Farside die reaches the Nearside only through barrier messages, which the reception rows then take in. -/
def Obligations.FarsideIsConfined : Prop :=
  (∀ (m : List Byte) (status : Fin 3) (data : List Byte) (s : State) (c : Instr),
    c ∈ [Instr.levelSet m, .daliQuery m status data, .nsHeartbeat m, .failsafeCfg m, .paramWriteStart m, .paramWriteChunk m, .paramCommit m,
      .unknownType m] → ∃ t, exec c s = .next t ∧ t = { s with fs := t.fs, outs := t.outs }) ∧
  (∀ (period age rms freq : BitVec 16) (o : Fin 81) (delayed : Bool) (v : BitVec 2) (s : State) (c : Instr),
    c ∈ [Instr.fsPowerup, .fsVinLow, .fsVinStop, .zeroCrossing period age rms freq, .flywheelCrossing, .mainsFlagChange period rms freq,
      .brownoutWarn, .dapcStep o delayed, .daliBusFail, .daliBusRecover, .daliCollision, .fieldInputChange v, .relayCoilFault] →
    ∃ t, exec c s = .next t ∧ t = { s with fs := t.fs, outs := t.outs })

/-- R428, R431, R436, R437, R445, R446, R452, R457, R459, R468, R469, Tables FAR-2 and FAR-5. -/
def Obligations.FarsideMessages : Prop :=
  (∀ (m : List Byte) (s : State), s.fs.on = true → brGood m = true → leAt m 1 1 = 1 → s.fs.expect.getD (leAt m 2 2) = leAt m 2 2 →
    s.outEnabled (leAt m 4 1) = true → leAt m 6 2 ≤ 1000 →
    ∃ t, exec (.levelSet m) s = .next t ∧ t.fs.expect = some ((leAt m 2 2 + 1) % 65536) ∧ t.fs.rxAck = leAt m 2 2 ∧ t.fs.heard = true ∧
      t.fs.failsafe = false ∧
      t.fs.pend = s.fs.pend.filter (fun q => q.out != leAt m 4 1) ++
        [⟨leAt m 4 1, leAt m 2 2, leAt m 6 2, leAt m 8 2, leAt m 10 4, bitOf (leAt m 5 1) 0⟩]) ∧
  (∀ (m : List Byte) (s : State), s.fs.on = true → brGood m = true → leAt m 1 1 = 1 → s.fs.expect.getD (leAt m 2 2) = leAt m 2 2 →
    (s.outEnabled (leAt m 4 1) = false ∨ 1000 < leAt m 6 2) →
    ∃ t, exec (.levelSet m) s = .next t ∧ t.fs.pend = s.fs.pend ∧ t.fs.rxAck = leAt m 2 2) ∧
  (∀ (m : List Byte) (status : Fin 3) (data : List Byte) (s : State), s.fs.on = true → brGood m = true → leAt m 1 1 = 2 →
    s.fs.expect.getD (leAt m 2 2) = leAt m 2 2 → dqRefused m = true →
    ∃ t b, exec (.daliQuery m status data) s = .next t ∧ t.outs = .farsideTx b :: s.outs ∧ leAt b 1 1 = 0x84 ∧ leAt b 4 1 = leAt m 4 1 ∧
      leAt b 5 1 = 4) ∧
  (∀ (m : List Byte) (status : Fin 3) (data : List Byte) (s : State), s.fs.on = true → brGood m = true → leAt m 1 1 = 2 →
    s.fs.expect.getD (leAt m 2 2) = leAt m 2 2 → dqRefused m = false → s.fs.busFail = false → leAt m 5 1 ≠ 3 → bitOf (leAt m 11 1) 7 = false →
    ∃ t b, exec (.daliQuery m status data) s = .next t ∧
      t.outs = .farsideTx b :: (List.replicate (if leAt m 5 1 = 1 then 2 else 1)
        (Out.dali [BitVec.ofNat 8 (leAt m 6 1), BitVec.ofNat 8 (leAt m 7 1)])) ++ s.outs ∧
      leAt b 1 1 = 0x84 ∧ leAt b 4 1 = leAt m 4 1 ∧ leAt b 5 1 = status) ∧
  (∀ (m : List Byte) (s : State), s.fs.on = true → brGood m = true → leAt m 1 1 = 3 →
    (bitOf (leAt m 4 1) 0 = true ∨ s.fs.expect.getD (leAt m 2 2) = leAt m 2 2) →
    ∃ t, exec (.nsHeartbeat m) s = .next t ∧ t.fs.expect = some ((leAt m 2 2 + 1) % 65536) ∧ t.fs.rxAck = leAt m 2 2 ∧ t.fs.heard = true ∧
      t.fs.failsafe = false ∧ t.fs.resetFlag = (s.fs.resetFlag && !bitOf (leAt m 4 1) 0)) ∧
  (∀ (m : List Byte) (s : State), s.fs.on = true → brGood m = true → leAt m 1 1 = 4 → s.fs.expect.getD (leAt m 2 2) = leAt m 2 2 →
    ∃ t, exec (.failsafeCfg m) s = .next t ∧
      (leAt m 4 1 = 0xFF → 10 ≤ leAt m 5 2 → 2 ≤ leAt m 7 2 →
        t.fs.cfgCycles = some (leAt m 5 2) ∧ t.fs.cfgBackstop = some (leAt m 7 2) ∧ t.fs.cfgOut = s.fs.cfgOut) ∧
      (outValid (leAt m 4 1) = true → leAt m 5 2 ≤ 1000 →
        t.fs.cfgOut.find? (fun c => c.1 == leAt m 4 1) = some (leAt m 4 1, leAt m 5 2, leAt m 7 2) ∧ t.fs.cfgCycles = s.fs.cfgCycles) ∧
      ((leAt m 4 1 = 0xFF ∧ (leAt m 5 2 < 10 ∨ leAt m 7 2 < 2)) ∨
          (leAt m 4 1 ≠ 0xFF ∧ (outValid (leAt m 4 1) = false ∨ 1000 < leAt m 5 2)) →
        t.fs.cfgOut = s.fs.cfgOut ∧ t.fs.cfgCycles = s.fs.cfgCycles ∧ t.fs.cfgBackstop = s.fs.cfgBackstop ∧
          storeGet 0 t.fs.faultCnt 6 = min (storeGet 0 s.fs.faultCnt 6 + 1) 0xFFFF)) ∧
  (∀ (m : List Byte) (s : State), s.fs.on = true → brGood m = true → leAt m 1 1 = 5 → s.fs.expect.getD (leAt m 2 2) = leAt m 2 2 →
    bitOf (leAt m 4 2) 0 = true → bitOf (leAt m 4 2) 1 = false →
    ∃ t, exec (.paramWriteStart m) s = .next t ∧ t.fs.nextBlock = s.fs.nextBlock ∧
      t.fs.staging = List.replicate (8 * bitsOf (leAt m 4 2) 3 7) 0#8 ++ (m.drop 6).take 8 ++
        List.replicate (1024 - (8 * bitsOf (leAt m 4 2) 3 7 + 8)) 0#8) ∧
  (∀ (m : List Byte) (s : State), s.fs.on = true → brGood m = true → leAt m 1 1 = 5 → s.fs.expect.getD (leAt m 2 2) = leAt m 2 2 →
    bitOf (leAt m 4 2) 0 = false → bitOf (leAt m 4 2) 1 = false → s.fs.staging ≠ [] →
    ∃ t, exec (.paramWriteChunk m) s = .next t ∧ t.fs.nextBlock = s.fs.nextBlock ∧
      t.fs.staging = s.fs.staging.take (8 * bitsOf (leAt m 4 2) 3 7) ++ (m.drop 6).take 8 ++
        s.fs.staging.drop (8 * bitsOf (leAt m 4 2) 3 7 + 8)) ∧
  (∀ (m b : List Byte) (s : State), s.fs.on = true → brGood m = true → leAt m 1 1 = 5 → s.fs.expect.getD (leAt m 2 2) = leAt m 2 2 →
    bitOf (leAt m 4 2) 0 = false → bitOf (leAt m 4 2) 1 = true → (s.fsParamChunk m).fs.staging = b → leAt b 0 4 = 0x42505346 →
    s.fsField 4 4 0 ≤ leAt b 4 4 → paramInRange b = true →
    ∃ t, exec (.paramCommit m) s = .next t ∧ t.fs.nextBlock = (if paramSigned b then some b else s.fs.nextBlock) ∧ t.fs.block = s.fs.block ∧
      storeGet 0 t.fs.faultCnt 8 = min (storeGet 0 s.fs.faultCnt 8 + 1) 0xFFFF) ∧
  (∀ (m : List Byte) (s : State), s.fs.on = true → brGood m = true → (leAt m 1 1 = 0 ∨ 5 < leAt m 1 1) →
    s.fs.expect.getD (leAt m 2 2) = leAt m 2 2 →
    ∃ t, exec (.unknownType m) s = .next t ∧ t.fs.unknownCnt = satInc s.fs.unknownCnt ∧ t.fs.rxAck = leAt m 2 2 ∧
      storeGet 0 t.fs.faultCnt 1 = min (storeGet 0 s.fs.faultCnt 1 + 1) 0xFFFF)

/-- R440 to R448, R451, R453, R460, R717. -/
def Obligations.FarsidePowerAndCrossings : Prop :=
  (∀ s : State, s.fs.on = false →
    ∃ t, exec .fsPowerup s = .next t ∧ t.fs.on = true ∧ t.fs.copyA = s.fs.copyA ∧ t.fs.copyB = s.fs.copyB ∧ t.fs.outs = [] ∧ t.fs.pend = [] ∧
      t.fs.expect = none ∧ t.fs.resetFlag = true ∧
      t.fs.block = (if s.fs.copyA = [] then s.fs.copyB else if s.fs.copyB = [] then s.fs.copyA
        else if leAt s.fs.copyA 4 4 < leAt s.fs.copyB 4 4 then s.fs.copyB else s.fs.copyA)) ∧
  (∀ s : State, s.fs.on = true → s.fs.vinLow = false →
    ∃ t, exec .fsVinLow s = .next t ∧ t.fs.vinLow = true ∧ storeGet 0 t.fs.faultCnt 13 = min (storeGet 0 s.fs.faultCnt 13 + 1) 0xFFFF) ∧
  (∀ s : State, s.fs.on = true →
    exec .fsVinStop s = .next { s with fs := { copyA := s.fs.copyA, copyB := s.fs.copyB }, outs := .relay false :: s.outs }) ∧
  (∀ (period age rms freq : BitVec 16) (s : State), s.fs.on = true →
    ∃ t n, exec (.zeroCrossing period age rms freq) s = .next t ∧ t.fs.idx = (s.fs.idx + 1) % 2 ^ 32 ∧ t.fs.period = period.toNat ∧
      t.fs.rms = rms.toNat ∧ t.fs.freq = freq.toNat ∧ (∀ p ∈ t.fs.pend, kDue p.k t.fs.idx = false) ∧
      t.outs.head? = some (.farsideTx (brFrame 0x81 n
        (toBytes 4 t.fs.idx ++ toBytes 2 age.toNat ++ toBytes 2 period.toNat ++ toBytes 2 s.fs.rxAck)))) ∧
  (∀ s : State, s.fs.on = true →
    ∃ t, exec .flywheelCrossing s = .next t ∧ t.fs.idx = (s.fs.idx + 1) % 2 ^ 32 ∧ t.fs.period = s.fs.period ∧
      (∀ p ∈ t.fs.pend, kDue p.k t.fs.idx = false)) ∧
  (∀ (half rms freq : BitVec 16) (s : State), s.fs.on = true →
    ∃ t, exec (.mainsFlagChange half rms freq) s = .next t ∧ t.fs.flags = s.fsFlags half.toNat rms.toNat freq.toNat ∧ t.fs.rms = rms.toNat ∧
      t.fs.freq = freq.toNat ∧
      t.fs.txNum = (if t.fs.flags = s.fs.flags then s.fs.txNum else (s.fs.txNum + 1) % 65536)) ∧
  (∀ s : State, s.fs.on = true → bitOf s.fs.flags 4 = false →
    ∃ t b, exec .brownoutWarn s = .next t ∧ t.fs.flags = setBit s.fs.flags 4 ∧ t.outs = .farsideTx b :: s.outs ∧ leAt b 1 1 = 0x82) ∧
  (∀ (o : Fin 81) (delayed : Bool) (s : State), s.fs.on = true → s.fs.busFail = false → s.outEnabled o = true →
    (s.fsOut o).steps + 1 = max 1 (ceilDiv (s.fsOut o).ramp (s.fsField 0x3C 1 40)) →
    (s.fsOut o).t0 + (s.fsOut o).steps * s.fsField 0x3C 1 40 * 1000000 ≤ s.now →
    ∃ t, exec (.dapcStep o delayed) s = .next t ∧ (t.fsOut o).steps = (s.fsOut o).steps + 1 ∧
      (t.fsOut o).arc = arcLevel (s.fsOut o).target ∧
      t.outs = .dali [BitVec.ofNat 8 (daliAddr o), BitVec.ofNat 8 (arcLevel (s.fsOut o).target)] :: s.outs) ∧
  (∀ s : State, s.fs.on = true → s.fs.busFail = false →
    ∃ t, exec .daliBusFail s = .next t ∧ t.fs.busFail = true ∧ storeGet 0 t.fs.faultCnt 9 = min (storeGet 0 s.fs.faultCnt 9 + 1) 0xFFFF) ∧
  (∀ s : State, s.fs.on = true → s.fs.busFail = true →
    ∃ t, exec .daliBusRecover s = .next t ∧ t.fs.busFail = false ∧
      storeGet 0 t.fs.faultCnt 10 = min (storeGet 0 s.fs.faultCnt 10 + 1) 0xFFFF ∧
      t.outs.length = s.outs.length + 1 + (s.fs.outs.filter (fun x => decide (x.out ≤ 80))).length) ∧
  (∀ s : State, s.fs.on = true → exec .daliCollision s = .next { s with fs := { s.fs with collisionCnt := satInc s.fs.collisionCnt } }) ∧
  (∀ (v : BitVec 2) (s : State), s.fs.on = true → v.toNat ^^^ (s.fsField 0x3A 1 0 % 4) ≠ s.fs.inputs →
    ∃ t b, exec (.fieldInputChange v) s = .next t ∧ t.fs.inputs = v.toNat ^^^ (s.fsField 0x3A 1 0 % 4) ∧ t.fs.inChanged = 0 ∧
      t.outs = .farsideTx b :: s.outs ∧ leAt b 1 1 = 0x85) ∧
  (∀ s : State, s.fs.on = true → s.fs.coilFault = false →
    ∃ t b, exec .relayCoilFault s = .next t ∧ t.fs.coilFault = true ∧
      storeGet 0 t.fs.faultCnt 11 = min (storeGet 0 s.fs.faultCnt 11 + 1) 0xFFFF ∧ t.outs.head? = some (.farsideTx b) ∧ leAt b 1 1 = 0x85)

/-- R273 to R277, R299, R304 to R307, R315 to R321 (frame starts and ends for which no CAPTURE_BIND waits and no window is open). -/
def Obligations.FramesOfAStream : Prop :=
  (∀ (port : Fin 16) (vc : Fin 4) (s : State), s.portOn port = true → s.rdB F.CSI_STR_CTRL_EN port vc = true →
    s.openFrame (port.val * 4 + vc.val) = none → s.groupOf (port.val * 4 + vc.val) = none → (∀ c ∈ s.sch.cmds, c.desc.opcode ≠ 7) →
    ∃ t, exec (.frameStart port vc false 0) s = .next t ∧
      t.rd F.CSI_LAST_FRAME_ID port vc = ((port.val * 4 + vc.val) * 2 ^ 26 + storeGet 0 s.cam.counts (port.val * 4 + vc.val)) % 2 ^ 32 ∧
      t.rd F.CSI_LAST_CAPT_GT port vc = s.gt % 2 ^ 64 ∧
      t.rd F.CSI_S_FRAME_CNT port vc = satInc (s.rd F.CSI_S_FRAME_CNT port vc) % 2 ^ 32 ∧
      storeGet 0 t.cam.counts (port.val * 4 + vc.val) = (if storeGet 0 s.cam.counts (port.val * 4 + vc.val) = 0x3FFFFFE then 0
        else storeGet 0 s.cam.counts (port.val * 4 + vc.val) + 1) ∧
      (t.frame ((port.val * 4 + vc.val) * 2 ^ 26 + storeGet 0 s.cam.counts (port.val * 4 + vc.val))).map
          (fun f => (f.stream, f.capGt, f.capSi, f.deadline, f.ageGt, f.isOpen, f.standing)) =
        some (port.val * 4 + vc.val, s.gt, if s.mapValid then s.si else 0, s.gt + s.rd F.SPC_STR_PERIOD 0 (port.val * 4 + vc.val) + s.grace,
          s.gt + s.rd F.CSI_MAX_AGE port vc, true, 0)) ∧
  (∀ (port : Fin 16) (vc : Fin 4) (vcx : Bool) (s : State), s.portOn port = true →
    ∃ t, exec (.frameStart port vc vcx 2) s = .next t ∧ t.cam = s.cam ∧
      t.rd F.CSI_HDR_UNCORR_CNT port 0 = satInc (s.rd F.CSI_HDR_UNCORR_CNT port 0) % 2 ^ 32 ∧ Changes s t [(F.CSI_HDR_UNCORR_CNT, port, 0)]) ∧
  (∀ (port : Fin 16) (vc : Fin 4) (vcx : Bool) (s : State), s.portOn port = true → (vcx = true ∨ s.rdB F.CSI_STR_CTRL_EN port vc = false) →
    ∃ t, exec (.frameEnd port vc vcx 0) s = .next t ∧ t.cam = s.cam ∧
      t.rd F.CSI_GEN_LONG_CNT port 0 = satInc (s.rd F.CSI_GEN_LONG_CNT port 0) % 2 ^ F.CSI_GEN_LONG_CNT.width ∧
      Changes s t [(F.CSI_GEN_LONG_CNT, port, 0)]) ∧
  (∀ (port : Fin 16) (vc : Fin 4) (s : State) (f : Frame), s.portOn port = true → s.rdB F.CSI_STR_CTRL_EN port vc = true →
    s.openFrame (port.val * 4 + vc.val) = some f → s.frame f.id = some f → f.delivered = false →
    ∃ t, exec (.frameEnd port vc false 0) s = .next t ∧ (t.frame f.id).map (fun x => x.isOpen) = some false ∧
      (f.linesRx < f.lines → t.rd F.CSI_S_SHORT_CNT port vc = satInc (s.rd F.CSI_S_SHORT_CNT port vc) % 2 ^ 32 ∧
        (f.standing = 0 → s.rdB F.SPC_STR_CFG_ACCEPT_SHORT 0 f.stream = false →
          (t.frame f.id).map (fun x => (x.standing, x.cause)) = some (2, 3) ∧ t.cam.retractQ = s.cam.retractQ ++ [f.id]))) ∧
  (∀ (port : Fin 16) (k : Packet) (s : State) (f : Frame), s.portOn port = true → k.sot = false → k.hdr = 0 → k.vcx = false → k.crcOk = true →
    s.rdB F.CSI_STR_CTRL_EN port k.vc = true → k.payload.length ≤ s.rd F.CSI_STR_MAX_WC port k.vc → k.dt ≠ 0x12 →
    k.dt.toNat = s.rd F.CSI_STR_CTRL_DT port k.vc →
    k.payload.length = lineBytes (s.rd F.CSI_STR_CTRL_DT port k.vc) (s.rd F.CSI_STR_GEOM_WIDTH port k.vc) →
    s.openFrame (port.val * 4 + k.vc.val) = some f → s.frame f.id = some f → f.linesRx < f.lines → f.buf.isSome = true → f.dropping = false →
    f.stored < s.rd F.CSI_BUF_LINES port k.vc →
    ∃ t, exec (.lineReceive port k) s = .next t ∧ (t.frame f.id).map (fun x => (x.linesRx, x.stored, x.standing)) =
      some (f.linesRx + 1, f.stored + 1, f.standing)) ∧
  (∀ (port : Fin 16) (k : Packet) (s : State), s.portOn port = true → k.sot = true →
    ∃ t, exec (.lineReceive port k) s = .next t ∧ t.cam = s.cam ∧
      t.rd F.CSI_SOT_ERR_CNT port 0 = satInc (s.rd F.CSI_SOT_ERR_CNT port 0) % 2 ^ F.CSI_SOT_ERR_CNT.width ∧
      t.rd F.CSI_HDR_UNCORR_CNT port 0 = satInc (s.rd F.CSI_HDR_UNCORR_CNT port 0) % 2 ^ 32 ∧
      Changes s t [(F.CSI_SOT_ERR_CNT, port, 0), (F.CSI_HDR_UNCORR_CNT, port, 0)]) ∧
  (∀ (fr : BitVec 32) (s : State) (x : Frame), s.frame fr.toNat = some x → x.standing = 0 → x.deadline ≤ s.gt →
    (x.deadline < s.gt ∨ x.isOpen = true ∨ x.delivered = false ∨ x.ageGt ≤ s.gt) →
    ∃ t, exec (.confirmDeadline fr) s = .next t ∧ (t.frame fr.toNat).map (fun y => (y.standing, y.cause)) = some (2, 1) ∧
      t.rd F.SPC_RETRACT_CNT 0 0 = satInc (s.rd F.SPC_RETRACT_CNT 0 0) % 2 ^ 32 ∧ t.rd F.SPC_LAST_RETR_FRAME 0 0 = fr.toNat ∧
      t.rd F.SPC_LAST_RETR_CAUSE 0 0 = 1 ∧ t.rd F.SPC_SPEC_STAT_RETRACT_BUSY 0 0 = 1 ∧ t.cam.retractQ = s.cam.retractQ ++ [fr.toNat] ∧
      bitOf (t.rd F.REG_EVT_RAW 0x006 0) 0 = true ∧
      Changes s t [(F.SPC_RETRACT_CNT, 0, 0), (F.REG_EVT_RAW, 0x006, 0), (F.SPC_LAST_RETR_FRAME, 0, 0), (F.SPC_LAST_RETR_CAUSE, 0, 0),
        (F.SPC_SPEC_STAT_RETRACT_BUSY, 0, 0)]) ∧
  (∀ (fr : BitVec 32) (s : State) (x : Frame), s.frame fr.toNat = some x → x.standing = 0 → x.isOpen = false → x.delivered = true →
    s.gt < x.ageGt → s.gt ≤ x.deadline → s.sch.cmds.all (fun c => !(c.phase == .prov) && !(c.desc.opcode == 7)) = true →
    ∃ t, exec (.confirmDeadline fr) s = .next t ∧ (t.frame fr.toNat).map (fun y => y.standing) = some 1 ∧
      t.rd F.SPC_CONFIRM_CNT 0 0 = satInc (s.rd F.SPC_CONFIRM_CNT 0 0) % 2 ^ 32 ∧ Changes s t [(F.SPC_CONFIRM_CNT, 0, 0)]) ∧
  (∀ (fr : BitVec 32) (s : State) (x : Frame), s.frame fr.toNat = some x → x.ageGt ≤ s.gt → x.standing = 0 →
    s.sv.ctxs.all (fun y => !(y.wait.contains fr.toNat || y.run.any (fun r => r.frame == fr.toNat))) = true →
    s.tbufs.all (fun b => !(b.write && b.frame == fr.toNat)) = true → s.md.notifies = [] →
    ∃ t, exec (.frameStale fr) s = .next t ∧ (t.frame fr.toNat).map (fun y => (y.standing, y.cause)) = some (2, 7) ∧
      t.cam.retractQ = s.cam.retractQ ++ [fr.toNat] ∧ t.rd F.SPC_RETRACT_CNT 0 0 = satInc (s.rd F.SPC_RETRACT_CNT 0 0) % 2 ^ 32 ∧
      ∀ a, t.byteAt a = s.byteAt a) ∧
  (∀ (s : State) (f : Nat) (rest : List Nat), s.cam.retractQ = f :: rest →
    s.sv.ctxs.all (fun y => !(y.wait.contains f || y.run.any (fun r => r.frame == f))) = true →
    (∀ q < 4, s.rdB F.MD_JQ_CFG_EN 0 q = false) → s.md.notifies = [] → s.sch.cmds.all (fun c => !s.holdsFrame c f) = true →
    ∃ t, exec .retraction s = .next t ∧ t.cam.retractQ = rest ∧
      (rest = [] → t.rd F.SPC_SPEC_STAT_RETRACT_BUSY 0 0 = 0 ∧ bitOf (t.rd F.REG_EVT_RAW 0x006 0) 4 = true) ∧
      (∀ b ∈ t.sv.bufs, b.frame = f → bitOf b.refs 1 = false) ∧ ∀ a, t.byteAt a = s.byteAt a)

/-- R301, R302, R308 to R310, R323 to R325, R329. -/
def Obligations.DomainsStreamsAndHolds : Prop :=
  (∀ (v : Word) (s : State), s.live 0x006 = true → v.toNat % 2 = 1 → s.rdB F.SPC_DOM_CFG_EN 0 (s.rd F.SPC_DOM_SEL 0 0) = false →
    ∃ t, exec (.domEnable v) s = .next t ∧
      t.rd F.SPC_DOM_CFG_EN 0 (s.rd F.SPC_DOM_SEL 0 0) =
        (if s.arenaOk (s.rd F.SPC_DOM_SEL 0 0) then 1 else s.rd F.SPC_DOM_CFG_EN 0 (s.rd F.SPC_DOM_SEL 0 0)) ∧
      (s.arenaOk (s.rd F.SPC_DOM_SEL 0 0) = false → t.rd F.SPC_DOM_STAT_CFG_ERR 0 (s.rd F.SPC_DOM_SEL 0 0) = 1) ∧
      Changes s t [(if s.arenaOk (s.rd F.SPC_DOM_SEL 0 0) then F.SPC_DOM_CFG_EN else F.SPC_DOM_STAT_CFG_ERR, 0, s.rd F.SPC_DOM_SEL 0 0)]) ∧
  (∀ (v : Word) (s : State), s.live 0x006 = true → v.toNat % 2 = 0 → s.rdB F.SPC_DOM_CFG_EN 0 (s.rd F.SPC_DOM_SEL 0 0) = true →
    ∃ t, exec (.domDisable v) s = .next t ∧
      t.rd F.SPC_DOM_CFG_EN 0 (s.rd F.SPC_DOM_SEL 0 0) = (if s.domBusy (s.rd F.SPC_DOM_SEL 0 0) then 1 else 0) ∧
      (s.domBusy (s.rd F.SPC_DOM_SEL 0 0) = true → t.rd F.SPC_DOM_STAT_CFG_ERR 0 (s.rd F.SPC_DOM_SEL 0 0) = 1) ∧
      Changes s t [(if s.domBusy (s.rd F.SPC_DOM_SEL 0 0) then F.SPC_DOM_STAT_CFG_ERR else F.SPC_DOM_CFG_EN, 0, s.rd F.SPC_DOM_SEL 0 0)]) ∧
  (∀ (port : Fin 16) (vc : Fin 4) (v : Word) (s : State), s.live (0x060 + port) = true → s.rdB F.CSI_STR_CTRL_EN port vc = false →
    v.toNat % 2 = 1 → (s.strCtrl port vc v.toNat).streamOk port vc = true →
    ∃ t, exec (.streamEnable port vc v) s = .next t ∧ t.rd F.CSI_STR_CTRL_EN port vc = 1 ∧
      t.rd F.CSI_STR_CTRL_DT port vc = bitsOf v.toNat 2 6 ∧ storeGet 0 t.cam.counts (port.val * 4 + vc.val) = 0 ∧ ∀ a, t.byteAt a = s.byteAt a) ∧
  (∀ (port : Fin 16) (vc : Fin 4) (v : Word) (s : State), s.live (0x060 + port) = true → s.rdB F.CSI_STR_CTRL_EN port vc = false →
    v.toNat % 2 = 1 → (s.strCtrl port vc v.toNat).streamOk port vc = false →
    ∃ t, exec (.streamEnable port vc v) s = .next t ∧ t.rdB F.CSI_STR_CTRL_EN port vc = false ∧ t.rd F.CSI_STR_STAT_CFG_ERR port vc = 1 ∧
      bitOf (t.rd F.REG_EVT_RAW (0x060 + port) 0) 4 = true ∧ t.cam = s.cam ∧ ∀ a, t.byteAt a = s.byteAt a) ∧
  (∀ (port : Fin 16) (vc : Fin 4) (v : Word) (s : State), s.live (0x060 + port) = true → s.rdB F.CSI_STR_CTRL_EN port vc = true →
    v.toNat % 2 = 0 →
    ∃ t, exec (.streamEnable port vc v) s = .next t ∧ t.rd F.CSI_STR_CTRL_EN port vc = 0 ∧ t.cam = s.cam ∧ ∀ a, t.byteAt a = s.byteAt a) ∧
  (∀ (port : Fin 16) (v : Word) (s : State), s.live (0x060 + port) = true → v.toNat / 2 ^ 28 = port →
    ∃ t, exec (.refRelease port v) s = .next t ∧ t.cam.holds = s.cam.holds.filter (fun h => h.frame != v.toNat) ∧
      (∀ b ∈ t.cam.bufs, t.bufUsed b = true) ∧ Changes s t []) ∧
  (∀ (cmd : Nat) (s : State),
    ∃ t, exec (.bindHoldExpire cmd) s = .next t ∧
      t.cam.holds = s.cam.holds.filter (fun h => !(h.cmd == cmd && h.till.any (fun e => decide (e ≤ s.gt)))) ∧
      (∀ b ∈ t.cam.bufs, t.bufUsed b = true) ∧ Changes s t []) ∧
  (∀ (g : Fin 4) (s : State) (w : AgWin), s.cam.wins.find? (fun x => x.group == g.val) = some w → w.openGt + s.rd F.AG_CFG_TOL 0 g ≤ s.gt →
    s.rd F.AG_CFG_POLICY 0 g = 0 → s.winFull w = false →
    ∃ t, exec (.agWindowClose g) s = .next t ∧ w ∉ t.cam.wins ∧ t.rd F.AG_DROP_CNT 0 g = satInc (s.rd F.AG_DROP_CNT 0 g) % 2 ^ 32 ∧
      bitOf (t.rd F.REG_EVT_RAW 0x060 0) 6 = true ∧ ∀ a, t.byteAt a = s.byteAt a)

/-- R330 to R334. -/
def Obligations.SensorBundles : Prop :=
  (∀ (c : Fin 8) (v : Word) (s : State) (h es : List Byte), s.live 0x0B8 = true →
    ((s.ctrl c).queue.filter (fun b => !b.started)).length < 16 →
    s.fetch (s.rd F.SC_PUSH_LO 0 c + v.toNat % 65536 * 2 ^ 32) 32 = some h → s.bundleOk c h = true →
    s.fetch (s.rd F.SC_PUSH_LO 0 c + v.toNat % 65536 * 2 ^ 32 + 32) (8 * leAt h 1 1) = some es →
    (List.range (leAt h 1 1)).all (fun i => entryOk (es.drop (8 * i))) = true →
    ∃ t b, exec (.scPush c v) s = .next t ∧ (t.ctrl c).queue = (s.ctrl c).queue ++ [b] ∧
      b.addr = s.rd F.SC_PUSH_LO 0 c + v.toNat % 65536 * 2 ^ 32 ∧ b.stream = leAt h 0 1 % 64 ∧ b.whenK = leAt h 0 1 / 64 ∧
      b.nwr = leAt h 1 1 ∧ b.started = false) ∧
  (∀ (c : Fin 8) (v : Word) (s : State), s.live 0x0B8 = true → ((s.ctrl c).queue.filter (fun b => !b.started)).length < 16 →
    s.fetch (s.rd F.SC_PUSH_LO 0 c + v.toNat % 65536 * 2 ^ 32) 32 = none →
    ∃ t, exec (.scPush c v) s = .next t ∧ t.cam = s.cam ∧ t.rd F.SC_BAD_BUNDLE_CNT 0 0 = satInc (s.rd F.SC_BAD_BUNDLE_CNT 0 0) % 2 ^ 32 ∧
      bitOf (t.rd F.REG_EVT_RAW 0x0B8 0) 5 = true) ∧
  (∀ (c : Fin 8) (v : Word) (s : State), s.live 0x0B8 = true → 16 ≤ ((s.ctrl c).queue.filter (fun b => !b.started)).length →
    ∃ t, exec (.scPush c v) s = .next t ∧ t.cam = s.cam ∧ t.rd F.SC_PUSH_FULL_CNT 0 c = satInc (s.rd F.SC_PUSH_FULL_CNT 0 c) % 2 ^ 32 ∧
      Changes s t [(F.SC_PUSH_HI, 0, c), (F.SC_PUSH_FULL_CNT, 0, c)]) ∧
  (∀ (c : Fin 8) (s : State), s.live 0x0B8 = true →
    ∃ t, exec (.scFlush c) s = .next t ∧ (t.ctrl c).queue = (s.ctrl c).queue.filter (fun b => b.started) ∧ t.rd F.SC_STAT_QUEUED 0 c = 0) ∧
  (∀ (c : Fin 8) (s : State) (y : Bundle × Nat), s.pageOn 0x0B8 = true → s.inReset 0x0B8 = false → s.rd F.SC_CFG_MODE 0 c ≠ 0 →
    s.rd F.SC_CFG_MODE 0 c ≠ 3 → (s.ctrl c).queue.all (fun b => !b.started) = true →
    leastPair (fun (z : Bundle × Nat) => (z.1.due, z.2))
      (((s.ctrl c).queue.zip (List.range (s.ctrl c).queue.length)).filter (fun z => s.bundleDue z.1)) = some y →
    ∃ t, exec (.bundleStart c) s = .next t ∧ (t.ctrl c).queue = modAt (fun b => { b with started := true }) (s.ctrl c).queue y.2 ∧
      t.rd F.SC_STAT_BUSY 0 c = 1 ∧ ∀ a, t.byteAt a = s.byteAt a) ∧
  (∀ (c : Fin 8) (s : State) (b : Bundle), (s.ctrl c).queue.find? (fun x => x.started) = some b → b.whenK = 1 →
    ∃ t, exec (.bundleComplete c) s = .next t ∧ (t.ctrl c).queue = (s.ctrl c).queue.filter (fun x => !x.started) ∧
      t.rd F.SC_STAT_BUSY 0 c = 0 ∧ t.outs.length = s.outs.length + b.nwr ∧ bitOf (t.rd F.REG_EVT_RAW 0x0B8 0) 0 = true) ∧
  (∀ (c : Fin 8) (i : Fin 32) (s : State) (b : Bundle), (s.ctrl c).queue.find? (fun x => x.started && decide (i.val < x.nwr)) = some b →
    ∃ t, exec (.bundleNack c i) s = .next t ∧ (t.ctrl c).queue = (s.ctrl c).queue.filter (fun x => !x.started) ∧
      t.rd F.SC_STAT_BUSY 0 c = 0 ∧ t.outs.length = s.outs.length + (i + 1) ∧
      t.rd F.SC_NACK_CNT 0 c = satInc (s.rd F.SC_NACK_CNT 0 c) % 2 ^ 32 ∧ bitOf (t.rd F.REG_EVT_RAW 0x0B8 0) 1 = true) ∧
  (∀ (c : Fin 8) (addr : BitVec 7) (payload : List Byte) (s : State), s.pageOn 0x0B8 = true → s.inReset 0x0B8 = false →
    s.rd F.SC_CFG_MODE 0 c = 2 → s.cam.ibi.length < 16 →
    ∃ t, exec (.ibiReceive c addr payload) s = .next t ∧ t.cam.ibi = s.cam.ibi ++ [(addr.toNat, payload.take 4, s.gt)] ∧
      bitOf (t.rd F.REG_EVT_RAW 0x0B8 0) 3 = true ∧ Changes s t [(F.REG_EVT_RAW, 0x0B8, 0)]) ∧
  (∀ (c : Fin 8) (addr : BitVec 7) (payload : List Byte) (s : State), s.pageOn 0x0B8 = true → s.inReset 0x0B8 = false →
    s.rd F.SC_CFG_MODE 0 c = 2 → 16 ≤ s.cam.ibi.length →
    ∃ t, exec (.ibiReceive c addr payload) s = .next t ∧ t.cam = s.cam ∧
      t.rd F.SC_IBI_LOST_CNT 0 0 = satInc (s.rd F.SC_IBI_LOST_CNT 0 0) % 2 ^ 32 ∧
      Changes s t [(F.SC_IBI_LOST_CNT, 0, 0), (F.REG_EVT_RAW, 0x0B8, 0)])

/-- R336, R339a, R344 to R349, R353, R355, R358, R362. -/
def Obligations.SieveStripesAndBuffers : Prop :=
  (∀ (v : Fin 2) (s : State) (x : SvCtx) (f : Frame), s.pageOn (svPage v) = true → s.inReset (svPage v) = false →
    s.rdB F.SV_CTRL_EN v 0 = true → s.rdB F.SV_CTRL_HALT v 0 = false → (s.svInst v).running = none → s.md.notifies = [] →
    leastPair (fun (y : SvCtx × Frame) => (y.2.capGt, y.1.num))
      (s.svScan.sv.ctxs.filterMap (fun z => (s.svScan.stripeReady v z).map (fun g => (z, g)))) = some (x, f) →
    (x.run.isSome = true ∨ s.gt < f.ageGt) →
    ∃ t, exec (.stripeStart v) s = .next t ∧ (t.svInst v).running = some x.num ∧ (t.svInst v).startGt = s.gt ∧
      t.rd F.SV_STAT_BUSY v 0 = 1) ∧
  (∀ (v : Fin 2) (c k : Nat) (s : State) (f : Frame), (s.svInst v).running = some c →
    (s.svCtx v c).next.bind (fun n => (s.frame n.1).map (fun g => (g, n.2))) = some (f, k) → 0 < s.unstored v c k f →
    (s.svInst v).startGt + s.rd F.SV_CFG_STALL_MAX v 0 < s.gt →
    ∃ t, exec (.stripeSuspend v) s = .next t ∧ (t.svInst v).running = none ∧ (t.svCtx v c).suspended = true ∧
      t.rd F.SV_SUSPEND_CNT v 0 = satInc (s.rd F.SV_SUSPEND_CNT v 0) % 2 ^ F.SV_SUSPEND_CNT.width ∧
      bitOf (t.rd F.REG_EVT_RAW (svPage v) 0) 4 = true ∧ t.rd F.SV_STAT_BUSY v 0 = 0) ∧
  (∀ (v : Fin 2) (c : Nat) (s : State) (r : SvRun) (f : Frame), (s.svInst v).running = some c → (s.svCtx v c).run = some r →
    s.frame r.frame = some f → s.unstored v c r.stripe f = 0 → (s.stripeRows v c r.stripe).2.1 ≠ s.svH v c →
    ∃ t, exec (.stripeDelivered v) s = .next t ∧ (t.svInst v).running = none ∧
      (t.svCtx v c).run.map (fun y => (y.frame, y.stripe)) = some (r.frame, r.stripe + 1) ∧ t.rd F.SV_STAT_BUSY v 0 = 0) ∧
  (∀ (v : Fin 2) (w : Word) (s : State), s.live (svPage v) = true →
    ∃ t, exec (.sieveRelCmd v w) s = .next t ∧
      (∀ b ∈ t.sv.bufs, b.inst = v → b.ctx = bitsOf w.toNat 0 6 → b.out = bitsOf w.toNat 8 2 → b.frame = s.rd F.SV_REL_FID v 0 →
        bitOf b.refs 2 = false) ∧ Changes s t []) ∧
  (∀ (v : Fin 2) (c : Fin 64) (o : Fin 3) (i : Fin 16) (s : State),
    ∃ t, exec (.hostHoldExpire v c o i) s = .next t ∧
      (∀ b ∈ t.sv.bufs, b.inst = v → b.ctx = c → b.out = o → b.idx = i → b.hostTill ≤ s.gt → bitOf b.refs 2 = false) ∧ Changes s t []) ∧
  (∀ (v : Fin 2) (w : Word) (s : State), s.live (svPage v) = true →
    ∃ t, exec (.pbNextWrite v w) s = .next t ∧ t.rd F.SV_PB_NEXT_HI v (s.rd F.SV_CTX_SEL v 0) = w.toNat % 2 ^ F.SV_PB_NEXT_HI.width ∧
      t.rd F.SV_CTX_STAT_PB_PENDING v (s.rd F.SV_CTX_SEL v 0) = 1 ∧
      (t.svCtx v (s.rd F.SV_CTX_SEL v 0)).pend =
        some ⟨s.rd F.SV_PB_NEXT_LO v (s.rd F.SV_CTX_SEL v 0) + w.toNat % 65536 * 2 ^ 32, s.rd F.SV_CTX_COMMIT_MODE v (s.rd F.SV_CTX_SEL v 0),
          s.rd F.SV_COMMIT_GT v (s.rd F.SV_CTX_SEL v 0), s.rd F.SV_COMMIT_FID v (s.rd F.SV_CTX_SEL v 0)⟩ ∧
      ((s.svCtx v (s.rd F.SV_CTX_SEL v 0)).pend.isSome = true →
        t.rd F.SV_PB_REPLACED_CNT v 0 = satInc (s.rd F.SV_PB_REPLACED_CNT v 0) % 2 ^ F.SV_PB_REPLACED_CNT.width) ∧
      Changes s t [(F.SV_PB_NEXT_HI, v, s.rd F.SV_CTX_SEL v 0), (F.SV_CTX_STAT_PB_PENDING, v, s.rd F.SV_CTX_SEL v 0),
        (F.SV_PB_REPLACED_CNT, v, 0)]) ∧
  (∀ (v : Fin 2) (w : Word) (c : Nat) (s u : State), s.live (svPage v) = true → s.rd F.SV_CTX_SEL v 0 = c → s.rdB F.SV_CTX_CFG_EN v c = false →
    w.toNat % 2 = 1 → s.md.notifies = [] → u = (s.lockCheck (svPage v) F.SV_CTX_CFG_EN.ofs w.toNat).svCfg v c w.toNat →
    u.streamFree v c = true → u.saveOk v c = true →
    (u.goodParams v c (u.rd F.SV_PB_NEXT_LO v c + u.rd F.SV_PB_NEXT_HI v c * 2 ^ 32)).isSome = true →
    ∃ t, exec (.sieveCtxEnable v w) s = .next t ∧ t.rd F.SV_CTX_CFG_EN v c = 1 ∧ (t.svCtx v c).wait = [] ∧ (t.svCtx v c).run = none ∧
      some (t.svCtx v c).params = u.goodParams v c (u.rd F.SV_PB_NEXT_LO v c + u.rd F.SV_PB_NEXT_HI v c * 2 ^ 32)) ∧
  (∀ (v : Fin 2) (w : Word) (c : Nat) (s u : State), s.live (svPage v) = true → s.rd F.SV_CTX_SEL v 0 = c → s.rdB F.SV_CTX_CFG_EN v c = false →
    w.toNat % 2 = 1 → s.md.notifies = [] → u = (s.lockCheck (svPage v) F.SV_CTX_CFG_EN.ofs w.toNat).svCfg v c w.toNat →
    (u.streamFree v c = false ∨ u.saveOk v c = false) →
    ∃ t, exec (.sieveCtxEnable v w) s = .next t ∧ t.rd F.SV_CTX_STAT_CFG_ERR v c = 1 ∧ t.rdB F.SV_CTX_CFG_EN v c = false ∧
      bitOf (t.rd F.REG_EVT_RAW (svPage v) 0) 6 = true ∧ t.sv = s.sv) ∧
  (∀ (v : Fin 2) (w : Word) (c : Nat) (s : State), s.live (svPage v) = true → s.rd F.SV_CTX_SEL v 0 = c → s.rdB F.SV_CTX_CFG_EN v c = true →
    w.toNat % 2 = 0 → s.md.notifies = [] → (s.svCtx v c).run = none → (s.svCtx v c).wait = [] →
    ∃ t, exec (.sieveCtxEnable v w) s = .next t ∧ t.rd F.SV_CTX_CFG_EN v c = 0 ∧ t.sv = s.sv)

/-- R366, R375 to R388, R390, R393 to R396 (queues and programs without notify writes, so that no register write follows). -/
def Obligations.MandolineProgramsAndJobs : Prop :=
  (∀ (p : Fin 16) (v : Word) (s u : State) (g : MdProg), s.live 0x078 = true → s.rdB F.MD_PG_CTRL_EN 0 p = false → v.toNat % 2 = 1 →
    s.md.notifies = [] →
    u = ((((((s.lockWord F.MD_PG_CTRL_EN 0 p v.toNat).wr F.MD_PG_CTRL_SIEVE 0 p (bitsOf v.toNat 1 1)).wr F.MD_PG_CTRL_CTX 0 p
      (bitsOf v.toNat 2 6)).wr F.MD_PG_CTRL_OUT 0 p (bitsOf v.toNat 8 2)).wr F.MD_PG_CTRL_NOTIFY_MODE 0 p (bitsOf v.toNat 10 2)).wr
      F.MD_PG_CTRL_STEP 0 p (bitsOf v.toNat 12 4)).wr F.MD_PG_CTRL_ORIGIN 0 p (bitsOf v.toNat 16 16) →
    (u.pgCheck p = .inl g →
      ∃ t, exec (.pgEnable p v) s = .next t ∧ t.rd F.MD_PG_CTRL_EN 0 p = 1 ∧
        t.rd F.MD_PG_STAT_NBANDS 0 p = u.nBands p g.shp.oh % 2 ^ F.MD_PG_STAT_NBANDS.width ∧ g ∈ t.md.progs ∧ ∀ a, t.byteAt a = s.byteAt a) ∧
    (∀ e, u.pgCheck p = .inr e →
      ∃ t, exec (.pgEnable p v) s = .next t ∧ t.rdB F.MD_PG_CTRL_EN 0 p = false ∧
        t.rd F.MD_PG_STAT_ERR_CODE 0 p = e % 2 ^ F.MD_PG_STAT_ERR_CODE.width ∧ t.md = s.md ∧ ∀ a, t.byteAt a = s.byteAt a)) ∧
  (∀ (p : Fin 16) (s : State), s.rdB F.MD_PG_CTRL_EN 0 p = true → s.rdB F.MD_PG_STAT_READY 0 p = false →
    ∃ t, exec (.pgReady p) s = .next t ∧ t.rd F.MD_PG_STAT_READY 0 p = 1 ∧ t.rd F.MD_PG_SEQ 0 p = 0 ∧
      bitOf (t.rd F.REG_EVT_RAW 0x078 0) 6 = true ∧
      Changes s t [(F.MD_PG_STAT_READY, 0, p), (F.MD_PG_SEQ, 0, p), (F.REG_EVT_RAW, 0x078, 0)]) ∧
  (∀ (s : State) (b : TBuf), s.mdOpen = true → s.nextBand = some b →
    ∃ t, exec .bandStart s = .next t ∧ t.md.cur = some (b.prog, b.frame) ∧ t.rd F.MD_STAT_BUSY 0 0 = 1 ∧
      Changes s t [(F.MD_STAT_BUSY, 0, 0), (F.MD_STAT_HALTED, 0, 0)]) ∧
  (∀ (p f : Nat) (s : State) (g : MdProg) (b : TBuf) (x : SvBuf), s.md.cur = some (p, f) → s.mdProg p = some g →
    s.tbufs.find? (fun y => y.prog == p && y.frame == f && y.write) = some b →
    s.svBufOf (s.mdSrc p).1 (s.mdSrc p).2.1 (s.mdSrc p).2.2 f = some x → s.rd F.MD_PG_CTRL_NOTIFY_MODE 0 p = 0 → s.md.notifies = [] →
    b.bands + 1 < s.rd F.MD_PG_STAT_NBANDS 0 p → s.md.dropAfter = false →
    ∃ t, exec .bandDone s = .next t ∧ t.md.cur = none ∧
      (t.tbufs.find? (fun y => y.prog == p && y.frame == f && y.write)).map (fun y => (y.bands, y.status)) = some (b.bands + 1, 0) ∧
      t.rd F.MD_STAT_BUSY 0 0 = 0 ∧ bitOf (t.rd F.REG_EVT_RAW 0x078 0) 0 = true) ∧
  (∀ (p : Fin 16) (v : Word) (s : State), s.live 0x078 = true →
    ∃ t, exec (.pgRel p v) s = .next t ∧ (∀ b ∈ t.tbufs, b.prog = p → b.frame = v.toNat → b.hold = false) ∧
      t.tbufs.length = s.tbufs.length ∧ Changes s t []) ∧
  (∀ (p i : Fin 16) (s : State),
    ∃ t, exec (.pgHoldExpire p i) s = .next t ∧ (∀ b ∈ t.tbufs, b.prog = p → b.idx = i → b.holdTill ≤ s.gt → b.hold = false) ∧
      t.tbufs.length = s.tbufs.length ∧ Changes s t []) ∧
  (∀ (id d : Nat) (s : State) (c : Cmd), s.cmd id = some c → c.started = none → c.phase ≠ .running → s.bindShed c = some d →
    ∃ t, exec (.bindShed id) s = .next t ∧ t.cmd id = none ∧
      t.rd F.MD_BIND_SHED_CNT 0 0 = satInc (s.rd F.MD_BIND_SHED_CNT 0 0) % 2 ^ F.MD_BIND_SHED_CNT.width) ∧
  (∀ (q : Fin 4) (v : Word) (s : State), s.live 0x078 = true →
    ∃ t, exec (.jqTail q v) s = .next t ∧
      ((v.toNat % 65536 + 65536 - s.rd F.MD_JQ_TAIL 0 q) % 65536 = 0 → t = s) ∧
      ((v.toNat % 65536 + 65536 - s.rd F.MD_JQ_TAIL 0 q) % 65536 ≠ 0 →
        (v.toNat % 65536 + 65536 - s.rd F.MD_JQ_TAIL 0 q) % 65536
          ≤ s.jqSize q - (s.rd F.MD_JQ_TAIL 0 q + 65536 - s.rd F.MD_JQ_HEAD 0 q) % 65536 →
        t.rd F.MD_JQ_TAIL 0 q = v.toNat % 2 ^ F.MD_JQ_TAIL.width ∧ Changes s t [(F.MD_JQ_TAIL, 0, q)]) ∧
      (s.jqSize q - (s.rd F.MD_JQ_TAIL 0 q + 65536 - s.rd F.MD_JQ_HEAD 0 q) % 65536
          < (v.toNat % 65536 + 65536 - s.rd F.MD_JQ_TAIL 0 q) % 65536 →
        t.rd F.MD_JOB_ERR_CNT 0 0 = satInc (s.rd F.MD_JOB_ERR_CNT 0 0) % 2 ^ F.MD_JOB_ERR_CNT.width ∧
          Changes s t [(F.MD_JOB_ERR_CNT, 0, 0), (F.REG_EVT_RAW, 0x078, 0)])) ∧
  (∀ (q : Fin 4) (s u : State) (bs : List Byte), s.rdB F.MD_CTRL_EN 0 0 = true → s.rdB F.MD_CTRL_HALT 0 0 = false →
    s.rdB F.MD_JQ_CFG_EN 0 q = true → s.rd F.MD_JQ_HEAD 0 q ≠ s.rd F.MD_JQ_TAIL 0 q → s.md.jobs.all (fun j => j.queue != q.val) = true →
    s.unitRead (s.jqEntry q) 64 = (u, .inl bs) →
    ((s.frame (leAt bs 48 4)).map (fun f => f.standing) = some 0 → exec (.jobStart q) s = .next s) ∧
    ((s.frame (leAt bs 48 4)).map (fun f => f.standing) ≠ some 0 →
      ∃ t, exec (.jobStart q) s = .next t ∧
        (t.md.jobs.find? (fun j => j.queue == q.val)).map (fun j => (j.entry, j.next)) = some (bs, 0) ∧
        ((s.frame (leAt bs 48 4)).map (fun f => f.standing) = some 2 →
          (t.md.jobs.find? (fun j => j.queue == q.val)).map (fun j => j.result) = some 3))) ∧
  (∀ (s : State) (j : MdJob), s.nextItem 1 = some j → (s.jobBox j j.next = none ∨ j.places.getD j.next none = none) →
    ∃ t, exec .crop s = .next t ∧ t.md.turn = j.queue ∧
      (t.md.jobs.find? (fun x => x.queue == j.queue)).map (fun x => (x.next, x.codes)) = some (j.next + 1, j.codes ++ [8]) ∧ Changes s t []) ∧
  (∀ (s : State) (j : MdJob) (b : Box) (pl : Nat × Nat), s.nextItem 1 = some j → s.jobBox j j.next = some b →
    j.places.getD j.next none = some pl →
    ∃ t, exec .crop s = .next t ∧ t.md.turn = j.queue ∧
      (t.md.jobs.find? (fun x => x.queue == j.queue)).map (fun x => decide (x.next = j.next + 1) || decide (x.result ≠ 1)) = some true) ∧
  (∀ (s u : State) (j : MdJob) (bs : List Byte), s.nextItem 2 = some j →
    s.unitRead (j.e 16 8 + leAt j.list (8 * j.next) 4) (leAt j.list (8 * j.next + 4) 4) = (u, .inl bs) →
    ∃ t, exec .decodeRecord s = .next t ∧ t.md.turn = j.queue ∧
      t.rd F.MD_DEC_REC_CNT 0 0 = satInc (u.rd F.MD_DEC_REC_CNT 0 0) % 2 ^ F.MD_DEC_REC_CNT.width ∧
      (t.md.jobs.find? (fun x => x.queue == j.queue)).map (fun x => decide (x.next = j.next + 1) || decide (x.result ≠ 1)) = some true) ∧
  (∀ (q : Fin 4) (s : State) (j : MdJob), s.md.jobs.find? (fun x => x.queue == q.val) = some j → (j.result = 1 → j.count ≤ j.next) →
    s.rd F.MD_JQ_CFG_NOTIFY_MODE 0 q = 0 → s.md.notifies = [] →
    ∃ t, exec (.jobEnd q) s = .next t ∧ t.md.jobs.find? (fun x => x.queue == q.val) = none ∧
      t.rd F.MD_JQ_DONE 0 q = (s.rd F.MD_JQ_DONE 0 q + 1) % 2 ^ F.MD_JQ_DONE.width ∧
      t.rd F.MD_JQ_HEAD 0 q = (s.rd F.MD_JQ_HEAD 0 q + 1) % 2 ^ F.MD_JQ_HEAD.width ∧ bitOf (t.rd F.REG_EVT_RAW 0x078 0) 1 = true)

/-- R398, R399, R401 to R407, R420. -/
def Obligations.OrbitSolves : Prop :=
  (∀ (s : State) (c : Cmd) (h lamps agents grid : List Byte), s.pageOn 0x07C = true → s.inReset 0x07C = false → s.rdB F.OB_CTRL_EN 0 0 = true →
    s.rdB F.OB_CTRL_HALT 0 0 = false → s.orb.running = none → s.orb.committing.length ≤ 1 →
    orbFirst (s.orb.queue.filterMap s.cmd) = some c → s.cmd c.id = some c → s.rd F.SK_STAT_ROLE 0 0 = 0 → s.cam.pages = [] →
    s.peek c.desc.arg 256 = some (h, false) → orbHdrOk h = true → orbRegionsOk h c.desc.argLen = true →
    s.peek (c.desc.arg + leAt h 0x48 4) (orbLamps h * 16) = some (lamps, false) →
    (List.range (orbLamps h)).all (fun i => orbLampOk (entryOf lamps 16 i)) = true → orbOutLen h ≤ c.desc.outLen →
    s.peek (c.desc.arg + leAt h 0x40 4) (orbAgents h * 576) = some (agents, false) →
    s.peek (c.desc.arg + leAt h 0x44 4) (if orbGridEn h then 2097152 else 0) = some (grid, false) →
    ∃ t, exec .solveStart s = .next t ∧ t.orb.running = some c.id ∧ t.orb.queue = s.orb.queue.filter (fun x => x != c.id) ∧
      t.orb.hdr = h ∧ t.orb.lamps = lamps ∧ t.orb.agents = agents ∧ t.orb.grid = grid ∧ t.rd F.OB_CUR_VALID 0 0 = 1 ∧
      t.rd F.OB_STAT_BUSY 0 0 = 1 ∧ (t.cmd c.id).map (fun y => y.started) = some (some s.now) ∧ ∀ a, t.byteAt a = s.byteAt a) ∧
  (∀ (ce : Bool) (id : Nat) (s : State) (c : Cmd), s.orb.running = some id → s.cmd id = some c →
    ∃ t, exec (.solveComplete ce false) s = .next t ∧ t.orb.running = none ∧ t.orb.committing = s.orb.committing ++ [id] ∧
      (t.cmd id).map (fun y => y.staged) = some (s.orbSolve id).bytes ∧ t.orb.zones = s.orb.zones ++ (s.orbSolve id).zones ∧
      t.rd F.OB_SOLVE_CNT 0 0 = satInc (s.rd F.OB_SOLVE_CNT 0 0) % 2 ^ 32 ∧ t.rd F.OB_STAT_BUSY 0 0 = 0 ∧ t.rd F.OB_CUR_VALID 0 0 = 0 ∧
      bitOf (t.rd F.REG_EVT_RAW 0x07C 0) 0 = true ∧ ∀ a, t.byteAt a = s.byteAt a) ∧
  (∀ (ce : Bool) (id : Nat) (s : State) (c : Cmd), s.orb.running = some id → s.cmd id = some c →
    ∃ t, exec (.solveComplete ce true) s = .next t ∧ t.orb.running = none ∧ t.cmd id = none)


/-- R471 to R486 (pages live; for composing, both layers disabled). -/
def Obligations.CompositorOutputs : Prop :=
  (∀ (o : Fin 8) (v : Word) (s u : State), s.live 0x0A0 = true → s.rdB F.CP_OC_CTRL_EN 0 o = false → v.toNat % 2 = 1 →
    u = (((((s.lockWord F.CP_OC_CTRL_EN 0 o v.toNat).wr F.CP_OC_CTRL_FMT 0 o (bitsOf v.toNat 1 1)).wr F.CP_OC_CTRL_SIEVE 0 o
      (bitsOf v.toNat 2 1)).wr F.CP_OC_CTRL_CTX 0 o (bitsOf v.toNat 3 6)).wr F.CP_OC_CTRL_OUT 0 o (bitsOf v.toNat 9 2)).wr
      F.CP_OC_CTRL_HOLD_MAX 0 o (bitsOf v.toNat 12 4) →
    (u.ocOk o = true →
      ∃ t, exec (.compOutputEnable o v) s = .next t ∧ t.rd F.CP_OC_CTRL_EN 0 o = 1 ∧ t.compOut o = { num := o, lastGt := s.gt } ∧
        ∀ a, t.byteAt a = s.byteAt a) ∧
    (u.ocOk o = false →
      ∃ t, exec (.compOutputEnable o v) s = .next t ∧ t.rdB F.CP_OC_CTRL_EN 0 o = false ∧ t.rd F.CP_OC_STAT_CFG_ERR 0 o = 1 ∧
        bitOf (t.rd F.REG_EVT_RAW 0x0A0 0) 6 = true ∧ t.vid = s.vid ∧ ∀ a, t.byteAt a = s.byteAt a)) ∧
  (∀ (o : Fin 8) (v : Word) (s : State), s.live 0x0A0 = true → s.rdB F.CP_OC_CTRL_EN 0 o = true → v.toNat % 2 = 0 →
    ∃ t, exec (.compOutputEnable o v) s = .next t ∧ t.rd F.CP_OC_CTRL_EN 0 o = 0 ∧ t.vid.waiting = s.vid.waiting.filter (fun p => p.out != o.val) ∧
      t.compOut o = { num := o } ∧ ∀ a, t.byteAt a = s.byteAt a) ∧
  (∀ (o : Fin 8) (v : Word) (s : State), s.live 0x0A0 = true →
    ∃ t, exec (.maskReload o v) s = .next t ∧ (t.compOut o).reload = (decide (v.toNat % 2 = 1) || (s.compOut o).reload) ∧ Changes s t []) ∧
  (∀ (o : Fin 8) (l : Fin 2) (v : Word) (s : State), s.live 0x0A0 = true →
    ∃ t, exec (.lyPost o l v) s = .next t ∧
      (t.compOut o).posted = (l.val, v.toNat % 2) :: (s.compOut o).posted.filter (fun p => p.1 != l.val) ∧
      t.rd F.CP_LY_STAT_POSTED 0 (lyIdx o l) = 1 ∧ ∀ a, t.byteAt a = s.byteAt a) ∧
  (∀ (o : Fin 8) (g : Nat) (s : State), s.pageOn 0x0A0 = true → s.inReset 0x0A0 = false → s.rdB F.CP_CTRL_EN 0 0 = true →
    s.rdB F.CP_OC_CTRL_EN 0 o = true → s.boundaryAt o = some g → (s.compOut o).lastGt < g →
    ∃ t, exec (.compositorBoundary o) s = .next t ∧ (t.compOut o).lastGt = g ∧ (t.compOut o).posted = [] ∧
      (∀ p ∈ t.vid.waiting, p.out = o → p.bGt = g) ∧
      ((s.vid.waiting.filter (fun p => p.out == o.val)).length ≠ 0 →
        t.rd F.CP_LATE_CNT 0 0 = satInc (s.rd F.CP_LATE_CNT 0 0) (s.vid.waiting.filter (fun p => p.out == o.val)).length % 2 ^ F.CP_LATE_CNT.width ∧
        bitOf (t.rd F.REG_EVT_RAW 0x0A0 0) 5 = true) ∧ ∀ a, t.byteAt a = s.byteAt a) ∧
  (∀ (o : Fin 8) (g i : Nat) (b : SvBuf) (s : State), s.pageOn 0x0A0 = true → s.inReset 0x0A0 = false → s.rdB F.CP_CTRL_EN 0 0 = true →
    s.rdB F.CP_OC_CTRL_EN 0 o = true → s.boundaryAt o = some g → (s.compOut o).lastGt < g → s.rd F.CP_MASK_CFG_MODE 0 o = 0 →
    s.rdB F.CP_LY_CFG_EN 0 (lyIdx o 0) = false → s.rdB F.CP_LY_CFG_EN 0 (lyIdx o 1) = false → s.vid.waiting = [] →
    (s.candidatesOf o).head? = some b → s.ocFree o = some i →
    ∃ t, exec (.compositorBoundary o) s = .next t ∧
      t.vid.waiting = [{ out := o, kind := 0, bGt := g, buf := i, base := some (b.inst, b.ctx, b.out, b.idx), frame := b.frame, capGt := b.capGt }] ∧
      (t.compOut o).held = 0 ∧ t.rd F.CP_BASE_SKIP_CNT 0 0 = satInc (s.rd F.CP_BASE_SKIP_CNT 0 0) (s.sv.bufs.filter (fun x =>
        bitOf x.refs 1 && x.inst == (s.ocSrc o).1 && x.ctx == (s.ocSrc o).2.1 && x.out == (s.ocSrc o).2.2 && decide (x.capGt < b.capGt)
          && (s.frame x.frame).any (fun f => f.standing == 1))).length % 2 ^ F.CP_BASE_SKIP_CNT.width) ∧
  (∀ (o : Fin 8) (g : Nat) (p : CompPic) (s : State), s.pageOn 0x0A0 = true → s.inReset 0x0A0 = false → s.rdB F.CP_CTRL_EN 0 0 = true →
    s.rdB F.CP_OC_CTRL_EN 0 o = true → s.boundaryAt o = some g → (s.compOut o).lastGt < g → s.rd F.CP_MASK_CFG_MODE 0 o = 0 →
    s.vid.waiting = [] → s.candidatesOf o = [] → (s.compOut o).prev = some p → (s.compOut o).held < s.rd F.CP_OC_CTRL_HOLD_MAX 0 o →
    ∃ t, exec (.compositorBoundary o) s = .next t ∧ (t.compOut o).held = (s.compOut o).held + 1 ∧
      t.rd F.CP_HELD_CNT 0 0 = satInc (s.rd F.CP_HELD_CNT 0 0) % 2 ^ F.CP_HELD_CNT.width ∧ bitOf (t.rd F.REG_EVT_RAW 0x0A0 0) 1 = true ∧
      t.vid.waiting = []) ∧
  (∀ (o : Fin 8) (g : Nat) (s : State), s.pageOn 0x0A0 = true → s.inReset 0x0A0 = false → s.rdB F.CP_CTRL_EN 0 0 = true →
    s.rdB F.CP_OC_CTRL_EN 0 o = true → s.boundaryAt o = some g → (s.compOut o).lastGt < g → s.rd F.CP_MASK_CFG_MODE 0 o = 0 →
    s.vid.waiting = [] → s.candidatesOf o = [] → (s.compOut o).prev = none →
    ∃ t, exec (.compositorBoundary o) s = .next t ∧
      (∀ i, s.ocFree o = some i → t.vid.waiting = [{ out := o, kind := 1, bGt := g, buf := i, blank := true }] ∧
        t.rd F.CP_BLANK_CNT 0 0 = satInc (s.rd F.CP_BLANK_CNT 0 0) % 2 ^ F.CP_BLANK_CNT.width ∧ bitOf (t.rd F.REG_EVT_RAW 0x0A0 0) 2 = true) ∧
      (s.ocFree o = none → t.vid.waiting = [] ∧ t.rd F.CP_POOL_SKIP_CNT 0 0 = satInc (s.rd F.CP_POOL_SKIP_CNT 0 0) % 2 ^ F.CP_POOL_SKIP_CNT.width ∧
        bitOf (t.rd F.REG_EVT_RAW 0x0A0 0) 4 = true)) ∧
  (∀ (p : CompPic) (s : State), s.pageOn 0x0A0 = true → s.inReset 0x0A0 = false → s.rdB F.CP_CTRL_EN 0 0 = true → s.vid.cur = none →
    leastBy (fun x : CompPic => x.bGt * 8 + x.out) s.vid.waiting = some p →
    ∃ t, exec .pictureStart s = .next t ∧ t.vid.cur = some p ∧ t.vid.waiting = s.vid.waiting.filter (fun x => x != p) ∧
      (t.compOut p.out).prev = some p ∧ t.rd F.CP_STAT_BUSY 0 0 = 1 ∧
      (p.base = none → ∀ ps, s.places (s.picAddr p.out p.buf) (s.blankBytes p.out).length = some ps → ps.any readOnlyPlace = false →
        (ps.Nodup → ps.map t.byteAt = s.blankBytes p.out) ∧ ∀ a, a ∉ ps → t.byteAt a = s.byteAt a)) ∧
  (∀ (p : CompPic) (s : State), s.vid.cur = some p →
    ∃ t, exec .pictureDone s = .next t ∧ t.vid.cur = none ∧ t.rd F.CP_STAT_BUSY 0 0 = 0 ∧
      t.vid.holds = s.vid.holds.filter (fun x => x.out != p.out) ∧
      (∀ q, p.base = some q → (∀ b ∈ t.sv.bufs, b.inst = q.1 → b.ctx = q.2.1 → b.out = q.2.2.1 → b.idx = q.2.2.2 → b.frame = p.frame →
          bitOf b.refs 1 = false) ∧
        t.rd F.CP_COMPOSED_CNT 0 0 = satInc (s.rd F.CP_COMPOSED_CNT 0 0) % 2 ^ F.CP_COMPOSED_CNT.width ∧
        bitOf (t.rd F.REG_EVT_RAW 0x0A0 0) 0 = true) ∧ ∀ a, t.byteAt a = s.byteAt a)

/-- R487 to R494. -/
def Obligations.EncoderSessions : Prop :=
  (∀ (n : Fin 8) (v : Word) (s u : State), s.live 0x0A1 = true → s.rdB F.EN_ES_CFG_EN 0 n = false → v.toNat % 2 = 1 →
    u = (((((s.lockWord F.EN_ES_CFG_EN 0 n v.toNat).wr F.EN_ES_CFG_CODEC 0 n (bitsOf v.toNat 1 3)).wr F.EN_ES_CFG_OUTPUT 0 n
      (bitsOf v.toNat 4 3)).wr F.EN_ES_CFG_CAVLC 0 n (bitsOf v.toNat 7 1)).wr F.EN_ES_CFG_LEVEL_IDC 0 n (bitsOf v.toNat 8 8)).wr
      F.EN_ES_CFG_IDR_PERIOD 0 n (bitsOf v.toNat 16 10) →
    (u.esOk n = true →
      ∃ t, exec (.encSessionEnable n v) s = .next t ∧ t.rd F.EN_ES_CFG_EN 0 n = 1 ∧ t.encSes n = { num := n } ∧ (t.encSes n).needIdr = true ∧
        ∀ a, t.byteAt a = s.byteAt a) ∧
    (u.esOk n = false →
      ∃ t, exec (.encSessionEnable n v) s = .next t ∧ t.rdB F.EN_ES_CFG_EN 0 n = false ∧ t.rd F.EN_ES_STAT_CFG_ERR 0 n = 1 ∧
        bitOf (t.rd F.REG_EVT_RAW 0x0A1 0) 4 = true ∧ t.vid = s.vid ∧ ∀ a, t.byteAt a = s.byteAt a)) ∧
  (∀ (n : Fin 8) (v : Word) (s : State), s.live 0x0A1 = true → s.rdB F.EN_ES_CFG_EN 0 n = true → v.toNat % 2 = 0 →
    ∃ t, exec (.encSessionEnable n v) s = .next t ∧ t.rd F.EN_ES_CFG_EN 0 n = 0 ∧ t.encSes n = { num := n } ∧
      t.rd F.EN_ES_STAT_QUEUED 0 n = 0 ∧ ∀ a, t.byteAt a = s.byteAt a) ∧
  (∀ (n : Fin 8) (v : Word) (s : State), s.live 0x0A1 = true → v.toNat % 2 = 1 →
    ∃ t, exec (.forceIdr n v) s = .next t ∧ t.encSes n = { s.encSes n with needIdr := true } ∧ Changes s t [(F.EN_ES_STAT_QUEUED, 0, n)]) ∧
  (∀ (n : Fin 8) (p : CompPic) (rest : List CompPic) (s : State), s.pageOn 0x0A1 = true → s.inReset 0x0A1 = false →
    s.rdB F.EN_CTRL_EN 0 0 = true → s.rdB F.EN_ES_CFG_EN 0 n = true → s.vid.sessions.all (fun x => x.coding.isNone) = true →
    (s.encSes n).queue = p :: rest →
    ∃ t, exec (.encodeStart n) s = .next t ∧ (t.encSes n).coding = some (p, s.auType n) ∧ (t.encSes n).queue = rest ∧
      (t.encSes n).needIdr = false ∧ (t.encSes n).since = (if s.auType n = 2 then (s.encSes n).since + 1 else 1) ∧
      t.rd F.EN_ES_STAT_QUEUED 0 n = rest.length % 2 ^ F.EN_ES_STAT_QUEUED.width ∧ Changes s t [(F.EN_ES_STAT_QUEUED, 0, n)]) ∧
  (∀ (n : Fin 8) (p : CompPic) (s : State), s.pageOn 0x0A1 = true → s.inReset 0x0A1 = false → s.rdB F.EN_CTRL_EN 0 0 = true →
    s.rdB F.EN_ES_CFG_EN 0 n = true → s.vid.sessions.all (fun x => x.coding.isNone) = true → (s.encSes n).queue = [] → s.vid.cur = some p →
    p.out = s.rd F.EN_ES_CFG_OUTPUT 0 n → (s.encSes n).early = none →
    ∃ t, exec (.encodeStart n) s = .next t ∧ (t.encSes n).coding = some (p, s.auType n) ∧ (t.encSes n).early = some p.bGt ∧
      Changes s t [(F.EN_ES_STAT_QUEUED, 0, n)]) ∧
  (∀ (n : Fin 8) (len : BitVec 24) (qp : BitVec 8) (p : CompPic) (ty size pos pad need : Nat) (s : State),
    (s.encSes n).coding = some (p, ty) → (s.encSes n).early = none → size = s.rd F.EN_BS_SIZE 0 n * 1024 → pos = s.rd F.EN_BS_WR 0 n % size →
    need = ceilDiv (32 + len.toNat) 32 * 32 → pad = (if size < pos + 32 + len.toNat then size - pos else 0) →
    (pad + need ≤ size - s.bsUsed n (s.rd F.EN_BS_RD 0 n) →
      ∃ t, exec (.encodeDone n len qp) s = .next t ∧ (t.encSes n).coding = none ∧ (t.encSes n).dropped = false ∧
        t.rd F.EN_BS_WR 0 n = (s.rd F.EN_BS_WR 0 n + pad + need) % 2 ^ F.EN_BS_WR.width ∧
        t.rd F.EN_AU_CNT 0 0 = satInc (s.rd F.EN_AU_CNT 0 0) % 2 ^ F.EN_AU_CNT.width ∧ bitOf (t.rd F.REG_EVT_RAW 0x0A1 0) 0 = true) ∧
    (size - s.bsUsed n (s.rd F.EN_BS_RD 0 n) < pad + need →
      ∃ t, exec (.encodeDone n len qp) s = .next t ∧ (t.encSes n).coding = none ∧ (t.encSes n).needIdr = true ∧ (t.encSes n).dropped = true ∧
        t.rd F.EN_BS_WR 0 n = s.rd F.EN_BS_WR 0 n ∧
        t.rd F.EN_AU_DROP_CNT 0 0 = satInc (s.rd F.EN_AU_DROP_CNT 0 0) % 2 ^ F.EN_AU_DROP_CNT.width ∧
        bitOf (t.rd F.REG_EVT_RAW 0x0A1 0) 1 = true)) ∧
  (∀ (n : Fin 8) (v : Word) (s : State), s.live 0x0A1 = true →
    (s.bsUsed n v.toNat ≤ s.rd F.EN_BS_SIZE 0 n * 1024 →
      ∃ t, exec (.bsRdWrite n v) s = .next t ∧ t.rd F.EN_BS_RD 0 n = v.toNat ∧ Changes s t [(F.EN_BS_RD, 0, n)]) ∧
    (s.rd F.EN_BS_SIZE 0 n * 1024 < s.bsUsed n v.toNat →
      ∃ t, exec (.bsRdWrite n v) s = .next t ∧ t.rd F.EN_BS_RD 0 n = s.rd F.EN_BS_RD 0 n ∧
        t.rd F.EN_BS_ERR_CNT 0 0 = satInc (s.rd F.EN_BS_ERR_CNT 0 0) % 2 ^ F.EN_BS_ERR_CNT.width ∧ bitOf (t.rd F.REG_EVT_RAW 0x0A1 0) 3 = true ∧
        Changes s t [(F.EN_BS_ERR_CNT, 0, 0), (F.REG_EVT_RAW, 0x0A1, 0)]))

/-- R498 to R515, R517 to R519. -/
def Obligations.PilotAudio : Prop :=
  (∀ (rate at_ : Nat) (s : State), s.pil.rateReq = some (rate, at_) → s.pwr.pilotOn = true → s.inReset 0x081 = false →
    rate ≠ s.rd F.PA_STAT_RATE 0 0 → at_ + 1000000 ≤ s.pil.t0 + s.pil.done / 160 * 160 * 62500 →
    (∀ f, s.pil.fade = some f → f + 320 ≤ s.pil.done / 160 * 160) →
    ∃ t, exec .pdmRateChange s = .next t ∧ t.pil = { s.pil with rateReq := none, fade := some (s.pil.done / 160 * 160) } ∧
      t.rd F.PA_STAT_RATE 0 0 = rate % 2 ^ F.PA_STAT_RATE.width ∧ t.rd F.PA_STAT_XFADE 0 0 = 1 ∧
      t.rd F.PA_XFADE_CNT 0 0 = satInc (s.rd F.PA_XFADE_CNT 0 0) % 2 ^ F.PA_XFADE_CNT.width ∧
      Changes s t [(F.PA_STAT_RATE, 0, 0), (F.PA_STAT_XFADE, 0, 0), (F.PA_XFADE_CNT, 0, 0)]) ∧
  (∀ (f : Nat) (s : State), s.pil.fade = some f → s.rdB F.PA_STAT_XFADE 0 0 = true → f + 320 ≤ s.pil.done →
    ∃ t, exec .xfadeEnd s = .next t ∧ t.rd F.PA_STAT_XFADE 0 0 = 0 ∧ bitOf (t.rd F.REG_EVT_RAW 0x081 0) 2 = true ∧
      Changes s t [(F.PA_STAT_XFADE, 0, 0), (F.REG_EVT_RAW, 0x081, 0)]) ∧
  (∀ s : State, s.paOn = true → 160 * s.pil.frame + 400 ≤ s.pil.done →
    ∃ t, exec .featureFrame s = .next t ∧ t.pil.frame = s.pil.frame + 1 ∧
      t.pil.feats = ((s.pil.frame, s.featRecord s.pil.frame) :: s.pil.feats).take 400 ∧ Changes s t []) ∧
  (∀ s : State, s.paOn = true → s.pwr.mainOn = true → s.rdB F.PA_CTRL_STREAM_EN 0 0 = true → s.pil.hop < s.pil.done / 160 →
    ∃ t, exec .audioStreamHop s = .next t ∧ t.pil.hop = s.pil.hop + 1 ∧ t.pil.strFrame = s.pil.frame ∧
      t.pil.catchUp = (s.pil.catchUp && decide (s.pil.hop + 1 < s.pil.done / 160)) ∧
      t.rd F.PA_STR_RAW_WR 0 0 = (s.rd F.PA_STR_RAW_WR 0 0
        + (s.hopSamples s.pil.hop (s.pil.catchUp && decide (s.pil.hop + 1 < s.pil.done / 160))).length) % 2 ^ F.PA_STR_RAW_WR.width ∧
      t.rd F.PA_STR_FEAT_WR 0 0 = (s.rd F.PA_STR_FEAT_WR 0 0
        + (s.pil.feats.filter (fun x => decide (s.pil.strFrame ≤ x.1))).length) % 2 ^ F.PA_STR_FEAT_WR.width) ∧
  (∀ (k : Fin 2) (v : Word) (len0 len1 : BitVec 19) (p : List Byte) (s : State), s.live 0x081 = true → bitOf v.toNat k = true →
    s.rdB (simRunFld k) 0 0 = false →
    p = s.bytesAt (pilotPlace (if k.val = 0 then s.rd F.PA_SIM_PROG0 0 0 else s.rd F.PA_SIM_PROG1 0 0))
      (if k.val = 0 then len0.toNat else len1.toNat) →
    (∀ g, simHeader p k = some g →
      ∃ t, exec (.simmerStart v len0 len1) s = .next t ∧ t.rd (simRunFld k) 0 0 = 1 ∧
        t.pil.progs.find? (fun x => x.slot == k.val) = some { g with last := s.pil.done / 160 } ∧ ∀ a, t.byteAt a = s.byteAt a) ∧
    (simHeader p k = none →
      ∃ t, exec (.simmerStart v len0 len1) s = .next t ∧ t.rdB (simRunFld k) 0 0 = false ∧ t.rd (simErrFld k) 0 0 = 1 ∧
        ∀ a, t.byteAt a = s.byteAt a)) ∧
  (∀ (k : Fin 2) (v : Word) (len0 len1 : BitVec 19) (s : State), s.live 0x081 = true → bitOf v.toNat k = false → s.rdB (simRunFld k) 0 0 = true →
    ∃ t, exec (.simmerStart v len0 len1) s = .next t ∧ t.rd (simRunFld k) 0 0 = 0 ∧ t.pil.progs.find? (fun x => x.slot == k.val) = none) ∧
  (∀ (k : Fin 2) (sc : List Byte) (g : SimProg) (s : State), s.pil.progs.find? (fun x => x.slot == k.val) = some g → s.paOn = true →
    g.last < s.pil.done / 160 / g.eval * g.eval → g.win ≤ s.pil.feats.length →
    ∃ t, exec (.simmerEval k true sc) s = .next t ∧ t.rd F.PA_SIM_OVERRUN_CNT 0 0 = satInc (s.rd F.PA_SIM_OVERRUN_CNT 0 0) % 2 ^ F.PA_SIM_OVERRUN_CNT.width ∧
      t.pil.evals = s.pil.evals ∧ Changes s t [(F.PA_SIM_OVERRUN_CNT, 0, 0)]) ∧
  (∀ (v : Byte) (sc : List Byte) (g : SimProg) (s : State), s.pil.progs.find? (fun x => x.slot == 0) = some g → s.paOn = true →
    g.last < s.pil.done / 160 / g.eval * g.eval → g.win ≤ s.pil.feats.length → v.toNat < s.rd F.PA_DET_CFG_DET_THR 0 0 →
    v.toNat < s.rd F.PA_DET_CFG_ARM_THR 0 0 →
    ∃ t, exec (.simmerEval 0 false (v :: sc)) s = .next t ∧ t.pil.evals = s.pil.evals + 1 ∧ t.pil.detRun = 0 ∧
      t.pil.lowRun = s.pil.lowRun + 1 ∧ (25 ≤ s.pil.lowRun + 1 → t.rd F.PA_STAT_IN_PROGRESS 0 0 = 0) ∧
      (s.pil.lowRun + 1 < 25 → t.rd F.PA_STAT_IN_PROGRESS 0 0 = s.rd F.PA_STAT_IN_PROGRESS 0 0) ∧ Changes s t [(F.PA_STAT_IN_PROGRESS, 0, 0)]) ∧
  (∀ (v : Byte) (sc : List Byte) (g : SimProg) (s : State), s.pil.progs.find? (fun x => x.slot == 0) = some g → s.paOn = true →
    g.last < s.pil.done / 160 / g.eval * g.eval → g.win ≤ s.pil.feats.length → s.rd F.PA_DET_CFG_DET_THR 0 0 ≤ v.toNat →
    s.pil.detRun + 1 = s.rd F.PA_DET_CFG_DET_N 0 0 → s.pil.lastDet = none →
    ∃ t, exec (.simmerEval 0 false (v :: sc)) s = .next t ∧ t.rd F.PA_DET_CNT 0 0 = satInc (s.rd F.PA_DET_CNT 0 0) % 2 ^ F.PA_DET_CNT.width ∧
      bitOf (t.rd F.REG_EVT_RAW 0x081 0) 0 = true ∧
      t.rd F.PA_WAKE_SAMP 0 0 = (160 * (s.pil.feats.head?.map (fun x => x.1)).getD 0 + 399) % 2 ^ F.PA_WAKE_SAMP.width ∧
      t.rd F.PA_STAT_IN_PROGRESS 0 0 = 0 ∧ t.pil.lastDet = some (s.pil.evals + 1) ∧ t.pil.offReq = none ∧
      (s.pil.offReq.isSome = true → t.rd F.PA_OFF_CANCEL_CNT 0 0 = satInc (s.rd F.PA_OFF_CANCEL_CNT 0 0) % 2 ^ F.PA_OFF_CANCEL_CNT.width ∧
        t.rd F.PWR_PS_STAT_BUSY 0 0 = 0) ∧
      (s.pil.frozen = none → t.rd F.PA_STAT_FROZEN 0 0 = 1 ∧
        t.pil.frozen.map (fun x => x.1) = some (160 * (s.pil.feats.head?.map (fun x => x.1)).getD 0 + 399)) ∧
      (s.pil.frozen.isSome = true → t.pil.frozen = s.pil.frozen ∧
        t.rd F.PA_DET_FROZEN_CNT 0 0 = satInc (s.rd F.PA_DET_FROZEN_CNT 0 0) % 2 ^ F.PA_DET_FROZEN_CNT.width) ∧ ∀ a, t.byteAt a = s.byteAt a) ∧
  (∀ (sc : List Byte) (g : SimProg) (cs : List Nat) (s : State), s.pil.progs.find? (fun x => x.slot == 1) = some g → s.paOn = true →
    g.last < s.pil.done / 160 / g.eval * g.eval → g.win ≤ s.pil.feats.length →
    cs = (List.range g.outs).filter (fun c => decide (bitsOf (s.rd F.PA_EV_THR 0 (c / 4)) (8 * (c % 4)) 8 ≤ (sc.map BitVec.toNat).getD c 0)
      && !(s.pil.scores[c]?).any (fun p => decide (bitsOf (s.rd F.PA_EV_THR 0 (c / 4)) (8 * (c % 4)) 8 ≤ p))) →
    s.pil.events.length + cs.length ≤ 32 →
    ∃ t, exec (.simmerEval 1 false sc) s = .next t ∧ t.pil.events = s.pil.events ++ cs.map (fun c => (c, (sc.map BitVec.toNat).getD c 0, s.gt)) ∧
      t.pil.scores = (List.range g.outs).map (fun c => (sc.map BitVec.toNat).getD c 0) ∧ (cs ≠ [] → bitOf (t.rd F.REG_EVT_RAW 0x081 0) 1 = true) ∧
      ∀ a, t.byteAt a = s.byteAt a)

/-- R513, R514, R516, R520, R521. -/
def Obligations.PilotFreezesExportsTimers : Prop :=
  (∀ s : State, s.freezeOver = true → s.pil.exporting.any (fun e => e.src == 0) = false →
    ∃ t, exec .freezeExpire s = .next t ∧ t.pil = { s.pil with frozen := none } ∧ t.rd F.PA_STAT_FROZEN 0 0 = 0 ∧
      t.rd F.PA_FREEZE_EXPIRE_CNT 0 0 = satInc (s.rd F.PA_FREEZE_EXPIRE_CNT 0 0) % 2 ^ F.PA_FREEZE_EXPIRE_CNT.width ∧
      bitOf (t.rd F.REG_EVT_RAW 0x081 0) 4 = true ∧
      Changes s t [(F.PA_STAT_FROZEN, 0, 0), (F.PA_FREEZE_EXPIRE_CNT, 0, 0), (F.REG_EVT_RAW, 0x081, 0)]) ∧
  (∀ (v : Word) (s : State), s.live 0x081 = true →
    ∃ t, exec (.freezeRel v) s = .next t ∧
      (v.toNat % 2 = 1 → t.pil = { s.pil with frozen := none } ∧ (s.pil.frozen.isSome = true → t.rd F.PA_STAT_FROZEN 0 0 = 0)) ∧
      (v.toNat % 2 = 0 → t = s) ∧ Changes s t [(F.PA_STAT_FROZEN, 0, 0)]) ∧
  (∀ (v : Word) (bs : List Byte) (s : State), s.live 0x081 = true → v.toNat % 2 = 1 → s.pil.exporting = none → s.exportBytes = some bs →
    s.exportTo (s.rd F.PA_EXP_DST 0 0) bs.length = true →
    ∃ t, exec (.exportStart v) s = .next t ∧
      t.pil.exporting = some { src := s.rd F.PA_EXP_CFG_SRC 0 0, dst := s.rd F.PA_EXP_DST 0 0, bytes := bs } ∧
      t.rd F.PA_EXP_STAT_BUSY 0 0 = 1 ∧ t.rd F.PA_EXP_STAT_DONE 0 0 = 0 ∧ t.rd F.PA_EXP_STAT_ERR 0 0 = 0 ∧
      Changes s t [(F.PA_EXP_STAT_BUSY, 0, 0), (F.PA_EXP_STAT_DONE, 0, 0), (F.PA_EXP_STAT_ERR, 0, 0)]) ∧
  (∀ (v : Word) (s : State), s.live 0x081 = true → v.toNat % 2 = 1 → s.pil.exporting = none →
    (∀ bs, s.exportBytes = some bs → s.exportTo (s.rd F.PA_EXP_DST 0 0) bs.length = false) →
    ∃ t, exec (.exportStart v) s = .next t ∧ t.pil = s.pil ∧ t.rd F.PA_EXP_STAT_BUSY 0 0 = 0 ∧ t.rd F.PA_EXP_STAT_DONE 0 0 = 1 ∧
      t.rd F.PA_EXP_STAT_ERR 0 0 = 1 ∧ bitOf (t.rd F.REG_EVT_RAW 0x081 0) 3 = true ∧
      Changes s t [(F.PA_EXP_STAT_BUSY, 0, 0), (F.PA_EXP_STAT_DONE, 0, 0), (F.PA_EXP_STAT_ERR, 0, 0), (F.REG_EVT_RAW, 0x081, 0)]) ∧
  (∀ (e : AudioExport) (s : State), s.pil.exporting = some e → s.exportTo e.dst e.bytes.length = true →
    ∃ t, exec .exportDone s = .next t ∧ t.pil.exporting = none ∧ t.rd F.PA_EXP_STAT_BUSY 0 0 = 0 ∧ t.rd F.PA_EXP_STAT_DONE 0 0 = 1 ∧
      t.rd F.PA_EXP_STAT_ERR 0 0 = 0 ∧ bitOf (t.rd F.REG_EVT_RAW 0x081 0) 3 = true ∧ (e.src = 0 → t.pil.frozen = none) ∧
      ∀ ps, s.places e.dst e.bytes.length = some ps → (ps.Nodup → ps.map t.byteAt = e.bytes) ∧ ∀ a, a ∉ ps → t.byteAt a = s.byteAt a) ∧
  (∀ (t0 : Nat) (s : State), s.pil.offReq = some t0 → (s.rdB F.PA_STAT_IN_PROGRESS 0 0 = false ∨ t0 + 1500000000 ≤ s.now) →
    ∃ t, exec .offDeferEnd s = .next t ∧ t.pil = { s.pil with offReq := none } ∧ Changes s t []) ∧
  (∀ (n : Fin 16) (s : State), s.pwr.pilotOn = true → s.rdB F.PL_TMR_CFG_EN 0 n = true → s.rdB F.PL_TMR_CFG_ACTION 0 n = false →
    s.rd F.PL_TMR_GT 0 n ≤ s.gt →
    ∃ t, exec (.pilotTimerWake n) s = .next t ∧ t.rd F.PL_TMR_CFG_EN 0 n = 0 ∧ bitOf (t.rd F.REG_EVT_RAW 0x080 0) 3 = true ∧
      (bitOf (s.rd F.PL_WAKE_EN 0 0) 2 = true → t.pwr.wake = true ∧ bitOf (t.rd F.PL_WAKE_CAUSE 0 0) 2 = true) ∧
      Changes s t [(F.PL_TMR_CFG_EN, 0, n), (F.PL_WAKE_CAUSE, 0, 0), (F.REG_EVT_RAW, 0x080, 0)]) ∧
  (∀ (n : Fin 16) (s : State), s.pwr.pilotOn = true → s.rdB F.PL_TMR_CFG_EN 0 n = true → s.rdB F.PL_TMR_CFG_ACTION 0 n = true →
    s.rd F.PL_TMR_GT 0 n ≤ s.gt + 0x4000 → s.rd F.BR_STAT_LINK 0 0 ≠ 2 → s.br.txq.length < 32 →
    ∃ t, exec (.pilotTimerLevel n) s = .next t ∧ t.rd F.PL_TMR_CFG_EN 0 n = 0 ∧ bitOf (t.rd F.REG_EVT_RAW 0x080 0) 3 = true ∧
      t.br.txq = s.br.txq ++ [0x01#8 :: (toBytes 4 (s.rd F.PL_TMR_MSG 0 n) ++ toBytes 2 (s.rd F.PL_TMR_MSG 0 (16 + n.val)) ++
        toBytes 4 ((s.rd F.PL_TMR_GT 0 n / 65536 + s.rd F.BR_ZC_OFS 0 0) % 2 ^ 32))] ∧ ∀ a, t.byteAt a = s.byteAt a)

/-- R524 to R528, R534, R516. -/
def Obligations.PowerRequests : Prop :=
  (∀ (c : Instr) (s : State), (c = .psReqRun ∨ c = .psReqWatch ∨ c = .psReqRest ∨ c = .psReqDeep ∨ c = .psReqOff ∨ ∃ v, c = .kgateWrite v) →
    s.live 0x003 = true → s.rdB F.PWR_PS_STAT_BUSY 0 0 = true →
    ∃ t, exec c s = .next t ∧ t.rd F.PWR_PS_STAT_ERR 0 0 = 1 ∧ bitOf (t.rd F.REG_EVT_RAW 0x003 0) 1 = true ∧ t.pwr = s.pwr ∧
      Changes s t [(F.PWR_PS_STAT_ERR, 0, 0), (F.REG_EVT_RAW, 0x003, 0)]) ∧
  (∀ s : State, s.live 0x003 = true → s.rdB F.PWR_PS_STAT_BUSY 0 0 = false →
    (s.gateRefused (s.rd F.PWR_KGATE 0 0) = false →
      ∃ t, exec .psReqRun s = .next t ∧ t.pwr.trans = some (0, s.pwr.st) ∧ t.pwr.gate = s.rd F.PWR_KGATE 0 0 ∧
        t.rd F.PWR_PS_STAT_BUSY 0 0 = 1 ∧ Changes s t [(F.PWR_PS_STAT_BUSY, 0, 0)]) ∧
    (s.gateRefused (s.rd F.PWR_KGATE 0 0) = true →
      ∃ t, exec .psReqRun s = .next t ∧ t.pwr = s.pwr ∧ t.rd F.PWR_PS_STAT_ERR 0 0 = 3 ∧ bitOf (t.rd F.REG_EVT_RAW 0x003 0) 1 = true ∧
        Changes s t [(F.PWR_PS_STAT_ERR, 0, 0), (F.REG_EVT_RAW, 0x003, 0)])) ∧
  (∀ s : State, s.live 0x003 = true → s.rdB F.PWR_PS_STAT_BUSY 0 0 = false → s.rdB F.RP_RM_STAT_BUSY 0 0 = false →
    (s.watchRefusal = none →
      ∃ t, exec .psReqWatch s = .next t ∧ t.pwr.trans = some (2, s.pwr.st) ∧ t.pwr.gate = 0xFFFF - s.rd F.PWR_WATCH_CFG_KMASK 0 0 ∧
        t.rd F.PWR_PS_STAT_BUSY 0 0 = 1 ∧ Changes s t [(F.PWR_PS_STAT_BUSY, 0, 0)]) ∧
    (∀ e, s.watchRefusal = some e →
      ∃ t, exec .psReqWatch s = .next t ∧ t.pwr = s.pwr ∧ t.rd F.PWR_PS_STAT_ERR 0 0 = e % 2 ^ F.PWR_PS_STAT_ERR.width ∧
        bitOf (t.rd F.REG_EVT_RAW 0x003 0) 1 = true ∧ Changes s t [(F.PWR_PS_STAT_ERR, 0, 0), (F.REG_EVT_RAW, 0x003, 0)])) ∧
  (∀ (c : Instr) (n : Nat) (s : State), ((c = .psReqRest ∧ n = 3) ∨ (c = .psReqDeep ∧ n = 4) ∨ (c = .psReqOff ∧ n = 5)) → s.live 0x003 = true →
    s.rdB F.PWR_PS_STAT_BUSY 0 0 = false → s.rdB F.RP_RM_STAT_BUSY 0 0 = false →
    (s.ctxBusy = true →
      ∃ t, exec c s = .next t ∧ t.pwr = s.pwr ∧ t.rd F.PWR_PS_STAT_ERR 0 0 = 2 ∧ bitOf (t.rd F.REG_EVT_RAW 0x003 0) 1 = true ∧
        Changes s t [(F.PWR_PS_STAT_ERR, 0, 0), (F.REG_EVT_RAW, 0x003, 0)]) ∧
    (s.ctxBusy = false →
      ∃ t, exec c s = .next t ∧ t.pwr.trans = some (n, s.pwr.st) ∧ t.rd F.PWR_PS_STAT_BUSY 0 0 = 1 ∧ t.fw.cmd = none ∧
        (n ≠ 5 → t.pil.rateReq = some (1, s.now)) ∧
        (n = 5 → s.rdB F.PA_STAT_IN_PROGRESS 0 0 = true → t.pil.offReq = some s.now ∧
          t.rd F.PA_OFF_DEFER_CNT 0 0 = satInc (s.rd F.PA_OFF_DEFER_CNT 0 0) % 2 ^ F.PA_OFF_DEFER_CNT.width ∧
          bitOf (t.rd F.REG_EVT_RAW 0x081 0) 5 = true))) ∧
  (∀ (v : Word) (s : State), s.live 0x003 = true → s.rdB F.PWR_PS_STAT_BUSY 0 0 = false →
    (s.pwr.st ≠ 0 →
      ∃ t, exec (.kgateWrite v) s = .next t ∧ t.rd F.PWR_KGATE 0 0 = v.toNat % 65536 ∧ t.pwr = s.pwr ∧ Changes s t [(F.PWR_KGATE, 0, 0)]) ∧
    (s.pwr.st = 0 → s.gateRefused (v.toNat % 65536) = false →
      ∃ t, exec (.kgateWrite v) s = .next t ∧ t.rd F.PWR_KGATE 0 0 = v.toNat % 65536 ∧ t.pwr.trans = some (0, 0) ∧
        t.pwr.gate = v.toNat % 65536 ∧ t.rd F.PWR_PS_STAT_BUSY 0 0 = 1 ∧ Changes s t [(F.PWR_KGATE, 0, 0), (F.PWR_PS_STAT_BUSY, 0, 0)]) ∧
    (s.pwr.st = 0 → s.gateRefused (v.toNat % 65536) = true →
      ∃ t, exec (.kgateWrite v) s = .next t ∧ t.rd F.PWR_KGATE 0 0 = s.rd F.PWR_KGATE 0 0 ∧ t.pwr = s.pwr ∧ t.rd F.PWR_PS_STAT_ERR 0 0 = 3 ∧
        Changes s t [(F.PWR_PS_STAT_ERR, 0, 0), (F.REG_EVT_RAW, 0x003, 0)]))

/-- R34, R522, R523, R529 to R533, R541 to R543, R698, R723, R724. -/
def Obligations.PowerTransitions : Prop :=
  (∀ (k : Fin 16) (p : Nat) (s : State), s.tileOf k = some p → s.pwr.mainOn = true → bitOf s.pwr.gate k = true →
    s.rd F.RP_KMAP_STATE 0 k = 0 → bitOf (s.rd F.PWR_KGATED 0 0) k = false → (s.tile p).slots = [] →
    ∃ t, exec (.kettleGated k) s = .next t ∧ bitOf (t.rd F.PWR_KGATED 0 0) k = true ∧ (t.tile p) = { num := p } ∧
      (∀ o < 0x400000, t.byteAt (pantryPlace p o) = 0#8) ∧
      ∀ a, (a < pantryPlace p 0 ∨ pantryPlace p 0x400000 ≤ a) → t.byteAt a = s.byteAt a) ∧
  (∀ (k : Fin 16) (p : Nat) (s : State), s.tileOf k = some p → s.pwr.mainOn = true → bitOf s.pwr.gate k = false →
    bitOf (s.rd F.PWR_KGATED 0 0) k = true →
    ∃ t, exec (.kettleUngated k) s = .next t ∧ bitOf (t.rd F.PWR_KGATED 0 0) k = false ∧ t.rd F.KT_CTRL_EN p 0 = 1 ∧
      t.rd F.KT_ID_LOGICAL p 0 = k ∧ (∀ o < 0x400000, t.byteAt (pantryPlace p o) = 0#8) ∧ (t.tile p).tags = [] ∧
      ∀ a, (a < pantryPlace p 0 ∨ pantryPlace p 0x400000 ≤ a) → t.byteAt a = s.byteAt a) ∧
  (∀ (n : Nat) (s : State), s.pwr.trans = some (0, n) → n ≠ 3 → s.pwr.mainOn = true → s.gateDone = true →
    ∃ t, exec .transitionComplete s = .next t ∧ t.pwr.trans = none ∧ t.pwr.st = 0 ∧ t.pwr.ports = 0xFFFF ∧
      t.pwr.hosts = setBit (s.rd F.PWR_HOST_EN 0 0) 0 ∧ t.rd F.PWR_PS_STAT_BUSY 0 0 = 0 ∧
      t.rd F.PWR_TRANS_CNT 0 0 = satInc (s.rd F.PWR_TRANS_CNT 0 0) % 2 ^ F.PWR_TRANS_CNT.width ∧ bitOf (t.rd F.REG_EVT_RAW 0x003 0) 0 = true ∧
      Changes s t [(F.PWR_PS_STAT_BUSY, 0, 0), (F.PWR_PS_STAT_PREV, 0, 0), (F.PWR_TRANS_CNT, 0, 0), (F.REG_EVT_RAW, 0x003, 0)]) ∧
  (∀ (n : Nat) (s : State), s.pwr.trans = some (2, n) → n ≠ 3 → n ≠ 2 → s.pwr.mainOn = true → s.gateDone = true →
    ∃ t, exec .transitionComplete s = .next t ∧ t.pwr.trans = none ∧ t.pwr.st = 2 ∧ t.pwr.ports = s.rd F.PWR_WATCH_PORTS 0 0 ∧
      t.rd F.PWR_PS_STAT_BUSY 0 0 = 0 ∧ bitOf (t.rd F.REG_EVT_RAW 0x003 0) 0 = true) ∧
  (∀ (n : Nat) (s : State), s.pwr.trans = some (3, n) → s.pwr.mainOn = true → s.fw.cmd = none →
    ∃ t, exec .transitionComplete s = .next t ∧ t.pwr.mainOn = false ∧ t.pwr.st = 3 ∧ t.pwr.trans = none ∧ t.pwr.cause = 4 ∧
      t.pwr.pilotOn = s.pwr.pilotOn ∧ (∀ k < 0x1000000, t.byteAt (larderBase + k) = s.byteAt (larderBase + k)) ∧
      (∀ k < 18 * vaultSize, t.byteAt (cellarBase + k) = s.byteAt (cellarBase + k)) ∧ t.rd F.PWR_PAD_HELD 0 0 = 0xFFFFFF) ∧
  (∀ (n : Nat) (s : State), s.pwr.trans = some (4, n) → s.pwr.mainOn = true → s.fw.cmd = none →
    ∃ t, exec .transitionComplete s = .next t ∧ t.pwr.mainOn = false ∧ t.pwr.st = 4 ∧ t.pwr.trans = none ∧ t.pwr.cause = 5 ∧
      t.pwr.pilotOn = s.pwr.pilotOn ∧ (∀ k < 0x1000000, t.byteAt (larderBase + k) = 0#8) ∧
      (∀ k < 18 * vaultSize, t.byteAt (cellarBase + k) = 0#8) ∧ t.rd F.PWR_PAD_HELD 0 0 = 0xFFFFFF) ∧
  (∀ (n : Nat) (s : State), s.pwr.trans = some (5, n) → s.pwr.mainOn = true → s.pil.offReq = none → s.fw.cmd = none →
    ∃ t, exec .transitionComplete s = .next t ∧ t.pwr.mainOn = false ∧ t.pwr.pilotOn = false ∧ t.pwr.st = 5 ∧ t.fs = s.fs ∧
      (∀ k < 0x1000000, t.byteAt (larderBase + k) = 0#8) ∧ (∀ k < 18 * vaultSize, t.byteAt (cellarBase + k) = 0#8)) ∧
  (∀ s : State, s.pwr.wake = true → s.pwr.pilotOn = true → s.pwr.mainOn = true → s.pwr.trans.any (fun x => x.1 == 3 || x.1 == 4) = true →
    ∃ t, exec .wakeCause s = .next t ∧ t.pwr = { s.pwr with trans := none, wake := false } ∧ t.rd F.PWR_PS_STAT_BUSY 0 0 = 0 ∧
      t.rd F.PWR_PS_STAT_ERR 0 0 = 6 ∧ t.rd F.PWR_ABORT_CNT 0 0 = satInc (s.rd F.PWR_ABORT_CNT 0 0) % 2 ^ F.PWR_ABORT_CNT.width ∧
      bitOf (t.rd F.REG_EVT_RAW 0x003 0) 1 = true ∧
      Changes s t [(F.PWR_PS_STAT_BUSY, 0, 0), (F.PWR_PS_STAT_ERR, 0, 0), (F.PWR_ABORT_CNT, 0, 0), (F.REG_EVT_RAW, 0x003, 0)]) ∧
  (∀ s : State, s.pwr.wake = true → s.pwr.pilotOn = true → s.pwr.mainOn = false → (s.pwr.st = 3 ∨ s.pwr.st = 4) → s.pwr.tripBlock = false →
    s.pwr.rising = false → s.pwr.offAt + 100000 ≤ s.now →
    ∃ t, exec .wakeCause s = .next t ∧ t.pwr = { s.pwr with rising := true, wake := false } ∧ Changes s t []) ∧
  (∀ s : State, s.pwr.pilotRising = true → s.pwr.pilotOn = false →
    ∃ t, exec .pilotPowerGood s = .next t ∧ t.gt = 0 ∧ t.si = 0 ∧ t.pil.t0 = s.now ∧
      t.pwr = { s.pwr with pilotOn := true, pilotRising := false, rising := true, cause := 1 } ∧ Changes s t []) ∧
  (∀ (bs : Bool) (cab : Fin 8) (temp : Byte) (sensor : Fin 21) (s : State), s.pwr.rising = true → s.pwr.pilotOn = true → s.pwr.mainOn = false →
    ∃ t, exec (.mainPowerGood bs cab temp sensor) s = .next t ∧ t.pwr.mainOn = true ∧ t.pwr.rising = false ∧ t.pwr.st = 0 ∧
      t.rd F.SYS_RST_CAUSE_CAUSE 0 0 = s.pwr.cause % 2 ^ F.SYS_RST_CAUSE_CAUSE.width ∧ t.rd F.SEC_STRAP_BOOTSEL 0 0 = b2n bs ∧
      t.rd F.SK_STAT_CAB_ID 0 0 = cab ∧ t.rd F.PWR_PAD_HELD 0 0 = (if s.pwr.cause = 1 then 0 else 0xFFFFFF) ∧
      t.rd F.PWR_TJ_MAX_TEMP 0 0 = temp.toNat ∧ ∀ a, t.byteAt a = s.byteAt a)

/-- R545 to R552, R720 (the fused thresholds are the model's choice: log 73). -/
def Obligations.SupplyAndTemperature : Prop :=
  (∀ s : State, s.pwr.st = 5 → s.pwr.pilotOn = false →
    ∃ t, exec .vinStart s = .next t ∧ t.pwr = { s.pwr with pilotRising := true } ∧ Changes s t []) ∧
  (∀ (mv : BitVec 16) (s : State), 10200 < mv.toNat → s.pwr.st = 5 → s.pwr.pilotOn = false →
    ∃ t, exec (.pwrOnEdge mv) s = .next t ∧ t.pwr = { s.pwr with pilotRising := true } ∧ Changes s t []) ∧
  (∀ (mv : BitVec 16) (s : State), mv.toNat ≤ 10200 → exec (.pwrOnEdge mv) s = .next s) ∧
  (∀ (mv : BitVec 16) (s : State), s.pwr.mainOn = true → s.fw.vinLow = false → mv.toNat < s.rd F.PWR_VIN_CFG_WARN_MV 0 0 →
    ∃ t, exec (.vinWarn mv) s = .next t ∧ t.fw.vinLow = true ∧ t.fw.cmd = none ∧ t.rd F.PWR_VIN_MV 0 0 = mv.toNat ∧
      t.rd F.PWR_VIN_WARN_CNT 0 0 = satInc (s.rd F.PWR_VIN_WARN_CNT 0 0) % 2 ^ F.PWR_VIN_WARN_CNT.width ∧
      bitOf (t.rd F.REG_EVT_RAW 0x003 0) 2 = true) ∧
  (∀ (mv : BitVec 16) (s : State), s.pwr.mainOn = true → s.fw.vinLow = true → s.rd F.PWR_VIN_CFG_WARN_MV 0 0 ≤ mv.toNat →
    ∃ t, exec (.vinWarnClear mv) s = .next t ∧ t.fw = { s.fw with vinLow := false } ∧ t.rd F.PWR_VIN_MV 0 0 = mv.toNat ∧
      Changes s t [(F.PWR_VIN_MV, 0, 0)]) ∧
  (∀ s : State, s.fw.cmd = none →
    ∃ t, exec .vinUv s = .next t ∧ t.pwr.mainOn = false ∧ t.pwr.pilotOn = false ∧ t.pwr.st = 5 ∧ t.fs = s.fs ∧
      (∀ k < 0x1000000, t.byteAt (larderBase + k) = 0#8) ∧ (∀ k < 18 * vaultSize, t.byteAt (cellarBase + k) = 0#8) ∧
      ∀ k < 0x10000000, t.byteAt (flashBase + k) = s.byteAt (flashBase + k)) ∧
  (∀ (c : Instr) (temp : Byte) (sensor : Fin 21) (s : State), (c = .thermWarn temp sensor ∨ c = .thermEmerg temp sensor) → s.pwr.mainOn = true →
    signed8 temp.toNat < signed8 (s.rd F.PWR_THERM_CFG_EMERG 0 0) →
    ∃ t, exec c s = .next t ∧ t.rd F.PWR_TJ_MAX_TEMP 0 0 = temp.toNat ∧ t.rd F.PWR_TJ_MAX_SRC 0 0 = sensor ∧
      (signed8 (s.rd F.PWR_THERM_CFG_WARN 0 0) ≤ signed8 temp.toNat → t.rd F.PWR_THERM_STAT_WARN 0 0 = 1 ∧
        (s.rdB F.PWR_THERM_STAT_WARN 0 0 = false → bitOf (t.rd F.REG_EVT_RAW 0x003 0) 3 = true)) ∧
      (signed8 temp.toNat < signed8 (s.rd F.PWR_THERM_CFG_WARN 0 0) → t.rd F.PWR_THERM_STAT_WARN 0 0 = 0) ∧
      Changes s t [(F.PWR_TJ_MAX_TEMP, 0, 0), (F.PWR_TJ_MAX_SRC, 0, 0), (F.PWR_THERM_STAT_WARN, 0, 0), (F.REG_EVT_RAW, 0x003, 0)]) ∧
  (∀ (c : Instr) (temp : Byte) (sensor : Fin 21) (s : State), (c = .thermWarn temp sensor ∨ c = .thermEmerg temp sensor) → s.pwr.mainOn = true →
    signed8 (s.rd F.PWR_THERM_CFG_EMERG 0 0) ≤ signed8 temp.toNat → s.rdB F.PWR_THERM_STAT_EMERG 0 0 = false →
    ∃ t, exec c s = .next t ∧ t.rd F.PWR_THERM_STAT_EMERG 0 0 = 1 ∧
      t.rd F.PWR_THERM_EMERG_CNT 0 0 = satInc (s.rd F.PWR_THERM_EMERG_CNT 0 0) % 2 ^ F.PWR_THERM_EMERG_CNT.width ∧
      bitOf (t.rd F.REG_EVT_RAW 0x003 0) 4 = true ∧ t.rd F.PWR_TJ_MAX_TEMP 0 0 = temp.toNat ∧ ∀ a, t.byteAt a = s.byteAt a) ∧
  (∀ (temp : Byte) (sensor : Fin 21) (s : State), s.pwr.mainOn = true → s.rdB F.PWR_THERM_STAT_EMERG 0 0 = true →
    signed8 temp.toNat < signed8 (s.rd F.PWR_THERM_CFG_EMERG 0 0) - 5 →
    ∃ t, exec (.thermEmergEnd temp sensor) s = .next t ∧ t.rd F.PWR_THERM_STAT_EMERG 0 0 = 0 ∧ bitOf (t.rd F.REG_EVT_RAW 0x003 0) 4 = true ∧
      t.rd F.PWR_TJ_MAX_TEMP 0 0 = temp.toNat ∧ ∀ a, t.byteAt a = s.byteAt a) ∧
  (∀ (temp : Byte) (sensor : Fin 21) (s : State), s.pwr.mainOn = true → s.fw.cmd = none →
    signed8 (s.rd F.PWR_THERM_CFG_TRIP 0 0) ≤ signed8 temp.toNat →
    ∃ t, exec (.thermTrip temp sensor) s = .next t ∧ t.pwr.mainOn = false ∧ t.pwr.st = 4 ∧ t.pwr.tripBlock = true ∧
      t.pwr.pilotOn = s.pwr.pilotOn ∧ (∀ k < 0x1000000, t.byteAt (larderBase + k) = 0#8) ∧
      ∀ k < 18 * vaultSize, t.byteAt (cellarBase + k) = 0#8) ∧
  (∀ (temp : Byte) (s : State), s.pwr.tripBlock = true → toS 8 temp.toNat < 95 →
    ∃ t, exec (.tripWakeUnblock temp) s = .next t ∧ t.pwr = { s.pwr with tripBlock := false } ∧ Changes s t [])

/-- R242, R535 to R541, R543, R713 (a group's supply step as the last of its change). -/
def Obligations.OperatingPointsPadsAndOutputs : Prop :=
  (∀ (v : Word) (s : State), s.live 0x003 = true →
    ∃ t, exec (.grpOpReqWrite v) s = .next t ∧ t.rd F.PWR_GRP_OP_REQ_KG0 0 0 = bitsOf v.toNat 0 2 % 2 ^ F.PWR_GRP_OP_REQ_KG0.width ∧
      t.rd F.PWR_GRP_OP_REQ_KG1 0 0 = bitsOf v.toNat 4 2 % 2 ^ F.PWR_GRP_OP_REQ_KG1.width ∧
      t.rd F.PWR_GRP_OP_REQ_KG2 0 0 = bitsOf v.toNat 8 2 % 2 ^ F.PWR_GRP_OP_REQ_KG2.width ∧ ∀ a, t.byteAt a = s.byteAt a) ∧
  (∀ (g : Fin 3) (v : Nat) (x : GrpSt) (s : State), s.pwr.mainOn = true → s.pwr.groups.length = 3 → s.grp g = x → x.step = some (1, v) →
    nextStep { x with supply := v, step := none } (s.opTarget g) = none →
    ∃ t, exec (.opChangeStep g) s = .next t ∧ t.grp g = { x with supply := v, step := none } ∧
      t.rd (opCurFld g) 0 0 = x.pll % 2 ^ (opCurFld g).width ∧ bitOf (t.rd F.REG_EVT_RAW 0x003 0) 5 = true ∧ ∀ a, t.byteAt a = s.byteAt a) ∧
  (∀ (v : Word) (n : Nat) (s u : State), s.live 0x005 = true → n = s.rd F.SCH_PART_SEL 0 0 →
    u = (if bitsOf v.toNat 8 5 ≤ 28 then s.wr F.SCH_PART_CFG_B_SLOTS 0 n (bitsOf v.toNat 8 5) else s) →
    (bitsOf v.toNat 0 2 = s.rd F.SCH_PART_CFG_OP_FLOOR 0 n →
      exec (.opFloorWrite v) s = .next u ∧ Changes s u [(F.SCH_PART_CFG_B_SLOTS, 0, n)]) ∧
    (s.rd F.SCH_PART_CFG_OP_FLOOR 0 n < bitsOf v.toNat 0 2 → u.capAt n (bitsOf v.toNat 0 2) / 4 < u.rd F.SCH_PART_URG_BUDGET 0 n →
      ∃ t, exec (.opFloorWrite v) s = .next t ∧ t.rd F.SCH_PART_ERR_BUDGET 0 n = 1 ∧ bitOf (t.rd F.REG_EVT_RAW 0x005 0) 4 = true ∧
        Changes s t [(F.SCH_PART_CFG_B_SLOTS, 0, n), (F.SCH_PART_ERR_BUDGET, 0, n), (F.REG_EVT_RAW, 0x005, 0)]) ∧
    (s.rd F.SCH_PART_CFG_OP_FLOOR 0 n < bitsOf v.toNat 0 2 → u.rd F.SCH_PART_URG_BUDGET 0 n ≤ u.capAt n (bitsOf v.toNat 0 2) / 4 →
      ∃ t, exec (.opFloorWrite v) s = .next t ∧ t.rd F.SCH_PART_CFG_OP_FLOOR 0 n = bitsOf v.toNat 0 2 % 2 ^ F.SCH_PART_CFG_OP_FLOOR.width ∧
        t.floorOf n = t.rd F.SCH_PART_CFG_OP_FLOOR 0 n ∧ ∀ a, t.byteAt a = s.byteAt a) ∧
    (bitsOf v.toNat 0 2 < s.rd F.SCH_PART_CFG_OP_FLOOR 0 n →
      ∃ t, exec (.opFloorWrite v) s = .next t ∧ t.rd F.SCH_PART_CFG_OP_FLOOR 0 n = bitsOf v.toNat 0 2 % 2 ^ F.SCH_PART_CFG_OP_FLOOR.width ∧
        ∀ a, t.byteAt a = s.byteAt a)) ∧
  (∀ (v : Word) (s : State), s.live 0x003 = true →
    ∃ t, exec (.hostEnWrite v) s = .next t ∧ t.rd F.PWR_HOST_EN 0 0 = setBit (v.toNat % 16) 0 % 2 ^ F.PWR_HOST_EN.width ∧
      (s.pwr.st = 0 → t.pwr.hosts = setBit (v.toNat % 16) 0) ∧ (s.pwr.st ≠ 0 → t.pwr = s.pwr) ∧ Changes s t [(F.PWR_HOST_EN, 0, 0)]) ∧
  (∀ (v : Word) (s : State), s.live 0x003 = true →
    ∃ t, exec (.padRelease v) s = .next t ∧
      (∀ g < 24, bitOf (t.rd F.PWR_PAD_HELD 0 0) g = (bitOf (s.rd F.PWR_PAD_HELD 0 0) g && !(bitOf v.toNat g && s.padOwnerOn g))) ∧
      Changes s t [(F.PWR_PAD_HELD, 0, 0), (F.PWR_PAD_ERR_CNT, 0, 0)]) ∧
  (∀ (o : Fin 13) (s : State), s.supplyOn o = true → s.pwr.folded.all (fun x => x.1 != o.val) = true →
    ∃ t, exec (.supplyFoldback o) s = .next t ∧ t.pwr = { s.pwr with folded := (o.val, s.now) :: s.pwr.folded } ∧ Changes s t []) ∧
  (∀ (o : Fin 13) (ok : Bool) (s : State), s.pwr.folded.any (fun x => x.1 == o.val && decide (x.2 + 100000000 ≤ s.now)) = true →
    ∃ t, exec (.foldbackRetry o ok) s = .next t ∧
      t.pwr.folded = (if ok then [] else [(o.val, s.now)]) ++ s.pwr.folded.filter (fun x => x.1 != o.val) ∧ Changes s t [])

/-- R565 to R567. -/
def Obligations.InterruptMessages : Prop :=
  (∀ (v : Fin 64) (s : State), s.msixLive v = true → s.host.sent.contains v.val = false → s.msixMasked v = false →
    s.host.lastMsg.any (fun x => x.1 == v.val && decide (s.now < x.2 + s.rd F.IA_VEC_CFG_COAL_US 0 v * 1000)) = false →
    ∃ t, exec (.msixSend v) s = .next t ∧
      t.outs = .msix v (s.rd F.PCIE_MSIX_ADDR_LO 0 v + s.rd F.PCIE_MSIX_ADDR_HI 0 v * 2 ^ 32) (s.rd F.PCIE_MSIX_DATA 0 v) :: s.outs ∧
      t.rd F.IA_VEC_MSG_CNT 0 v = satInc (s.rd F.IA_VEC_MSG_CNT 0 v) % 2 ^ F.IA_VEC_MSG_CNT.width ∧ bitOf (t.rd F.PCIE_PBA 0 0) v = false ∧
      t.host.sent.contains v.val = true ∧ Changes s t [(F.IA_VEC_MSG_CNT, 0, v), (F.PCIE_PBA, 0, 0)]) ∧
  (∀ (v : Fin 64) (s : State), s.msixLive v = true → s.host.sent.contains v.val = false → s.msixMasked v = true →
    ∃ t, exec (.msixSend v) s = .next t ∧ t.outs = s.outs ∧ bitOf (t.rd F.PCIE_PBA 0 0) v = true ∧ t.host.sent.contains v.val = true ∧
      (s.rdB F.PCIE_LINK_STAT_DL_UP 0 0 = false → bitOf (t.rd F.REG_EVT_RAW 0x007 0) 0 = true) ∧
      Changes s t [(F.PCIE_PBA, 0, 0), (F.REG_EVT_RAW, 0x007, 0)]) ∧
  (∀ (v : Fin 64) (s : State), s.live 0x0B0 = true → bitOf (s.rd F.PCIE_PBA 0 0) v = true → s.rdB F.PCIE_LINK_STAT_DL_UP 0 0 = true →
    s.msixLive v = true →
    s.host.lastMsg.any (fun x => x.1 == v.val && decide (s.now < x.2 + s.rd F.IA_VEC_CFG_COAL_US 0 v * 1000)) = false →
    ∃ t, exec (.msixUnmask v) s = .next t ∧ bitOf (t.rd F.PCIE_MSIX_CTRL 0 v) 0 = false ∧ bitOf (t.rd F.PCIE_PBA 0 0) v = false ∧
      t.outs = .msix v (s.rd F.PCIE_MSIX_ADDR_LO 0 v + s.rd F.PCIE_MSIX_ADDR_HI 0 v * 2 ^ 32) (s.rd F.PCIE_MSIX_DATA 0 v) :: s.outs ∧
      Changes s t [(F.PCIE_MSIX_CTRL, 0, v), (F.PCIE_PBA, 0, 0), (F.IA_VEC_MSG_CNT, 0, v)]) ∧
  (∀ (v : Fin 64) (s : State), s.live 0x0B0 = true → bitOf (s.rd F.PCIE_PBA 0 0) v = false →
    ∃ t, exec (.msixUnmask v) s = .next t ∧ bitOf (t.rd F.PCIE_MSIX_CTRL 0 v) 0 = false ∧ t.outs = s.outs ∧
      Changes s t [(F.PCIE_MSIX_CTRL, 0, v)]) ∧
  (∀ (v : Fin 64) (w : Word) (s : State), s.live 0x007 = true → w.toNat % 2 = 1 → s.msixLive v = true → s.msixMasked v = false →
    s.host.lastMsg.any (fun x => x.1 == v.val && decide (s.now < x.2 + s.rd F.IA_VEC_CFG_COAL_US 0 v * 1000)) = false →
    ∃ t, exec (.vecEoi v w) s = .next t ∧
      t.outs = .msix v (s.rd F.PCIE_MSIX_ADDR_LO 0 v + s.rd F.PCIE_MSIX_ADDR_HI 0 v * 2 ^ 32) (s.rd F.PCIE_MSIX_DATA 0 v) :: s.outs ∧
      Changes s t [(F.IA_VEC_MSG_CNT, 0, v), (F.PCIE_PBA, 0, 0)]) ∧
  (∀ (v : Fin 64) (w : Word) (s : State), s.live 0x007 = true → w.toNat % 2 = 1 → s.msixLive v = false →
    ∃ t, exec (.vecEoi v w) s = .next t ∧ t.outs = s.outs ∧ Changes s t []) ∧
  (∀ (v : Fin 64) (w : Word) (s : State), s.live 0x007 = true → w.toNat % 2 = 0 → exec (.vecEoi v w) s = .next s)

/-- R563, R568 to R571, R199 for the rings. -/
def Obligations.PcieAndEthernetPorts : Prop :=
  (∀ s : State, s.pcieOn = true →
    ∃ t, exec .perst s = .next t ∧ t.rd F.PCIE_LINK_STAT_DL_UP 0 0 = 0 ∧ t.rd F.PCIE_PBA 0 0 = 0 ∧
      (∀ v < 64, t.rd F.PCIE_MSIX_CTRL 0 v = 1 ∧ t.rd F.PCIE_MSIX_ADDR_LO 0 v = 0 ∧ t.rd F.PCIE_MSIX_DATA 0 v = 0) ∧
      t.rd F.PCIE_PERST_CNT 0 0 = satInc (s.rd F.PCIE_PERST_CNT 0 0) % 2 ^ F.PCIE_PERST_CNT.width ∧ bitOf (t.rd F.REG_EVT_RAW 0x0B0 0) 2 = true ∧
      (s.rdB F.PCIE_LINK_STAT_DL_UP 0 0 = true → t.rd F.PCIE_LINK_DOWN_CNT 0 0 = satInc (s.rd F.PCIE_LINK_DOWN_CNT 0 0) % 2 ^ F.PCIE_LINK_DOWN_CNT.width) ∧
      ∀ a, t.byteAt a = s.byteAt a) ∧
  (∀ s : State, s.rdB F.PCIE_LINK_STAT_DL_UP 0 0 = true →
    ∃ t, exec .pcieLinkDown s = .next t ∧ t.rd F.PCIE_LINK_STAT_DL_UP 0 0 = 0 ∧
      t.rd F.PCIE_LINK_DOWN_CNT 0 0 = satInc (s.rd F.PCIE_LINK_DOWN_CNT 0 0) % 2 ^ F.PCIE_LINK_DOWN_CNT.width ∧
      bitOf (t.rd F.REG_EVT_RAW 0x0B0 0) 1 = true ∧ ∀ a, t.byteAt a = s.byteAt a) ∧
  (∀ (sp w : BitVec 3) (s : State), s.pcieOn = true → s.rdB F.PCIE_LINK_STAT_DL_UP 0 0 = false → 1 ≤ sp.toNat → sp.toNat ≤ 4 →
    sp.toNat ≤ s.rd F.PCIE_LINK_CFG_MAX_SPEED 0 0 → (w.toNat = 1 ∨ w.toNat = 2 ∨ w.toNat = 4) → w.toNat ≤ s.rd F.PCIE_LINK_CFG_MAX_WIDTH 0 0 →
    ∃ t, exec (.pcieLinkUp sp w) s = .next t ∧ t.rd F.PCIE_LINK_STAT_DL_UP 0 0 = 1 ∧
      t.rd F.PCIE_LINK_STAT_SPEED 0 0 = sp.toNat % 2 ^ F.PCIE_LINK_STAT_SPEED.width ∧
      t.rd F.PCIE_LINK_STAT_WIDTH 0 0 = w.toNat % 2 ^ F.PCIE_LINK_STAT_WIDTH.width ∧ bitOf (t.rd F.REG_EVT_RAW 0x0B0 0) 0 = true ∧
      Changes s t [(F.PCIE_LINK_STAT_DL_UP, 0, 0), (F.PCIE_LINK_STAT_SPEED, 0, 0), (F.PCIE_LINK_STAT_WIDTH, 0, 0), (F.REG_EVT_RAW, 0x0B0, 0)]) ∧
  (∀ (p : Fin 2) (bs : List Byte) (s : State), s.ethOn p = true → s.rdB F.ETH_MAC_CFG_EN p 0 = true → s.rdB F.ETH_PHY_STAT_LINK p 0 = true →
    ∃ t, exec (.ethRxFrame p bs false) s = .next t ∧ t.rd F.ETH_RX_CRC_CNT p 0 = satInc (s.rd F.ETH_RX_CRC_CNT p 0) % 2 ^ F.ETH_RX_CRC_CNT.width ∧
      bitOf (t.rd F.REG_EVT_RAW (0x0B1 + p.val) 0) 2 = true ∧ Changes s t [(F.ETH_RX_CRC_CNT, p, 0), (F.REG_EVT_RAW, 0x0B1 + p.val, 0)]) ∧
  (∀ (p : Fin 2) (bs : List Byte) (s : State), s.ethOn p = true → s.rdB F.ETH_MAC_CFG_EN p 0 = true → s.rdB F.ETH_PHY_STAT_LINK p 0 = true →
    (bs.length + 4 < 64 ∨ s.rd F.ETH_MTU p 0 < bs.length + 4) →
    ∃ t, exec (.ethRxFrame p bs true) s = .next t ∧ t.rd F.ETH_RX_LEN_CNT p 0 = satInc (s.rd F.ETH_RX_LEN_CNT p 0) % 2 ^ F.ETH_RX_LEN_CNT.width ∧
      bitOf (t.rd F.REG_EVT_RAW (0x0B1 + p.val) 0) 2 = true ∧ Changes s t [(F.ETH_RX_LEN_CNT, p, 0), (F.REG_EVT_RAW, 0x0B1 + p.val, 0)]) ∧
  (∀ (p : Fin 2) (bs : List Byte) (s : State), s.ethOn p = true → s.rdB F.ETH_MAC_CFG_EN p 0 = true → s.rdB F.ETH_PHY_STAT_LINK p 0 = true →
    64 ≤ bs.length + 4 → bs.length + 4 ≤ s.rd F.ETH_MTU p 0 →
    (ethType bs = 0x8808 →
      ∃ t, exec (.ethRxFrame p bs true) s = .next t ∧
        t.rd F.ETH_PAUSE_RX_CNT p 0 = satInc (s.rd F.ETH_PAUSE_RX_CNT p 0) % 2 ^ F.ETH_PAUSE_RX_CNT.width ∧ Changes s t [(F.ETH_PAUSE_RX_CNT, p, 0)]) ∧
    (ethType bs ≠ 0x8808 → s.ethAccepts p bs = false → exec (.ethRxFrame p bs true) s = .next s) ∧
    (ethType bs ≠ 0x8808 → s.ethAccepts p bs = true → s.rd F.ETH_RX_HEAD p 0 = s.rd F.ETH_RX_TAIL p 0 →
      ∃ t, exec (.ethRxFrame p bs true) s = .next t ∧
        t.rd F.ETH_RX_NODESC_CNT p 0 = satInc (s.rd F.ETH_RX_NODESC_CNT p 0) % 2 ^ F.ETH_RX_NODESC_CNT.width ∧
        Changes s t [(F.ETH_RX_NODESC_CNT, p, 0), (F.REG_EVT_RAW, 0x0B1 + p.val, 0)])) ∧
  (∀ (p : Fin 2) (bs d : List Byte) (da : Nat) (s s1 s2 s3 s4 : State), s.ethOn p = true → s.rdB F.ETH_MAC_CFG_EN p 0 = true →
    s.rdB F.ETH_PHY_STAT_LINK p 0 = true → 64 ≤ bs.length + 4 → bs.length + 4 ≤ s.rd F.ETH_MTU p 0 → ethType bs ≠ 0x8808 →
    s.ethAccepts p bs = true → s.rd F.ETH_RX_HEAD p 0 ≠ s.rd F.ETH_RX_TAIL p 0 →
    da = s.rd F.ETH_RX_BASE p 0 + s.rd F.ETH_RX_HEAD p 0 % ringLen (s.rd F.ETH_RING_LOG2_RX p 0) * 32 → s.dmaRead p da 16 = (s1, some d) →
    bs.length ≤ leAt d 8 2 → s1.dmaWrite p (leAt d 0 6) bs = (s2, true) →
    s2.dmaWrite p (da + 8) (toBytes 2 bs.length ++ [BitVec.ofNat 8 (b2n (isPtp bs))]) = (s3, true) →
    s3.dmaWrite p (da + 16) (toBytes 8 s.si ++ [0#8]) = (s4, true) →
    ∃ t, exec (.ethRxFrame p bs true) s = .next t ∧ t.rd F.ETH_RX_HEAD p 0 = (s4.rd F.ETH_RX_HEAD p 0 + 1) % 2 ^ F.ETH_RX_HEAD.width ∧
      t.rd F.ETH_RX_FRAMES p 0 = (s4.rd F.ETH_RX_FRAMES p 0 + 1) % 2 ^ F.ETH_RX_FRAMES.width ∧
      bitOf (t.rd F.REG_EVT_RAW (0x0B1 + p.val) 0) 0 = true ∧ ∀ a, t.byteAt a = s4.byteAt a) ∧
  (∀ (p : Fin 2) (v : Word) (s : State), s.live (0x0B1 + p.val) = true →
    ((v.toNat % 65536 + 65536 - s.rd F.ETH_TX_TAIL p 0) % 65536 ≤ ringLen (s.rd F.ETH_RING_LOG2_TX p 0) →
      (v.toNat % 65536 + 65536 - s.rd F.ETH_TX_HEAD p 0) % 65536 ≤ ringLen (s.rd F.ETH_RING_LOG2_TX p 0) →
      ∃ t, exec (.ethTxTail p v) s = .next t ∧ t.rd F.ETH_TX_TAIL p 0 = v.toNat % 2 ^ F.ETH_TX_TAIL.width ∧ Changes s t [(F.ETH_TX_TAIL, p, 0)]) ∧
    (ringLen (s.rd F.ETH_RING_LOG2_TX p 0) < (v.toNat % 65536 + 65536 - s.rd F.ETH_TX_TAIL p 0) % 65536 → exec (.ethTxTail p v) s = .next s) ∧
    ((v.toNat % 65536 + 65536 - s.rd F.ETH_RX_TAIL p 0) % 65536 ≤ ringLen (s.rd F.ETH_RING_LOG2_RX p 0) →
      (v.toNat % 65536 + 65536 - s.rd F.ETH_RX_HEAD p 0) % 65536 ≤ ringLen (s.rd F.ETH_RING_LOG2_RX p 0) →
      ∃ t, exec (.ethRxTail p v) s = .next t ∧ t.rd F.ETH_RX_TAIL p 0 = v.toNat % 2 ^ F.ETH_RX_TAIL.width ∧ Changes s t [(F.ETH_RX_TAIL, p, 0)]) ∧
    (ringLen (s.rd F.ETH_RING_LOG2_RX p 0) < (v.toNat % 65536 + 65536 - s.rd F.ETH_RX_TAIL p 0) % 65536 → exec (.ethRxTail p v) s = .next s)) ∧
  (∀ (p : Fin 2) (bs d : List Byte) (da : Nat) (s s1 s2 s3 : State), s.ethOn p = true → s.rdB F.ETH_MAC_CFG_EN p 0 = true →
    s.rdB F.ETH_PHY_STAT_LINK p 0 = true → s.rd F.ETH_TX_HEAD p 0 ≠ s.rd F.ETH_TX_TAIL p 0 →
    da = s.rd F.ETH_TX_BASE p 0 + s.rd F.ETH_TX_HEAD p 0 % ringLen (s.rd F.ETH_RING_LOG2_TX p 0) * 32 → s.dmaRead p da 16 = (s1, some d) →
    64 ≤ leAt d 8 2 + 4 → leAt d 8 2 + 4 ≤ s.rd F.ETH_MTU p 0 → bitOf (leAt d 10 1) 0 = false → bitOf (leAt d 10 1) 1 = false →
    s1.dmaRead p (leAt d 0 6) (leAt d 8 2) = (s2, some bs) →
    ((s2.emit (.ethTx p bs s.si)).addW F.ETH_TX_FRAMES p 0 1).dmaWrite p (da + 24) [0#8] = (s3, true) →
    ∃ t, exec (.ethTxFrame p) s = .next t ∧ t.outs = s3.outs ∧ t.rd F.ETH_TX_HEAD p 0 = (s3.rd F.ETH_TX_HEAD p 0 + 1) % 2 ^ F.ETH_TX_HEAD.width ∧
      t.rd F.ETH_TX_FRAMES p 0 = s3.rd F.ETH_TX_FRAMES p 0 ∧ bitOf (t.rd F.REG_EVT_RAW (0x0B1 + p.val) 0) 1 = true ∧ ∀ a, t.byteAt a = s3.byteAt a) ∧
  (∀ (p : Fin 2) (sp : Fin 3) (s : State), s.ethOn p = true → s.rd F.ETH_PHY_STAT_SPEED p 0 ≠ sp →
    (sp.val = 0 ∨ s.rd F.ETH_MAC_CFG_SPEED p 0 = 0 ∨ s.rd F.ETH_MAC_CFG_SPEED p 0 = sp) →
    ∃ t, exec (.ethLinkChange p sp) s = .next t ∧ t.rd F.ETH_PHY_STAT_LINK p 0 = b2n (sp.val != 0) ∧
      t.rd F.ETH_PHY_STAT_SPEED p 0 = sp.val % 2 ^ F.ETH_PHY_STAT_SPEED.width ∧ bitOf (t.rd F.REG_EVT_RAW (0x0B1 + p.val) 0) 4 = true ∧
      Changes s t [(F.ETH_PHY_STAT_LINK, p, 0), (F.ETH_PHY_STAT_SPEED, p, 0), (F.REG_EVT_RAW, 0x0B1 + p.val, 0)])

/-- R572 to R576. -/
def Obligations.TimeInputsUartsAndGpio : Prop :=
  (∀ (p : Fin 2) (v : Word) (s : State), s.live (0x0B1 + p.val) = true →
    ∃ t, exec (.ptpMeas p v) s = .next t ∧ t.rd F.ETH_PTP_MEAS p 0 = s.rd F.ETH_PTP_MEAS p 0 % 2 ^ 32 + v.toNat * 2 ^ 32 ∧
      t.host.ptpAt = (p.val, s.now) :: s.host.ptpAt.filter (fun x => x.1 != p.val) ∧
      (if p.val = 0 then t.orr.ptp0Live else t.orr.ptp1Live) = true ∧ ∀ a, t.byteAt a = s.byteAt a) ∧
  (∀ (p : Fin 2) (s : State),
    s.host.ptpAt.any (fun x => x.1 == p.val && decide (x.2 + max 1 (s.rd F.ETH_PTP_QUAL_TIMEOUT p 0) * 1000000000 ≤ s.now)) = true →
    ∃ t, exec (.ptpTimeout p) s = .next t ∧ t.host.ptpAt = s.host.ptpAt.filter (fun x => x.1 != p.val) ∧
      (if p.val = 0 then t.orr.ptp0Live else t.orr.ptp1Live) = false ∧ ∀ a, t.byteAt a = s.byteAt a) ∧
  (∀ (r : Bool) (s : State), s.gnssOn = true → s.rdB F.ETH_PPS_CFG_EN 0 0 = true → r ≠ s.rdB F.ETH_PPS_CFG_POL 0 0 →
    (∀ u, s.host.ppsAt = some u → u + 1500000000 ≤ s.now ∨ (u + 999000000 ≤ s.now ∧ s.now ≤ u + 1001000000)) →
    ∃ t, exec (.ppsEdge r) s = .next t ∧ t.rd F.ETH_PPS_SI 0 0 = s.si % 2 ^ F.ETH_PPS_SI.width ∧ t.rd F.ETH_PPS_GT 0 0 = s.gt % 2 ^ F.ETH_PPS_GT.width ∧
      t.rd F.ETH_PPS_CNT 0 0 = satInc (s.rd F.ETH_PPS_CNT 0 0) % 2 ^ F.ETH_PPS_CNT.width ∧ bitOf (t.rd F.REG_EVT_RAW 0x0B1 0) 5 = true ∧
      t.host.ppsAt = some s.now ∧ t.orr.ppsLive = true ∧ ∀ a, t.byteAt a = s.byteAt a) ∧
  (∀ (r : Bool) (u : Nat) (s : State), s.gnssOn = true → s.rdB F.ETH_PPS_CFG_EN 0 0 = true → r ≠ s.rdB F.ETH_PPS_CFG_POL 0 0 →
    s.host.ppsAt = some u → s.now < u + 1500000000 → (s.now < u + 999000000 ∨ u + 1001000000 < s.now) →
    ∃ t, exec (.ppsEdge r) s = .next t ∧ t.rd F.ETH_PPS_GLITCH_CNT 0 0 = satInc (s.rd F.ETH_PPS_GLITCH_CNT 0 0) % 2 ^ F.ETH_PPS_GLITCH_CNT.width ∧
      bitOf (t.rd F.REG_EVT_RAW 0x0B1 0) 6 = true ∧ t.host = s.host ∧
      Changes s t [(F.ETH_PPS_GLITCH_CNT, 0, 0), (F.REG_EVT_RAW, 0x0B1, 0)]) ∧
  (∀ (u : Nat) (s : State), s.orr.ppsLive = true → s.host.ppsAt = some u → u + 1500000000 ≤ s.now →
    ∃ t, exec .ppsMissing s = .next t ∧ t.orr.ppsLive = false ∧ ∀ a, t.byteAt a = s.byteAt a) ∧
  (∀ (b : Byte) (s : State), s.gnssOn = true →
    (s.host.gnRx.length < 4096 →
      ∃ t, exec (.gnssRxByte b) s = .next t ∧ t.host = { s.host with gnRx := s.host.gnRx ++ [b] } ∧
        t.rd F.ETH_UART_STAT_RX_COUNT 0 0 = (s.host.gnRx.length + 1) % 2 ^ F.ETH_UART_STAT_RX_COUNT.width ∧
        Changes s t [(F.ETH_UART_STAT_RX_COUNT, 0, 0), (F.ETH_UART_STAT_TX_COUNT, 0, 0)]) ∧
    (4096 ≤ s.host.gnRx.length →
      ∃ t, exec (.gnssRxByte b) s = .next t ∧ t.host = s.host ∧
        t.rd F.ETH_UART_OVF_CNT 0 0 = satInc (s.rd F.ETH_UART_OVF_CNT 0 0) % 2 ^ F.ETH_UART_OVF_CNT.width ∧ Changes s t [(F.ETH_UART_OVF_CNT, 0, 0)])) ∧
  (∀ (v : Word) (s : State), s.live 0x0B1 = true →
    (s.host.gnTx.length < 4096 →
      ∃ t, exec (.gnssTxByte v) s = .next t ∧ t.host = { s.host with gnTx := s.host.gnTx ++ [BitVec.ofNat 8 v.toNat] } ∧
        Changes s t [(F.ETH_UART_STAT_RX_COUNT, 0, 0), (F.ETH_UART_STAT_TX_COUNT, 0, 0)]) ∧
    (4096 ≤ s.host.gnTx.length → exec (.gnssTxByte v) s = .next s)) ∧
  (∀ (b : Byte) (s : State), s.hioOn = true → s.rdB F.HIO_HU_CFG_EN 0 0 = true →
    (∃ t, exec (.huRxByte b false) s = .next t ∧ t.host = s.host ∧
      t.rd F.HIO_HU_FRAME_CNT 0 0 = satInc (s.rd F.HIO_HU_FRAME_CNT 0 0) % 2 ^ F.HIO_HU_FRAME_CNT.width ∧
      bitOf (t.rd F.REG_EVT_RAW 0x0B4 0) 13 = true ∧ Changes s t [(F.HIO_HU_FRAME_CNT, 0, 0), (F.REG_EVT_RAW, 0x0B4, 0)]) ∧
    (s.host.huRx.length < 4096 →
      ∃ t, exec (.huRxByte b true) s = .next t ∧ t.host = { s.host with huRx := s.host.huRx ++ [b] } ∧
        t.rd F.HIO_HU_STAT_RX_COUNT 0 0 = (s.host.huRx.length + 1) % 2 ^ F.HIO_HU_STAT_RX_COUNT.width ∧
        (s.rd F.HIO_HU_LEVEL_RX_LEVEL 0 0 ≤ s.host.huRx.length + 1 → bitOf (t.rd F.REG_EVT_RAW 0x0B4 0) 0 = true) ∧
        Changes s t [(F.HIO_HU_STAT_RX_COUNT, 0, 0), (F.HIO_HU_STAT_TX_COUNT, 0, 0), (F.REG_EVT_RAW, 0x0B4, 0)]) ∧
    (4096 ≤ s.host.huRx.length →
      ∃ t, exec (.huRxByte b true) s = .next t ∧ t.host = s.host ∧
        t.rd F.HIO_HU_OVF_CNT 0 0 = satInc (s.rd F.HIO_HU_OVF_CNT 0 0) % 2 ^ F.HIO_HU_OVF_CNT.width ∧
        Changes s t [(F.HIO_HU_OVF_CNT, 0, 0), (F.REG_EVT_RAW, 0x0B4, 0)])) ∧
  (∀ (v : Word) (s : State), s.live 0x0B4 = true →
    (s.host.huTx.length < 4096 →
      ∃ t, exec (.huTxByte v) s = .next t ∧ t.host = { s.host with huTx := s.host.huTx ++ [BitVec.ofNat 8 v.toNat] } ∧
        Changes s t [(F.HIO_HU_STAT_RX_COUNT, 0, 0), (F.HIO_HU_STAT_TX_COUNT, 0, 0), (F.REG_EVT_RAW, 0x0B4, 0)]) ∧
    (4096 ≤ s.host.huTx.length → exec (.huTxByte v) s = .next s)) ∧
  (∀ (b : Byte) (l : List Byte) (s : State), s.host.gnTx = b :: l → s.gnssOn = true →
    ∃ t, exec (.uartByteSent 0) s = .next t ∧ t.host = { s.host with gnTx := l } ∧ t.outs = .uart 0 b :: s.outs ∧
      Changes s t [(F.ETH_UART_STAT_RX_COUNT, 0, 0), (F.ETH_UART_STAT_TX_COUNT, 0, 0)]) ∧
  (∀ (b : Byte) (l : List Byte) (s : State), s.host.huTx = b :: l → s.hioOn = true → s.rdB F.HIO_HU_CFG_EN 0 0 = true →
    ∃ t, exec (.uartByteSent 1) s = .next t ∧ t.host = { s.host with huTx := l } ∧ t.outs = .uart 1 b :: s.outs ∧
      (l.length ≤ s.rd F.HIO_HU_LEVEL_TX_LEVEL 0 0 → bitOf (t.rd F.REG_EVT_RAW 0x0B4 0) 1 = true) ∧
      Changes s t [(F.HIO_HU_STAT_RX_COUNT, 0, 0), (F.HIO_HU_STAT_TX_COUNT, 0, 0), (F.REG_EVT_RAW, 0x0B4, 0)]) ∧
  (∀ (n : Fin 11) (d l : Bool) (s : State),
    ∃ t, exec (.gpioEdge n d l) s = .next t ∧ bitOf t.host.pinDrv n = d ∧
      Changes s t [(F.HIO_GPIO_IN, 0, 0), (F.HIO_GPIO_EDGE_GT, 0, 0), (F.REG_EVT_RAW, 0x0B4, 0)] ∧
      (s.hioOn = true → bitOf (t.rd F.HIO_GPIO_IN 0 0) n = t.gpioLevel n)) ∧
  (∀ (n : Fin 11) (s : State), s.hioOn = true → bitOf (s.rd F.HIO_GPIO_OE 0 0) n = false → bitOf (s.rd F.HIO_GPIO_RISE_EN 0 0) n = true →
    s.gpioLevel n = false →
    ∃ t, exec (.gpioEdge n true true) s = .next t ∧ t.gpioLevel n = true ∧ bitOf (t.rd F.REG_EVT_RAW 0x0B4 0) (n.val + 2) = true ∧
      t.rd F.HIO_GPIO_EDGE_GT 0 0 = s.gt % 2 ^ F.HIO_GPIO_EDGE_GT.width)

/-- R585, R586, R590, R591, R594, R640, R724, R728 (no mailbox command waiting; the places of a resume record are the model's: log 64). -/
def Obligations.BootAndReady : Prop :=
  (∀ s : State, s.pwr.mainOn = true → s.rd F.FW_STATE_STATE 0 0 = 0 → s.rstCause ≠ 4 → s.bootSources.1 = false →
    s.rdB F.TV_STAT_LARDER_INIT_DONE 0 0 = true →
    ∃ t, exec .bootSelect s = .next t ∧ t.rd F.FW_STATE_STATE 0 0 = 1 ∧ Changes s t [(F.FW_STATE_STATE, 0, 0)]) ∧
  (∀ s : State, s.pwr.mainOn = true → s.rd F.FW_STATE_STATE 0 0 = 0 → s.rstCause ≠ 4 → s.bootSources.1 = true → s.bootRec.trial = false →
    ∃ t, exec .bootSelect s = .next t ∧
      (s.slotCode s.bootRec.active = 0 → t.rd F.FW_STATE_STATE 0 0 = 3 ∧
        t.rd F.FW_STATE_SRC 0 0 = s.bootRec.active % 2 ^ F.FW_STATE_SRC.width ∧ t.rd F.FW_STATE_FALLBACK 0 0 = 0 ∧
        t.rd F.FW_BOOT_STAT_RESULT 0 0 = 0) ∧
      ((s.slotTry s.bootRec.active).2 ≠ 0 → ((s.slotTry s.bootRec.active).1.slotTry (3 - s.bootRec.active)).2 ≠ 0 → s.bootSources.2 = false →
        t.rd F.FW_STATE_STATE 0 0 = 15 ∧ t.rd F.FW_BOOT_STAT_RESULT 0 0 = 0x30 ∧ ∀ a, t.byteAt a = s.byteAt a)) ∧
  (∀ (v : Word) (o l : Nat) (s : State), s.live 0x0D0 = true → v.toNat % 2 = 1 → s.rd F.FW_STATE_STATE 0 0 = 1 →
    o = s.rd F.FW_HOST_LOAD_OFS 0 0 → l = s.rd F.FW_HOST_LOAD_LEN 0 0 → (o % 4096 ≠ 0 ∨ 0x1000000 < o + l) →
    ∃ t, exec (.bootDoorbell v) s = .next t ∧ t.rd F.FW_BOOT_STAT_RESULT 0 0 = 0x20 ∧ Changes s t [(F.FW_BOOT_STAT_RESULT, 0, 0)]) ∧
  (∀ (v : Word) (o l : Nat) (img : List Byte) (s : State), s.live 0x0D0 = true → v.toNat % 2 = 1 → s.rd F.FW_STATE_STATE 0 0 = 1 →
    o = s.rd F.FW_HOST_LOAD_OFS 0 0 → l = s.rd F.FW_HOST_LOAD_LEN 0 0 → o % 4096 = 0 → o + l ≤ 0x1000000 →
    s.peek (larderBase + o) l = some (img, false) →
    ∃ t, exec (.bootDoorbell v) s = .next t ∧
      ((s.noteRead (larderBase + o) l).imageCode img l = 0 → t.rd F.FW_STATE_STATE 0 0 = 3 ∧ t.rd F.FW_STATE_SRC 0 0 = 3 ∧
        t.rd F.FW_BOOT_STAT_RESULT 0 0 = 3) ∧
      ((s.noteRead (larderBase + o) l).imageCode img l ≠ 0 → t.rd F.FW_STATE_STATE 0 0 = 1 ∧
        t.rd F.FW_BOOT_STAT_RESULT 0 0 = (s.noteRead (larderBase + o) l).imageCode img l % 2 ^ F.FW_BOOT_STAT_RESULT.width ∧
        ∀ a, t.byteAt a = s.byteAt a)) ∧
  (∀ (b : FwBoot) (s : State), s.pwr.mainOn = true → s.rstCause ≠ 4 → s.rd F.FW_STATE_STATE 0 0 = 3 → s.fw.cmd = none →
    ∃ t, exec (.fwReady b) s = .next t ∧ t.rd F.FW_STATE_STATE 0 0 = 4 ∧ bitOf (t.rd F.REG_EVT_RAW 0x0D0 0) 1 = true ∧
      t.rd F.ORR_ZC_DELAY 0 0 = b.zcDelay.toNat % 2 ^ F.ORR_ZC_DELAY.width ∧ t.rd F.ORR_GRID_CTRL_NOMINAL_HZ 0 0 = b2n b.hz60 ∧
      t.rd F.OB_CTRL_EN 0 0 = 1) ∧
  (∀ (b : FwBoot) (s : State), s.pwr.mainOn = true → s.rstCause = 4 → s.rd F.FW_STATE_STATE 0 0 = 0 → s.fw.cmd = none →
    ∃ t, exec (.fwReady b) s = .next t ∧ t.br.arbOn = true ∧ t.pwr.saved = [] ∧ ∀ a, t.byteAt a = s.byteAt a)

/-- R597, R598, R600, R601, R603, R605, R611, R612, R724 (firmware READY where it answers). -/
def Obligations.MailboxCommands : Prop :=
  (∀ (c : Instr) (src : Src) (s : State), (c = .info src ∨ (∃ l, c = .updBegin src l) ∨ (∃ o a l, c = .updWrite src o a l) ∨ c = .updVerify src ∨
      c = .updActivateNextBoot src ∨ c = .updActivateLive src ∨ c = .updConfirm src ∨ c = .updRevert src ∨ c = .updAbort src ∨ c = .reboot src ∨
      ∃ v, c = .tapLock src v) → s.live 0x0D0 = true → (s.mbPermits src = false ∨ s.rdB F.FW_MB_STAT_BUSY 0 0 = true) →
    ∃ t, exec c s = .next t ∧ t.rd F.FW_MB_DENY_CNT 0 0 = satInc (s.rd F.FW_MB_DENY_CNT 0 0) % 2 ^ F.FW_MB_DENY_CNT.width ∧ t.fw = s.fw ∧
      Changes s t [(F.FW_MB_DENY_CNT, 0, 0), (F.FW_MB_ARG, 0, 0), (F.FW_MB_ARG, 0, 1), (F.FW_MB_ARG, 0, 2), (F.FW_MB_ARG, 0, 3)]) ∧
  (∀ (src : Src) (s : State), s.live 0x0D0 = true → s.mbPermits src = true → s.rdB F.FW_MB_STAT_BUSY 0 0 = false → s.fwReady = true →
    ∃ t, exec (.info src) s = .next t ∧ t.rd F.FW_MB_STAT_BUSY 0 0 = 0 ∧ t.rd F.FW_MB_STAT_RESULT 0 0 = 0 ∧ t.fw.cmd = none ∧
      bitOf (t.rd F.REG_EVT_RAW 0x0D0 0) 0 = true ∧ ∀ a, t.byteAt a = s.byteAt a) ∧
  (∀ (src : Src) (l : Word) (s : State), s.live 0x0D0 = true → s.mbPermits src = true → s.rdB F.FW_MB_STAT_BUSY 0 0 = false → s.fwReady = true →
    (s.updBlocked = true →
      ∃ t, exec (.updBegin src l) s = .next t ∧ t.rd F.FW_MB_STAT_BUSY 0 0 = 0 ∧ t.rd F.FW_MB_STAT_RESULT 0 0 = 0x09) ∧
    (s.updBlocked = false → s.rdB F.PWR_PS_STAT_BUSY 0 0 = false → (l.toNat = 0 ∨ l.toNat % 4096 ≠ 0 ∨ imageMax < l.toNat) →
      ∃ t, exec (.updBegin src l) s = .next t ∧ t.rd F.FW_MB_STAT_BUSY 0 0 = 0 ∧ t.rd F.FW_MB_STAT_RESULT 0 0 = 0x02) ∧
    (s.updBlocked = false → s.rdB F.PWR_PS_STAT_BUSY 0 0 = false → 0 < l.toNat → l.toNat % 4096 = 0 → l.toNat ≤ imageMax → s.flashHeld = false →
      ∃ t, exec (.updBegin src l) s = .next t ∧ t.rd F.FW_MB_STAT_BUSY 0 0 = 1 ∧ t.fw.acting = true ∧
        t.fw.cmd.map (fun x => (x.1, x.2.head?)) = some (0x10, some s.targetSlot) ∧ ∀ a, t.byteAt a = s.byteAt a)) ∧
  (∀ (src : Src) (o l : Word) (ad : BitVec 64) (s : State), s.live 0x0D0 = true → s.mbPermits src = true →
    s.rdB F.FW_MB_STAT_BUSY 0 0 = false → s.fwReady = true → s.slotStat s.targetSlot = 1 →
    ((o.toNat % 4096 ≠ 0 ∨ l.toNat % 4096 ≠ 0 ∨ 0x400000 < l.toNat) →
      ∃ t, exec (.updWrite src o ad l) s = .next t ∧ t.rd F.FW_MB_STAT_BUSY 0 0 = 0 ∧ t.rd F.FW_MB_STAT_RESULT 0 0 = 0x02) ∧
    (o.toNat % 4096 = 0 → 4096 ≤ o.toNat → l.toNat % 4096 = 0 → l.toNat ≤ 0x400000 → o.toNat + l.toNat ≤ slotSize →
      updSource ad.toNat l.toNat = true → s.flashHeld = false →
      ∃ t, exec (.updWrite src o ad l) s = .next t ∧ t.rd F.FW_MB_STAT_BUSY 0 0 = 1 ∧ t.fw.acting = true ∧
        t.fw.cmd.map (fun x => x.1) = some 0x11 ∧ ∀ a, t.byteAt a = s.byteAt a)) ∧
  (∀ (c : Instr) (n : Nat) (src : Src) (s : State), ((c = .updVerify src ∧ n = 0x12) ∨ (c = .updAbort src ∧ n = 0x16)) → s.live 0x0D0 = true →
    s.mbPermits src = true → s.rdB F.FW_MB_STAT_BUSY 0 0 = false → s.fwReady = true → s.flashHeld = false →
    ∃ t, exec c s = .next t ∧ t.rd F.FW_MB_STAT_BUSY 0 0 = 1 ∧ t.fw.acting = true ∧ t.fw.cmd.map (fun x => x.1) = some n ∧
      ∀ a, t.byteAt a = s.byteAt a) ∧
  (∀ (src : Src) (s : State), s.live 0x0D0 = true → s.mbPermits src = true → s.rdB F.FW_MB_STAT_BUSY 0 0 = false → s.fwReady = true →
    s.updBlocked = false → s.slotStat s.targetSlot = 2 → s.flashHeld = false →
    ∃ t, exec (.updActivateNextBoot src) s = .next t ∧ t.rd F.FW_MB_STAT_BUSY 0 0 = 0 ∧ t.rd F.FW_MB_STAT_RESULT 0 0 = 0 ∧
      bitOf (t.rd F.REG_EVT_RAW 0x0D0 0) 0 = true) ∧
  (∀ (src : Src) (s : State), s.live 0x0D0 = true → s.mbPermits src = true → s.rdB F.FW_MB_STAT_BUSY 0 0 = false → s.fwReady = true →
    s.updBlocked = false → s.slotStat s.targetSlot = 2 → s.rdB F.PWR_PS_STAT_BUSY 0 0 = false →
    ∃ t, exec (.updActivateLive src) s = .next t ∧
      (s.slotCode s.targetSlot = 0 → sectBytes (s.slotImage s.targetSlot) 2 = s.fw.pilotSec →
        leAt (s.slotImage s.targetSlot) 0x1A 2 ≤ s.fw.hver → s.fw.hver ≤ leAt (s.slotImage s.targetSlot) 0x18 2 →
        t.fw.acting = true ∧ t.fw.standby.map (fun x => x.1) = some s.targetSlot ∧ t.rd F.FW_MB_STAT_BUSY 0 0 = 1) ∧
      (s.slotCode s.targetSlot ≠ 0 → t.rd F.FW_MB_STAT_BUSY 0 0 = 0 ∧
        t.rd F.FW_MB_STAT_RESULT 0 0 = s.slotCode s.targetSlot % 2 ^ F.FW_MB_STAT_RESULT.width)) ∧
  (∀ (src : Src) (s : State), s.live 0x0D0 = true → s.mbPermits src = true → s.rdB F.FW_MB_STAT_BUSY 0 0 = false → s.fwReady = true →
    (s.rd F.FW_STATE_SRC 0 0 = 3 ∨ (s.bootRec.trial = false ∧ s.rdB F.FW_STATE_LIVE 0 0 = false) →
      ∃ t, exec (.updConfirm src) s = .next t ∧ t.rd F.FW_MB_STAT_RESULT 0 0 = 0 ∧ t.rd F.FW_MB_STAT_BUSY 0 0 = 0 ∧ ∀ a, t.byteAt a = s.byteAt a) ∧
    (s.rd F.FW_STATE_SRC 0 0 ≠ 3 → s.flashHeld = false → s.rdB F.FW_STATE_LIVE 0 0 = true →
      ∃ t, exec (.updConfirm src) s = .next t ∧ t.rd F.FW_MB_STAT_RESULT 0 0 = 0 ∧ t.rd F.FW_STATE_LIVE 0 0 = 0) ∧
    (s.rd F.FW_STATE_SRC 0 0 ≠ 3 → s.flashHeld = false → s.rdB F.FW_STATE_LIVE 0 0 = false → s.bootRec.trial = true →
      s.rdB F.FW_STATE_TRIAL 0 0 = true →
      ∃ t, exec (.updConfirm src) s = .next t ∧ t.rd F.FW_MB_STAT_RESULT 0 0 = 0 ∧ t.rd F.FW_STATE_TRIAL 0 0 = 0)) ∧
  (∀ (src : Src) (s : State), s.live 0x0D0 = true → s.mbPermits src = true → s.rdB F.FW_MB_STAT_BUSY 0 0 = false → s.fwReady = true →
    s.rdB F.FW_STATE_LIVE 0 0 = false →
    (s.rdB F.FW_STATE_TRIAL 0 0 = true → s.bootRec.trial = true → s.flashHeld = false →
      ∃ t, exec (.updRevert src) s = .next t ∧ t.rd F.FW_MB_STAT_RESULT 0 0 = 0 ∧ t.rd F.FW_MB_STAT_BUSY 0 0 = 0 ∧
        bitOf (t.rd F.REG_EVT_RAW 0x0D0 0) 0 = true) ∧
    (s.rdB F.FW_STATE_TRIAL 0 0 = false → s.updBlocked = false →
      ∃ t, exec (.updRevert src) s = .next t ∧ t.rd F.FW_MB_STAT_RESULT 0 0 = 0x01 ∧ ∀ a, t.byteAt a = s.byteAt a)) ∧
  (∀ (src : Src) (s : State), s.live 0x0D0 = true → s.mbPermits src = true → s.rdB F.FW_MB_STAT_BUSY 0 0 = false → s.fwReady = true →
    (s.ctxBusy = false →
      ∃ t, exec (.reboot src) s = .next t ∧ t.pwr.mainOn = true ∧ t.rd F.SYS_RST_CAUSE_CAUSE 0 0 = 3 ∧ t.rd F.FW_STATE_STATE 0 0 = 0 ∧
        t.rd F.PWR_PAD_HELD 0 0 = 0xFFFFFF ∧ t.fw.cmd = none ∧ (∀ k < 0x1000000, t.byteAt (larderBase + k) = s.byteAt (larderBase + k)) ∧
        ∀ k < 18 * vaultSize, t.byteAt (cellarBase + k) = s.byteAt (cellarBase + k)) ∧
    (s.ctxBusy = true →
      ∃ t, exec (.reboot src) s = .next t ∧ t.rd F.FW_MB_STAT_RESULT 0 0 = 0x01 ∧ t.pwr = s.pwr ∧ ∀ a, t.byteAt a = s.byteAt a)) ∧
  (∀ (src : Src) (v : Word) (s : State), s.live 0x0D0 = true → s.mbPermits src = true → s.rdB F.FW_MB_STAT_BUSY 0 0 = false → s.fwReady = true →
    (v.toNat = 2 →
      ∃ t, exec (.tapLock src v) s = .next t ∧ t.rd F.FW_MB_STAT_RESULT 0 0 = 0 ∧
        t.rd F.SEC_FUSE_CFG_JTAG_LOCK 0 0 = (s.rd F.SEC_FUSE_CFG_JTAG_LOCK 0 0 ||| 2) % 2 ^ F.SEC_FUSE_CFG_JTAG_LOCK.width) ∧
    (v.toNat ≠ 2 →
      ∃ t, exec (.tapLock src v) s = .next t ∧ t.rd F.FW_MB_STAT_RESULT 0 0 = 0x02 ∧
        t.rd F.SEC_FUSE_CFG_JTAG_LOCK 0 0 = s.rd F.SEC_FUSE_CFG_JTAG_LOCK 0 0))

/-- R599, R607, R608, R612 (no closing record held over the handover). -/
def Obligations.MailboxEndsHandoverAndTap : Prop :=
  (∀ (n k : Nat) (l : List Nat) (s : State), s.fw.cmd = some (n, k :: l) → s.fw.standby = none → s.fwReady = true → s.fw.acting = true →
    ∃ t, exec (.mbComplete true) s = .next t ∧ t.fw.cmd = none ∧ t.rd F.FW_MB_STAT_BUSY 0 0 = 0 ∧ t.rd F.FW_MB_STAT_RESULT 0 0 = 0x0D ∧
      bitOf (t.rd F.REG_EVT_RAW 0x0D0 0) 0 = true) ∧
  (∀ (k : Nat) (l : List Nat) (s : State), s.fw.cmd = some (0x16, k :: l) → s.fw.standby = none → s.fwReady = true → s.fw.acting = true →
    ∃ t, exec (.mbComplete false) s = .next t ∧ t.fw.cmd = none ∧ t.rd F.FW_MB_STAT_RESULT 0 0 = 0 ∧
      (∀ i < slotSize, t.byteAt (flashBase + slotOfs k + i) = 0xFF#8) ∧
      ∀ a, (a < flashBase + slotOfs k ∨ flashBase + slotOfs k + slotSize ≤ a) → t.byteAt a = s.byteAt a) ∧
  (∀ (k : Nat) (l : List Nat) (s : State), s.fw.cmd = some (0x12, k :: l) → s.fw.standby = none → s.fwReady = true → s.fw.acting = true →
    ∃ t, exec (.mbComplete false) s = .next t ∧ t.fw.cmd = none ∧ t.rd F.FW_MB_STAT_BUSY 0 0 = 0 ∧
      t.rd F.FW_MB_STAT_RESULT 0 0 = s.imageCode (s.slotImage k) imageMax % 2 ^ F.FW_MB_STAT_RESULT.width ∧
      (s.imageCode (s.slotImage k) imageMax ≠ 0 → ∀ a, t.byteAt a = s.byteAt a)) ∧
  (∀ (b : Bool) (p : BitVec 12) (s : State), s.pwr.mainOn = true → s.rdB F.SCH_SCHED_STAT_HANDOVER 0 0 = false → s.fwReady = true →
    s.fw.standby.isSome = true →
    ∃ t, exec (.liveHandover b p) s = .next t ∧ t.rd F.SCH_SCHED_STAT_HANDOVER 0 0 = 1 ∧ t.rd F.FW_STATE_STATE 0 0 = 5 ∧
      Changes s t [(F.SCH_SCHED_STAT_HANDOVER, 0, 0), (F.FW_STATE_STATE, 0, 0)]) ∧
  (∀ (p : BitVec 12) (k : Nat) (h d : List Byte) (c : Nat × List Nat) (s : State), s.pwr.mainOn = true →
    s.rdB F.SCH_SCHED_STAT_HANDOVER 0 0 = true → s.fw.standby = some (k, h, d) → s.fw.cmd = some c →
    s.sch.cmds.filter (fun x => x.phase == .commit && x.desc.cls != 0) = [] →
    (∃ t, exec (.liveHandover true p) s = .next t ∧ t.rd F.SCH_SCHED_STAT_HANDOVER 0 0 = 0 ∧ t.rd F.FW_STATE_STATE 0 0 = 4 ∧
      t.fw.running = 1 - s.fw.running ∧ t.rd F.FW_STATE_SRC 0 0 = k % 2 ^ F.FW_STATE_SRC.width ∧ t.rd F.FW_LIVE_PAUSE_US 0 0 = p.toNat ∧
      t.rd F.FW_LIVE_CNT 0 0 = satInc (s.rd F.FW_LIVE_CNT 0 0) % 2 ^ F.FW_LIVE_CNT.width ∧ t.rd F.FW_MB_STAT_RESULT 0 0 = 0 ∧
      bitOf (t.rd F.REG_EVT_RAW 0x0D0 0) 2 = true ∧ ∀ a, t.byteAt a = s.byteAt a) ∧
    (∃ t, exec (.liveHandover false p) s = .next t ∧ t.rd F.SCH_SCHED_STAT_HANDOVER 0 0 = 0 ∧ t.rd F.FW_STATE_STATE 0 0 = 4 ∧
      t.fw.running = s.fw.running ∧ t.rd F.FW_MB_STAT_RESULT 0 0 = 0x0A ∧ bitOf (t.rd F.REG_EVT_RAW 0x0D0 0) 3 = true ∧
      ∀ a, t.byteAt a = s.byteAt a)) ∧
  (∀ (i : Fin 5) (s : State), s.pwr.mainOn = true →
    ((s.rd F.SEC_FUSE_CFG_JTAG_LOCK 0 0 = 0 ∨ i.val ≤ 1 ∨ (s.rd F.SEC_FUSE_CFG_JTAG_LOCK 0 0 = 1 ∧ i.val ≤ 3)) →
      ∃ t, exec (.tapInstruction i) s = .next t ∧ t.outs = .tap i :: s.outs ∧ Changes s t []) ∧
    (s.rd F.SEC_FUSE_CFG_JTAG_LOCK 0 0 ≠ 0 → (3 < i.val ∨ (1 < i.val ∧ s.rd F.SEC_FUSE_CFG_JTAG_LOCK 0 0 ≠ 1)) →
      ∃ t, exec (.tapInstruction i) s = .next t ∧ t.outs = .tap 0 :: s.outs ∧
        t.rd F.SEC_TAP_DENY_CNT 0 0 = satInc (s.rd F.SEC_TAP_DENY_CNT 0 0) % 2 ^ F.SEC_TAP_DENY_CNT.width ∧
        bitOf (t.rd F.REG_EVT_RAW 0x0E0 0) 2 = true ∧ Changes s t [(F.SEC_TAP_DENY_CNT, 0, 0), (F.REG_EVT_RAW, 0x0E0, 0)]))

/-- R615, R616, R619, R622, R623, R626 to R630 (Kettles with no command; the canary's failure while firmware does not act). -/
def Obligations.RepairAndHealth : Prop :=
  (∀ (v : Word) (s : State), s.live 0x001 = true → s.rdB F.RP_RM_STAT_BUSY 0 0 = true → exec (.rmCmd v) s = .next s) ∧
  (∀ (v : Word) (k q : Nat) (s : State), s.live 0x001 = true → s.rdB F.RP_RM_STAT_BUSY 0 0 = false → k = v.toNat % 32 → k < 16 →
    s.fwReady = true → s.rd F.RP_KMAP_STATE 0 k ≠ 3 → s.rep.waiting.all (fun w => w.1 != k) = true → s.spareTile = some q →
    ∃ t, exec (.rmCmd v) s = .next t ∧ t.rep.waiting = s.rep.waiting ++ [(k, 15)] ∧
      (t.rep.ledger.getLast?).map (fun e => (e.kind, e.logical, e.cause)) = some (2, k, 15) ∧ bitOf (t.rd F.REG_EVT_RAW 0x001 0) 0 = true ∧
      Changes s t [(F.RP_LEDGER_SEQ, 0, 0), (F.RP_LEDGER_FREE, 0, 0), (F.REG_EVT_RAW, 0x001, 0)]) ∧
  (∀ (k cause q : Nat) (l : List (Nat × Nat)) (s : State), s.fwReady = true → s.rdB F.RP_RM_STAT_BUSY 0 0 = false →
    s.rep.waiting = (k, cause) :: l → s.spareTile = some q → (s.tile (s.rd F.RP_KMAP_PHYS 0 k)).slots = [] →
    (s.tile (s.rd F.RP_KMAP_PHYS 0 k)).canary = false →
    ∃ t, exec .remapStart s = .next t ∧ t.rep.waiting = l ∧ t.rd F.RP_RM_STAT_BUSY 0 0 = 1 ∧
      t.rd F.RP_RM_STAT_LOGICAL 0 0 = k % 2 ^ F.RP_RM_STAT_LOGICAL.width ∧
      t.rd F.RP_RM_STAT_SRC 0 0 = s.rd F.RP_KMAP_PHYS 0 k % 2 ^ F.RP_RM_STAT_SRC.width ∧ t.rd F.RP_RM_STAT_DST 0 0 = q ∧
      t.rd F.RP_KMAP_STATE 0 k = 1 ∧ ∀ a, t.byteAt a = s.byteAt a) ∧
  (∀ (k p q : Nat) (s : State), k = s.rd F.RP_RM_STAT_LOGICAL 0 0 → p = s.rd F.RP_RM_STAT_SRC 0 0 → q = s.rd F.RP_RM_STAT_DST 0 0 →
    s.rdB F.RP_RM_STAT_BUSY 0 0 = true → s.rd F.RP_KMAP_STATE 0 k = 1 → (s.tile p).slots = [] →
    ∃ t, exec .drainComplete s = .next t ∧ t.rd F.RP_KMAP_STATE 0 k = 2 ∧ t.rd F.KT_CTRL_HALT p 0 = 1 ∧ t.rd F.VC_STAT_MIRROR p 0 = 1 ∧
      t.rd F.VC_STAT_MIRROR q 0 = 1 ∧
      Changes s t [(F.RP_KMAP_STATE, 0, k), (F.KT_CTRL_HALT, p, 0), (F.VC_STAT_MIRROR, p, 0), (F.VC_STAT_MIRROR, q, 0)]) ∧
  (∀ (k p q : Nat) (s : State), k = s.rd F.RP_RM_STAT_LOGICAL 0 0 → p = s.rd F.RP_RM_STAT_SRC 0 0 → q = s.rd F.RP_RM_STAT_DST 0 0 → p < 18 →
    q < 18 → p ≠ q → k < 16 → s.rdB F.RP_RM_STAT_BUSY 0 0 = true → s.rd F.RP_KMAP_STATE 0 k = 2 → Memory.wf s.mem = true →
    ∃ t, exec (.migrationComplete false) s = .next t ∧ t.rd F.RP_KMAP_PHYS 0 k = q ∧ t.rd F.RP_KMAP_STATE 0 k = 0 ∧
      t.rd F.RP_TILE_STAT_STATE 0 p = 2 ∧ t.rd F.RP_TILE_STAT_STATE 0 q = 1 ∧ t.rd F.RP_RM_STAT_BUSY 0 0 = 0 ∧
      t.rd F.RP_REMAP_CNT 0 0 = satInc (s.rd F.RP_REMAP_CNT 0 0) % 2 ^ F.RP_REMAP_CNT.width ∧ bitOf (t.rd F.REG_EVT_RAW 0x001 0) 1 = true ∧
      ∀ o < vaultSize, t.byteAt (vaultPlace q o) = s.byteAt (vaultPlace p o)) ∧
  (∀ (c : Instr) (b : Bool) (p : Fin 18) (u : UnitRepair) (j : Nat) (s : State),
    ((c = .columnRemap p ∧ b = false) ∨ (c = .bankRemap p ∧ b = true)) → s.rep.units.find? (fun x => x.tile == p.val && x.bank == b) = some u →
    s.spareUnit p b = some j → (s.tile p).slots = [] →
    ∃ t, exec c s = .next t ∧ t.rep.units = s.rep.units.filter (fun x => x != u) ∧
      (b = false → t.rd F.RP_COL_REMAP_CNT 0 0 = satInc (s.rd F.RP_COL_REMAP_CNT 0 0) % 2 ^ F.RP_COL_REMAP_CNT.width) ∧
      (b = true → t.rd F.RP_BANK_REMAP_CNT 0 0 = satInc (s.rd F.RP_BANK_REMAP_CNT 0 0) % 2 ^ F.RP_BANK_REMAP_CNT.width)) ∧
  (∀ (k p : Nat) (s : State), s.canaryNext = some k → s.tileOf k = some p → s.fwReady = true → s.rep.canary = none → (s.tile p).slots = [] →
    8 ≤ (s.tile p).granuleFree →
    ∃ t, exec .canaryStart s = .next t ∧ t.rep.canary = some k ∧ (t.tile p).canary = true ∧ Changes s t []) ∧
  (∀ (k p : Nat) (s : State), s.rep.canary = some k → s.tileOf k = some p →
    ∃ t, exec (.canaryComplete [] [] false) s = .next t ∧ t.rep.canary = none ∧ t.rep.turn = (k + 1) % 16 ∧
      t.rd F.RP_CANARY_PASS_GT 0 p = s.gt % 2 ^ F.RP_CANARY_PASS_GT.width ∧ Changes s t [(F.RP_CANARY_PASS_GT, 0, p)]) ∧
  (∀ (k p : Nat) (cs : List (Fin 128)) (bs : List (Fin 32)) (s : State), s.rep.canary = some k → s.tileOf k = some p → s.fwReady = false →
    ∃ t, exec (.canaryComplete cs bs true) s = .next t ∧ t.rep.canary = none ∧
      t.rd F.RP_CANARY_FAIL_CNT 0 0 = satInc (s.rd F.RP_CANARY_FAIL_CNT 0 0) % 2 ^ F.RP_CANARY_FAIL_CNT.width ∧
      bitOf (t.rd F.REG_EVT_RAW 0x001 0) 3 = true ∧ Changes s t [(F.RP_CANARY_FAIL_CNT, 0, 0), (F.REG_EVT_RAW, 0x001, 0)]) ∧
  (∀ (p : Fin 18) (m : BitVec 8) (s : State), s.tileGated p = false → s.rd F.RP_AGE_CFG_FAIL 0 0 ≤ m.toNat →
    ∃ t, exec (.ageRefresh p m) s = .next t ∧ t.rd F.RP_TILE_STAT_AGE_MARGIN 0 p = m.toNat ∧
      (m.toNat < s.rd F.RP_AGE_CFG_WARN 0 0 → s.rd F.RP_AGE_CFG_WARN 0 0 ≤ s.rd F.RP_TILE_STAT_AGE_MARGIN 0 p →
        bitOf (t.rd F.REG_EVT_RAW 0x001 0) 4 = true) ∧ Changes s t [(F.RP_TILE_STAT_AGE_MARGIN, 0, p), (F.REG_EVT_RAW, 0x001, 0)])

/-- R661 (its ACK and credit fields are still taken). -/
def Obligations.BadFlitsAreDiscarded : Prop :=
  (∀ (n : Fin 2) (bs : List Byte) (s : State), s.skOn = true → s.skUp n = true → (bs.length ≠ 64 ∨ leAt bs 60 4 ≠ crc32c (bs.take 60)) →
    ∃ t, exec (.flitReceive n bs) s = .next t ∧ t.rd F.SK_CRC_ERR_CNT 0 n = satInc (s.rd F.SK_CRC_ERR_CNT 0 n) % 2 ^ F.SK_CRC_ERR_CNT.width ∧
      (t.skPort n) = { s.skPort n with nakSent := true } ∧
      ((s.skPort n).nakSent = false → t.outs = .skewer n (skFlit 32768 (((s.skPort n).rxSeq + 4095) % 4096) 1 0 0 []) :: s.outs) ∧
      ((s.skPort n).nakSent = true → t.outs = s.outs) ∧ Changes s t [(F.SK_CRC_ERR_CNT, 0, n)]) ∧
  (∀ (n : Fin 2) (bs : List Byte) (s : State), s.skOn = true → s.skUp n = true → bs.length = 64 → leAt bs 60 4 = crc32c (bs.take 60) →
    bitOf (leAt bs 0 2) 15 = false → leAt bs 0 2 % 4096 ≠ (s.skPort n).rxSeq →
    ∃ t, exec (.flitReceive n bs) s = .next t ∧ (t.skPort n).rxSeq = (s.skPort n).rxSeq ∧ (t.skPort n).cur = (s.skPort n).cur ∧
      t.rd F.SK_RX_FLITS 0 n = s.rd F.SK_RX_FLITS 0 n ∧ t.sch = s.sch ∧ ∀ a, t.byteAt a = s.byteAt a)

/-- R643, R658 to R663 (ports with nothing waiting, no transaction out by the port). -/
def Obligations.SkewerLinks : Prop :=
  (∀ (n : Fin 2) (m : Fin 8) (l : BitVec 4) (s : State), s.skOn = true → s.rd F.SK_PT_STAT_STATE 0 n = 1 → m.val ≠ s.skMe → m.val = s.skWants n →
    skWidth l.toNat ≠ 0 →
    ∃ t, exec (.portTrained n m l) s = .next t ∧ t.rd F.SK_PT_STAT_STATE 0 n = 2 ∧ t.rd F.SK_PT_STAT_NEIGH_ID 0 n = m ∧
      t.rd F.SK_PT_STAT_NEIGH_VALID 0 n = 1 ∧ t.rd F.SK_PT_STAT_WIDTH 0 n = skWidth l.toNat % 2 ^ F.SK_PT_STAT_WIDTH.width ∧
      t.skPort n = { num := n } ∧ t.rd F.SK_PT_CRED0_VCA_AVAIL 0 n = 96 ∧ t.rd F.SK_PT_CRED0_VCB_AVAIL 0 n = 96 ∧
      t.rd F.SK_PT_CRED1_VCC_AVAIL 0 n = 32 ∧ t.rd F.SK_PT_CRED1_VCD_AVAIL 0 n = 8 ∧ bitOf (t.rd F.REG_EVT_RAW 0x0C0 0) 0 = true ∧
      ∀ a, t.byteAt a = s.byteAt a) ∧
  (∀ (n : Fin 2) (m : Fin 8) (l : BitVec 4) (s : State), s.skOn = true → s.rd F.SK_PT_STAT_STATE 0 n = 1 →
    (m.val = s.skMe ∨ m.val ≠ s.skWants n) →
    ∃ t, exec (.portTrained n m l) s = .next t ∧ t.rd F.SK_PT_STAT_WIRING 0 n = 1 ∧ t.rd F.SK_PT_STAT_STATE 0 n = 1 ∧
      bitOf (t.rd F.REG_EVT_RAW 0x0C0 0) 1 = true ∧ ∀ a, t.byteAt a = s.byteAt a) ∧
  (∀ (n : Fin 2) (bs : List Byte) (s : State), s.skOn = true → s.skUp n = true → bs.length = 64 → leAt bs 60 4 = crc32c (bs.take 60) →
    bitOf (leAt bs 0 2) 15 = false → leAt bs 0 2 % 4096 = (s.skPort n).rxSeq → bitOf (leAt bs 2 2) 12 = false →
    bitOf (leAt bs 0 2) 14 = true → leAt ((bs.drop 8).take 52) 1 1 / 16 % 8 = s.skMe → (s.skPort 0).waiting = [] → (s.skPort 1).waiting = [] →
    ∃ t, exec (.flitReceive n bs) s = .next t ∧ (t.skPort n).rxSeq = ((s.skPort n).rxSeq + 1) % 4096 ∧
      t.rd F.SK_RX_FLITS 0 n = satInc (s.rd F.SK_RX_FLITS 0 n) % 2 ^ F.SK_RX_FLITS.width ∧
      t.outs = .skewer n (skFlit 32768 (s.skPort n).rxSeq 0 (bitsOf (leAt bs 0 2) 12 2) 1 []) :: s.outs ∧ ∀ a, t.byteAt a = s.byteAt a) ∧
  (∀ (n : Fin 2) (f : SkFlit) (l : List SkFlit) (s : State), s.skOn = true → s.skUp n = true → (s.skPort n).kept = f :: l → f.sentAt + 4000 ≤ s.now →
    (f :: l).all (fun x => decide (x.resends < 8)) = true →
    ∃ t, exec (.replayTimeout n) s = .next t ∧ t.outs = ((f :: l).map (fun x => Out.skewer n x.bytes)).reverse ++ s.outs ∧
      t.rd F.SK_REPLAY_CNT 0 n = satInc (s.rd F.SK_REPLAY_CNT 0 n) % 2 ^ F.SK_REPLAY_CNT.width ∧
      (t.skPort n).kept.map (fun x => (x.lseq, x.bytes)) = (f :: l).map (fun x => (x.lseq, x.bytes)) ∧ Changes s t [(F.SK_REPLAY_CNT, 0, n)]) ∧
  (∀ (n : Fin 2) (l : BitVec 4) (s : State), s.skOn = true → s.skUp n = true →
    (skWidth l.toNat ≠ 0 →
      ∃ t, exec (.laneFail n l) s = .next t ∧ t.rd F.SK_PT_STAT_STATE 0 n = 3 ∧
        t.rd F.SK_RETRAIN_CNT 0 n = satInc (s.rd F.SK_RETRAIN_CNT 0 n) % 2 ^ F.SK_RETRAIN_CNT.width ∧ (t.skPort n).kept = (s.skPort n).kept ∧
        ∀ a, t.byteAt a = s.byteAt a) ∧
    (skWidth l.toNat = 0 → s.sk.txns.filter (fun x => x.port == n.val) = [] →
      ∃ t, exec (.laneFail n l) s = .next t ∧ t.rd F.SK_PT_STAT_STATE 0 n = 0 ∧ (t.skPort n).kept = [] ∧ ∀ a, t.byteAt a = s.byteAt a)) ∧
  (∀ (n : Fin 2) (s : State), s.skOn = true → s.rd F.SK_PT_STAT_STATE 0 n = 3 → (s.skPort n).retrainAt + 10000000 ≤ s.now →
    s.sk.txns.filter (fun x => x.port == n.val) = [] →
    ∃ t, exec (.retrainTimeout n) s = .next t ∧ t.rd F.SK_PT_STAT_STATE 0 n = 0 ∧ (t.skPort n).kept = [] ∧
      t.rd F.SK_PT_STAT_NEIGH_VALID 0 n = 0 ∧ bitOf (t.rd F.REG_EVT_RAW 0x0C0 0) 0 = true ∧ ∀ a, t.byteAt a = s.byteAt a)

/-- R669, for the four transactions. -/
def Obligations.TransactionsArePerformedOnce : Prop :=
  (∀ (c : Instr) (src : Fin 8) (tag : BitVec 16) (d : SkDone) (s : State),
    ((∃ a l, c = .rd src tag a l) ∨ (∃ a b, c = .wr src tag a b) ∨ (∃ o w p v, c = .ctxWr src tag o w p v) ∨ ∃ x q, c = .skewerKill src tag x q) →
    s.skOn = true → s.skRole ≠ 0 → src.val ≠ s.skMe → s.sk.dropped.contains src.val = false → s.skMember src = true →
    s.sk.done.find? (fun x => x.src == src.val && x.tag == tag.toNat) = some d →
    ∃ t, exec c s = .next t ∧ t = (s.inc F.SK_TXN_DUP_CNT 0 0).skReply src d.type tag.toNat d.data ∧
      t.rd F.SK_TXN_DUP_CNT 0 0 = satInc (s.rd F.SK_TXN_DUP_CNT 0 0) % 2 ^ F.SK_TXN_DUP_CNT.width ∧ t.sch = s.sch ∧ t.sk.done = s.sk.done ∧
      ∀ a, t.byteAt a = s.byteAt a) ∧
  (∀ (c : Instr) (src : Fin 8) (tag : BitVec 16) (s : State),
    ((∃ a l, c = .rd src tag a l) ∨ (∃ a b, c = .wr src tag a b) ∨ (∃ o w p v, c = .ctxWr src tag o w p v) ∨ ∃ x q, c = .skewerKill src tag x q) →
    s.skOn = true → s.skRole ≠ 0 → src.val ≠ s.skMe → s.sk.dropped.contains src.val = false → s.skMember src = true →
    s.sk.done.find? (fun x => x.src == src.val && x.tag == tag.toNat) = none →
    ∃ t, exec c s = .next t ∧ t.sk.done.head?.map (fun x => (x.src, x.tag)) = some (src.val, tag.toNat) ∧
      (t.sk.done.filter (fun x => x.src == src.val)).length ≤ 1024)

/-- R650 to R657, R668, R670, R672, R673. -/
def Obligations.CabinetMessages : Prop :=
  (∀ (src : Fin 8) (tag : BitVec 16) (ctx : BitVec 11) (q : Word) (c : Cmd) (s : State), s.skOn = true → s.skRole ≠ 0 → src.val ≠ s.skMe →
    s.sk.dropped.contains src.val = false → s.skMember src = true → s.sk.done.find? (fun x => x.src == src.val && x.tag == tag.toNat) = none →
    s.sch.cmds.find? (fun x => x.ctx == ctx.toNat && x.desc.seq == q.toNat && s.sk.deleg.any (fun d => d.id == x.id) && x.phase != .commit
      && x.phase != .prov) = some c →
    ∃ t, exec (.skewerKill src tag ctx q) s = .next t ∧ ∀ d, t.cmd c.id = some d → d.phase = .away) ∧
  (∀ (ctx : BitVec 11) (part : Fin 16) (n r : Byte) (ks : List (Fin 16)) (bs : List Byte) (c : Cmd) (s : State), s.skOn = true → s.skRole = 2 →
    s.skMe ≠ 0 → s.sk.dropped.contains 0 = false → s.skMember 0 = true →
    s.sk.deleg.find? (fun x => x.ctx == ctx.toNat && x.seq == (parseDesc bs).seq && x.attempt == n.toNat) = none →
    s.sch.cmds.find? (fun x => x.ctx == ctx.toNat && x.desc.seq == (parseDesc bs).seq && x.phase == .away) = some c →
    (parseDesc bs).opcode ≠ 1 →
    ∃ t, exec (.delegate 0 ctx part n r ks bs) s = .next t ∧ (t.cmd c.id).map (fun x => x.phase) = some .ready ∧
      t.sk.deleg.head?.map (fun x => (x.ctx, x.seq, x.attempt, x.id)) = some (ctx.toNat, (parseDesc bs).seq, n.toNat, c.id) ∧ Changes s t []) ∧
  (∀ (src : Fin 8) (ctx : BitVec 11) (part : Fin 16) (n r : Byte) (ks : List (Fin 16)) (bs : List Byte) (d : SkDeleg) (s : State), s.skOn = true →
    s.skRole ≠ 0 → src.val ≠ s.skMe → s.sk.dropped.contains src.val = false → s.skMember src = true →
    s.sk.deleg.find? (fun x => x.ctx == ctx.toNat && x.seq == (parseDesc bs).seq && x.attempt == n.toNat) = some d →
    ∃ t, exec (.delegate src ctx part n r ks bs) s = .next t ∧
      t.rd F.SK_DEL_DUP_CNT 0 0 = satInc (s.rd F.SK_DEL_DUP_CNT 0 0) % 2 ^ F.SK_DEL_DUP_CNT.width ∧ t.sch = s.sch ∧ ∀ a, t.byteAt a = s.byteAt a) ∧
  (∀ (src : Fin 8) (tag : BitVec 16) (x : SkTxn) (bs : List Byte) (s u : State), s.skOn = true → s.skRole ≠ 0 → src.val ≠ s.skMe →
    s.sk.dropped.contains src.val = false → s.skMember src = true →
    s.sk.txns.find? (fun y => y.dest == src.val && y.tag == tag.toNat) = some x →
    u = { s with sk := { s.sk with txns := s.sk.txns.filter (fun y => !(y.dest == src.val && y.tag == tag.toNat)) } } →
    exec (.rdData src tag bs) s = .next u ∧
    exec (.wrAck src tag) s = .next (match x.cmd with
      | some id => if x.type = 1 then u.writeAck id x.units false none else u
      | none => u) ∧
    (∀ (id : Nat) (c : Cmd), x.cmd = some id → x.type = 0 → s.cmd id = some c → c.phase = .running →
      exec (.err src tag) s = .next (u.killClose id 0x53)) ∧
    (x.cmd = none → exec (.err src tag) s = .next u)) ∧
  (∀ (src : Fin 8) (ctx : BitVec 11) (q b : Word) (disp : Byte) (pl : BitVec 16) (c : Cmd) (s : State), s.skOn = true → s.skRole ≠ 0 →
    src.val ≠ s.skMe → s.sk.dropped.contains src.val = false → s.skMember src = true →
    s.sch.cmds.find? (fun x => x.ctx == ctx.toNat && x.desc.seq == q.toNat && x.phase == .away) = some c →
    ∃ t, exec (.report src ctx q 1 disp b pl) s = .next t ∧ (t.cmd c.id).map (fun x => (x.started, x.everStarted)) = some (some s.now, true) ∧
      Changes s t []) ∧
  (∀ (src : Fin 8) (ctx : BitVec 11) (q b : Word) (disp : Byte) (pl : BitVec 16) (s : State), s.skOn = true → s.skRole = 1 →
    src.val ≠ s.skMe → s.sk.dropped.contains src.val = false → s.skMember src = true →
    s.sch.cmds.find? (fun x => x.ctx == ctx.toNat && x.desc.seq == q.toNat && x.phase == .away) = none →
    ∃ t, exec (.report src ctx q 3 disp b pl) s = .next t ∧
      (t.ctx ctx.toNat).window.head?.map (fun w => (w.seq, w.disp)) = some (q.toNat, disp.toNat) ∧ Changes s t []) ∧
  (∀ (src : Fin 8) (ctx : BitVec 11) (part : Fin 16) (bs : List Byte) (s : State), s.skOn = true → s.skRole = 1 → src.val ≠ s.skMe →
    s.skMember src = true → ctx.toNat / 256 = src.val → (parseDesc bs).cls ≠ 0 →
    ∃ t, exec (.handoff src ctx part bs) s = .next t ∧ t.sch.nextId = s.sch.nextId + 1 ∧
      t.sch.cmds.getLast?.map (fun c => (c.id, c.ctx, c.desc, c.phase)) = some (s.sch.nextId, ctx.toNat, parseDesc bs, .handoff) ∧
      (t.ctx ctx.toNat).window.head?.map (fun w => w.seq) = some (parseDesc bs).seq ∧ ∀ a, t.byteAt a = s.byteAt a) ∧
  (∀ (n : Fin 2) (g q : Byte) (s : State), s.skOn = true → s.skRole = 2 → s.skUp n = true →
    ∃ t, exec (.time n g q) s = .next t ∧ t.orr.skewGridQ = g.toNat ∧ t.orr.skewSiQ = q.toNat ∧ t.sk.timeAt = some s.now ∧
      ∀ a, t.byteAt a = s.byteAt a) ∧
  (∀ s : State, s.skOn = true → s.skRole = 2 → (∀ u, s.sk.timeAt = some u → u + 131072 * s.siPerUnit / 19660800 ≤ s.now) →
    ∃ t, exec .skewTimeTimeout s = .next t ∧ t.orr.skewGridQ = 255 ∧ t.orr.skewSiQ = 255 ∧ t.sk.timeAt = none ∧ ∀ a, t.byteAt a = s.byteAt a) ∧
  (∀ (n : Fin 2) (l : BitVec 16) (s : State), s.skOn = true → s.skUp n = true →
    ∃ t, exec (.echo n l) s = .next t ∧ t.rd F.SK_PT_LAT_NS 0 n = l.toNat % 2 ^ F.SK_PT_LAT_NS.width ∧ Changes s t [(F.SK_PT_LAT_NS, 0, n)]) ∧
  (∀ (c : Instr) (w : Nat) (src : Src) (v : Word) (s : State),
    ((c = .cabDoorbell src v ∧ w = 0) ∨ (c = .cabLease src v ∧ w = 1) ∨ (c = .cabCqhead src v ∧ w = 2)) → s.live 0x0C0 = true →
    (s.skRole ≠ 1 → exec c s = .next s) ∧
    (s.skRole = 1 → bitsOf v.toNat 0 11 / 256 = s.skMe →
      exec c s = .next (s.ctxForward src w (bitsOf v.toNat 0 11 % 256) (v.toNat / 65536))) ∧
    (s.skRole = 1 → bitsOf v.toNat 0 11 / 256 ≠ s.skMe → s.skMember (bitsOf v.toNat 0 11 / 256) = true →
      ∃ t, exec c s = .next t ∧ t.sk.txns.length = s.sk.txns.length + 1 ∧
        t.sk.txns.getLast?.map (fun x => (x.dest, x.type)) = some (bitsOf v.toNat 0 11 / 256, 3) ∧ ∀ a, t.byteAt a = s.byteAt a))

/-- R644, R645, R674 to R676, R681, R682 (with no command, transaction or placement under way). -/
def Obligations.CabinetMembership : Prop :=
  (∀ (m : Byte) (s : State), s.skOn = true → s.skMe ≠ 0 → bitOf m.toNat s.skMe = true → bitOf m.toNat 0 = true → s.skRole ≠ 1 →
    ∃ t, exec (.join m) s = .next t ∧ t.rd F.SK_STAT_MEMBERS 0 0 = m.toNat % 2 ^ F.SK_STAT_MEMBERS.width ∧
      (s.skRole = 0 ∨ s.skRole = 2 → t.skRole = 2) ∧ bitOf (t.rd F.REG_EVT_RAW 0x0C0 0) 5 = true ∧ ∀ a, t.byteAt a = s.byteAt a) ∧
  (∀ (v : Word) (n : Nat) (s : State), s.live 0x0C0 = true → bitOf v.toNat 3 = true → s.skMe = 0 → s.skRole ≠ 2 → v.toNat % 8 ≠ 0 →
    s.skRoute (v.toNat % 8) = some n →
    ∃ t, exec (.skJoinGo v true) s = .next t ∧ t.skRole = 1 ∧ bitOf (t.rd F.SK_STAT_MEMBERS 0 0) (v.toNat % 8) = true ∧
      bitOf (t.rd F.SK_STAT_MEMBERS 0 0) 0 = true ∧ bitOf (t.rd F.REG_EVT_RAW 0x0C0 0) 5 = true ∧ ∀ a, t.byteAt a = s.byteAt a) ∧
  (∀ (m : Fin 8) (s : State), s.skOn = true → s.skRole = 1 → m.val ≠ s.skMe → s.skMember m = true →
    ∃ t, exec (.skewerHeartbeat m true) s = .next t ∧ t.sk.beats = (m.val, s.now) :: s.sk.beats.filter (fun b => b.1 != m.val) ∧ Changes s t []) ∧
  (∀ s : State, s.skOn = true → s.skRole = 2 → s.sk.hbAt + 50000 ≤ s.now →
    ∃ t, exec .skewerHbSend s = .next t ∧ t.sk.hbAt = s.now ∧ (s.skRoute 0 = none → Changes s t []) ∧ ∀ a, t.byteAt a = s.byteAt a) ∧
  (∀ (m : Fin 8) (down : Bool) (s : State), s.skOn = true → s.skRole = 1 → m.val ≠ s.skMe → s.skMember m = true →
    (down = true ∨ s.sk.beats.any (fun b => b.1 == m.val && decide (b.2 + s.rd F.SK_CFG_LOSS_US 0 0 * 1000 ≤ s.now)) = true) →
    s.sch.cmds = [] → s.sk.txns = [] → s.sk.placed = [] →
    ∃ t, exec (.memberHbTimeout m down) s = .next t ∧ t.skMember m = false ∧
      t.rd F.SK_MEMBER_LOST_CNT 0 0 = satInc (s.rd F.SK_MEMBER_LOST_CNT 0 0) % 2 ^ F.SK_MEMBER_LOST_CNT.width ∧
      bitOf (t.rd F.REG_EVT_RAW 0x0C0 0) 2 = true ∧ t.sk.dropped.contains m.val = true ∧ ∀ a, t.byteAt a = s.byteAt a) ∧
  (∀ (m : Fin 8) (s : State), s.skOn = true → s.skRole = 2 → m.val ≠ s.skMe → m.val ≠ 0 → s.sch.cmds = [] → s.sk.txns = [] →
    ∃ t, exec (.memberLost m) s = .next t ∧ t.skMember m = false ∧ t.sk.dropped.contains m.val = true ∧
      bitOf (t.rd F.REG_EVT_RAW 0x0C0 0) 2 = true ∧ ∀ a, t.byteAt a = s.byteAt a) ∧
  (∀ (src lost : Fin 8) (s : State), s.skOn = true → s.skRole = 1 → src.val ≠ s.skMe → s.skMember src = true →
    s.sk.acks.contains (lost.val, src.val) = true → s.sk.placed = [] →
    ∃ t, exec (.lostAck src lost) s = .next t ∧ t.sk.acks = s.sk.acks.filter (fun a => a != (lost.val, src.val)) ∧ Changes s t []) ∧
  (∀ s : State, s.skOn = true → s.skRole = 2 → s.sch.cmds = [] →
    ∃ t, exec .headUnreachable s = .next t ∧ t.skRole = 0 ∧ t.rd F.SK_STAT_MEMBERS 0 0 = 0 ∧ t.sk.txns = [] ∧ t.orr.skewGridQ = 255 ∧
      t.orr.skewSiQ = 255 ∧ ∀ a, t.byteAt a = s.byteAt a)

/-- R58. -/
def Obligations.TimeReadsLatch : Prop :=
  (∀ s : State, s.live 0x004 = true →
    ∃ t, exec (.loReadLatch 0x004 0x040) s = .next t ∧ t.rdata = s.gt % 2 ^ 32 ∧ t.rerr = false ∧
      storeGet 0 t.lat (F.ORR_SI.key 0 0) = storeGet 0 s.lat (F.ORR_SI.key 0 0) ∧ Changes s t [] ∧
      ∀ u : State, u.live 0x004 = true → u.lat = t.lat →
        ∃ w, exec (.loReadLatch 0x004 0x044) u = .next w ∧ w.rdata = s.gt / 2 ^ 32 % 2 ^ 32 ∧ w.rerr = false ∧ Changes u w []) ∧
  (∀ s : State, s.live 0x004 = true →
    ∃ t, exec (.loReadLatch 0x004 0x048) s = .next t ∧ t.rdata = s.si % 2 ^ 32 ∧ t.rerr = false ∧
      storeGet 0 t.lat (F.ORR_GT.key 0 0) = storeGet 0 s.lat (F.ORR_GT.key 0 0) ∧ Changes s t [] ∧
      ∀ u : State, u.live 0x004 = true → u.lat = t.lat →
        ∃ w, exec (.loReadLatch 0x004 0x04C) u = .next w ∧ w.rdata = s.si / 2 ^ 32 % 2 ^ 32 ∧ w.rerr = false ∧ Changes u w [])

/-- R19, R33, R694. -/
def Obligations.AccessesThatReachNothing : Prop :=
  (∀ (page : BitVec 14) (ofs : BitVec 12) (s : State), s.live page.toNat = true →
    ∃ t, exec (.badWidthAccess page ofs) s = .next t ∧ t.rdata = 0 ∧ t.rerr = false ∧ t.rd F.REG_BLK_FAULT_ACCESS_ERR page.toNat 0 = 1 ∧
      Changes s t [(F.REG_BLK_FAULT_ACCESS_ERR, page.toNat, 0), (F.REG_BLK_FAULT_OFS, page.toNat, 0), (F.REG_EVT_RAW, page.toNat, 0)]) ∧
  (∀ (page : BitVec 14) (ofs : BitVec 12) (s : State), mappedPage page.toNat = true → s.pageOn page.toNat = false →
    exec (.offPageAccess page ofs) s = .next (s.answer 0) ∧ exec (.badWidthAccess page ofs) s = .next (s.answer 0) ∧
    exec (.rcRead page ofs) s = .next (s.answer 0) ∧ exec (.loReadLatch page ofs) s = .next (s.answer 0) ∧
    (s.md.notifies = [] → ∀ (src : Src) (v : Word), exec (.registerWrite src page ofs v) s = .next s ∧ exec (.shadowWrite src page ofs v) s = .next s ∧
      exec (.evtSet src page v) s = .next s ∧ exec (.evtClr src page v) s = .next s ∧ exec (.cntClear src page) s = .next s)) ∧
  (∀ (c : Instr) (page : BitVec 14) (s : State), mappedPage page.toNat = false → s.md.notifies = [] →
    (c = .unmappedAccess page ∨ (∃ o, c = .badWidthAccess page o ∨ c = .rcRead page o ∨ c = .loReadLatch page o) ∨
      ∃ src o v, c = .registerWrite src page o v ∨ c = .shadowWrite src page o v ∨ c = .evtSet src page v ∨ c = .evtClr src page v) →
    ∃ t, exec c s = .next t ∧ t.rd F.SYS_UNMAPPED_CNT 0 0 = satInc (s.rd F.SYS_UNMAPPED_CNT 0 0) % 2 ^ F.SYS_UNMAPPED_CNT.width ∧
      t.rd F.SYS_UNMAPPED_LAST_PAGE 0 0 = page.toNat ∧ t.rd F.SYS_UNMAPPED_LAST_VALID 0 0 = 1 ∧
      ((c = .unmappedAccess page ∨ ∃ o, c = .badWidthAccess page o ∨ c = .rcRead page o ∨ c = .loReadLatch page o) →
        t.rdata = 0 ∧ t.rerr = false) ∧
      Changes s t [(F.SYS_UNMAPPED_CNT, 0, 0), (F.SYS_UNMAPPED_LAST_PAGE, 0, 0), (F.SYS_UNMAPPED_LAST_VALID, 0, 0)])

/-- R17, R18, R30, R198, R685, R688, R697. -/
def Obligations.RegisterRows : Prop :=
  (∀ (src : Src) (page : BitVec 14) (v : Word) (s : State), mappedPage page.toNat = true → s.pageOn page.toNat = true → s.md.notifies = [] →
    (page.toNat < 0x100 ∨ s.dbPermits src (page.toNat - 0x100) = true) →
    ∃ t, exec (.evtSet src page v) s = .next t ∧
      t.rd F.REG_EVT_RAW page.toNat 0 = (s.rd F.REG_EVT_RAW page.toNat 0 ||| v.toNat) % 2 ^ F.REG_EVT_RAW.width ∧
      Changes s t [(F.REG_EVT_RAW, page.toNat, 0)]) ∧
  (∀ (src : Src) (page : BitVec 14) (v : Word) (s : State), mappedPage page.toNat = true → s.pageOn page.toNat = true → s.md.notifies = [] →
    (page.toNat < 0x100 ∨ s.dbPermits src (page.toNat - 0x100) = true) →
    ∃ t, exec (.evtClr src page v) s = .next t ∧
      (page.toNat ≠ 0x0B4 → t.rd F.REG_EVT_RAW page.toNat 0 = clrMask (s.rd F.REG_EVT_RAW page.toNat 0) v.toNat % 2 ^ F.REG_EVT_RAW.width ∧
        Changes s t [(F.REG_EVT_RAW, page.toNat, 0)]) ∧
      (∀ i, 2 ≤ i → i < 32 → bitOf (t.rd F.REG_EVT_RAW page.toNat 0) i = (bitOf (s.rd F.REG_EVT_RAW page.toNat 0) i && !bitOf v.toNat i)) ∧
      ∀ a, t.byteAt a = s.byteAt a) ∧
  (∀ (src : Src) (page : BitVec 14) (s : State), mappedPage page.toNat = true → s.pageOn page.toNat = true → s.md.notifies = [] →
    (page.toNat < 0x100 ∨ s.dbPermits src (page.toNat - 0x100) = true) →
    ∃ t, exec (.cntClear src page) s = .next t ∧
      (∀ (f : Fld) (p i : Nat), f.page + p = page.toNat → (counterIds page.toNat).contains (f.id % 4096) = true → t.rd f p i = f.rst p i) ∧
      (∀ (f : Fld) (p i : Nat), (f.page + p ≠ page.toNat ∨ (counterIds page.toNat).contains (f.id % 4096) = false) → t.rd f p i = s.rd f p i) ∧
      ∀ a, t.byteAt a = s.byteAt a) ∧
  (∀ (src : Src) (n : Fin 4) (v : Word) (s : State), s.live 0x000 = true → s.md.notifies = [] →
    ∃ t, exec (.registerWrite src 0x000 (BitVec.ofNat 12 (0x0A0 + 4 * n.val)) v) s = .next t ∧ t.rd F.SYS_SCRATCH 0 n = v.toNat ∧
      Changes s t [(F.SYS_SCRATCH, 0, n)]) ∧
  (∀ (src : Src) (c : Byte) (v : Word) (s : State), s.liveCtx src c.toNat = true → s.md.notifies = [] → s.rd F.CTX_STAT_STATE c.toNat 0 ≠ 0 →
    s.rd F.CTX_SQ_BASE_LO c.toNat 0 < 2 ^ 32 →
    ∃ t, exec (.registerWrite src (BitVec.ofNat 14 (0x100 + c.toNat)) 0x040 v) s = .next t ∧
      (v.toNat ≠ s.rd F.CTX_SQ_BASE_LO c.toNat 0 → t.rd F.REG_BLK_FAULT_LOCKED_WR (0x100 + c.toNat) 0 = 1) ∧
      Changes s t [(F.REG_BLK_FAULT_LOCKED_WR, 0x100 + c.toNat, 0), (F.REG_BLK_FAULT_OFS, 0x100 + c.toNat, 0),
        (F.REG_EVT_RAW, 0x100 + c.toNat, 0)]) ∧
  (∀ (v : Fin 2) (s : State), s.live (0x070 + v.val) = true →
    ∃ t, exec (.rcRead (BitVec.ofNat 14 (0x070 + v.val)) 0x060) s = .next t ∧ t.rdata = s.rd F.SV_WAIT_MAX v 0 % 2 ^ 32 ∧
      t.rd F.SV_WAIT_MAX v 0 = 0 ∧ Changes s t [(F.SV_WAIT_MAX, v, 0)])

/-- R687, R689 to R693, Table REG-3 (no notify write waits). -/
def Obligations.ShadowCopiesAndCommits : Prop :=
  (∀ (src : Src) (n : Fin 16) (v : Word) (s : State), s.live 0x004 = true → s.md.notifies = [] →
    exec (.shadowWrite src 0x004 (BitVec.ofNat 12 (0x940 + 4 * n.val)) v) s = exec (.shadowWrite src 0x004 (BitVec.ofNat 12 (0x140 + 4 * n.val)) v) s ∧
    ∃ t, exec (.shadowWrite src 0x004 (BitVec.ofNat 12 (0x140 + 4 * n.val)) v) s = .next t ∧
      t.rdSh F.ORR_FSYNC_CFG_PHASE 0 n = bitsOf v.toNat 0 16 ∧ t.rdSh F.ORR_FSYNC_CFG_PERIOD_CYC 0 n = bitsOf v.toNat 16 8 ∧
      t.rdSh F.ORR_FSYNC_CFG_GROUP 0 n = bitsOf v.toNat 28 2 ∧ t.rdSh F.ORR_FSYNC_CFG_POL 0 n = bitsOf v.toNat 30 1 ∧
      t.rdSh F.ORR_FSYNC_CFG_EN 0 n = bitsOf v.toNat 31 1 ∧
      (s.rd F.REG_SHADOW_CTRL_COMMIT_AT 0x004 0 ≠ 0 → Changes s t []) ∧
      (s.rd F.REG_SHADOW_CTRL_COMMIT_AT 0x004 0 = 0 → t.rd F.ORR_FSYNC_CFG_PHASE 0 n = bitsOf v.toNat 0 16 ∧
        t.rd F.ORR_FSYNC_CFG_EN 0 n = bitsOf v.toNat 31 1 ∧ bitOf (t.rd F.REG_EVT_RAW 0x004 0) 30 = true) ∧
      ∀ a, t.byteAt a = s.byteAt a) ∧
  (∀ (src : Src) (page : BitVec 14) (v : Word) (arg : Nat) (s : State), mappedPage page.toNat = true → s.pageOn page.toNat = true →
    s.md.notifies = [] → (page.toNat < 0x100 ∨ s.dbPermits src (page.toNat - 0x100) = true) → bitOf v.toNat 3 = false →
    arg = s.rd F.REG_SHADOW_ARG_LO page.toNat 0 + s.rd F.REG_SHADOW_ARG_HI page.toNat 0 * 2 ^ 32 →
    ((v.toNat % 4 = 0 ∨ (v.toNat % 4 = 2 ∧ arg ≤ s.gt)) →
      ∃ t, exec (.shadowArm src page v) s = .next t ∧ (∀ x ∈ rwsFields page.toNat, t.rd x.1 0 x.2 = s.rdSh x.1 0 x.2 % 2 ^ x.1.width) ∧
        t.rd F.REG_SHADOW_STAT_COMMIT_CNT page.toNat 0 = (s.rd F.REG_SHADOW_STAT_COMMIT_CNT page.toNat 0 + 1) % 2 ^ 16 ∧
        bitOf (t.rd F.REG_EVT_RAW page.toNat 0) 30 = true ∧ t.armed = s.armed.filter (fun a => a.page != page.toNat) ∧
        (v.toNat % 4 = 2 → t.rd F.REG_SHADOW_STAT_LATE page.toNat 0 = 1) ∧ ∀ a, t.byteAt a = s.byteAt a) ∧
    ((v.toNat % 4 = 1 ∨ (v.toNat % 4 = 2 ∧ s.gt < arg) ∨
        (v.toNat % 4 = 3 ∧ (s.strEnabled (bitsOf v.toNat 8 6) = false ∨ serialLt 26 arg (s.nextCount (bitsOf v.toNat 8 6)) = false))) →
      ∃ t, exec (.shadowArm src page v) s = .next t ∧
        t.armed = { page := page.toNat, mode := v.toNat % 4, stream := bitsOf v.toNat 8 6, arg := arg }
          :: s.armed.filter (fun a => a.page != page.toNat) ∧ t.shad = s.shad ∧
        Changes s t [(F.REG_SHADOW_CTRL_COMMIT_AT, page.toNat, 0), (F.REG_SHADOW_CTRL_STREAM, page.toNat, 0)])) ∧
  (∀ (src : Src) (page : BitVec 14) (v : Word) (s : State), mappedPage page.toNat = true → s.pageOn page.toNat = true → s.md.notifies = [] →
    (page.toNat < 0x100 ∨ s.dbPermits src (page.toNat - 0x100) = true) →
    ∃ t, exec (.shadowDisarm src page v) s = .next t ∧ t.armed = s.armed.filter (fun a => a.page != page.toNat) ∧ t.shad = s.shad ∧
      t.rd F.REG_SHADOW_CTRL_COMMIT_AT page.toNat 0 = v.toNat % 4 ∧ t.rd F.REG_SHADOW_CTRL_STREAM page.toNat 0 = bitsOf v.toNat 8 6 ∧
      Changes s t [(F.REG_SHADOW_CTRL_COMMIT_AT, page.toNat, 0), (F.REG_SHADOW_CTRL_STREAM, page.toNat, 0)]) ∧
  (∀ (page : BitVec 14) (s : State),
    (s.armed.any (fun a => a.page == page.toNat && s.commitDue a) = true →
      ∃ t, exec (.shadowCommit page) s = .next t ∧ (∀ x ∈ rwsFields page.toNat, t.rd x.1 0 x.2 = s.rdSh x.1 0 x.2 % 2 ^ x.1.width) ∧
        t.rd F.REG_SHADOW_STAT_COMMIT_CNT page.toNat 0 = (s.rd F.REG_SHADOW_STAT_COMMIT_CNT page.toNat 0 + 1) % 2 ^ 16 ∧
        bitOf (t.rd F.REG_EVT_RAW page.toNat 0) 30 = true ∧ t.armed = s.armed.filter (fun a => a.page != page.toNat) ∧
        ∀ a, t.byteAt a = s.byteAt a) ∧
    (s.armed.any (fun a => a.page == page.toNat && s.commitDue a) = false → exec (.shadowCommit page) s = .next s))

/-- R563, R700, R701, Table REG-6. -/
def Obligations.BlockResets : Prop :=
  (∀ (src : Src) (i : Fin 28) (v : Word) (s : State), s.live 0x002 = true → s.md.notifies = [] → v.toNat = 2 ^ i.val →
    (s.rstOk src i = false →
      ∃ t, exec (.blockResetReq src v) s = .next t ∧ t.rd F.RST_DENY_CNT 0 0 = satInc (s.rd F.RST_DENY_CNT 0 0) % 2 ^ F.RST_DENY_CNT.width ∧
        t.rd F.RST_DENY_LAST_INDEX 0 0 = i ∧ t.rd F.RST_DENY_LAST_VALID 0 0 = 1 ∧
        Changes s t [(F.RST_DENY_CNT, 0, 0), (F.RST_DENY_LAST_INDEX, 0, 0), (F.RST_DENY_LAST_VALID, 0, 0)]) ∧
    (s.rstOk src i = true → bitOf (s.rd F.RST_ACTIVE 0 0) i = true → ∃ t, exec (.blockResetReq src v) s = .next t ∧ Changes s t []) ∧
    (s.rstOk src i = true → bitOf (s.rd F.RST_ACTIVE 0 0) i = false →
      ∃ t, exec (.blockResetReq src v) s = .next t ∧ bitOf (t.rd F.RST_ACTIVE 0 0) i = true ∧
        (i.val ≠ 23 →
          (∀ (f : Fld) (p j : Nat), f.page + p = blockPage i → keptIds.contains (f.id % 4096) = false → t.rd f p j = f.rst p j) ∧
          ∀ (f : Fld) (p j : Nat), f.page + p ≠ blockPage i → F.RST_ACTIVE.key 0 0 ≠ f.key p j → t.rd f p j = s.rd f p j) ∧
        (i.val = 23 → t.rd F.PCIE_LINK_STAT_DL_UP 0 0 = 0) ∧ ∀ a, t.byteAt a = s.byteAt a)) ∧
  (∀ (i : Fin 28) (s : State),
    (bitOf (s.rd F.RST_ACTIVE 0 0) i = true →
      ∃ t, exec (.blockResetDone i) s = .next t ∧ bitOf (t.rd F.RST_ACTIVE 0 0) i = false ∧
        (∀ j < 28, j ≠ i.val → bitOf (t.rd F.RST_ACTIVE 0 0) j = bitOf (s.rd F.RST_ACTIVE 0 0) j) ∧
        (i.val = 20 → t.orb.queue = [] ∧ t.orb.running = none ∧ t.orb.committing = []) ∧ (i.val = 22 → t.vid.sessions = []) ∧
        ∀ a, t.byteAt a = s.byteAt a) ∧
    (bitOf (s.rd F.RST_ACTIVE 0 0) i = false → exec (.blockResetDone i) s = .next s))

/-- R556 to R560, R19. -/
def Obligations.InboundPcieAccesses : Prop :=
  (∀ (bar : Fin 3) (ofs : BitVec 24) (s : State), bar ≠ 1 → s.pcieOn = true → s.rdB F.PCIE_LINK_STAT_DL_UP 0 0 = true → s.md.notifies = [] →
    ofs.toNat % 4 = 0 → ofs.toNat + 4 ≤ 0x100000 →
    exec (.pcieInbound bar ofs 4 none) s
        = exec (.rcRead (BitVec.ofNat 14 (bar.val / 2 * 0x100 + ofs.toNat / 0x1000)) (BitVec.ofNat 12 (ofs.toNat % 0x1000))) s ∧
    (∀ (l : BitVec 9) (bs : List Byte), bs.length = 4 →
      exec (.pcieInbound bar ofs l (some (bs.map some))) s
        = exec (.registerWrite .pcie (BitVec.ofNat 14 (bar.val / 2 * 0x100 + ofs.toNat / 0x1000)) (BitVec.ofNat 12 (ofs.toNat % 0x1000))
            (BitVec.ofNat 32 (leAt bs 0 4))) s) ∧
    (ofs.toNat % 8 = 0 → ∃ t, exec (.pcieInbound bar ofs 8 none) s = .next t ∧ t.rerr = false ∧
      ∀ (u w : State) (lo hi : Nat), s.regRead (bar.val / 2 * 0x100 + ofs.toNat / 0x1000) (ofs.toNat % 0x1000) = (u, lo) →
        u.regRead (bar.val / 2 * 0x100 + ofs.toNat / 0x1000) (ofs.toNat % 0x1000 + 4) = (w, hi) → t.rdata = lo + hi * 2 ^ 32)) ∧
  (∀ (bar : Fin 3) (ofs : BitVec 24) (l : BitVec 9) (s : State), bar ≠ 1 → s.pcieOn = true → s.rdB F.PCIE_LINK_STAT_DL_UP 0 0 = true →
    s.md.notifies = [] → ¬(l.toNat = 4 ∧ ofs.toNat % 4 = 0) → ¬(l.toNat = 8 ∧ ofs.toNat % 8 = 0) → ofs.toNat + l.toNat ≤ 0x100000 →
    ofs.toNat < 0x100000 →
    exec (.pcieInbound bar ofs l none) s
      = exec (.badWidthAccess (BitVec.ofNat 14 (bar.val / 2 * 0x100 + ofs.toNat / 0x1000)) (BitVec.ofNat 12 (ofs.toNat % 0x1000))) s) ∧
  (∀ (ofs : BitVec 24) (l : BitVec 9) (s : State), s.pcieOn = true → s.rdB F.PCIE_LINK_STAT_DL_UP 0 0 = true → s.md.notifies = [] →
    ofs.toNat + l.toNat ≤ 0x1000000 →
    (s.iommu 0 ofs.toNat l.toNat false = none →
      ∃ t, exec (.pcieInbound 1 ofs l none) s = .next t ∧ t.rerr = true ∧ t.rd F.PCIE_UR_CNT 0 0 = satInc (s.rd F.PCIE_UR_CNT 0 0) % 2 ^ F.PCIE_UR_CNT.width ∧
        t.rd F.PCIE_IOMMU_FAULT 0 0 = ofs.toNat ∧ t.rd F.PCIE_IOMMU_FAULT_VALID 0 0 = 1 ∧
        Changes s t [(F.PCIE_UR_CNT, 0, 0), (F.PCIE_IOMMU_FAULT_CNT, 0, 0), (F.PCIE_IOMMU_FAULT, 0, 0), (F.PCIE_IOMMU_FAULT_VALID, 0, 0),
          (F.REG_EVT_RAW, 0x0B0, 0)]) ∧
    (∀ (a pl : Nat) (ps : List Nat), s.iommu 0 ofs.toNat l.toNat false = some a → s.locate a = .mem pl → s.places a l.toNat = some ps →
      s.guarded a l.toNat none = false → ps.any s.isPoison = false →
      ∃ t, exec (.pcieInbound 1 ofs l none) s = .next t ∧ t.rdata = leAt (ps.map s.byteAt) 0 l.toNat ∧ t.rerr = false ∧
        ∀ x, t.byteAt x = s.byteAt x)) ∧
  (∀ (ofs : BitVec 24) (l : BitVec 9) (bs : List Byte) (s : State), s.pcieOn = true → s.rdB F.PCIE_LINK_STAT_DL_UP 0 0 = true →
    s.md.notifies = [] → bs ≠ [] → ofs.toNat + bs.length ≤ 0x1000000 →
    (s.iommu 0 ofs.toNat bs.length true = none →
      ∃ t, exec (.pcieInbound 1 ofs l (some (bs.map some))) s = .next t ∧ t.rd F.PCIE_IOMMU_FAULT 0 0 = ofs.toNat ∧
        Changes s t [(F.PCIE_IOMMU_FAULT_CNT, 0, 0), (F.PCIE_IOMMU_FAULT, 0, 0), (F.PCIE_IOMMU_FAULT_VALID, 0, 0), (F.REG_EVT_RAW, 0x0B0, 0)]) ∧
    (∀ (a pl : Nat) (ps : List Nat), s.iommu 0 ofs.toNat bs.length true = some a → s.locate a = .mem pl → s.places a bs.length = some ps →
      s.guarded a bs.length none = false → ps.any readOnlyPlace = false →
      ∃ t, exec (.pcieInbound 1 ofs l (some (bs.map some))) s = .next t ∧ t.mem = (s.poke a bs).mem ∧
        (ps.Nodup → ps.map t.byteAt = bs) ∧ ∀ x, x ∉ ps → t.byteAt x = s.byteAt x)) ∧
  (∀ (bar : Fin 3) (ofs : BitVec 24) (l : BitVec 9) (w : Option (List (Option Byte))) (s : State), s.rdB F.PCIE_LINK_STAT_DL_UP 0 0 = false →
    s.md.notifies = [] → exec (.pcieInbound bar ofs l w) s = .next s)

/-- R646, R650, R668, R669. -/
def Obligations.RemoteAccessesOfThisMember : Prop :=
  (∀ (src : Fin 8) (tag : BitVec 16) (addr : Addr) (len : BitVec 9) (pl : Nat) (ps : List Nat) (s : State), s.skOn = true → s.skRole ≠ 0 →
    src.val ≠ s.skMe → s.sk.dropped.contains src.val = false → s.skMember src = true →
    s.sk.done.find? (fun x => x.src == src.val && x.tag == tag.toNat) = none → s.locate (s.homeAddr addr.toNat) = .mem pl →
    s.places (s.homeAddr addr.toNat) len.toNat = some ps → s.guarded (s.homeAddr addr.toNat) len.toNat none = false →
    ps.any s.isPoison = false →
    ∃ t, exec (.rd src tag addr len) s = .next t ∧
      t.sk.done.head? = some { src := src.val, tag := tag.toNat, type := 5, data := ps.map s.byteAt } ∧ ∀ x, t.byteAt x = s.byteAt x) ∧
  (∀ (src : Fin 8) (tag : BitVec 16) (addr : Addr) (len : BitVec 9) (s : State), s.skOn = true → s.skRole ≠ 0 →
    src.val ≠ s.skMe → s.sk.dropped.contains src.val = false → s.skMember src = true →
    s.sk.done.find? (fun x => x.src == src.val && x.tag == tag.toNat) = none → s.locate (s.homeAddr addr.toNat) = .bad → 0 < len.toNat →
    ∃ t, exec (.rd src tag addr len) s = .next t ∧ t.sk.done.head? = some { src := src.val, tag := tag.toNat, type := 7, data := [] } ∧
      ∀ x, t.byteAt x = s.byteAt x) ∧
  (∀ (src : Fin 8) (tag : BitVec 16) (addr : Addr) (bs : List Byte) (pl : Nat) (ps : List Nat) (s : State), s.skOn = true → s.skRole ≠ 0 →
    src.val ≠ s.skMe → s.sk.dropped.contains src.val = false → s.skMember src = true → s.md.notifies = [] → bs ≠ [] →
    s.sk.done.find? (fun x => x.src == src.val && x.tag == tag.toNat) = none → s.locate (s.homeAddr addr.toNat) = .mem pl →
    s.places (s.homeAddr addr.toNat) bs.length = some ps → s.guarded (s.homeAddr addr.toNat) bs.length none = false →
    ps.any readOnlyPlace = false →
    ∃ t, exec (.wr src tag addr (bs.map some)) s = .next t ∧
      t.sk.done.head? = some { src := src.val, tag := tag.toNat, type := 6, data := [] } ∧ t.mem = (s.poke (s.homeAddr addr.toNat) bs).mem ∧
      (ps.Nodup → ps.map t.byteAt = bs) ∧ ∀ x, x ∉ ps → t.byteAt x = s.byteAt x) ∧
  (∀ (src : Fin 8) (tag : BitVec 16) (addr : Addr) (bs : List Byte) (s : State), s.skOn = true → s.skRole ≠ 0 →
    src.val ≠ s.skMe → s.sk.dropped.contains src.val = false → s.skMember src = true → s.md.notifies = [] → bs ≠ [] →
    s.sk.done.find? (fun x => x.src == src.val && x.tag == tag.toNat) = none → s.locate (s.homeAddr addr.toNat) = .bad →
    ∃ t, exec (.wr src tag addr (bs.map some)) s = .next t ∧
      t.sk.done.head? = some { src := src.val, tag := tag.toNat, type := 7, data := [] } ∧ ∀ x, t.byteAt x = s.byteAt x) ∧
  (∀ (src : Fin 8) (tag : BitVec 16) (orig : Src) (w : Fin 3) (c : BitVec 8) (v : Word) (u s : State), s.skOn = true → s.skRole ≠ 0 →
    src.val ≠ s.skMe → s.sk.dropped.contains src.val = false → s.skMember src = true →
    s.sk.done.find? (fun x => x.src == src.val && x.tag == tag.toNat) = none → u = s.ctxForward orig w c.toNat v.toNat →
    ∃ t, exec (.ctxWr src tag orig w c v) s = .next t ∧
      t.sk.done.head? = some { src := src.val, tag := tag.toNat, type := 6, data := [] } ∧ t.sch = u.sch ∧
      (∀ (f : Fld) (p i : Nat), f.page + p ≠ 0x0C0 → t.rd f p i = u.rd f p i) ∧ ∀ x, t.byteAt x = u.byteAt x)
end

