-- ==== Sys2Proof/Laws/Store.lean ====
section
/-! SUPPORT. The laws of the sparse stores: what a key reads as after a write, and that writes keep the canonical form. -/

namespace Sys2Proof.Machine

variable {α : Type}

/-! ### Reading after writing -/

@[simp] theorem storeFind_put_same (k : Nat) (v : α) (m : List (Nat × α)) : storeFind k (storePut k v m) = some v := by
  induction m with
  | nil => simp [storePut, storeFind]
  | cons c t ih =>
    obtain ⟨a, x⟩ := c
    simp only [storePut]
    split
    · simp [storeFind]
    · split
      · simp [storeFind]
      · rename_i h
        simp [storeFind, h, ih]

theorem storeFind_put_other {j k : Nat} (h : k ≠ j) (v : α) (m : List (Nat × α)) : storeFind j (storePut k v m) = storeFind j m := by
  induction m with
  | nil => simp [storePut, storeFind, h]
  | cons c t ih =>
    obtain ⟨a, x⟩ := c
    simp only [storePut]
    split
    · simp [storeFind, h]
    · split
      · rename_i e
        subst e
        simp [storeFind, h]
      · simp [storeFind, ih]

@[simp] theorem storeFind_del_same (k : Nat) (m : List (Nat × α)) : storeFind k (storeDel k m) = none := by
  induction m with
  | nil => rfl
  | cons c t ih =>
    obtain ⟨a, x⟩ := c
    simp only [storeDel]
    split
    · exact ih
    · rename_i h
      simp [storeFind, h, ih]

theorem storeFind_del_other {j k : Nat} (h : k ≠ j) (m : List (Nat × α)) : storeFind j (storeDel k m) = storeFind j m := by
  induction m with
  | nil => rfl
  | cons c t ih =>
    obtain ⟨a, x⟩ := c
    simp only [storeDel]
    split
    · rename_i e
      subst e
      simp [storeFind, h, ih]
    · simp [storeFind, ih]

/-- A read after a write of the same key gives the value written. -/
@[simp] theorem storeGet_set_same [DecidableEq α] (d : α) (m : List (Nat × α)) (k : Nat) (v : α) :
    storeGet d (storeSet d m k v) k = v := by
  unfold storeGet storeSet
  split
  · rename_i h
    simp [h]
  · simp

/-- A write leaves every other key alone, whatever either key reads as unlisted. -/
theorem storeGet_set_other [DecidableEq α] (d e : α) (m : List (Nat × α)) {j k : Nat} (h : k ≠ j) (v : α) :
    storeGet e (storeSet d m k v) j = storeGet e m j := by
  unfold storeGet storeSet
  split
  · rw [storeFind_del_other h]
  · rw [storeFind_put_other h]

/-! ### The canonical form -/

/-- Every key of a store lies above a bound. -/
def storeAbove (n : Nat) (m : List (Nat × α)) : Prop := ∀ c ∈ m, n < c.1

theorem storeSorted_cons {a : Nat} {x : α} {t : List (Nat × α)} :
    storeSorted ((a, x) :: t) = true ↔ storeAbove a t ∧ storeSorted t = true := by
  induction t generalizing a x with
  | nil => simp [storeSorted, storeAbove]
  | cons c t ih =>
    obtain ⟨b, y⟩ := c
    constructor
    · intro h
      simp only [storeSorted, Bool.and_eq_true, decide_eq_true_eq] at h
      refine ⟨?_, h.2⟩
      intro c hc
      rcases List.mem_cons.1 hc with rfl | hc
      · exact h.1
      · exact Nat.lt_trans h.1 ((ih.1 h.2).1 c hc)
    · intro h
      simp only [storeSorted, Bool.and_eq_true, decide_eq_true_eq]
      exact ⟨h.1 (b, y) (List.mem_cons_self ..), h.2⟩

theorem storeAbove_del {n k : Nat} {m : List (Nat × α)} (h : storeAbove n m) : storeAbove n (storeDel k m) := by
  induction m with
  | nil => exact h
  | cons c t ih =>
    obtain ⟨a, x⟩ := c
    have ht : storeAbove n t := fun c hc => h c (List.mem_cons_of_mem _ hc)
    simp only [storeDel]
    split
    · exact ih ht
    · intro c hc
      rcases List.mem_cons.1 hc with rfl | hc
      · exact h _ (List.mem_cons_self ..)
      · exact ih ht c hc

theorem storeSorted_del {k : Nat} {m : List (Nat × α)} (h : storeSorted m = true) : storeSorted (storeDel k m) = true := by
  induction m with
  | nil => rfl
  | cons c t ih =>
    obtain ⟨a, x⟩ := c
    obtain ⟨h1, h2⟩ := storeSorted_cons.1 h
    simp only [storeDel]
    split
    · exact ih h2
    · exact storeSorted_cons.2 ⟨storeAbove_del h1, ih h2⟩

theorem storeAbove_put {n k : Nat} {v : α} {m : List (Nat × α)} (hk : n < k) (h : storeAbove n m) : storeAbove n (storePut k v m) := by
  induction m with
  | nil => intro c hc; simp only [storePut, List.mem_singleton] at hc; subst hc; exact hk
  | cons c t ih =>
    obtain ⟨a, x⟩ := c
    have ht : storeAbove n t := fun c hc => h c (List.mem_cons_of_mem _ hc)
    simp only [storePut]
    split
    · intro c hc
      rcases List.mem_cons.1 hc with rfl | hc
      · exact hk
      · exact h c hc
    · split
      · intro c hc
        rcases List.mem_cons.1 hc with rfl | hc
        · exact hk
        · exact ht c hc
      · intro c hc
        rcases List.mem_cons.1 hc with rfl | hc
        · exact h _ (List.mem_cons_self ..)
        · exact ih ht c hc

theorem storeSorted_put {k : Nat} {v : α} {m : List (Nat × α)} (h : storeSorted m = true) : storeSorted (storePut k v m) = true := by
  induction m with
  | nil => rfl
  | cons c t ih =>
    obtain ⟨a, x⟩ := c
    obtain ⟨h1, h2⟩ := storeSorted_cons.1 h
    simp only [storePut]
    split
    · rename_i hk
      refine storeSorted_cons.2 ⟨?_, h⟩
      intro c hc
      rcases List.mem_cons.1 hc with rfl | hc
      · exact hk
      · exact Nat.lt_trans hk (h1 c hc)
    · split
      · rename_i hk
        subst hk
        exact storeSorted_cons.2 ⟨h1, h2⟩
      · rename_i hk hne
        exact storeSorted_cons.2 ⟨storeAbove_put (by omega) h1, ih h2⟩

/-- A write keeps the keys strictly rising. -/
theorem storeSorted_set [DecidableEq α] {d : α} {k : Nat} {v : α} {m : List (Nat × α)} (h : storeSorted m = true) :
    storeSorted (storeSet d m k v) = true := by
  unfold storeSet
  split
  · exact storeSorted_del h
  · exact storeSorted_put h

/-- Entries dropped keep the keys strictly rising. -/
theorem storeSorted_filter {p : Nat × α → Bool} {m : List (Nat × α)} (h : storeSorted m = true) : storeSorted (m.filter p) = true := by
  induction m with
  | nil => rfl
  | cons c t ih =>
    obtain ⟨a, x⟩ := c
    obtain ⟨h1, h2⟩ := storeSorted_cons.1 h
    rw [List.filter_cons]
    split
    · exact storeSorted_cons.2 ⟨fun c hc => h1 c (List.mem_filter.1 hc).1, ih h2⟩
    · exact ih h2

theorem mem_storeDel {k : Nat} {c : Nat × α} {m : List (Nat × α)} (h : c ∈ storeDel k m) : c ∈ m := by
  induction m with
  | nil => exact h
  | cons e t ih =>
    obtain ⟨a, x⟩ := e
    simp only [storeDel] at h
    split at h
    · exact List.mem_cons_of_mem _ (ih h)
    · rcases List.mem_cons.1 h with rfl | h
      · exact List.mem_cons_self ..
      · exact List.mem_cons_of_mem _ (ih h)

theorem mem_storePut {k : Nat} {v : α} {c : Nat × α} {m : List (Nat × α)} (h : c ∈ storePut k v m) : c = (k, v) ∨ c ∈ m := by
  induction m with
  | nil => simp only [storePut, List.mem_singleton] at h; exact Or.inl h
  | cons e t ih =>
    obtain ⟨a, x⟩ := e
    simp only [storePut] at h
    split at h
    · rcases List.mem_cons.1 h with rfl | h
      · exact Or.inl rfl
      · exact Or.inr h
    · split at h
      · rcases List.mem_cons.1 h with rfl | h
        · exact Or.inl rfl
        · exact Or.inr (List.mem_cons_of_mem _ h)
      · rcases List.mem_cons.1 h with rfl | h
        · exact Or.inr (List.mem_cons_self ..)
        · rcases ih h with e | e
          · exact Or.inl e
          · exact Or.inr (List.mem_cons_of_mem _ e)

/-! ### Memory -/

theorem Memory.wf_iff {m : List Host.Cell} : Memory.wf m = true ↔ storeSorted m = true ∧ ∀ c ∈ m, c.2 ≠ memDflt c.1 := by
  simp [Memory.wf, List.all_eq_true]

/-- A byte written keeps memory's canonical form. -/
theorem Memory.wf_set {m : List Host.Cell} {k : Nat} {b : Byte} (h : Memory.wf m = true) : Memory.wf (storeSet (memDflt k) m k b) = true := by
  obtain ⟨h1, h2⟩ := Memory.wf_iff.1 h
  refine Memory.wf_iff.2 ⟨storeSorted_set h1, ?_⟩
  intro c hc
  unfold storeSet at hc
  split at hc
  · exact h2 c (mem_storeDel hc)
  · rename_i hb
    rcases mem_storePut hc with rfl | hc
    · exact hb
    · exact h2 c hc

/-- Bytes lost keep memory's canonical form. -/
theorem Memory.wf_filter {m : List Host.Cell} {p : Host.Cell → Bool} (h : Memory.wf m = true) : Memory.wf (m.filter p) = true := by
  obtain ⟨h1, h2⟩ := Memory.wf_iff.1 h
  exact Memory.wf_iff.2 ⟨storeSorted_filter h1, fun c hc => h2 c (List.mem_filter.1 hc).1⟩

end Sys2Proof.Machine
end

