-- ==== Sys2Proof/Laws/Regs.lean ====
section
/-! SUPPORT. The laws of register fields: what a field reads as after another, or the same, is written, and what the named operations over
registers do to every field. -/

namespace Sys2Proof.Machine

/-! ### Keys -/

/-- Fields of different numbers have different keys. -/
theorem Fld.key_ne_of_id {f g : Fld} (h : f.id % 4096 ≠ g.id % 4096) (p i q j : Nat) : f.key p i ≠ g.key q j := by
  unfold Fld.key
  omega

/-- The same field at different indices has different keys. -/
theorem Fld.key_ne_of_index {f g : Fld} {i j : Nat} (h : i % 65536 ≠ j % 65536) (p q : Nat) : f.key p i ≠ g.key q j := by
  unfold Fld.key
  omega

/-- Fields on different pages have different keys. -/
theorem Fld.key_ne_of_page {f g : Fld} {p q : Nat} (h : f.page + p ≠ g.page + q) (i j : Nat) : f.key p i ≠ g.key q j := by
  unfold Fld.key
  omega

/-! ### Reading after writing -/

/-- A field written reads as the low bits of the value, as many as it is wide. -/
@[simp] theorem State.rd_wr_same (s : State) (f : Fld) (p i v : Nat) : (s.wr f p i v).rd f p i = v % 2 ^ f.width := by
  simp [State.rd, State.wr]

/-- A write leaves every field of another key alone. -/
theorem State.rd_wr_key (s : State) {f g : Fld} {p i q j : Nat} (h : f.key p i ≠ g.key q j) (v : Nat) :
    (s.wr f p i v).rd g q j = s.rd g q j := by
  simp [State.rd, State.wr, storeGet_set_other _ _ _ h]

/-- A write leaves every field of another number alone. -/
theorem State.rd_wr_id (s : State) {f g : Fld} (h : f.id % 4096 ≠ g.id % 4096) (p i v q j : Nat) :
    (s.wr f p i v).rd g q j = s.rd g q j := s.rd_wr_key (Fld.key_ne_of_id h p i q j) v

/-- Two states with the same registers read alike. -/
theorem State.rd_congr {s t : State} (h : s.regs = t.regs) (f : Fld) (p i : Nat) : s.rd f p i = t.rd f p i := by
  simp [State.rd, h]

/-- A counter that saturates. -/
theorem State.rd_inc_same (s : State) (f : Fld) (p i k : Nat) : (s.inc f p i k).rd f p i = satInc (s.rd f p i) k % 2 ^ f.width := by
  simp [State.inc]

theorem State.rd_inc_key (s : State) {f g : Fld} {p i q j : Nat} (h : f.key p i ≠ g.key q j) (k : Nat) :
    (s.inc f p i k).rd g q j = s.rd g q j := s.rd_wr_key h _

theorem State.rd_inc_id (s : State) {f g : Fld} (h : f.id % 4096 ≠ g.id % 4096) (p i k q j : Nat) :
    (s.inc f p i k).rd g q j = s.rd g q j := s.rd_wr_id h p i _ q j

/-- An event sets its bit of EVT_RAW and touches no field but EVT_RAW. -/
theorem State.rd_raise_same (s : State) (page bit : Nat) :
    (s.raise page bit).rd F.REG_EVT_RAW page 0 = setBit (s.rd F.REG_EVT_RAW page 0) bit % 2 ^ 32 := by
  simp only [State.raise, State.rd_wr_same]
  rfl

theorem State.rd_raise_id (s : State) {g : Fld} (h : F.REG_EVT_RAW.id % 4096 ≠ g.id % 4096) (page bit q j : Nat) :
    (s.raise page bit).rd g q j = s.rd g q j := s.rd_wr_id h page 0 _ q j

/-! ### What is no register -/

@[simp] theorem State.rd_emit (s : State) (o : Out) (f : Fld) (p i : Nat) : (s.emit o).rd f p i = s.rd f p i := rfl
@[simp] theorem State.rd_tookFree (s : State) (f : Fld) (p i : Nat) : s.tookFree.rd f p i = s.rd f p i := rfl
@[simp] theorem State.rd_setByte (s : State) (a : Nat) (b : Byte) (f : Fld) (p i : Nat) : (s.setByte a b).rd f p i = s.rd f p i := rfl
@[simp] theorem State.rd_setPoison (s : State) (a : Nat) (b : Bool) (f : Fld) (p i : Nat) : (s.setPoison a b).rd f p i = s.rd f p i := rfl

/-! ### Shadow copies -/

@[simp] theorem State.rdSh_wrSh_same (s : State) (f : Fld) (p i v : Nat) : (s.wrSh f p i v).rdSh f p i = v % 2 ^ f.width := by
  simp [State.rdSh, State.wrSh]
@[simp] theorem State.rd_wrSh (s : State) (f g : Fld) (p i v q j : Nat) : (s.wrSh f p i v).rd g q j = s.rd g q j := rfl
@[simp] theorem State.rdSh_wr (s : State) (f g : Fld) (p i v q j : Nat) : (s.wr f p i v).rdSh g q j = s.rdSh g q j := rfl

/-! ### Memory -/

/-- A byte written reads as written, and every other byte as before. -/
@[simp] theorem State.byteAt_setByte_same (s : State) (a : Nat) (b : Byte) : (s.setByte a b).byteAt a = b := by
  simp [State.byteAt, State.setByte]
theorem State.byteAt_setByte_other (s : State) {a c : Nat} (h : a ≠ c) (b : Byte) : (s.setByte a b).byteAt c = s.byteAt c := by
  simp [State.byteAt, State.setByte, storeGet_set_other _ _ _ h]
@[simp] theorem State.byteAt_wr (s : State) (f : Fld) (p i v a : Nat) : (s.wr f p i v).byteAt a = s.byteAt a := rfl

/-- Bytes stored from a place leave every other place alone. -/
theorem State.byteAt_setBytes_other (s : State) (a : Nat) (bs : List Byte) {c : Nat} (h : c < a ∨ a + bs.length ≤ c) :
    (s.setBytes a bs).byteAt c = s.byteAt c := by
  induction bs generalizing s a with
  | nil => rfl
  | cons b t ih =>
    simp only [List.length_cons] at h
    rw [State.setBytes, ih _ _ (by omega), State.byteAt_setByte_other _ (by omega)]

/-! ### Edits outside the stores -/

@[simp] theorem State.rd_mk (s : State) {pending1 shad1 lat1 mem1 poison1 armed1 gt1 si1 siSub1 now1 nowSub1 fresh1 rdata1 rerr1 outs1
    orr1 captures1 tiles1 recipes1 sch1 cam1 sv1 tbufs1 md1 orb1 fs1 br1 maskValid1 vid1 pil1 pwr1 host1 fw1 rep1 sk1} (f : Fld) (p i :
    Nat) :
    State.rd ⟨pending1, s.regs, shad1, lat1, mem1, poison1, armed1, gt1, si1, siSub1, now1, nowSub1, fresh1, rdata1, rerr1, outs1, orr1,
    captures1, tiles1, recipes1, sch1, cam1, sv1, tbufs1, md1, orb1, fs1, br1, maskValid1, vid1, pil1, pwr1, host1, fw1, rep1, sk1⟩ f p
    i = s.rd f p i := rfl
@[simp] theorem State.rdSh_mk (s : State) {pending1 regs1 lat1 mem1 poison1 armed1 gt1 si1 siSub1 now1 nowSub1 fresh1 rdata1 rerr1 outs1
    orr1 captures1 tiles1 recipes1 sch1 cam1 sv1 tbufs1 md1 orb1 fs1 br1 maskValid1 vid1 pil1 pwr1 host1 fw1 rep1 sk1} (f : Fld) (p i :
    Nat) :
    State.rdSh ⟨pending1, regs1, s.shad, lat1, mem1, poison1, armed1, gt1, si1, siSub1, now1, nowSub1, fresh1, rdata1, rerr1, outs1,
    orr1, captures1, tiles1, recipes1, sch1, cam1, sv1, tbufs1, md1, orb1, fs1, br1, maskValid1, vid1, pil1, pwr1, host1, fw1, rep1,
    sk1⟩ f p i = s.rdSh f p i := rfl
@[simp] theorem State.byteAt_mk (s : State) {pending1 regs1 shad1 lat1 poison1 armed1 gt1 si1 siSub1 now1 nowSub1 fresh1 rdata1 rerr1
    outs1 orr1 captures1 tiles1 recipes1 sch1 cam1 sv1 tbufs1 md1 orb1 fs1 br1 maskValid1 vid1 pil1 pwr1 host1 fw1 rep1 sk1} (a : Nat) :
    State.byteAt ⟨pending1, regs1, shad1, lat1, s.mem, poison1, armed1, gt1, si1, siSub1, now1, nowSub1, fresh1, rdata1, rerr1, outs1,
    orr1, captures1, tiles1, recipes1, sch1, cam1, sv1, tbufs1, md1, orb1, fs1, br1, maskValid1, vid1, pil1, pwr1, host1, fw1, rep1,
    sk1⟩ a = s.byteAt a := rfl

end Sys2Proof.Machine
end

