-- ==== Sys2Proof/Laws/Frame.lean ====
section
/-! SUPPORT. How frames compose (Safety.lean, Changes), and when a register write is reached. -/

namespace Sys2Proof.Machine

theorem Changes.refl (s : State) : Changes s s [] := ⟨fun _ _ _ _ => rfl, fun _ => rfl⟩

/-- A longer list of fields says less. -/
theorem Changes.mono {s t : State} {l k : List (Fld × Nat × Nat)} (h : Changes s t l) (hk : ∀ x ∈ l, x ∈ k) : Changes s t k :=
  ⟨fun f p i hf => h.fields f p i (fun x hx => hf x (hk x hx)), h.bytes⟩

theorem Changes.trans {a b c : State} {l k : List (Fld × Nat × Nat)} (h : Changes a b l) (g : Changes b c k) : Changes a c (l ++ k) :=
  ⟨fun f p i hf => (g.fields f p i (fun x hx => hf x (List.mem_append_right _ hx))).trans
      (h.fields f p i (fun x hx => hf x (List.mem_append_left _ hx))),
   fun x => (g.bytes x).trans (h.bytes x)⟩

/-- One field written. -/
theorem Changes.wr {a s : State} {l : List (Fld × Nat × Nat)} (h : Changes a s l) (f : Fld) (p i v : Nat) :
    Changes a (s.wr f p i v) (l ++ [(f, p, i)]) :=
  h.trans ⟨fun g q j hg => s.rd_wr_key (hg (f, p, i) (List.mem_singleton.2 rfl)) v, fun _ => rfl⟩

/-- An event of a page. -/
theorem Changes.raise {a s : State} {l : List (Fld × Nat × Nat)} (h : Changes a s l) (page bit : Nat) :
    Changes a (s.raise page bit) (l ++ [(F.REG_EVT_RAW, page, 0)]) := h.wr _ _ _ _

/-- An edit outside registers and memory. -/
theorem Changes.put {a s t : State} {l : List (Fld × Nat × Nat)} (h : Changes a s l) (hr : t.regs = s.regs) (hm : t.mem = s.mem) : Changes a t l :=
  ⟨fun f p i hf => (State.rd_congr hr f p i).trans (h.fields f p i hf), fun x => by
    rw [← h.bytes x]
    simp [State.byteAt, hm]⟩

/-- A write that reaches its page is performed. -/
theorem State.reach_live {s : State} {page : Nat} (h : s.live page = true) (k : State → State) : s.reach page k = k s := by
  simp only [State.live, Bool.and_eq_true, Bool.not_eq_true', Bool.and_eq_false_iff, beq_eq_false_iff_ne] at h
  unfold State.reach
  rw [if_neg (by simp [h.1.1.1]), if_neg (by simp [h.1.1.2]), if_neg (by simp [h.1.2])]
  rw [if_neg]
  rintro ⟨h1, h2⟩
  rcases h.2 with h3 | h3
  · exact h3 h1
  · exact h3 h2

/-- A context write that is permitted is performed. -/
theorem State.ctxWrite_live {s : State} {src : Src} {c : Nat} (h : s.liveCtx src c = true) (k : State → State) : s.ctxWrite src c k = k s := by
  simp only [State.liveCtx, Bool.and_eq_true] at h
  unfold State.ctxWrite
  rw [State.reach_live h.1]
  simp [h.2]

end Sys2Proof.Machine
end

