-- ==== Sys2Proof/Laws/Moves.lean ====
section
/-! SUPPORT. What the primitive edits of the state may do (Safety.lean, Moves), and how edits compose. Every operation over the state is made
of these; MovesOps and its siblings say so of each operation in turn. -/

namespace Sys2Proof.Machine

theorem Moves.refl (s : State) : Moves s s := ⟨id, id, id, id, rfl⟩

theorem Moves.trans {a b c : State} (h : Moves a b) (k : Moves b c) : Moves a c :=
  ⟨fun x => k.regs (h.regs x), fun x => k.shad (h.shad x), fun x => k.mem (h.mem x), fun x => k.poison (h.poison x), k.queue.trans h.queue⟩

/-- A canonical state stays canonical. -/
theorem Moves.canon {s t : State} (h : Moves s t) (c : s.Canon) : t.Canon := ⟨h.regs c.regs, h.shad c.shad, h.mem c.mem, h.poison c.poison⟩

/-- An edit of the fields outside the stores and the queue. -/
theorem Moves.put {a s : State} (h : Moves a s) {lat armed gt si siSub now nowSub fresh rdata rerr outs orr captures tiles recipes sch cam sv
    tbufs md orb fs br maskValid vid pil pwr host fw rep sk} :
    Moves a ⟨s.pending, s.regs, s.shad, lat, s.mem, s.poison, armed, gt, si, siSub, now, nowSub, fresh, rdata, rerr, outs, orr, captures,
      tiles, recipes, sch, cam, sv, tbufs, md, orb, fs, br, maskValid, vid, pil, pwr, host, fw, rep, sk⟩ :=
  ⟨h.regs, h.shad, h.mem, h.poison, h.queue⟩

theorem Moves.put_iff {a s : State} {lat armed gt si siSub now nowSub fresh rdata rerr outs orr captures tiles recipes sch cam sv
    tbufs md orb fs br maskValid vid pil pwr host fw rep sk} :
    Moves a ⟨s.pending, s.regs, s.shad, lat, s.mem, s.poison, armed, gt, si, siSub, now, nowSub, fresh, rdata, rerr, outs, orr, captures,
      tiles, recipes, sch, cam, sv, tbufs, md, orb, fs, br, maskValid, vid, pil, pwr, host, fw, rep, sk⟩ ↔ Moves a s :=
  ⟨fun h => ⟨h.regs, h.shad, h.mem, h.poison, h.queue⟩, fun h => Moves.put h⟩

theorem State.wr_moves {a s : State} (h : Moves a s) (f : Fld) (p i v : Nat) : Moves a (s.wr f p i v) :=
  h.trans ⟨fun x => storeSorted_set x, id, id, id, rfl⟩

theorem State.wrSh_moves {a s : State} (h : Moves a s) (f : Fld) (p i v : Nat) : Moves a (s.wrSh f p i v) :=
  h.trans ⟨id, fun x => storeSorted_set x, id, id, rfl⟩

theorem State.setByte_moves {a s : State} (h : Moves a s) (place : Nat) (b : Byte) : Moves a (s.setByte place b) :=
  h.trans ⟨id, id, fun x => Memory.wf_set x, id, rfl⟩

theorem State.setPoison_moves {a s : State} (h : Moves a s) (place : Nat) (b : Bool) : Moves a (s.setPoison place b) :=
  h.trans ⟨id, id, id, fun x => storeSorted_set x, rfl⟩

theorem State.forget_moves {a s : State} (h : Moves a s) (lo hi : Nat) : Moves a (s.forget lo hi) :=
  h.trans ⟨id, id, fun x => Memory.wf_filter x, fun x => storeSorted_filter x, rfl⟩

theorem State.setBytes_moves {a s : State} (h : Moves a s) (place : Nat) (bs : List Byte) : Moves a (s.setBytes place bs) := by
  induction bs generalizing s place with
  | nil => exact h
  | cons b t ih => exact ih (State.setByte_moves h place b) _

/-! ### How edits compose -/

/-- A fact proved first and then used. -/
theorem Moves.cut {P Q : Prop} (p : P) (q : P → Q) : Q := q p

theorem Moves.ite {a s t : State} {c : Prop} [Decidable c] (h : Moves a s) (k : Moves a t) : Moves a (if c then s else t) := by
  split
  · exact h
  · exact k

theorem Moves.foldl {α : Type} {a s : State} {f : State → α → State} {l : List α} (h : Moves a s)
    (hf : ∀ t x, Moves a t → Moves a (f t x)) : Moves a (l.foldl f s) := by
  induction l generalizing s with
  | nil => exact h
  | cons x t ih => exact ih (hf _ _ h)

theorem Moves.foldlFst {α β : Type} {a : State} {s : State × β} {f : State × β → α → State × β} {l : List α} (h : Moves a s.1)
    (hf : ∀ t x, Moves a t.1 → Moves a (f t x).1) : Moves a (l.foldl f s).1 := by
  induction l generalizing s with
  | nil => exact h
  | cons x t ih => exact ih (hf _ _ h)

/-- The state of a pair that is known by an equation. -/
theorem Moves.fstEq {β : Type} {a t : State} {p : State × β} {b : β} (e : p = (t, b)) (h : Moves a p.1) : Moves a t := by
  rw [e] at h
  exact h

theorem Moves.iteFst {β : Type} {a : State} {s t : State × β} {c : Prop} [Decidable c] (h : Moves a s.1) (k : Moves a t.1) :
    Moves a (if c then s else t).1 := by
  split
  · exact h
  · exact k

theorem Moves.regsFilter {a s t : State} (h : Moves a s) (p q : Nat × Nat → Bool) (h1 : t.regs = s.regs.filter p)
    (h2 : t.shad = s.shad ∨ t.shad = s.shad.filter q ∨ t.shad = []) (h3 : t.mem = s.mem) (h4 : t.poison = s.poison)
    (h5 : t.pending = s.pending) : Moves a t := by
  refine h.trans ⟨fun x => h1 ▸ storeSorted_filter x, fun x => ?_, fun x => h3 ▸ x, fun x => h4 ▸ x, h5⟩
  rcases h2 with e | e | e
  · exact e ▸ x
  · exact e ▸ storeSorted_filter x
  · rw [e]; rfl

theorem storeSorted_putAll {l m : List (Nat × Nat)} (h : storeSorted m = true) :
    storeSorted (l.foldl (fun m c => storePut c.1 c.2 m) m) = true := by
  induction l generalizing m with
  | nil => exact h
  | cons c t ih => exact ih (storeSorted_put h)

theorem Moves.regsPut {a s t : State} (h : Moves a s) (l : List (Nat × Nat)) (h1 : t.regs = l.foldl (fun m c => storePut c.1 c.2 m) s.regs)
    (h2 : t.shad = s.shad) (h3 : t.mem = s.mem) (h4 : t.poison = s.poison) (h5 : t.pending = s.pending) : Moves a t :=
  h.trans ⟨fun x => h1 ▸ storeSorted_putAll x, fun x => h2 ▸ x, fun x => h3 ▸ x, fun x => h4 ▸ x, h5⟩

end Sys2Proof.Machine
end

