-- ==== Sys2Proof/Laws/MovesOps.lean ====
section
/-! SUPPORT. What each operation of Machine/Ops.lean may do to the stores and the queue (Safety.lean, Moves): one lemma for each. -/

namespace Sys2Proof.Machine

open Host Sys2Proof

theorem State.raise_moves {a s : State} (page : Nat) (bit : Nat) (h : Moves a s) :
    Moves a (State.raise s page bit) := by
  unfold State.raise
  repeat' first
    | with_reducible assumption
    | with_reducible apply State.wr_moves

theorem State.inc_moves {a s : State} (f : Fld) (p : Nat) (i : Nat) (k : optParam Nat 1) (h : Moves a s) :
    Moves a (State.inc s f p i k) := by
  unfold State.inc
  repeat' first
    | with_reducible assumption
    | with_reducible apply State.wr_moves

theorem State.emit_moves {a s : State} (o : Out) (h : Moves a s) :
    Moves a (State.emit s o) := by
  unfold State.emit
  repeat' first
    | with_reducible assumption
    | simp only [Moves.put_iff]

theorem State.addrFault_moves {a s : State} (v1 : Nat) (h : Moves a s) :
    Moves a (State.addrFault s v1) := by
  unfold State.addrFault
  repeat' first
    | with_reducible assumption
    | with_reducible apply State.raise_moves
    | with_reducible apply State.wr_moves
    | with_reducible apply State.inc_moves

theorem State.addW_moves {a s : State} (f : Fld) (p : Nat) (i : Nat) (k : Nat) (h : Moves a s) :
    Moves a (State.addW s f p i k) := by
  unfold State.addW
  repeat' first
    | with_reducible assumption
    | with_reducible apply State.wr_moves

theorem State.noteUE_moves {a s : State} (place : Nat) (h : Moves a s) :
    Moves a (State.noteUE s place) := by
  unfold State.noteUE
  repeat' first
    | with_reducible assumption
    | with_reducible apply State.raise_moves
    | with_reducible apply State.wr_moves
    | with_reducible apply State.inc_moves
    | split

theorem State.putPlaces_moves {a s : State} (all : List Nat) (bad : Bool) (v3 : List Nat) (v4 : List Byte) (h : Moves a s) :
    Moves a (State.putPlaces s all bad v3 v4) := by
  induction v3 generalizing s v4 with
  | nil => unfold State.putPlaces; exact h
  | cons x t ih =>
    cases v4 with
    | nil => unfold State.putPlaces; exact h
    | cons b bs =>
      unfold State.putPlaces
      repeat' first
        | with_reducible assumption
        | with_reducible apply ih
        | with_reducible apply State.setByte_moves
        | with_reducible apply State.setPoison_moves
        | with_reducible apply Moves.ite

theorem State.poke_moves {a s : State} (v1 : Nat) (bs : List Byte) (bad : optParam Bool false) (h : Moves a s) :
    Moves a (State.poke s v1 bs bad) := by
  unfold State.poke
  repeat' first
    | with_reducible assumption
    | with_reducible apply State.addrFault_moves
    | with_reducible apply State.addW_moves
    | with_reducible apply State.noteUE_moves
    | with_reducible apply State.putPlaces_moves
    | split

theorem State.wrB_moves {a s : State} (f : Fld) (p : Nat) (i : Nat) (b : Bool) (h : Moves a s) :
    Moves a (State.wrB s f p i b) := by
  unfold State.wrB
  repeat' first
    | with_reducible assumption
    | with_reducible apply State.wr_moves

theorem State.accFault_moves {a s : State} (page : Nat) (b : Nat) (ofs : Nat) (h : Moves a s) :
    Moves a (State.accFault s page b ofs) := by
  unfold State.accFault
  repeat' first
    | with_reducible assumption
    | with_reducible apply State.raise_moves
    | with_reducible apply State.wr_moves
    | with_reducible apply Moves.ite

theorem State.tookFree_moves {a s : State} (h : Moves a s) :
    Moves a (State.tookFree s) := by
  unfold State.tookFree
  repeat' first
    | with_reducible assumption
    | simp only [Moves.put_iff]

theorem State.noteRead_moves {a s : State} (v1 : Nat) (n : Nat) (h : Moves a s) :
    Moves a (State.noteRead s v1 n) := by
  unfold State.noteRead
  repeat' first
    | with_reducible assumption
    | with_reducible apply State.addrFault_moves
    | with_reducible apply State.addW_moves
    | with_reducible apply State.noteUE_moves
    | split

theorem State.wakeLatch_moves {a s : State} (c : Nat) (h : Moves a s) :
    Moves a (State.wakeLatch s c) := by
  unfold State.wakeLatch
  repeat' first
    | with_reducible assumption
    | with_reducible apply State.raise_moves
    | with_reducible apply State.wr_moves
    | with_reducible apply Moves.ite
    | simp only [Moves.put_iff]

theorem State.noteCE_moves {a s : State} (place : Nat) (h : Moves a s) :
    Moves a (State.noteCE s place) := by
  unfold State.noteCE
  repeat' first
    | with_reducible assumption
    | with_reducible apply State.raise_moves
    | with_reducible apply State.inc_moves
    | split

end Sys2Proof.Machine
end

