-- ==== Sys2Proof/Laws/MovesShadow.lean ====
section
/-! SUPPORT. What each operation of Machine/Shadow.lean may do to the stores and the queue (Safety.lean, Moves): one lemma for each. -/

namespace Sys2Proof.Machine

open Host Sys2Proof

theorem State.unmapped_moves {a s : State} (page : Nat) (h : Moves a s) :
    Moves a (State.unmapped s page) := by
  unfold State.unmapped
  repeat' first
    | with_reducible assumption
    | with_reducible apply State.wr_moves
    | with_reducible apply State.inc_moves

theorem State.badAccess_moves {a s : State} (page : Nat) (ofs : Nat) (h : Moves a s) :
    Moves a (State.badAccess s page ofs) := by
  unfold State.badAccess
  repeat' first
    | with_reducible assumption
    | with_reducible apply State.unmapped_moves
    | with_reducible apply State.accFault_moves
    | with_reducible apply Moves.ite

theorem State.realignDone_moves {a s : State} (g : Nat) (h : Moves a s) :
    Moves a (State.realignDone s g) := by
  unfold State.realignDone
  repeat' first
    | with_reducible assumption
    | with_reducible apply State.raise_moves
    | with_reducible apply State.wr_moves

theorem State.realignLost_moves {a s : State} (h : Moves a s) :
    Moves a (State.realignLost s) := by
  unfold State.realignLost
  repeat' first
    | with_reducible assumption
    | with_reducible apply State.realignDone_moves
    | with_reducible apply Moves.ite
    | with_reducible apply Moves.foldl
    | intro _ _ _

theorem State.commitPage_moves {a s : State} (page : Nat) (h : Moves a s) :
    Moves a (State.commitPage s page) := by
  unfold State.commitPage
  repeat' first
    | with_reducible assumption
    | with_reducible apply State.wr_moves
    | with_reducible apply State.raise_moves
    | with_reducible apply State.addW_moves
    | with_reducible apply State.realignLost_moves
    | with_reducible apply Moves.ite
    | simp only [Moves.put_iff]
    | with_reducible apply Moves.foldl
    | intro _ _ _

theorem State.commitLate_moves {a s : State} (page : Nat) (h : Moves a s) :
    Moves a (State.commitLate s page) := by
  unfold State.commitLate
  repeat' first
    | with_reducible assumption
    | with_reducible apply State.wr_moves
    | with_reducible apply State.commitPage_moves

theorem State.reach_moves {a s : State} (page : Nat) (k : State → State) (h : Moves a s) (hk : ∀ y0, Moves a y0 → Moves a (k y0)) :
    Moves a (State.reach s page k) := by
  unfold State.reach
  repeat' first
    | with_reducible assumption
    | with_reducible apply State.unmapped_moves
    | with_reducible apply hk
    | with_reducible apply Moves.ite

theorem State.commitRange_moves {a s : State} (lo : Nat) (hi : Nat) (h : Moves a s) :
    Moves a (State.commitRange s lo hi) := by
  unfold State.commitRange
  repeat' first
    | with_reducible assumption
    | with_reducible apply State.commitPage_moves
    | with_reducible apply Moves.foldl
    | intro _ _

end Sys2Proof.Machine
end

