-- ==== Sys2Proof/Laws/MovesBarrier.lean ====
section
/-! SUPPORT. What each operation of Machine/Barrier.lean may do to the stores and the queue (Safety.lean, Moves): one lemma for each. -/

namespace Sys2Proof.Machine

open Host Sys2Proof

theorem State.brSync_moves {a s : State} (h : Moves a s) :
    Moves a (State.brSync s) := by
  unfold State.brSync
  repeat' first
    | with_reducible assumption
    | with_reducible apply State.wr_moves
    | with_reducible apply Moves.foldl
    | intro _ _ _

theorem State.brSendOne_moves {a s : State} (h : Moves a s) :
    Moves a (State.brSendOne s) := by
  unfold State.brSendOne
  repeat' first
    | with_reducible assumption
    | with_reducible apply State.wr_moves
    | with_reducible apply State.emit_moves
    | simp only [Moves.put_iff]
    | split

theorem State.brPump_moves {a s : State} (h : Moves a s) :
    Moves a (State.brPump s) := by
  unfold State.brPump
  repeat' first
    | with_reducible assumption
    | with_reducible apply State.brSync_moves
    | with_reducible apply State.brSendOne_moves

theorem State.brQueue_moves {a s : State} (ty : Nat) (body : List Byte) (h : Moves a s) :
    Moves a (State.brQueue s ty body) := by
  unfold State.brQueue
  repeat' first
    | with_reducible assumption
    | with_reducible apply State.brPump_moves
    | with_reducible apply Moves.ite
    | simp only [Moves.put_iff]

theorem State.brLinkDown_moves {a s : State} (h : Moves a s) :
    Moves a (State.brLinkDown s) := by
  unfold State.brLinkDown
  repeat' first
    | with_reducible assumption
    | with_reducible apply State.raise_moves
    | with_reducible apply State.wr_moves
    | with_reducible apply Moves.ite

theorem State.brEnable_moves {a s : State} (v : Nat) (h : Moves a s) :
    Moves a (State.brEnable s v) := by
  unfold State.brEnable
  repeat' first
    | with_reducible assumption
    | with_reducible apply State.wr_moves
    | with_reducible apply State.brLinkDown_moves
    | with_reducible apply Moves.ite

theorem State.brGuard_moves {a s : State} (src : Src) (k : State → State) (h : Moves a s) (hk : ∀ y0, Moves a y0 → Moves a (k y0)) :
    Moves a (State.brGuard s src k) := by
  unfold State.brGuard
  repeat' first
    | with_reducible assumption
    | with_reducible apply State.inc_moves
    | with_reducible apply hk
    | with_reducible apply Moves.ite

theorem State.brPush_moves {a s : State} (h : Moves a s) :
    Moves a (State.brPush s) := by
  unfold State.brPush
  repeat' first
    | with_reducible assumption
    | with_reducible apply State.brQueue_moves

theorem State.rxPop_moves {a s : State} (h : Moves a s) :
    Moves a (State.rxPop s) := by
  unfold State.rxPop
  repeat' first
    | with_reducible assumption
    | with_reducible apply State.brSync_moves
    | simp only [Moves.put_iff]

theorem State.brDqPush_moves {a s : State} (h : Moves a s) :
    Moves a (State.brDqPush s) := by
  unfold State.brDqPush
  repeat' first
    | with_reducible assumption
    | with_reducible apply State.brQueue_moves
    | with_reducible apply Moves.ite
    | simp only [Moves.put_iff]

theorem State.brAck_moves {a s : State} (v1 : Nat) (h : Moves a s) :
    Moves a (State.brAck s v1) := by
  unfold State.brAck
  repeat' first
    | with_reducible assumption
    | with_reducible apply State.brPump_moves
    | with_reducible apply State.wr_moves
    | simp only [Moves.put_iff]
    | split

theorem State.brFifo_moves {a s : State} (m : List Byte) (h : Moves a s) :
    Moves a (State.brFifo s m) := by
  unfold State.brFifo
  repeat' first
    | with_reducible assumption
    | with_reducible apply State.inc_moves
    | with_reducible apply State.raise_moves
    | with_reducible apply State.brSync_moves
    | with_reducible apply Moves.ite
    | simp only [Moves.put_iff]

theorem State.brReceive_moves {a s : State} (m : List Byte) (k : State → State) (h : Moves a s) (hk : ∀ y0, Moves a y0 → Moves a (k y0)) :
    Moves a (State.brReceive s m k) := by
  unfold State.brReceive
  repeat' first
    | with_reducible assumption
    | with_reducible apply State.raise_moves
    | with_reducible apply State.inc_moves
    | with_reducible apply State.brFifo_moves
    | with_reducible apply State.brAck_moves
    | with_reducible apply hk
    | with_reducible apply Moves.ite
    | simp only [Moves.put_iff]

theorem State.brArrive_moves {a s : State} (m : List Byte) (ty : Nat) (k : State → State) (h : Moves a s) (hk : ∀ y0, Moves a y0 → Moves a (k y0)) :
    Moves a (State.brArrive s m ty k) := by
  unfold State.brArrive
  repeat' first
    | with_reducible assumption
    | with_reducible apply State.brReceive_moves
    | with_reducible apply hk
    | with_reducible apply Moves.ite

theorem State.brDaliReply_moves {a s : State} (m : List Byte) (h : Moves a s) :
    Moves a (State.brDaliReply s m) := by
  unfold State.brDaliReply
  repeat' first
    | with_reducible assumption
    | with_reducible apply State.raise_moves
    | with_reducible apply Moves.ite
    | simp only [Moves.put_iff]

theorem State.brHeartbeat_moves {a s : State} (resync : Bool) (echo : Bool) (front : Bool) (h : Moves a s) :
    Moves a (State.brHeartbeat s resync echo front) := by
  unfold State.brHeartbeat
  repeat' first
    | with_reducible assumption
    | with_reducible apply State.brPump_moves
    | with_reducible apply Moves.ite
    | simp only [Moves.put_iff]

theorem State.brResend_moves {a s : State} (h : Moves a s) :
    Moves a (State.brResend s) := by
  unfold State.brResend
  repeat' first
    | with_reducible assumption
    | with_reducible apply State.emit_moves
    | simp only [Moves.put_iff]
    | with_reducible apply Moves.foldl
    | intro _ _

theorem State.brHbSend_moves {a s : State} (h : Moves a s) :
    Moves a (State.brHbSend s) := by
  unfold State.brHbSend
  repeat' first
    | with_reducible assumption
    | with_reducible apply State.brHeartbeat_moves
    | with_reducible apply Moves.ite

theorem State.brIoStat_moves {a s : State} (m : List Byte) (h : Moves a s) :
    Moves a (State.brIoStat s m) := by
  unfold State.brIoStat
  repeat' first
    | with_reducible assumption
    | with_reducible apply State.wakeLatch_moves
    | with_reducible apply Moves.ite
    | simp only [Moves.put_iff]

theorem State.brLinkUp_moves {a s : State} (lat : Nat) (h : Moves a s) :
    Moves a (State.brLinkUp s lat) := by
  unfold State.brLinkUp
  repeat' first
    | with_reducible assumption
    | with_reducible apply State.wr_moves
    | with_reducible apply State.brHeartbeat_moves
    | with_reducible apply State.brResend_moves
    | with_reducible apply Moves.ite
    | simp only [Moves.put_iff]

theorem State.brReset_moves {a s : State} (h : Moves a s) :
    Moves a (State.brReset s) := by
  unfold State.brReset
  repeat' first
    | with_reducible assumption
    | simp only [Moves.put_iff]

theorem State.brRetx_moves {a s : State} (h : Moves a s) :
    Moves a (State.brRetx s) := by
  unfold State.brRetx
  repeat' first
    | with_reducible assumption
    | with_reducible apply State.inc_moves
    | with_reducible apply State.brResend_moves
    | with_reducible apply Moves.ite

theorem execBarrierLinkDown_moves {a s : State} (h : Moves a s) :
    ∃ t, execBarrierLinkDown s = .next t ∧ Moves a t := by
  unfold execBarrierLinkDown
  refine ⟨_, rfl, ?_⟩
  repeat' first
    | with_reducible assumption
    | with_reducible apply State.brLinkDown_moves

theorem execBarrierLinkUp_moves {a s : State} (lat : BitVec 16) (h : Moves a s) :
    ∃ t, execBarrierLinkUp lat s = .next t ∧ Moves a t := by
  unfold execBarrierLinkUp
  refine ⟨_, rfl, ?_⟩
  repeat' first
    | with_reducible assumption
    | with_reducible apply State.brLinkUp_moves

theorem execBarrierRetx_moves {a s : State} (h : Moves a s) :
    ∃ t, execBarrierRetx s = .next t ∧ Moves a t := by
  unfold execBarrierRetx
  refine ⟨_, rfl, ?_⟩
  repeat' first
    | with_reducible assumption
    | with_reducible apply State.brRetx_moves

theorem execBarrierRxPop_moves {a s : State} (v : Word) (h : Moves a s) :
    ∃ t, execBarrierRxPop v s = .next t ∧ Moves a t := by
  unfold execBarrierRxPop
  refine ⟨_, rfl, ?_⟩
  repeat' first
    | with_reducible assumption
    | with_reducible apply State.reach_moves
    | with_reducible apply State.rxPop_moves
    | with_reducible apply Moves.ite
    | intro _ _

theorem execBarrierTxPush_moves {a s : State} (src : Src) (v : Word) (h : Moves a s) :
    ∃ t, execBarrierTxPush src v s = .next t ∧ Moves a t := by
  unfold execBarrierTxPush
  refine ⟨_, rfl, ?_⟩
  repeat' first
    | with_reducible assumption
    | with_reducible apply State.reach_moves
    | with_reducible apply State.brGuard_moves
    | with_reducible apply State.brPush_moves
    | with_reducible apply Moves.ite
    | intro _ _

theorem execDaliReply_moves {a s : State} (m : List Byte) (h : Moves a s) :
    ∃ t, execDaliReply m s = .next t ∧ Moves a t := by
  unfold execDaliReply
  refine ⟨_, rfl, ?_⟩
  repeat' first
    | with_reducible assumption
    | with_reducible apply State.brArrive_moves
    | with_reducible apply State.brDaliReply_moves
    | intro _ _

theorem execDqPush_moves {a s : State} (v : Word) (h : Moves a s) :
    ∃ t, execDqPush v s = .next t ∧ Moves a t := by
  unfold execDqPush
  refine ⟨_, rfl, ?_⟩
  repeat' first
    | with_reducible assumption
    | with_reducible apply State.reach_moves
    | with_reducible apply State.brDqPush_moves
    | with_reducible apply Moves.ite
    | intro _ _

theorem execFsFault_moves {a s : State} (m : List Byte) (h : Moves a s) :
    ∃ t, execFsFault m s = .next t ∧ Moves a t := by
  unfold execFsFault
  refine ⟨_, rfl, ?_⟩
  repeat' first
    | with_reducible assumption
    | with_reducible apply State.brArrive_moves
    | simp only [id_eq]
    | intro _ _

theorem execHbPeriodSend_moves {a s : State} (h : Moves a s) :
    ∃ t, execHbPeriodSend s = .next t ∧ Moves a t := by
  unfold execHbPeriodSend
  refine ⟨_, rfl, ?_⟩
  repeat' first
    | with_reducible assumption
    | with_reducible apply State.brHbSend_moves

theorem execIoStat_moves {a s : State} (m : List Byte) (h : Moves a s) :
    ∃ t, execIoStat m s = .next t ∧ Moves a t := by
  unfold execIoStat
  refine ⟨_, rfl, ?_⟩
  repeat' first
    | with_reducible assumption
    | with_reducible apply State.brArrive_moves
    | with_reducible apply State.brIoStat_moves
    | intro _ _

theorem execRxUnknown_moves {a s : State} (m : List Byte) (h : Moves a s) :
    ∃ t, execRxUnknown m s = .next t ∧ Moves a t := by
  unfold execRxUnknown
  refine ⟨_, rfl, ?_⟩
  repeat' first
    | with_reducible assumption
    | with_reducible apply State.brReceive_moves
    | simp only [id_eq]
    | with_reducible apply Moves.ite
    | intro _ _

end Sys2Proof.Machine
end

