-- ==== Sys2Proof/Laws/MovesLamp.lean ====
section
/-! SUPPORT. What each operation of Machine/Lamp.lean may do to the stores and the queue (Safety.lean, Moves): one lemma for each. -/

namespace Sys2Proof.Machine

open Host Sys2Proof

theorem State.lampSend_moves {a s : State} (o : Nat) (level : Nat) (ramp : Nat) (spec : Bool) (h : Moves a s) :
    Moves a (State.lampSend s o level ramp spec) := by
  unfold State.lampSend
  repeat' first
    | with_reducible assumption
    | with_reducible apply State.brQueue_moves
    | simp only [Moves.put_iff]

theorem State.lampEval_moves {a s : State} (o : Nat) (h : Moves a s) :
    Moves a (State.lampEval s o) := by
  unfold State.lampEval
  repeat' first
    | with_reducible assumption
    | with_reducible apply State.lampSend_moves
    | with_reducible apply State.inc_moves
    | with_reducible apply Moves.ite
    | simp only [Moves.put_iff]

theorem State.lampWithdraw_moves {a s : State} (key : ReqKey) (h : Moves a s) :
    Moves a (State.lampWithdraw s key) := by
  unfold State.lampWithdraw
  repeat' first
    | with_reducible assumption
    | with_reducible apply State.lampEval_moves
    | simp only [Moves.put_iff]
    | with_reducible apply Moves.foldl

theorem State.lampBad_moves {a s : State} (h : Moves a s) :
    Moves a (State.lampBad s) := by
  unfold State.lampBad
  repeat' first
    | with_reducible assumption
    | with_reducible apply State.inc_moves

theorem State.lampSpec_moves {a s : State} (cmd : Nat) (key : ReqKey) (o : Nat) (level : Nat) (ramp : Nat) (h : Moves a s) :
    Moves a (State.lampSpec s cmd key o level ramp) := by
  unfold State.lampSpec
  repeat' first
    | with_reducible assumption
    | with_reducible apply State.lampEval_moves
    | with_reducible apply State.lampBad_moves
    | with_reducible apply Moves.ite
    | simp only [Moves.put_iff]

theorem State.lampRequest_moves {a s : State} (key : ReqKey) (o : Nat) (level : Nat) (ramp : Nat) (h : Moves a s) :
    Moves a (State.lampRequest s key o level ramp) := by
  unfold State.lampRequest
  repeat' first
    | with_reducible assumption
    | with_reducible apply State.lampEval_moves
    | with_reducible apply State.lampBad_moves
    | with_reducible apply Moves.ite
    | simp only [Moves.put_iff]
    | with_reducible apply Moves.foldl

theorem State.lampResend_moves {a s : State} (o : Nat) (h : Moves a s) :
    Moves a (State.lampResend s o) := by
  unfold State.lampResend
  repeat' first
    | with_reducible assumption
    | with_reducible apply State.lampSend_moves
    | split

theorem State.ackTimeout_moves {a s : State} (o : Nat) (h : Moves a s) :
    Moves a (State.ackTimeout s o) := by
  unfold State.ackTimeout
  repeat' first
    | with_reducible assumption
    | with_reducible apply State.lampResend_moves
    | split

theorem State.spEnable_moves {a s : State} (i : Nat) (v : Nat) (h : Moves a s) :
    Moves a (State.spEnable s i v) := by
  unfold State.spEnable
  repeat' first
    | with_reducible assumption
    | with_reducible apply State.wr_moves
    | simp only [Moves.put_iff]

theorem State.brFsHeartbeat_moves {a s : State} (m : List Byte) (h : Moves a s) :
    Moves a (State.brFsHeartbeat s m) := by
  unfold State.brFsHeartbeat
  repeat' first
    | with_reducible assumption
    | with_reducible apply State.raise_moves
    | with_reducible apply State.wr_moves
    | with_reducible apply State.wakeLatch_moves
    | with_reducible apply State.brHeartbeat_moves
    | with_reducible apply State.brResend_moves
    | with_reducible apply State.lampResend_moves
    | with_reducible apply Moves.ite
    | with_reducible apply Moves.foldl

theorem State.brLevelAck_moves {a s : State} (m : List Byte) (h : Moves a s) :
    Moves a (State.brLevelAck s m) := by
  unfold State.brLevelAck
  repeat' first
    | with_reducible assumption
    | simp only [Moves.put_iff]

theorem State.lampConfirm_moves {a s : State} (cmd : Nat) (h : Moves a s) :
    Moves a (State.lampConfirm s cmd) := by
  unfold State.lampConfirm
  repeat' first
    | with_reducible assumption
    | with_reducible apply State.lampRequest_moves
    | simp only [Moves.put_iff]
    | with_reducible apply Moves.foldl
    | intro _ _

theorem State.lampBoot_moves {a s : State} (level : Nat) (hold : Nat) (h : Moves a s) :
    Moves a (State.lampBoot s level hold) := by
  unfold State.lampBoot
  repeat' first
    | with_reducible assumption
    | with_reducible apply State.lampEval_moves
    | simp only [Moves.put_iff]
    | with_reducible apply Moves.foldl

theorem State.lampBootEnd_moves {a s : State} (h : Moves a s) :
    Moves a (State.lampBootEnd s) := by
  unfold State.lampBootEnd
  repeat' first
    | with_reducible assumption
    | with_reducible apply State.lampWithdraw_moves
    | simp only [Moves.put_iff]
    | split

theorem State.raiseExpire_moves {a s : State} (cmd : Nat) (o : Nat) (h : Moves a s) :
    Moves a (State.raiseExpire s cmd o) := by
  unfold State.raiseExpire
  repeat' first
    | with_reducible assumption
    | with_reducible apply State.raise_moves
    | with_reducible apply State.inc_moves
    | with_reducible apply State.lampEval_moves
    | simp only [Moves.put_iff]
    | split

theorem State.schedulePoint_moves {a s : State} (i : Nat) (h : Moves a s) :
    Moves a (State.schedulePoint s i) := by
  unfold State.schedulePoint
  repeat' first
    | with_reducible assumption
    | with_reducible apply State.inc_moves
    | with_reducible apply State.lampEval_moves
    | with_reducible apply State.lampBad_moves
    | simp only [Moves.put_iff]
    | split

theorem State.zoneClose_moves {a s : State} (id : Nat) (h : Moves a s) :
    Moves a (State.zoneClose s id) := by
  unfold State.zoneClose
  repeat' first
    | with_reducible assumption
    | with_reducible apply State.lampWithdraw_moves
    | simp only [Moves.put_iff]
    | split

theorem State.zoneOpen_moves {a s : State} (id : Nat) (h : Moves a s) :
    Moves a (State.zoneOpen s id) := by
  unfold State.zoneOpen
  repeat' first
    | with_reducible assumption
    | with_reducible apply State.lampRequest_moves
    | simp only [Moves.put_iff]
    | split

theorem execFsHeartbeat_moves {a s : State} (m : List Byte) (h : Moves a s) :
    ∃ t, execFsHeartbeat m s = .next t ∧ Moves a t := by
  unfold execFsHeartbeat
  refine ⟨_, rfl, ?_⟩
  repeat' first
    | with_reducible assumption
    | with_reducible apply State.brArrive_moves
    | with_reducible apply State.brFsHeartbeat_moves
    | intro _ _

theorem execLampBootHoldEnd_moves {a s : State} (h : Moves a s) :
    ∃ t, execLampBootHoldEnd s = .next t ∧ Moves a t := by
  unfold execLampBootHoldEnd
  refine ⟨_, rfl, ?_⟩
  repeat' first
    | with_reducible assumption
    | with_reducible apply State.lampBootEnd_moves

theorem execLevelAck_moves {a s : State} (m : List Byte) (h : Moves a s) :
    ∃ t, execLevelAck m s = .next t ∧ Moves a t := by
  unfold execLevelAck
  refine ⟨_, rfl, ?_⟩
  repeat' first
    | with_reducible assumption
    | with_reducible apply State.brArrive_moves
    | with_reducible apply State.brLevelAck_moves
    | intro _ _

theorem execLevelAckTimeout_moves {a s : State} (o : BitVec 7) (h : Moves a s) :
    ∃ t, execLevelAckTimeout o s = .next t ∧ Moves a t := by
  unfold execLevelAckTimeout
  refine ⟨_, rfl, ?_⟩
  repeat' first
    | with_reducible assumption
    | with_reducible apply State.ackTimeout_moves

theorem execSchedulePoint_moves {a s : State} (i : Fin 32) (h : Moves a s) :
    ∃ t, execSchedulePoint i s = .next t ∧ Moves a t := by
  unfold execSchedulePoint
  refine ⟨_, rfl, ?_⟩
  repeat' first
    | with_reducible assumption
    | with_reducible apply State.schedulePoint_moves

theorem execSpEnable_moves {a s : State} (src : Src) (v : Word) (h : Moves a s) :
    ∃ t, execSpEnable src v s = .next t ∧ Moves a t := by
  unfold execSpEnable
  refine ⟨_, rfl, ?_⟩
  repeat' first
    | with_reducible assumption
    | with_reducible apply State.reach_moves
    | with_reducible apply State.brGuard_moves
    | with_reducible apply State.spEnable_moves
    | intro _ _

theorem execSpecRaiseExpire_moves {a s : State} (cmd : Nat) (o : BitVec 7) (h : Moves a s) :
    ∃ t, execSpecRaiseExpire cmd o s = .next t ∧ Moves a t := by
  unfold execSpecRaiseExpire
  refine ⟨_, rfl, ?_⟩
  repeat' first
    | with_reducible assumption
    | with_reducible apply State.raiseExpire_moves

theorem execZoneClose_moves {a s : State} (id : Nat) (h : Moves a s) :
    ∃ t, execZoneClose id s = .next t ∧ Moves a t := by
  unfold execZoneClose
  refine ⟨_, rfl, ?_⟩
  repeat' first
    | with_reducible assumption
    | with_reducible apply State.zoneClose_moves

theorem execZoneOpen_moves {a s : State} (id : Nat) (h : Moves a s) :
    ∃ t, execZoneOpen id s = .next t ∧ Moves a t := by
  unfold execZoneOpen
  refine ⟨_, rfl, ?_⟩
  repeat' first
    | with_reducible assumption
    | with_reducible apply State.zoneOpen_moves

end Sys2Proof.Machine
end

