-- ==== Sys2Proof/Laws/MovesSkew.lean ====
section
/-! SUPPORT. What each operation of Machine/Skew.lean may do to the stores and the queue (Safety.lean, Moves): one lemma for each. -/

namespace Sys2Proof.Machine

open Host Sys2Proof

theorem State.setSkPort_moves {a s : State} (p : SkPort) (h : Moves a s) :
    Moves a (State.setSkPort s p) := by
  unfold State.setSkPort
  repeat' first
    | with_reducible assumption
    | simp only [Moves.put_iff]

theorem State.skTake_moves {a s : State} (n : Nat) (vc : Nat) (h : Moves a s) :
    Moves a (State.skTake s n vc) := by
  unfold State.skTake
  repeat' first
    | with_reducible assumption
    | with_reducible apply State.wr_moves

theorem State.skSendFlit_moves {a s : State} (n : Nat) (vc : Nat) (first : Bool) (payload : List Byte) (h : Moves a s) :
    Moves a (State.skSendFlit s n vc first payload) := by
  unfold State.skSendFlit
  repeat' first
    | with_reducible assumption
    | with_reducible apply State.inc_moves
    | with_reducible apply State.skTake_moves
    | with_reducible apply State.emit_moves
    | with_reducible apply State.setSkPort_moves

theorem State.skSendAll_moves {a s : State} (n : Nat) (vc : Nat) (first : Bool) (v4 : List (List Byte)) (h : Moves a s) :
    Moves a (State.skSendAll s n vc first v4) := by
  induction v4 generalizing s first with
  | nil => unfold State.skSendAll; exact h
  | cons x t ih =>
    unfold State.skSendAll
    repeat' first
      | with_reducible assumption
      | with_reducible apply ih
      | with_reducible apply State.skSendFlit_moves

theorem State.skPumpFrom_moves {a s : State} (n : Nat) (blocked : List Nat) (v3 : List SkMsg) (h : Moves a s) :
    Moves a (State.skPumpFrom s n blocked v3) := by
  induction v3 generalizing s blocked with
  | nil => unfold State.skPumpFrom; exact h
  | cons x t ih =>
    unfold State.skPumpFrom
    repeat' first
      | with_reducible assumption
      | with_reducible apply ih
      | with_reducible apply State.setSkPort_moves
      | with_reducible apply State.skSendAll_moves
      | with_reducible apply Moves.ite

theorem State.skPump_moves {a s : State} (n : Nat) (h : Moves a s) :
    Moves a (State.skPump s n) := by
  unfold State.skPump
  repeat' first
    | with_reducible assumption
    | with_reducible apply State.skPumpFrom_moves
    | with_reducible apply State.setSkPort_moves

theorem State.skGive_moves {a s : State} (n : Nat) (m : SkMsg) (h : Moves a s) :
    Moves a (State.skGive s n m) := by
  unfold State.skGive
  repeat' first
    | with_reducible assumption
    | with_reducible apply State.skPump_moves
    | with_reducible apply State.setSkPort_moves

theorem State.skSend_moves {a s : State} (dest : Nat) (type : Nat) (tag : Nat) (len : Nat) (addr : Nat) (data : List Byte) (h : Moves a s) :
    Moves a (State.skSend s dest type tag len addr data) := by
  unfold State.skSend
  repeat' first
    | with_reducible assumption
    | with_reducible apply State.skGive_moves
    | split

theorem State.skNote_moves {a s : State} (dest : Nat) (type : Nat) (addr : Nat) (n : Nat) (h : Moves a s) :
    Moves a (State.skNote s dest type addr n) := by
  unfold State.skNote
  repeat' first
    | with_reducible assumption
    | with_reducible apply State.skSend_moves
    | simp only [Moves.put_iff]

theorem State.skRequest_moves {a s : State} (dest : Nat) (type : Nat) (cmd : Option Nat) (units : Nat) (len : Nat) (addr : Nat) (data : List Byte) (h : Moves a s) :
    Moves a (State.skRequest s dest type cmd units len addr data) := by
  unfold State.skRequest
  repeat' first
    | with_reducible assumption
    | with_reducible apply State.skGive_moves
    | simp only [Moves.put_iff]
    | split

theorem State.skWrite_moves {a s : State} (dest : Nat) (cmd : Option Nat) (v3 : Nat) (bs : List Byte) (h : Moves a s) :
    Moves a (State.skWrite s dest cmd v3 bs) := by
  unfold State.skWrite
  repeat' first
    | with_reducible assumption
    | with_reducible apply State.skRequest_moves
    | with_reducible apply Moves.foldl
    | intro _ _

theorem State.skTopo_moves {a s : State} (h : Moves a s) :
    Moves a (State.skTopo s) := by
  unfold State.skTopo
  repeat' first
    | with_reducible assumption
    | with_reducible apply State.raise_moves
    | with_reducible apply State.wr_moves
    | with_reducible apply Moves.ite

theorem State.skGo_moves {a s : State} (n : Nat) (st : Nat) (h : Moves a s) :
    Moves a (State.skGo s n st) := by
  unfold State.skGo
  repeat' first
    | with_reducible assumption
    | with_reducible apply State.skTopo_moves
    | with_reducible apply State.raise_moves
    | with_reducible apply State.wr_moves
    | with_reducible apply Moves.ite

theorem State.skReroute_moves {a s : State} (n : Nat) (h : Moves a s) :
    Moves a (State.skReroute s n) := by
  unfold State.skReroute
  repeat' first
    | with_reducible assumption
    | with_reducible apply State.skGive_moves
    | simp only [Moves.put_iff]
    | with_reducible apply Moves.foldl
    | intro _ _ _
    | split

theorem State.skDown_moves {a s : State} (n : Nat) (h : Moves a s) :
    Moves a (State.skDown s n) := by
  unfold State.skDown
  repeat' first
    | with_reducible assumption
    | with_reducible apply State.setSkPort_moves
    | with_reducible apply State.skReroute_moves
    | with_reducible apply State.skGo_moves
    | with_reducible apply State.wr_moves
    | with_reducible apply Moves.ite

theorem State.skCtrl_moves {a s : State} (v : Nat) (h : Moves a s) :
    Moves a (State.skCtrl s v) := by
  unfold State.skCtrl
  repeat' first
    | with_reducible assumption
    | with_reducible apply State.wr_moves
    | with_reducible apply State.skGo_moves
    | with_reducible apply State.skDown_moves
    | with_reducible apply Moves.ite
    | with_reducible apply Moves.foldl
    | intro _ _ _

theorem State.skSetRole_moves {a s : State} (r : Nat) (h : Moves a s) :
    Moves a (State.skSetRole s r) := by
  unfold State.skSetRole
  repeat' first
    | with_reducible assumption
    | with_reducible apply State.skTopo_moves
    | with_reducible apply State.raise_moves
    | with_reducible apply State.wr_moves
    | with_reducible apply Moves.ite

theorem State.skRead_moves {a s : State} (dest : Nat) (cmd : Option Nat) (v3 : Nat) (n : Nat) (h : Moves a s) :
    Moves a (State.skRead s dest cmd v3 n) := by
  unfold State.skRead
  repeat' first
    | with_reducible assumption
    | with_reducible apply State.skRequest_moves
    | simp only [Moves.put_iff]
    | with_reducible apply Moves.foldl
    | intro _ _

theorem State.skIdle_moves {a s : State} (n : Nat) (nak : Nat) (crVc : Nat) (crCnt : Nat) (h : Moves a s) :
    Moves a (State.skIdle s n nak crVc crCnt) := by
  unfold State.skIdle
  repeat' first
    | with_reducible assumption
    | with_reducible apply State.emit_moves

theorem State.skCredit_moves {a s : State} (n : Nat) (vc : Nat) (k : Nat) (h : Moves a s) :
    Moves a (State.skCredit s n vc k) := by
  unfold State.skCredit
  repeat' first
    | with_reducible assumption
    | with_reducible apply State.wr_moves

theorem State.skAcked_moves {a s : State} (n : Nat) (v2 : Nat) (h : Moves a s) :
    Moves a (State.skAcked s n v2) := by
  unfold State.skAcked
  repeat' first
    | with_reducible assumption
    | with_reducible apply State.setSkPort_moves
    | simp only [Moves.put_iff]
    | split

theorem State.skRetrain_moves {a s : State} (n : Nat) (h : Moves a s) :
    Moves a (State.skRetrain s n) := by
  unfold State.skRetrain
  repeat' first
    | with_reducible assumption
    | with_reducible apply State.skGo_moves
    | with_reducible apply State.inc_moves
    | with_reducible apply State.setSkPort_moves

theorem State.skResend_moves {a s : State} (n : Nat) (h : Moves a s) :
    Moves a (State.skResend s n) := by
  unfold State.skResend
  repeat' first
    | with_reducible assumption
    | with_reducible apply State.skRetrain_moves
    | with_reducible apply State.emit_moves
    | with_reducible apply State.inc_moves
    | with_reducible apply State.setSkPort_moves
    | with_reducible apply Moves.ite
    | with_reducible apply Moves.foldl
    | intro _ _

theorem State.skArrive_moves {a s : State} (n : Nat) (vc : Nat) (first : Bool) (payload : List Byte) (h : Moves a s) :
    Moves a (State.skArrive s n vc first payload) := by
  unfold State.skArrive
  repeat' first
    | with_reducible assumption
    | with_reducible apply State.setSkPort_moves
    | with_reducible apply State.skIdle_moves
    | with_reducible apply State.skGive_moves
    | with_reducible apply Moves.ite

theorem State.flitIn_moves {a s : State} (n : Nat) (bs : List Byte) (h : Moves a s) :
    Moves a (State.flitIn s n bs) := by
  unfold State.flitIn
  repeat' first
    | with_reducible assumption
    | with_reducible apply State.inc_moves
    | with_reducible apply State.skIdle_moves
    | with_reducible apply State.setSkPort_moves
    | with_reducible apply State.skCredit_moves
    | with_reducible apply State.skAcked_moves
    | with_reducible apply State.skResend_moves
    | with_reducible apply State.skArrive_moves
    | with_reducible apply State.skPump_moves
    | with_reducible apply Moves.ite

theorem State.laneFail_moves {a s : State} (n : Nat) (lanes : Nat) (h : Moves a s) :
    Moves a (State.laneFail s n lanes) := by
  unfold State.laneFail
  repeat' first
    | with_reducible assumption
    | with_reducible apply State.skDown_moves
    | with_reducible apply State.skRetrain_moves
    | with_reducible apply Moves.ite

theorem State.skTime_moves {a s : State} (h : Moves a s) :
    Moves a (State.skTime s) := by
  unfold State.skTime
  repeat' first
    | with_reducible assumption
    | with_reducible apply State.skGive_moves
    | with_reducible apply Moves.ite
    | with_reducible apply Moves.foldl
    | intro _ _ _

theorem State.portTrained_moves {a s : State} (n : Nat) (neigh : Nat) (lanes : Nat) (h : Moves a s) :
    Moves a (State.portTrained s n neigh lanes) := by
  unfold State.portTrained
  repeat' first
    | with_reducible assumption
    | with_reducible apply State.wr_moves
    | with_reducible apply State.skGo_moves
    | with_reducible apply State.raise_moves
    | with_reducible apply State.skDown_moves
    | with_reducible apply State.setSkPort_moves
    | with_reducible apply State.emit_moves
    | with_reducible apply State.skPump_moves
    | with_reducible apply Moves.ite
    | with_reducible apply Moves.foldl
    | intro _ _ _

theorem State.replayDue_moves {a s : State} (n : Nat) (h : Moves a s) :
    Moves a (State.replayDue s n) := by
  unfold State.replayDue
  repeat' first
    | with_reducible assumption
    | with_reducible apply State.skResend_moves
    | with_reducible apply Moves.ite

theorem State.retrainDue_moves {a s : State} (n : Nat) (h : Moves a s) :
    Moves a (State.retrainDue s n) := by
  unfold State.retrainDue
  repeat' first
    | with_reducible assumption
    | with_reducible apply State.skDown_moves
    | with_reducible apply Moves.ite

theorem State.skReply_moves {a s : State} (dest : Nat) (type : Nat) (tag : Nat) (data : List Byte) (h : Moves a s) :
    Moves a (State.skReply s dest type tag data) := by
  unfold State.skReply
  repeat' first
    | with_reducible assumption
    | with_reducible apply State.skSend_moves

theorem execFlitReceive_moves {a s : State} (port : Fin 2) (bytes : List Byte) (h : Moves a s) :
    ∃ t, execFlitReceive port bytes s = .next t ∧ Moves a t := by
  unfold execFlitReceive
  refine ⟨_, rfl, ?_⟩
  repeat' first
    | with_reducible assumption
    | with_reducible apply State.flitIn_moves

theorem execLaneFail_moves {a s : State} (port : Fin 2) (lanes : BitVec 4) (h : Moves a s) :
    ∃ t, execLaneFail port lanes s = .next t ∧ Moves a t := by
  unfold execLaneFail
  refine ⟨_, rfl, ?_⟩
  repeat' first
    | with_reducible assumption
    | with_reducible apply State.laneFail_moves

theorem execPortTrained_moves {a s : State} (port : Fin 2) (neigh : Fin 8) (lanes : BitVec 4) (h : Moves a s) :
    ∃ t, execPortTrained port neigh lanes s = .next t ∧ Moves a t := by
  unfold execPortTrained
  refine ⟨_, rfl, ?_⟩
  repeat' first
    | with_reducible assumption
    | with_reducible apply State.portTrained_moves

theorem execReplayTimeout_moves {a s : State} (port : Fin 2) (h : Moves a s) :
    ∃ t, execReplayTimeout port s = .next t ∧ Moves a t := by
  unfold execReplayTimeout
  refine ⟨_, rfl, ?_⟩
  repeat' first
    | with_reducible assumption
    | with_reducible apply State.replayDue_moves

theorem execRetrainTimeout_moves {a s : State} (port : Fin 2) (h : Moves a s) :
    ∃ t, execRetrainTimeout port s = .next t ∧ Moves a t := by
  unfold execRetrainTimeout
  refine ⟨_, rfl, ?_⟩
  repeat' first
    | with_reducible assumption
    | with_reducible apply State.retrainDue_moves

end Sys2Proof.Machine
end

