-- ==== Sys2Proof/Laws/MovesSlots.lean ====
section
/-! SUPPORT. What each operation of Machine/Slots.lean may do to the stores and the queue (Safety.lean, Moves): one lemma for each. -/

namespace Sys2Proof.Machine

open Host Sys2Proof

theorem State.updCmd_moves {a s : State} (id : Nat) (f : Cmd → Cmd) (h : Moves a s) :
    Moves a (State.updCmd s id f) := by
  unfold State.updCmd
  repeat' first
    | with_reducible assumption
    | simp only [Moves.put_iff]

theorem State.setTile_moves {a s : State} (t : TileSt) (h : Moves a s) :
    Moves a (State.setTile s t) := by
  unfold State.setTile
  repeat' first
    | with_reducible assumption
    | simp only [Moves.put_iff]

theorem State.slotFree_moves {a s : State} (p : Nat) (n : Nat) (h : Moves a s) :
    Moves a (State.slotFree s p n) := by
  unfold State.slotFree
  repeat' first
    | with_reducible assumption
    | with_reducible apply State.setTile_moves
    | with_reducible apply State.updCmd_moves
    | with_reducible apply State.wr_moves
    | with_reducible apply State.inc_moves
    | simp only [Moves.put_iff]
    | split

theorem State.ktCount_moves {a s : State} (f : Fld) (p : Nat) (h : Moves a s) :
    Moves a (State.ktCount s f p) := by
  unfold State.ktCount
  repeat' first
    | with_reducible assumption
    | with_reducible apply State.inc_moves
    | with_reducible apply Moves.ite

theorem State.killSlot_moves {a s : State} (p : Nat) (n : Nat) (h : Moves a s) :
    Moves a (State.killSlot s p n) := by
  unfold State.killSlot
  repeat' first
    | with_reducible assumption
    | with_reducible apply State.slotFree_moves
    | with_reducible apply State.ktCount_moves
    | with_reducible apply State.setTile_moves
    | split

theorem State.killCmd_moves {a s : State} (id : Nat) (h : Moves a s) :
    Moves a (State.killCmd s id) := by
  unfold State.killCmd
  repeat' first
    | with_reducible assumption
    | with_reducible apply State.killSlot_moves
    | with_reducible apply Moves.foldl
    | intro _ _

theorem State.killCanary_moves {a s : State} (p : Nat) (h : Moves a s) :
    Moves a (State.killCanary s p) := by
  unfold State.killCanary
  repeat' first
    | with_reducible assumption
    | with_reducible apply State.setTile_moves
    | with_reducible apply State.inc_moves
    | with_reducible apply Moves.ite
    | simp only [Moves.put_iff]

theorem State.slotDispatch_moves {a s0 : State} (p : Nat) (n : Nat) (c : Cmd) (part : Nat) (grans : Nat) (hs0 : Moves a s0) :
    Moves a (State.slotDispatch s0 p n c part grans) := by
  unfold State.slotDispatch
  repeat' first
    | with_reducible assumption
    | with_reducible apply State.killCanary_moves
    | with_reducible apply State.setTile_moves

theorem State.updSlot_moves {a s : State} (p : Nat) (n : Nat) (f : Slot → Slot) (h : Moves a s) :
    Moves a (State.updSlot s p n f) := by
  unfold State.updSlot
  repeat' first
    | with_reducible assumption
    | with_reducible apply State.setTile_moves

theorem State.setSlot_moves {a s : State} (p : Nat) (x : Slot) (h : Moves a s) :
    Moves a (State.setSlot s p x) := by
  unfold State.setSlot
  repeat' first
    | with_reducible assumption
    | with_reducible apply State.setTile_moves

end Sys2Proof.Machine
end

