-- ==== Sys2Proof/Laws/MovesSched.lean ====
section
/-! SUPPORT. What each operation of Machine/Sched.lean may do to the stores and the queue (Safety.lean, Moves): one lemma for each. -/

namespace Sys2Proof.Machine

open Host Sys2Proof

theorem State.lampOrder_moves {a s : State} (c : Cmd) (spec : Bool) (h : Moves a s) :
    Moves a (State.lampOrder s c spec) := by
  unfold State.lampOrder
  repeat' first
    | with_reducible assumption
    | with_reducible apply State.lampWithdraw_moves
    | with_reducible apply State.lampSpec_moves
    | with_reducible apply State.lampRequest_moves
    | split

theorem State.unreserve_moves {a s : State} (ctx : Nat) (k : Nat) (h : Moves a s) :
    Moves a (State.unreserve s ctx k) := by
  unfold State.unreserve
  repeat' first
    | with_reducible assumption
    | with_reducible apply State.wr_moves
    | split

theorem State.setCtx_moves {a s : State} (c : CtxSt) (h : Moves a s) :
    Moves a (State.setCtx s c) := by
  unfold State.setCtx
  repeat' first
    | with_reducible assumption
    | simp only [Moves.put_iff]

theorem State.windowPut_moves {a s : State} (c : Cmd) (disp : Nat) (h : Moves a s) :
    Moves a (State.windowPut s c disp) := by
  unfold State.windowPut
  repeat' first
    | with_reducible assumption
    | with_reducible apply State.setCtx_moves
    | with_reducible apply Moves.ite

theorem State.skReport_moves {a s : State} (c : Cmd) (what : Nat) (h : Moves a s) :
    Moves a (State.skReport s c what) := by
  unfold State.skReport
  repeat' first
    | with_reducible assumption
    | with_reducible apply State.skNote_moves
    | with_reducible apply Moves.ite
    | simp only [Moves.put_iff]

theorem State.putRecord_moves {a s : State} (c : Cmd) (disp : Nat) (b20 : Nat) (h : Moves a s) :
    Moves a (State.putRecord s c disp b20) := by
  unfold State.putRecord
  repeat' first
    | with_reducible assumption
    | with_reducible apply State.raise_moves
    | with_reducible apply State.wr_moves
    | with_reducible apply State.poke_moves
    | with_reducible apply State.skSend_moves
    | with_reducible apply State.skReport_moves
    | simp only [Moves.put_iff]
    | split

theorem State.record_moves {a s : State} (c0 : Cmd) (disp : Nat) (b20 : Nat) (h : Moves a s) :
    Moves a (State.record s c0 disp b20) := by
  unfold State.record
  repeat' first
    | with_reducible assumption
    | with_reducible apply State.windowPut_moves
    | with_reducible apply State.putRecord_moves
    | with_reducible apply State.skNote_moves
    | with_reducible apply State.updCmd_moves
    | with_reducible apply State.unreserve_moves
    | with_reducible apply Moves.ite

theorem State.setBkt_moves {a s : State} (b : Bkt) (h : Moves a s) :
    Moves a (State.setBkt s b) := by
  unfold State.setBkt
  repeat' first
    | with_reducible assumption
    | simp only [Moves.put_iff]

theorem State.refund_moves {a s : State} (ctx : Nat) (cls : Nat) (cost : Nat) (h : Moves a s) :
    Moves a (State.refund s ctx cls cost) := by
  unfold State.refund
  repeat' first
    | with_reducible assumption
    | with_reducible apply State.setBkt_moves

theorem State.tensorUnref_moves {a s : State} (id : Nat) (h : Moves a s) :
    Moves a (State.tensorUnref s id) := by
  unfold State.tensorUnref
  repeat' first
    | with_reducible assumption
    | simp only [Moves.put_iff]

theorem State.closeCount_moves {a s : State} (disp : Nat) (h : Moves a s) :
    Moves a (State.closeCount s disp) := by
  unfold State.closeCount
  repeat' first
    | with_reducible assumption
    | with_reducible apply State.inc_moves
    | with_reducible apply Moves.ite

theorem State.maskValidate_moves {a s : State} (c : Cmd) (h : Moves a s) :
    Moves a (State.maskValidate s c) := by
  unfold State.maskValidate
  repeat' first
    | with_reducible assumption
    | simp only [Moves.put_iff]

theorem State.ctxFree_moves {a s : State} (p : Nat) (h : Moves a s) :
    Moves a (State.ctxFree s p) := by
  unfold State.ctxFree
  repeat' first
    | with_reducible assumption
    | with_reducible apply State.raise_moves
    | with_reducible apply State.wr_moves
    | with_reducible apply State.lampWithdraw_moves
    | simp only [Moves.put_iff]
    | with_reducible apply Moves.foldl
    | intro _ _ _

theorem State.ctxMaybeFree_moves {a s : State} (ctx : Nat) (h : Moves a s) :
    Moves a (State.ctxMaybeFree s ctx) := by
  unfold State.ctxMaybeFree
  repeat' first
    | with_reducible assumption
    | with_reducible apply State.ctxFree_moves
    | split

theorem State.close1_moves {a s : State} (id : Nat) (disp : Nat) (h : Moves a s) :
    Moves a (State.close1 s id disp) := by
  unfold State.close1
  repeat' first
    | with_reducible assumption
    | with_reducible apply State.lampOrder_moves
    | with_reducible apply State.unreserve_moves
    | with_reducible apply State.record_moves
    | with_reducible apply State.refund_moves
    | with_reducible apply State.setCtx_moves
    | with_reducible apply State.wr_moves
    | with_reducible apply State.tensorUnref_moves
    | with_reducible apply State.closeCount_moves
    | with_reducible apply State.maskValidate_moves
    | with_reducible apply State.ctxMaybeFree_moves
    | simp only [Moves.put_iff]
    | split

theorem State.closeAll_moves {a v2 : State} (v0 : Nat) (v1 : List (Nat × Nat)) (hv2 : Moves a v2) :
    Moves a (State.closeAll v0 v1 v2) := by
  induction v0 generalizing v1 v2 with
  | zero => unfold State.closeAll; exact hv2
  | succ n ih =>
    cases v1 with
    | nil => unfold State.closeAll; exact hv2
    | cons c t =>
      obtain ⟨id, disp⟩ := c
      unfold State.closeAll
      repeat' first
        | with_reducible assumption
        | with_reducible apply ih
        | with_reducible apply State.close1_moves
        | split

theorem State.close_moves {a s : State} (id : Nat) (disp : Nat) (h : Moves a s) :
    Moves a (State.close s id disp) := by
  unfold State.close
  repeat' first
    | with_reducible assumption
    | with_reducible apply State.closeAll_moves

theorem State.skKill_moves {a s : State} (c : Cmd) (h : Moves a s) :
    Moves a (State.skKill s c) := by
  unfold State.skKill
  repeat' first
    | with_reducible assumption
    | with_reducible apply State.skRequest_moves
    | simp only [Moves.put_iff]

theorem State.leaveBatch_moves {a s : State} (id : Nat) (h : Moves a s) :
    Moves a (State.leaveBatch s id) := by
  unfold State.leaveBatch
  repeat' first
    | with_reducible assumption
    | simp only [Moves.put_iff]
    | split

theorem State.orbStat_moves {a s : State} (h : Moves a s) :
    Moves a (State.orbStat s) := by
  unfold State.orbStat
  repeat' first
    | with_reducible assumption
    | with_reducible apply State.raise_moves
    | with_reducible apply State.wrB_moves
    | with_reducible apply Moves.ite

theorem State.orbDrop_moves {a s : State} (id : Nat) (h : Moves a s) :
    Moves a (State.orbDrop s id) := by
  unfold State.orbDrop
  repeat' first
    | with_reducible assumption
    | with_reducible apply State.orbStat_moves
    | with_reducible apply State.inc_moves
    | with_reducible apply Moves.ite
    | simp only [Moves.put_iff]

theorem State.killClose_moves {a s : State} (id : Nat) (disp : Nat) (h : Moves a s) :
    Moves a (State.killClose s id disp) := by
  unfold State.killClose
  repeat' first
    | with_reducible assumption
    | with_reducible apply State.close_moves
    | with_reducible apply State.skKill_moves
    | with_reducible apply State.leaveBatch_moves
    | with_reducible apply State.killCmd_moves
    | with_reducible apply State.orbDrop_moves
    | split

theorem State.maskInvalidate_moves {a s : State} (c : Cmd) (h : Moves a s) :
    Moves a (State.maskInvalidate s c) := by
  unfold State.maskInvalidate
  repeat' first
    | with_reducible assumption
    | simp only [Moves.put_iff]

theorem State.debit_moves {a s : State} (ctx : Nat) (cls : Nat) (cost : Nat) (h : Moves a s) :
    Moves a (State.debit s ctx cls cost) := by
  unfold State.debit
  repeat' first
    | with_reducible assumption
    | with_reducible apply State.setBkt_moves

theorem State.startService_moves {a s : State} (id : Nat) (h : Moves a s) :
    Moves a (State.startService s id) := by
  unfold State.startService
  repeat' first
    | with_reducible assumption
    | with_reducible apply State.skReport_moves
    | with_reducible apply State.updCmd_moves
    | split

theorem State.updFrame_moves {a s : State} (id : Nat) (g : Frame → Frame) (h : Moves a s) :
    Moves a (State.updFrame s id g) := by
  unfold State.updFrame
  repeat' first
    | with_reducible assumption
    | simp only [Moves.put_iff]

end Sys2Proof.Machine
end

