-- ==== Sys2Proof/Laws/MovesAccept.lean ====
section
/-! SUPPORT. What each operation of Machine/Accept.lean may do to the stores and the queue (Safety.lean, Moves): one lemma for each. -/

namespace Sys2Proof.Machine

open Host Sys2Proof

theorem State.abandon_moves {a s : State} (ctx : Nat) (h : Moves a s) :
    Moves a (State.abandon s ctx) := by
  unfold State.abandon
  repeat' first
    | with_reducible assumption
    | with_reducible apply State.killClose_moves
    | with_reducible apply Moves.foldl
    | intro _ _

theorem State.newCmd_moves {a s : State} (ctx : Nat) (d : Desc) (order : Option Nat) (h : Moves a s) :
    Moves a (State.newCmd s ctx d order).1 := by
  unfold State.newCmd
  repeat' first
    | with_reducible assumption
    | with_reducible apply State.setCtx_moves
    | with_reducible apply State.wr_moves
    | simp only [Moves.put_iff]
    | split

theorem State.tensorBind_moves {a s : State} (id : Nat) (d : Desc) (h : Moves a s) :
    Moves a (State.tensorBind s id d) := by
  unfold State.tensorBind
  repeat' first
    | with_reducible assumption
    | with_reducible apply Moves.ite
    | simp only [Moves.put_iff]
    | with_reducible apply Moves.foldl
    | intro _ _ _

theorem State.placeU_moves {a s : State} (id : Nat) (k : Nat) (h : Moves a s) :
    Moves a (State.placeU s id k) := by
  unfold State.placeU
  repeat' first
    | with_reducible assumption
    | with_reducible apply State.updCmd_moves
    | with_reducible apply State.slotDispatch_moves
    | split

theorem State.fastDispatch_moves {a s : State} (id : Nat) (h : Moves a s) :
    Moves a (State.fastDispatch s id) := by
  unfold State.fastDispatch
  repeat' first
    | with_reducible assumption
    | with_reducible apply State.updCmd_moves
    | with_reducible apply State.close_moves
    | with_reducible apply State.placeU_moves
    | with_reducible apply State.raise_moves
    | with_reducible apply State.inc_moves
    | simp only [Moves.put_iff]
    | split

theorem State.deferNotice_moves {a s : State} (id : Nat) (short : Nat) (h : Moves a s) :
    Moves a (State.deferNotice s id short) := by
  unfold State.deferNotice
  repeat' first
    | with_reducible assumption
    | with_reducible apply State.record_moves
    | with_reducible apply State.raise_moves
    | with_reducible apply State.inc_moves
    | split

theorem State.makeReady_moves {a s : State} (id : Nat) (h : Moves a s) :
    Moves a (State.makeReady s id) := by
  unfold State.makeReady
  repeat' first
    | with_reducible assumption
    | with_reducible apply State.updCmd_moves
    | with_reducible apply State.setCtx_moves
    | split

theorem State.admit_moves {a s : State} (id : Nat) (h : Moves a s) :
    Moves a (State.admission s id) := by
  unfold State.admission
  repeat' first
    | with_reducible assumption
    | with_reducible apply State.close_moves
    | with_reducible apply State.inc_moves
    | with_reducible apply State.updCmd_moves
    | with_reducible apply State.debit_moves
    | with_reducible apply State.fastDispatch_moves
    | with_reducible apply State.deferNotice_moves
    | with_reducible apply State.makeReady_moves
    | simp only [Moves.put_iff]
    | split

theorem State.judgeNew_moves {a s : State} (id : Nat) (d : Desc) (h : Moves a s) :
    Moves a (State.judgeNew s id d) := by
  unfold State.judgeNew
  repeat' first
    | with_reducible assumption
    | with_reducible apply State.close_moves
    | with_reducible apply State.tensorBind_moves
    | with_reducible apply State.maskInvalidate_moves
    | with_reducible apply State.admit_moves
    | split

theorem State.accept_moves {a s : State} (p : Nat) (d : Desc) (h : Moves a s) :
    Moves a (State.accept s p d) := by
  unfold State.accept
  repeat' first
    | with_reducible assumption
    | with_reducible apply State.putRecord_moves
    | with_reducible apply State.setCtx_moves
    | with_reducible apply State.wr_moves
    | with_reducible apply State.newCmd_moves
    | with_reducible apply State.judgeNew_moves
    | simp only [Moves.put_iff]
    | split

theorem State.applyPolicy_moves {a s : State} (c : Nat) (h : Moves a s) :
    Moves a (State.applyPolicy s c) := by
  unfold State.applyPolicy
  repeat' first
    | with_reducible assumption
    | with_reducible apply State.abandon_moves
    | with_reducible apply Moves.ite

theorem State.ctxCmd_moves {a s : State} (c : Nat) (k : State → State) (h : Moves a s) (hk : ∀ y0, Moves a y0 → Moves a (k y0)) :
    Moves a (State.ctxCmd s c k) := by
  unfold State.ctxCmd
  repeat' first
    | with_reducible assumption
    | with_reducible apply State.wr_moves
    | with_reducible apply hk
    | with_reducible apply Moves.ite

theorem State.cmdActed_moves {a s : State} (c : Nat) (err : Nat) (h : Moves a s) :
    Moves a (State.cmdActed s c err) := by
  unfold State.cmdActed
  repeat' first
    | with_reducible assumption
    | with_reducible apply State.raise_moves
    | with_reducible apply State.wr_moves
    | with_reducible apply Moves.ite

theorem State.leaseRun_moves {a s : State} (c : Nat) (h : Moves a s) :
    Moves a (State.leaseRun s c) := by
  unfold State.leaseRun
  repeat' first
    | with_reducible assumption
    | with_reducible apply State.wr_moves

theorem State.bktOpen_moves {a s : State} (ctx : Nat) (cls : Nat) (h : Moves a s) :
    Moves a (State.bktOpen s ctx cls) := by
  unfold State.bktOpen
  repeat' first
    | with_reducible assumption
    | with_reducible apply State.setBkt_moves

theorem State.ctxOpen_moves {a s : State} (c : Nat) (h : Moves a s) :
    Moves a (State.ctxOpen s c) := by
  unfold State.ctxOpen
  repeat' first
    | with_reducible assumption
    | with_reducible apply State.cmdActed_moves
    | with_reducible apply State.wr_moves
    | with_reducible apply State.setCtx_moves
    | with_reducible apply State.leaseRun_moves
    | with_reducible apply State.bktOpen_moves
    | with_reducible apply Moves.ite

theorem State.ctxClose_moves {a s : State} (c : Nat) (h : Moves a s) :
    Moves a (State.ctxClose s c) := by
  unfold State.ctxClose
  repeat' first
    | with_reducible assumption
    | with_reducible apply State.cmdActed_moves
    | with_reducible apply State.ctxMaybeFree_moves
    | with_reducible apply State.applyPolicy_moves
    | with_reducible apply State.wr_moves
    | with_reducible apply Moves.ite

theorem State.ctxAdopt_moves {a s : State} (c : Nat) (h : Moves a s) :
    Moves a (State.ctxAdopt s c) := by
  unfold State.ctxAdopt
  repeat' first
    | with_reducible assumption
    | with_reducible apply State.cmdActed_moves
    | with_reducible apply State.raise_moves
    | with_reducible apply State.leaseRun_moves
    | with_reducible apply State.wr_moves
    | with_reducible apply Moves.ite

theorem State.dbBad_moves {a s : State} (c : Nat) (h : Moves a s) :
    Moves a (State.dbBad s c) := by
  unfold State.dbBad
  repeat' first
    | with_reducible assumption
    | with_reducible apply State.raise_moves
    | with_reducible apply State.inc_moves

theorem State.doorbell_moves {a s : State} (c : Nat) (v : Nat) (h : Moves a s) :
    Moves a (State.doorbell s c v) := by
  unfold State.doorbell
  repeat' first
    | with_reducible assumption
    | with_reducible apply State.raise_moves
    | with_reducible apply State.inc_moves
    | with_reducible apply State.wr_moves
    | with_reducible apply State.dbBad_moves
    | with_reducible apply Moves.ite

theorem State.cqHead_moves {a s : State} (c : Nat) (v : Nat) (h : Moves a s) :
    Moves a (State.cqHead s c v) := by
  unfold State.cqHead
  repeat' first
    | with_reducible assumption
    | with_reducible apply State.wr_moves
    | with_reducible apply State.dbBad_moves
    | with_reducible apply Moves.ite

theorem State.lease_moves {a s : State} (c : Nat) (v : Nat) (h : Moves a s) :
    Moves a (State.lease s c v) := by
  unfold State.lease
  repeat' first
    | with_reducible assumption
    | with_reducible apply State.leaseRun_moves
    | with_reducible apply State.inc_moves
    | with_reducible apply Moves.ite

theorem State.orderArm_moves {a s : State} (num : Nat) (ctx : Nat) (d : Desc) (period : Nat) (anchor : Nat) (phase : Nat) (h : Moves a s) :
    Moves a (State.orderArm s num ctx d period anchor phase) := by
  unfold State.orderArm
  repeat' first
    | with_reducible assumption
    | simp only [Moves.put_iff]

theorem State.soArm_moves {a s : State} (c : Nat) (h : Moves a s) :
    Moves a (State.soArm s c) := by
  unfold State.soArm
  repeat' first
    | with_reducible assumption
    | with_reducible apply State.wr_moves
    | with_reducible apply State.orderArm_moves
    | with_reducible apply State.accFault_moves
    | with_reducible apply Moves.ite

theorem State.orderDrop_moves {a s : State} (num : Nat) (h : Moves a s) :
    Moves a (State.orderDrop s num) := by
  unfold State.orderDrop
  repeat' first
    | with_reducible assumption
    | simp only [Moves.put_iff]

theorem State.soDisarm_moves {a s : State} (c : Nat) (h : Moves a s) :
    Moves a (State.soDisarm s c) := by
  unfold State.soDisarm
  repeat' first
    | with_reducible assumption
    | with_reducible apply State.wr_moves
    | with_reducible apply State.orderDrop_moves
    | with_reducible apply State.accFault_moves
    | with_reducible apply Moves.ite

theorem State.ctxWrite_moves {a s : State} (src : Src) (c : Nat) (k : State → State) (h : Moves a s) (hk : ∀ y0, Moves a y0 → Moves a (k y0)) :
    Moves a (State.ctxWrite s src c k) := by
  unfold State.ctxWrite
  repeat' first
    | with_reducible assumption
    | with_reducible apply State.reach_moves
    | with_reducible apply State.raise_moves
    | with_reducible apply State.inc_moves
    | with_reducible apply hk
    | with_reducible apply Moves.ite
    | intro _ _

theorem State.passEntry_moves {a s : State} (p : Nat) (h : Moves a s) :
    Moves a (State.passEntry s p) := by
  unfold State.passEntry
  repeat' first
    | with_reducible assumption
    | with_reducible apply State.wr_moves

theorem State.consume_moves {a s : State} (p : Nat) (h : Moves a s) :
    Moves a (State.consume s p) := by
  unfold State.consume
  repeat' first
    | with_reducible assumption
    | with_reducible apply State.accept_moves
    | with_reducible apply State.passEntry_moves
    | with_reducible apply State.noteRead_moves
    | with_reducible apply State.putRecord_moves
    | simp only [Moves.put_iff]
    | split

theorem State.handoffTake_moves {a s : State} (h : Moves a s) :
    Moves a (State.handoffTake s) := by
  unfold State.handoffTake
  repeat' first
    | with_reducible assumption
    | with_reducible apply State.updCmd_moves
    | with_reducible apply State.skNote_moves
    | with_reducible apply State.admit_moves
    | split

theorem State.leaseExpire_moves {a s : State} (c : Nat) (h : Moves a s) :
    Moves a (State.leaseExpire s c) := by
  unfold State.leaseExpire
  repeat' first
    | with_reducible assumption
    | with_reducible apply State.setCtx_moves
    | with_reducible apply State.wr_moves
    | with_reducible apply State.applyPolicy_moves
    | with_reducible apply State.raise_moves
    | with_reducible apply Moves.ite

theorem State.occurrence_moves {a s : State} (num : Nat) (h : Moves a s) :
    Moves a (State.occurrence s num) := by
  unfold State.occurrence
  repeat' first
    | with_reducible assumption
    | with_reducible apply State.inc_moves
    | with_reducible apply State.newCmd_moves
    | with_reducible apply State.judgeNew_moves
    | with_reducible apply State.admit_moves
    | simp only [Moves.put_iff]
    | split

theorem State.orphanEnd_moves {a s : State} (c : Nat) (h : Moves a s) :
    Moves a (State.orphanEnd s c) := by
  unfold State.orphanEnd
  repeat' first
    | with_reducible assumption
    | with_reducible apply State.ctxMaybeFree_moves
    | with_reducible apply State.abandon_moves
    | with_reducible apply State.wr_moves
    | with_reducible apply Moves.ite

theorem State.releaseHeld_moves {a s : State} (ctx : Nat) (cls : Nat) (v3 : Nat) (h : Moves a s) :
    Moves a (State.releaseHeld s ctx cls v3) := by
  induction v3 generalizing s with
  | zero => unfold State.releaseHeld; exact h
  | succ n ih =>
    unfold State.releaseHeld
    repeat' first
      | with_reducible assumption
      | with_reducible apply ih
      | with_reducible apply State.makeReady_moves
      | with_reducible apply State.debit_moves
      | split

theorem State.urgFifoDispatch_moves {a s : State} (k : Nat) (h : Moves a s) :
    Moves a (State.urgFifoDispatch s k) := by
  unfold State.urgFifoDispatch
  repeat' first
    | with_reducible assumption
    | with_reducible apply State.placeU_moves
    | split

theorem execCqHeadWrite_moves {a s : State} (src : Src) (c : BitVec 8) (v : Word) (h : Moves a s) :
    ∃ t, execCqHeadWrite src c v s = .next t ∧ Moves a t := by
  unfold execCqHeadWrite
  refine ⟨_, rfl, ?_⟩
  repeat' first
    | with_reducible assumption
    | with_reducible apply State.ctxWrite_moves
    | with_reducible apply State.cqHead_moves
    | intro _ _

theorem execCtxAdopt_moves {a s : State} (src : Src) (c : BitVec 8) (h : Moves a s) :
    ∃ t, execCtxAdopt src c s = .next t ∧ Moves a t := by
  unfold execCtxAdopt
  refine ⟨_, rfl, ?_⟩
  repeat' first
    | with_reducible assumption
    | with_reducible apply State.ctxWrite_moves
    | with_reducible apply State.ctxCmd_moves
    | with_reducible apply State.ctxAdopt_moves
    | intro _ _

theorem execCtxClose_moves {a s : State} (src : Src) (c : BitVec 8) (h : Moves a s) :
    ∃ t, execCtxClose src c s = .next t ∧ Moves a t := by
  unfold execCtxClose
  refine ⟨_, rfl, ?_⟩
  repeat' first
    | with_reducible assumption
    | with_reducible apply State.ctxWrite_moves
    | with_reducible apply State.ctxCmd_moves
    | with_reducible apply State.ctxClose_moves
    | intro _ _

theorem execCtxOpen_moves {a s : State} (src : Src) (c : BitVec 8) (h : Moves a s) :
    ∃ t, execCtxOpen src c s = .next t ∧ Moves a t := by
  unfold execCtxOpen
  refine ⟨_, rfl, ?_⟩
  repeat' first
    | with_reducible assumption
    | with_reducible apply State.ctxWrite_moves
    | with_reducible apply State.ctxCmd_moves
    | with_reducible apply State.ctxOpen_moves
    | intro _ _

theorem execDescriptorConsume_moves {a s : State} (c : BitVec 8) (h : Moves a s) :
    ∃ t, execDescriptorConsume c s = .next t ∧ Moves a t := by
  unfold execDescriptorConsume
  refine ⟨_, rfl, ?_⟩
  repeat' first
    | with_reducible assumption
    | with_reducible apply State.consume_moves

theorem execDoorbell_moves {a s : State} (src : Src) (c : BitVec 8) (v : Word) (h : Moves a s) :
    ∃ t, execDoorbell src c v s = .next t ∧ Moves a t := by
  unfold execDoorbell
  refine ⟨_, rfl, ?_⟩
  repeat' first
    | with_reducible assumption
    | with_reducible apply State.ctxWrite_moves
    | with_reducible apply State.doorbell_moves
    | intro _ _

theorem execHandOffTake_moves {a s : State} (h : Moves a s) :
    ∃ t, execHandOffTake s = .next t ∧ Moves a t := by
  unfold execHandOffTake
  refine ⟨_, rfl, ?_⟩
  repeat' first
    | with_reducible assumption
    | with_reducible apply State.handoffTake_moves

theorem execLease_moves {a s : State} (src : Src) (c : BitVec 8) (v : Word) (h : Moves a s) :
    ∃ t, execLease src c v s = .next t ∧ Moves a t := by
  unfold execLease
  refine ⟨_, rfl, ?_⟩
  repeat' first
    | with_reducible assumption
    | with_reducible apply State.ctxWrite_moves
    | with_reducible apply State.lease_moves
    | intro _ _

theorem execLeaseExpire_moves {a s : State} (c : BitVec 8) (h : Moves a s) :
    ∃ t, execLeaseExpire c s = .next t ∧ Moves a t := by
  unfold execLeaseExpire
  refine ⟨_, rfl, ?_⟩
  repeat' first
    | with_reducible assumption
    | with_reducible apply State.leaseExpire_moves

theorem execOrphanHoldEnd_moves {a s : State} (c : BitVec 8) (h : Moves a s) :
    ∃ t, execOrphanHoldEnd c s = .next t ∧ Moves a t := by
  unfold execOrphanHoldEnd
  refine ⟨_, rfl, ?_⟩
  repeat' first
    | with_reducible assumption
    | with_reducible apply State.orphanEnd_moves

theorem execSoArm_moves {a s : State} (src : Src) (who : SoWho) (h : Moves a s) :
    ∃ t, execSoArm src who s = .next t ∧ Moves a t := by
  unfold execSoArm
  cases who with
  | ctx c =>
    refine ⟨_, rfl, ?_⟩
    repeat' first
      | with_reducible assumption
      | with_reducible assumption
      | with_reducible apply State.ctxWrite_moves
      | with_reducible apply State.soArm_moves
      | with_reducible apply State.orderArm_moves
      | with_reducible apply Moves.ite
      | intro _ _
  | firmware n t p an ph =>
    refine ⟨_, rfl, ?_⟩
    repeat' first
      | with_reducible assumption
      | with_reducible assumption
      | with_reducible apply State.ctxWrite_moves
      | with_reducible apply State.soArm_moves
      | with_reducible apply State.orderArm_moves
      | with_reducible apply Moves.ite
      | intro _ _

theorem execSoDisarm_moves {a s : State} (src : Src) (who : SoWho) (h : Moves a s) :
    ∃ t, execSoDisarm src who s = .next t ∧ Moves a t := by
  unfold execSoDisarm
  cases who with
  | ctx c =>
    refine ⟨_, rfl, ?_⟩
    repeat' first
      | with_reducible assumption
      | with_reducible assumption
      | with_reducible apply State.ctxWrite_moves
      | with_reducible apply State.soDisarm_moves
      | with_reducible apply State.orderDrop_moves
      | with_reducible apply Moves.ite
      | intro _ _
  | firmware n t p an ph =>
    refine ⟨_, rfl, ?_⟩
    repeat' first
      | with_reducible assumption
      | with_reducible assumption
      | with_reducible apply State.ctxWrite_moves
      | with_reducible apply State.soDisarm_moves
      | with_reducible apply State.orderDrop_moves
      | with_reducible apply Moves.ite
      | intro _ _

theorem execStandingOccurrence_moves {a s : State} (num : Nat) (h : Moves a s) :
    ∃ t, execStandingOccurrence num s = .next t ∧ Moves a t := by
  unfold execStandingOccurrence
  refine ⟨_, rfl, ?_⟩
  repeat' first
    | with_reducible assumption
    | with_reducible apply State.occurrence_moves

theorem execUrgFifoDispatch_moves {a s : State} (k : Fin 16) (h : Moves a s) :
    ∃ t, execUrgFifoDispatch k s = .next t ∧ Moves a t := by
  unfold execUrgFifoDispatch
  refine ⟨_, rfl, ?_⟩
  repeat' first
    | with_reducible assumption
    | with_reducible apply State.urgFifoDispatch_moves

end Sys2Proof.Machine
end

