-- ==== Sys2Proof/Laws/MovesAccess.lean ====
section
/-! SUPPORT. What each operation of Machine/Access.lean may do to the stores and the queue (Safety.lean, Moves): one lemma for each. -/

namespace Sys2Proof.Machine

open Host Sys2Proof

theorem State.partWrite_moves {a s : State} (q : Part) (v : Nat) (h : Moves a s) :
    Moves a (State.partWrite s q v) := by
  unfold State.partWrite
  repeat' first
    | with_reducible assumption
    | with_reducible apply State.wr_moves
    | split

theorem State.lockCheck_moves {a s : State} (page : Nat) (ofs : Nat) (v : Nat) (h : Moves a s) :
    Moves a (State.lockCheck s page ofs v) := by
  unfold State.lockCheck
  repeat' first
    | with_reducible assumption
    | with_reducible apply State.accFault_moves
    | with_reducible apply Moves.ite

theorem State.wordWrite_moves {a s : State} (page : Nat) (ofs : Nat) (v : Nat) (h : Moves a s) :
    Moves a (State.wordWrite s page ofs v) := by
  unfold State.wordWrite
  repeat' first
    | with_reducible assumption
    | with_reducible apply State.partWrite_moves
    | with_reducible apply State.lockCheck_moves
    | with_reducible apply Moves.foldl
    | intro _ _

theorem State.lockWord_moves {a s : State} (f : Fld) (p : Nat) (i : Nat) (v : Nat) (h : Moves a s) :
    Moves a (State.lockWord s f p i v) := by
  unfold State.lockWord
  repeat' first
    | with_reducible assumption
    | with_reducible apply State.lockCheck_moves

end Sys2Proof.Machine
end

