-- ==== Sys2Proof/Laws/MovesAudio.lean ====
section
/-! SUPPORT. What each operation of Machine/Audio.lean may do to the stores and the queue (Safety.lean, Moves): one lemma for each. -/

namespace Sys2Proof.Machine

open Host Sys2Proof

theorem State.sample_moves {a s : State} (h : Moves a s) :
    Moves a (State.sample s) := by
  unfold State.sample
  repeat' first
    | with_reducible assumption
    | with_reducible apply State.inc_moves
    | with_reducible apply Moves.ite
    | simp only [Moves.put_iff]

theorem State.audioTick_moves {a s : State} (h : Moves a s) :
    Moves a (State.audioTick s) := by
  unfold State.audioTick
  repeat' first
    | with_reducible assumption
    | with_reducible apply State.sample_moves
    | with_reducible apply Moves.ite
    | simp only [Moves.put_iff]

end Sys2Proof.Machine
end

