-- ==== Sys2Proof/Laws/MovesBooks.lean ====
section
/-! SUPPORT. What each operation of Machine/Books.lean may do to the stores and the queue (Safety.lean, Moves): one lemma for each. -/

namespace Sys2Proof.Machine

open Host Sys2Proof

theorem State.snapRequest_moves {a s : State} (h : Moves a s) :
    Moves a (State.snapRequest s) := by
  unfold State.snapRequest
  repeat' first
    | with_reducible assumption
    | simp only [Moves.put_iff]

theorem State.partErr_moves {a s : State} (f : Fld) (part : Nat) (h : Moves a s) :
    Moves a (State.partErr s f part) := by
  unfold State.partErr
  repeat' first
    | with_reducible assumption
    | with_reducible apply State.raise_moves
    | with_reducible apply State.wr_moves

theorem State.kmaskWrite_moves {a s : State} (part : Nat) (v : Nat) (h : Moves a s) :
    Moves a (State.kmaskWrite s part v) := by
  unfold State.kmaskWrite
  repeat' first
    | with_reducible assumption
    | with_reducible apply State.partErr_moves
    | with_reducible apply State.wr_moves
    | with_reducible apply Moves.ite

theorem State.budgetWrite_moves {a s : State} (part : Nat) (v : Nat) (h : Moves a s) :
    Moves a (State.budgetWrite s part v) := by
  unfold State.budgetWrite
  repeat' first
    | with_reducible assumption
    | with_reducible apply State.partErr_moves
    | with_reducible apply State.wr_moves
    | with_reducible apply Moves.ite

theorem State.refillBkt_moves {a s : State} (b : Bkt) (h : Moves a s) :
    Moves a (State.refillBkt s b) := by
  unfold State.refillBkt
  repeat' first
    | with_reducible assumption
    | with_reducible apply State.releaseHeld_moves
    | with_reducible apply State.setBkt_moves

theorem State.refill_moves {a s : State} (h : Moves a s) :
    Moves a (State.refill s) := by
  unfold State.refill
  repeat' first
    | with_reducible assumption
    | with_reducible apply State.refillBkt_moves
    | with_reducible apply Moves.ite
    | simp only [Moves.put_iff]
    | with_reducible apply Moves.foldl
    | intro _ _

theorem State.snapBkt_moves {a s : State} (b : Bkt) (h : Moves a s) :
    Moves a (State.snapBkt s b) := by
  unfold State.snapBkt
  repeat' first
    | with_reducible assumption
    | with_reducible apply State.wr_moves

theorem State.snapKettle_moves {a s : State} (k : Nat) (h : Moves a s) :
    Moves a (State.snapKettle s k) := by
  unfold State.snapKettle
  repeat' first
    | with_reducible assumption
    | with_reducible apply State.wr_moves
    | split

theorem State.snapCapture_moves {a s : State} (h : Moves a s) :
    Moves a (State.snapCapture s) := by
  unfold State.snapCapture
  repeat' first
    | with_reducible assumption
    | with_reducible apply State.snapKettle_moves
    | with_reducible apply State.snapBkt_moves
    | with_reducible apply State.wr_moves
    | with_reducible apply State.raise_moves
    | with_reducible apply Moves.ite
    | simp only [Moves.put_iff]
    | with_reducible apply Moves.foldl
    | intro _ _ _

theorem execBooksSnap_moves {a s : State} (h : Moves a s) :
    ∃ t, execBooksSnap s = .next t ∧ Moves a t := by
  unfold execBooksSnap
  refine ⟨_, rfl, ?_⟩
  repeat' first
    | with_reducible assumption
    | with_reducible apply State.reach_moves
    | with_reducible apply State.snapRequest_moves

theorem execBooksSnapCapture_moves {a s : State} (h : Moves a s) :
    ∃ t, execBooksSnapCapture s = .next t ∧ Moves a t := by
  unfold execBooksSnapCapture
  refine ⟨_, rfl, ?_⟩
  repeat' first
    | with_reducible assumption
    | with_reducible apply State.snapCapture_moves

theorem execPartKmaskWrite_moves {a s : State} (v : Word) (h : Moves a s) :
    ∃ t, execPartKmaskWrite v s = .next t ∧ Moves a t := by
  unfold execPartKmaskWrite
  refine ⟨_, rfl, ?_⟩
  repeat' first
    | with_reducible assumption
    | with_reducible apply State.reach_moves
    | with_reducible apply State.kmaskWrite_moves
    | intro _ _

theorem execPartUrgBudgetWrite_moves {a s : State} (v : Word) (h : Moves a s) :
    ∃ t, execPartUrgBudgetWrite v s = .next t ∧ Moves a t := by
  unfold execPartUrgBudgetWrite
  refine ⟨_, rfl, ?_⟩
  repeat' first
    | with_reducible assumption
    | with_reducible apply State.reach_moves
    | with_reducible apply State.budgetWrite_moves
    | intro _ _

theorem execRefill_moves {a s : State} (h : Moves a s) :
    ∃ t, execRefill s = .next t ∧ Moves a t := by
  unfold execRefill
  refine ⟨_, rfl, ?_⟩
  repeat' first
    | with_reducible assumption
    | with_reducible apply State.refill_moves

end Sys2Proof.Machine
end

