-- ==== Sys2Proof/Laws/MovesFlash.lean ====
section
/-! SUPPORT. What each operation of Machine/Flash.lean may do to the stores and the queue (Safety.lean, Moves): one lemma for each. -/

namespace Sys2Proof.Machine

open Host Sys2Proof

theorem State.flashScramble_moves {a s : State} (ofs : Nat) (v2 : Nat) (h : Moves a s) :
    Moves a (State.flashScramble s ofs v2) := by
  induction v2 generalizing s ofs with
  | zero => unfold State.flashScramble; exact h
  | succ n ih =>
    unfold State.flashScramble
    repeat' first
      | with_reducible assumption
      | with_reducible apply ih
      | with_reducible apply State.tookFree_moves
      | with_reducible apply State.setByte_moves

theorem State.flashWr_moves {a s : State} (ofs : Nat) (v2 : List Byte) (h : Moves a s) :
    Moves a (State.flashWr s ofs v2) := by
  induction v2 generalizing s ofs with
  | nil => unfold State.flashWr; exact h
  | cons x t ih =>
    unfold State.flashWr
    repeat' first
      | with_reducible assumption
      | with_reducible apply ih
      | with_reducible apply State.setByte_moves

theorem State.slotBroken_moves {a s : State} (k : Nat) (h : Moves a s) :
    Moves a (State.slotBroken s k) := by
  unfold State.slotBroken
  repeat' first
    | with_reducible assumption
    | with_reducible apply State.flashScramble_moves
    | with_reducible apply State.flashWr_moves

theorem State.slotSync_moves {a s : State} (h : Moves a s) :
    Moves a (State.slotSync s) := by
  unfold State.slotSync
  repeat' first
    | with_reducible assumption
    | with_reducible apply State.wr_moves

theorem State.sigNote_moves {a s : State} (code : Nat) (h : Moves a s) :
    Moves a (State.sigNote s code) := by
  unfold State.sigNote
  repeat' first
    | with_reducible assumption
    | with_reducible apply State.raise_moves
    | with_reducible apply State.inc_moves
    | with_reducible apply Moves.ite

theorem State.flashErase_moves {a s : State} (ofs : Nat) (n : Nat) (h : Moves a s) :
    Moves a (State.flashErase s ofs n) := by
  unfold State.flashErase
  repeat' first
    | with_reducible assumption
    | with_reducible apply State.forget_moves

theorem State.recWrite_moves {a s : State} (r : BootRec) (h : Moves a s) :
    Moves a (State.recWrite s r) := by
  unfold State.recWrite
  repeat' first
    | with_reducible assumption
    | with_reducible apply State.flashWr_moves
    | with_reducible apply State.flashErase_moves

end Sys2Proof.Machine
end

