-- ==== Sys2Proof/Laws/MovesQuiesce.lean ====
section
/-! SUPPORT. What each operation of Machine/Quiesce.lean may do to the stores and the queue (Safety.lean, Moves): one lemma for each. -/

namespace Sys2Proof.Machine

open Host Sys2Proof

theorem State.flashBreak_moves {a s : State} (h : Moves a s) :
    Moves a (State.flashBreak s) := by
  unfold State.flashBreak
  repeat' first
    | with_reducible assumption
    | with_reducible apply State.slotBroken_moves
    | with_reducible apply State.flashScramble_moves
    | split

theorem State.mbEnd_moves {a s : State} (result : Nat) (h : Moves a s) :
    Moves a (State.mbEnd s result) := by
  unfold State.mbEnd
  repeat' first
    | with_reducible assumption
    | with_reducible apply State.flashBreak_moves
    | with_reducible apply State.slotSync_moves
    | with_reducible apply State.raise_moves
    | with_reducible apply State.wr_moves
    | simp only [Moves.put_iff]
    | split

theorem State.flashQuiesce_moves {a s : State} (h : Moves a s) :
    Moves a (State.flashQuiesce s) := by
  unfold State.flashQuiesce
  repeat' first
    | with_reducible assumption
    | with_reducible apply State.raise_moves
    | with_reducible apply State.mbEnd_moves
    | with_reducible apply Moves.ite

theorem State.brownout_moves {a s : State} (on : Bool) (h : Moves a s) :
    Moves a (State.brownout s on) := by
  unfold State.brownout
  repeat' first
    | with_reducible assumption
    | with_reducible apply State.flashQuiesce_moves
    | with_reducible apply Moves.ite
    | simp only [Moves.put_iff]

end Sys2Proof.Machine
end

