-- ==== Sys2Proof/Laws/MovesOrrery.lean ====
section
/-! SUPPORT. What each operation of Machine/Orrery.lean may do to the stores and the queue (Safety.lean, Moves): one lemma for each. -/

namespace Sys2Proof.Machine

open Host Sys2Proof

theorem State.snapTake_moves {a s : State} (v : Nat) (h : Moves a s) :
    Moves a (State.snapTake s v) := by
  unfold State.snapTake
  repeat' first
    | with_reducible assumption
    | with_reducible apply State.wr_moves
    | with_reducible apply Moves.ite

theorem State.realignWrite_moves {a s : State} (v : Nat) (h : Moves a s) :
    Moves a (State.realignWrite s v) := by
  unfold State.realignWrite
  repeat' first
    | with_reducible assumption
    | with_reducible apply State.realignLost_moves
    | with_reducible apply State.wr_moves

theorem State.chGo_moves {a s : State} (ch : Nat) (st : Nat) (h : Moves a s) :
    Moves a (State.chGo s ch st) := by
  unfold State.chGo
  repeat' first
    | with_reducible assumption
    | with_reducible apply State.raise_moves
    | with_reducible apply State.wr_moves
    | with_reducible apply Moves.ite

theorem State.setChan_moves {a s : State} (ch : Nat) (c : ChanSt) (h : Moves a s) :
    Moves a (State.setChan s ch c) := by
  unfold State.setChan
  repeat' first
    | with_reducible assumption
    | with_reducible apply Moves.ite
    | simp only [Moves.put_iff]

theorem State.holdEnter_moves {a s : State} (ch : Nat) (h : Moves a s) :
    Moves a (State.holdEnter s ch) := by
  unfold State.holdEnter
  repeat' first
    | with_reducible assumption
    | with_reducible apply State.chGo_moves
    | with_reducible apply State.setChan_moves

theorem State.dwellTrack_moves {a s : State} (ch : Nat) (h : Moves a s) :
    Moves a (State.dwellTrack s ch) := by
  unfold State.dwellTrack
  repeat' first
    | with_reducible assumption
    | with_reducible apply State.wr_moves
    | with_reducible apply State.setChan_moves
    | simp only [Moves.put_iff]
    | split

theorem State.refCheck_moves {a s : State} (ch : Nat) (h : Moves a s) :
    Moves a (State.refCheck s ch) := by
  unfold State.refCheck
  repeat' first
    | with_reducible assumption
    | with_reducible apply State.wr_moves
    | with_reducible apply State.holdEnter_moves
    | with_reducible apply State.dwellTrack_moves
    | with_reducible apply Moves.ite

theorem State.refCheckAll_moves {a s : State} (h : Moves a s) :
    Moves a (State.refCheckAll s) := by
  unfold State.refCheckAll
  repeat' first
    | with_reducible assumption
    | with_reducible apply State.refCheck_moves

theorem State.orrMainOff_moves {a s : State} (h : Moves a s) :
    Moves a (State.orrMainOff s) := by
  unfold State.orrMainOff
  repeat' first
    | with_reducible assumption
    | with_reducible apply State.holdEnter_moves
    | with_reducible apply Moves.ite
    | with_reducible apply Moves.foldl
    | intro _ _ _

theorem State.orrMainOn_moves {a s : State} (h : Moves a s) :
    Moves a (State.orrMainOn s) := by
  unfold State.orrMainOn
  repeat' first
    | with_reducible assumption
    | simp only [Moves.put_iff]

theorem State.fsyncProgram_moves {a s : State} (c : CaptureEnt) (h : Moves a s) :
    Moves a (State.fsyncProgram s c) := by
  unfold State.fsyncProgram
  repeat' first
    | with_reducible assumption
    | with_reducible apply State.wr_moves
    | with_reducible apply State.wrSh_moves
    | with_reducible apply State.realignLost_moves

theorem State.captureOcc_moves {a s : State} (num : Nat) (h : Moves a s) :
    Moves a (State.captureOcc s num) := by
  unfold State.captureOcc
  repeat' first
    | with_reducible assumption
    | with_reducible apply State.inc_moves
    | with_reducible apply State.fsyncProgram_moves
    | simp only [Moves.put_iff]
    | split

theorem State.groupsStep_moves {a s : State} (ch : Nat) (d : Int) (h : Moves a s) :
    Moves a (State.groupsStep s ch d) := by
  unfold State.groupsStep
  repeat' first
    | with_reducible assumption
    | with_reducible apply State.wr_moves
    | with_reducible apply Moves.foldl
    | intro _ _ _

theorem State.mapWrite_moves {a s : State} (h : Moves a s) :
    Moves a (State.mapWrite s) := by
  unfold State.mapWrite
  repeat' first
    | with_reducible assumption
    | with_reducible apply State.addW_moves
    | with_reducible apply State.wr_moves

theorem State.chStep_moves {a s : State} (ch : Nat) (d : Int) (h : Moves a s) :
    Moves a (State.chStep s ch d) := by
  unfold State.chStep
  repeat' first
    | with_reducible assumption
    | with_reducible apply State.groupsStep_moves
    | with_reducible apply State.raise_moves
    | with_reducible apply State.inc_moves
    | with_reducible apply State.wr_moves
    | with_reducible apply State.commitRange_moves
    | with_reducible apply State.mapWrite_moves
    | with_reducible apply Moves.ite
    | simp only [Moves.put_iff]

theorem State.chSelect_moves {a s : State} (ch : Nat) (i : Nat) (ofs : Int) (h : Moves a s) :
    Moves a (State.chSelect s ch i ofs) := by
  unfold State.chSelect
  repeat' first
    | with_reducible assumption
    | with_reducible apply State.setChan_moves
    | with_reducible apply State.wr_moves
    | with_reducible apply State.chStep_moves
    | with_reducible apply State.chGo_moves

theorem State.chLost_moves {a s : State} (ch : Nat) (h : Moves a s) :
    Moves a (State.chLost s ch) := by
  unfold State.chLost
  repeat' first
    | with_reducible assumption
    | with_reducible apply State.raise_moves
    | with_reducible apply State.chGo_moves

theorem State.evaluate_moves {a s0 : State} (ch : Nat) (ofs : Int) (hs0 : Moves a s0) :
    Moves a (State.evaluate s0 ch ofs) := by
  unfold State.evaluate
  repeat' first
    | with_reducible assumption
    | with_reducible apply State.refCheck_moves
    | with_reducible apply State.chSelect_moves
    | with_reducible apply State.chLost_moves
    | simp only [Moves.put_iff]
    | split

theorem State.chLock_moves {a s0 : State} (ch : Nat) (ofs : Int) (hs0 : Moves a s0) :
    Moves a (State.chLock s0 ch ofs) := by
  unfold State.chLock
  repeat' first
    | with_reducible assumption
    | with_reducible apply State.evaluate_moves
    | with_reducible apply State.refCheckAll_moves
    | with_reducible apply State.chGo_moves
    | with_reducible apply Moves.ite

theorem State.dwellElapsed_moves {a s0 : State} (ch : Nat) (ofs : Int) (hs0 : Moves a s0) :
    Moves a (State.dwellElapsed s0 ch ofs) := by
  unfold State.dwellElapsed
  repeat' first
    | with_reducible assumption
    | with_reducible apply State.refCheck_moves
    | with_reducible apply State.chSelect_moves
    | simp only [Moves.put_iff]
    | split

theorem State.loads_moves {a s : State} (h : Moves a s) :
    Moves a (State.loads s) := by
  unfold State.loads
  repeat' first
    | with_reducible assumption
    | with_reducible apply State.tookFree_moves
    | with_reducible apply State.wr_moves
    | with_reducible apply Moves.foldl
    | intro _ _ _

theorem State.loopEvent_moves {a s : State} (ch : Nat) (err : Int) (frq : Int) (h : Moves a s) :
    Moves a (State.loopEvent s ch err frq) := by
  unfold State.loopEvent
  repeat' first
    | with_reducible assumption
    | with_reducible apply State.wr_moves
    | with_reducible apply State.setChan_moves
    | with_reducible apply Moves.ite

theorem State.mainsStat_moves {a s : State} (m : List Byte) (h : Moves a s) :
    Moves a (State.mainsStat s m) := by
  unfold State.mainsStat
  repeat' first
    | with_reducible assumption
    | with_reducible apply State.wr_moves
    | with_reducible apply State.wakeLatch_moves
    | with_reducible apply State.raise_moves
    | with_reducible apply State.refCheckAll_moves
    | with_reducible apply State.brownout_moves
    | with_reducible apply Moves.ite
    | simp only [Moves.put_iff]

theorem State.phaseZero_moves {a s : State} (ofs : Int) (err : Int) (frq : Int) (h : Moves a s) :
    Moves a (State.phaseZero s ofs err frq) := by
  unfold State.phaseZero
  repeat' first
    | with_reducible assumption
    | with_reducible apply State.skTime_moves
    | with_reducible apply State.loads_moves
    | with_reducible apply State.evaluate_moves
    | with_reducible apply State.mapWrite_moves
    | with_reducible apply State.loopEvent_moves
    | with_reducible apply Moves.ite
    | simp only [Moves.put_iff]

theorem State.realignDecide_moves {a s : State} (g : Nat) (h : Moves a s) :
    Moves a (State.realignDecide s g) := by
  unfold State.realignDecide
  repeat' first
    | with_reducible assumption
    | with_reducible apply State.realignDone_moves
    | with_reducible apply Moves.ite
    | simp only [Moves.put_iff]

theorem State.pulse_moves {a s0 : State} (n : Nat) (hs0 : Moves a s0) :
    Moves a (State.pulse s0 n) := by
  unfold State.pulse
  repeat' first
    | with_reducible assumption
    | with_reducible apply State.realignDecide_moves
    | with_reducible apply State.emit_moves
    | with_reducible apply Moves.ite
    | simp only [Moves.put_iff]

theorem State.secondBoundary_moves {a s : State} (ofs : Int) (err : Int) (frq : Int) (h : Moves a s) :
    Moves a (State.secondBoundary s ofs err frq) := by
  unfold State.secondBoundary
  repeat' first
    | with_reducible assumption
    | with_reducible apply State.refCheck_moves
    | with_reducible apply State.evaluate_moves
    | with_reducible apply State.loopEvent_moves
    | with_reducible apply Moves.ite
    | simp only [Moves.put_iff]

theorem State.zcGood_moves {a s : State} (h : Moves a s) :
    Moves a (State.zcGood s) := by
  unfold State.zcGood
  repeat' first
    | with_reducible assumption
    | simp only [Moves.put_iff]

theorem State.zcMiss_moves {a s : State} (h : Moves a s) :
    Moves a (State.zcMiss s) := by
  unfold State.zcMiss
  repeat' first
    | with_reducible assumption
    | with_reducible apply State.raise_moves
    | with_reducible apply State.inc_moves
    | with_reducible apply State.refCheckAll_moves
    | simp only [Moves.put_iff]
    | split

theorem State.zcStamp_moves {a s : State} (m : List Byte) (h : Moves a s) :
    Moves a (State.zcStamp s m) := by
  unfold State.zcStamp
  repeat' first
    | with_reducible assumption
    | with_reducible apply State.zcGood_moves
    | with_reducible apply State.refCheckAll_moves
    | with_reducible apply State.wr_moves
    | with_reducible apply Moves.ite
    | simp only [Moves.put_iff]

theorem execCaptureOccurrence_moves {a s : State} (num : Nat) (h : Moves a s) :
    ∃ t, execCaptureOccurrence num s = .next t ∧ Moves a t := by
  unfold execCaptureOccurrence
  refine ⟨_, rfl, ?_⟩
  repeat' first
    | with_reducible assumption
    | with_reducible apply State.captureOcc_moves

theorem execChLock_moves {a s : State} (ch : Fin 2) (ofs : BitVec 64) (h : Moves a s) :
    ∃ t, execChLock ch ofs s = .next t ∧ Moves a t := by
  unfold execChLock
  refine ⟨_, rfl, ?_⟩
  repeat' first
    | with_reducible assumption
    | with_reducible apply State.chLock_moves

theorem execFsyncPulse_moves {a s : State} (n : Fin 16) (h : Moves a s) :
    ∃ t, execFsyncPulse n s = .next t ∧ Moves a t := by
  unfold execFsyncPulse
  refine ⟨_, rfl, ?_⟩
  repeat' first
    | with_reducible assumption
    | with_reducible apply State.pulse_moves

theorem execGridOutPulse_moves {a s : State} (h : Moves a s) :
    ∃ t, execGridOutPulse s = .next t ∧ Moves a t := by
  unfold execGridOutPulse
  refine ⟨_, rfl, ?_⟩
  repeat' first
    | with_reducible assumption
    | with_reducible apply State.pulse_moves

theorem execGridPhaseZero_moves {a s : State} (ofs : BitVec 64) (phaseErr : BitVec 32) (freqOfs : BitVec 32) (h : Moves a s) :
    ∃ t, execGridPhaseZero ofs phaseErr freqOfs s = .next t ∧ Moves a t := by
  unfold execGridPhaseZero
  refine ⟨_, rfl, ?_⟩
  repeat' first
    | with_reducible assumption
    | with_reducible apply State.phaseZero_moves

theorem execHoldEstLost_moves {a s : State} (ch : Fin 2) (ofs : BitVec 64) (h : Moves a s) :
    ∃ t, execHoldEstLost ch ofs s = .next t ∧ Moves a t := by
  unfold execHoldEstLost
  refine ⟨_, rfl, ?_⟩
  repeat' first
    | with_reducible assumption
    | with_reducible apply State.evaluate_moves

theorem execHoldoverLimit_moves {a s : State} (ch : Fin 2) (ofs : BitVec 64) (h : Moves a s) :
    ∃ t, execHoldoverLimit ch ofs s = .next t ∧ Moves a t := by
  unfold execHoldoverLimit
  refine ⟨_, rfl, ?_⟩
  repeat' first
    | with_reducible assumption
    | with_reducible apply State.evaluate_moves

theorem execMainsStat_moves {a s : State} (m : List Byte) (h : Moves a s) :
    ∃ t, execMainsStat m s = .next t ∧ Moves a t := by
  unfold execMainsStat
  refine ⟨_, rfl, ?_⟩
  repeat' first
    | with_reducible assumption
    | with_reducible apply State.brArrive_moves
    | with_reducible apply State.mainsStat_moves
    | intro _ _

theorem execPpsOutPulse_moves {a s : State} (h : Moves a s) :
    ∃ t, execPpsOutPulse s = .next t ∧ Moves a t := by
  unfold execPpsOutPulse
  refine ⟨_, rfl, ?_⟩
  repeat' first
    | with_reducible assumption
    | with_reducible apply State.pulse_moves

theorem execRealign_moves {a s : State} (v : Word) (h : Moves a s) :
    ∃ t, execRealign v s = .next t ∧ Moves a t := by
  unfold execRealign
  refine ⟨_, rfl, ?_⟩
  repeat' first
    | with_reducible assumption
    | with_reducible apply State.reach_moves
    | with_reducible apply State.realignWrite_moves
    | intro _ _

theorem execRealignDecision_moves {a s : State} (g : Fin 6) (h : Moves a s) :
    ∃ t, execRealignDecision g s = .next t ∧ Moves a t := by
  unfold execRealignDecision
  refine ⟨_, rfl, ?_⟩
  repeat' first
    | with_reducible assumption
    | with_reducible apply State.realignDecide_moves

theorem execSiSecondBoundary_moves {a s : State} (ofs : BitVec 64) (phaseErr : BitVec 32) (freqOfs : BitVec 32) (h : Moves a s) :
    ∃ t, execSiSecondBoundary ofs phaseErr freqOfs s = .next t ∧ Moves a t := by
  unfold execSiSecondBoundary
  refine ⟨_, rfl, ?_⟩
  repeat' first
    | with_reducible assumption
    | with_reducible apply State.secondBoundary_moves

theorem execSnapTake_moves {a s : State} (v : Word) (h : Moves a s) :
    ∃ t, execSnapTake v s = .next t ∧ Moves a t := by
  unfold execSnapTake
  refine ⟨_, rfl, ?_⟩
  repeat' first
    | with_reducible assumption
    | with_reducible apply State.reach_moves
    | with_reducible apply State.snapTake_moves
    | intro _ _

theorem execSwitchDwellElapsed_moves {a s : State} (ch : Fin 2) (ofs : BitVec 64) (h : Moves a s) :
    ∃ t, execSwitchDwellElapsed ch ofs s = .next t ∧ Moves a t := by
  unfold execSwitchDwellElapsed
  refine ⟨_, rfl, ?_⟩
  repeat' first
    | with_reducible assumption
    | with_reducible apply State.dwellElapsed_moves

theorem execZcMiss_moves {a s : State} (h : Moves a s) :
    ∃ t, execZcMiss s = .next t ∧ Moves a t := by
  unfold execZcMiss
  refine ⟨_, rfl, ?_⟩
  repeat' first
    | with_reducible assumption
    | with_reducible apply State.zcMiss_moves

theorem execZcStamp_moves {a s : State} (m : List Byte) (h : Moves a s) :
    ∃ t, execZcStamp m s = .next t ∧ Moves a t := by
  unfold execZcStamp
  refine ⟨_, rfl, ?_⟩
  repeat' first
    | with_reducible assumption
    | with_reducible apply State.brArrive_moves
    | with_reducible apply State.zcStamp_moves
    | intro _ _

end Sys2Proof.Machine
end

