-- ==== Sys2Proof/Laws/MovesPlace.lean ====
section
/-! SUPPORT. What each operation of Machine/Place.lean may do to the stores and the queue (Safety.lean, Moves): one lemma for each. -/

namespace Sys2Proof.Machine

open Host Sys2Proof

theorem State.writeAck_moves {a s : State} (id : Nat) (n : Nat) (ce : Bool) (ue : Option Nat) (h : Moves a s) :
    Moves a (State.writeAck s id n ce ue) := by
  unfold State.writeAck
  repeat' first
    | with_reducible assumption
    | with_reducible apply State.updCmd_moves
    | with_reducible apply State.raise_moves
    | with_reducible apply State.inc_moves
    | with_reducible apply State.setPoison_moves
    | simp only [Moves.put_iff]
    | split

theorem State.lampOp_moves {a s : State} (c : Cmd) (spec : Bool) (h : Moves a s) :
    Moves a (State.lampOp s c spec) := by
  unfold State.lampOp
  repeat' first
    | with_reducible assumption
    | with_reducible apply State.lampSpec_moves
    | with_reducible apply State.lampRequest_moves
    | with_reducible apply Moves.ite

theorem State.zonesGive_moves {a s : State} (id : Nat) (spec : Bool) (h : Moves a s) :
    Moves a (State.zonesGive s id spec) := by
  unfold State.zonesGive
  repeat' first
    | with_reducible assumption
    | with_reducible apply State.inc_moves
    | with_reducible apply State.lampSpec_moves
    | with_reducible apply Moves.ite
    | simp only [Moves.put_iff]
    | with_reducible apply Moves.foldl
    | intro _ _ _

theorem State.guardRefuse_moves {a s : State} (h : Moves a s) :
    Moves a (State.guardRefuse s) := by
  unfold State.guardRefuse
  repeat' first
    | with_reducible assumption
    | with_reducible apply State.raise_moves
    | with_reducible apply State.inc_moves

theorem State.cmdWrite_moves {a s : State} (who : Option Nat) (v2 : Nat) (bs : List Byte) (bad : Bool) (h : Moves a s) :
    Moves a (State.cmdWrite s who v2 bs bad).1 := by
  unfold State.cmdWrite
  repeat' first
    | with_reducible assumption
    | with_reducible apply State.skWrite_moves
    | with_reducible apply State.badAccess_moves
    | with_reducible apply State.poke_moves
    | split

theorem State.markProv_moves {a s : State} (id : Nat) (v2 : Nat) (n : Nat) (h : Moves a s) :
    Moves a (State.markProv s id v2 n) := by
  unfold State.markProv
  repeat' first
    | with_reducible assumption
    | simp only [Moves.put_iff]

theorem State.drain_moves {a s : State} (id : Nat) (h : Moves a s) :
    Moves a (State.drain s id) := by
  unfold State.drain
  repeat' first
    | with_reducible assumption
    | with_reducible apply State.updCmd_moves
    | with_reducible apply State.guardRefuse_moves
    | with_reducible apply State.cmdWrite_moves
    | with_reducible apply State.markProv_moves
    | simp only [Moves.put_iff]
    | with_reducible apply Moves.foldl
    | intro _ _ _
    | split

theorem State.drainReady_moves {a s : State} (h : Moves a s) :
    Moves a (State.drainReady s) := by
  unfold State.drainReady
  repeat' first
    | with_reducible assumption
    | with_reducible apply State.drain_moves
    | with_reducible apply Moves.ite
    | with_reducible apply Moves.foldl
    | intro _ _ _

theorem State.enterOne_moves {a s : State} (id : Nat) (h : Moves a s) :
    Moves a (State.enterOne s id) := by
  unfold State.enterOne
  repeat' first
    | with_reducible assumption
    | with_reducible apply State.killClose_moves
    | with_reducible apply State.updCmd_moves
    | with_reducible apply State.lampOp_moves
    | with_reducible apply State.skReport_moves
    | with_reducible apply State.zonesGive_moves
    | with_reducible apply State.drainReady_moves
    | simp only [Moves.put_iff]
    | split

theorem State.actNow_moves {a s : State} (c : Cmd) (h : Moves a s) :
    Moves a (State.actNow s c) := by
  unfold State.actNow
  repeat' first
    | with_reducible assumption
    | with_reducible apply State.enterOne_moves
    | with_reducible apply State.startService_moves

theorem State.advanceVt_moves {a s : State} (c : Cmd) (h : Moves a s) :
    Moves a (State.advanceVt s c) := by
  unfold State.advanceVt
  repeat' first
    | with_reducible assumption
    | with_reducible apply Moves.ite
    | simp only [Moves.put_iff]

theorem State.bindCommit_moves {a s : State} (c : Cmd) (h : Moves a s) :
    Moves a (State.bindCommit s c) := by
  unfold State.bindCommit
  repeat' first
    | with_reducible assumption
    | simp only [Moves.put_iff]
    | split

theorem State.cmdRead_moves {a s : State} (who : Option Nat) (dom : Option Nat) (v3 : Nat) (n : Nat) (h : Moves a s) :
    Moves a (State.cmdRead s who dom v3 n).1 := by
  unfold State.cmdRead
  repeat' first
    | with_reducible assumption
    | with_reducible apply State.skRead_moves
    | with_reducible apply State.badAccess_moves
    | with_reducible apply State.noteRead_moves
    | with_reducible apply State.guardRefuse_moves
    | split

theorem State.costCheck_moves {a s : State} (c : Cmd) (h : Moves a s) :
    Moves a (State.costCheck s c) := by
  unfold State.costCheck
  repeat' first
    | with_reducible assumption
    | with_reducible apply State.raise_moves
    | with_reducible apply State.inc_moves
    | with_reducible apply State.wr_moves
    | simp only [Moves.put_iff]
    | split

theorem State.settle_moves {a s : State} (id : Nat) (h : Moves a s) :
    Moves a (State.settle s id) := by
  unfold State.settle
  repeat' first
    | with_reducible assumption
    | with_reducible apply State.lampConfirm_moves
    | with_reducible apply State.close_moves
    | simp only [Moves.put_iff]
    | split

theorem State.freeSlots_moves {a s : State} (b : Nat) (h : Moves a s) :
    Moves a (State.freeSlots s b) := by
  unfold State.freeSlots
  repeat' first
    | with_reducible assumption
    | with_reducible apply State.slotFree_moves
    | with_reducible apply Moves.foldl
    | intro _ _

theorem State.orbDone_moves {a s : State} (id : Nat) (h : Moves a s) :
    Moves a (State.orbDone s id) := by
  unfold State.orbDone
  repeat' first
    | with_reducible assumption
    | simp only [Moves.put_iff]

theorem State.commitComplete_moves {a s : State} (id : Nat) (h : Moves a s) :
    Moves a (State.commitComplete s id) := by
  unfold State.commitComplete
  repeat' first
    | with_reducible assumption
    | with_reducible apply State.bindCommit_moves
    | with_reducible apply State.costCheck_moves
    | with_reducible apply State.updCmd_moves
    | with_reducible apply State.record_moves
    | with_reducible apply State.lampOp_moves
    | with_reducible apply State.zonesGive_moves
    | with_reducible apply State.lampOrder_moves
    | with_reducible apply State.settle_moves
    | with_reducible apply State.close_moves
    | with_reducible apply State.freeSlots_moves
    | with_reducible apply State.drainReady_moves
    | with_reducible apply State.orbDone_moves
    | simp only [Moves.put_iff]
    | split

theorem State.enterRecipe_moves {a s : State} (id : Nat) (h : Moves a s) :
    Moves a (State.enterRecipe s id) := by
  unfold State.enterRecipe
  repeat' first
    | with_reducible assumption
    | with_reducible apply State.enterOne_moves
    | with_reducible apply State.freeSlots_moves
    | with_reducible apply State.close_moves
    | simp only [Moves.put_iff]
    | with_reducible apply Moves.foldl
    | intro _ _
    | split

theorem State.commitEnter_moves {a s : State} (id : Nat) (h : Moves a s) :
    Moves a (State.commitEnter s id) := by
  unfold State.commitEnter
  repeat' first
    | with_reducible assumption
    | with_reducible apply State.enterRecipe_moves
    | with_reducible apply State.enterOne_moves
    | split

theorem State.copyRun_moves {a s : State} (c : Cmd) (h : Moves a s) :
    Moves a (State.copyRun s c) := by
  unfold State.copyRun
  repeat' first
    | with_reducible assumption
    | with_reducible apply State.startService_moves
    | with_reducible apply State.cmdRead_moves
    | with_reducible apply State.enterOne_moves
    | with_reducible apply State.updCmd_moves
    | with_reducible apply State.close_moves
    | simp only [Moves.put_iff]
    | split

theorem State.countNoArena_moves {a s : State} (h : Moves a s) :
    Moves a (State.countNoArena s) := by
  unfold State.countNoArena
  repeat' first
    | with_reducible assumption
    | with_reducible apply State.raise_moves
    | with_reducible apply State.inc_moves
    | with_reducible apply State.updCmd_moves
    | with_reducible apply Moves.foldl
    | intro _ _ _

theorem State.deadline_moves {a s : State} (id : Nat) (h : Moves a s) :
    Moves a (State.deadline s id) := by
  unfold State.deadline
  repeat' first
    | with_reducible assumption
    | with_reducible apply State.killClose_moves
    | split

theorem State.delegate_moves {a s : State} (c : Cmd) (m : Nat) (h : Moves a s) :
    Moves a (State.delegate s c m) := by
  unfold State.delegate
  repeat' first
    | with_reducible assumption
    | with_reducible apply State.updCmd_moves
    | with_reducible apply State.advanceVt_moves
    | with_reducible apply State.skRequest_moves
    | simp only [Moves.put_iff]

theorem State.place_moves {a s : State} (c : Cmd) (ks : List Nat) (h : Moves a s) :
    Moves a (State.place s c ks) := by
  unfold State.place
  repeat' first
    | with_reducible assumption
    | with_reducible apply State.updCmd_moves
    | with_reducible apply State.advanceVt_moves
    | with_reducible apply State.slotDispatch_moves
    | simp only [Moves.put_iff]
    | with_reducible apply Moves.foldl
    | intro _ _ _
    | split

theorem State.dispatchF_moves {a s : State} (id : Nat) (h : Moves a s) :
    Moves a (State.dispatchF s id) := by
  unfold State.dispatchF
  repeat' first
    | with_reducible assumption
    | with_reducible apply State.killClose_moves
    | with_reducible apply State.close_moves
    | with_reducible apply State.leaveBatch_moves
    | with_reducible apply State.place_moves
    | simp only [Moves.put_iff]
    | with_reducible apply Moves.foldl
    | intro _ _ _
    | split

theorem State.dispatchFor_moves {a s : State} (id : Nat) (h : Moves a s) :
    Moves a (State.dispatchFor s id) := by
  unfold State.dispatchFor
  repeat' first
    | with_reducible assumption
    | with_reducible apply State.dispatchF_moves
    | with_reducible apply State.tookFree_moves
    | with_reducible apply State.delegate_moves
    | simp only [Moves.put_iff]
    | split

theorem State.dispatchAllF_moves {a s : State} (h : Moves a s) :
    Moves a (State.dispatchAllF s) := by
  unfold State.dispatchAllF
  repeat' first
    | with_reducible assumption
    | with_reducible apply State.dispatchFor_moves
    | with_reducible apply State.countNoArena_moves
    | with_reducible apply Moves.ite
    | with_reducible apply Moves.foldl

theorem State.dispatchB_moves {a s : State} (part : Nat) (ks : List Nat) (h : Moves a s) :
    Moves a (State.dispatchB s part ks) := by
  unfold State.dispatchB
  repeat' first
    | with_reducible assumption
    | with_reducible apply State.place_moves
    | with_reducible apply State.delegate_moves
    | simp only [Moves.put_iff]
    | split

theorem State.orbDispatch_moves {a s : State} (id : Nat) (h : Moves a s) :
    Moves a (State.orbDispatch s id) := by
  unfold State.orbDispatch
  repeat' first
    | with_reducible assumption
    | with_reducible apply State.close_moves
    | with_reducible apply State.updCmd_moves
    | with_reducible apply State.advanceVt_moves
    | simp only [Moves.put_iff]
    | split

theorem State.releaseBatch_moves {a s : State} (id : Nat) (h : Moves a s) :
    Moves a (State.releaseBatch s id) := by
  unfold State.releaseBatch
  repeat' first
    | with_reducible assumption
    | with_reducible apply State.updCmd_moves
    | simp only [Moves.put_iff]
    | with_reducible apply Moves.foldl
    | intro _ _
    | split

theorem State.startAction_moves {a s : State} (id : Nat) (op : Nat) (k : State → Cmd → State) (h : Moves a s) (hk : ∀ y0 y1, Moves a y0 → Moves a (k y0 y1)) :
    Moves a (State.startAction s id op k) := by
  unfold State.startAction
  repeat' first
    | with_reducible assumption
    | with_reducible apply State.delegate_moves
    | with_reducible apply State.updCmd_moves
    | with_reducible apply State.advanceVt_moves
    | with_reducible apply hk
    | split

theorem State.waitRun_moves {a s : State} (c : Cmd) (h : Moves a s) :
    Moves a (State.waitRun s c) := by
  unfold State.waitRun
  repeat' first
    | with_reducible assumption
    | with_reducible apply State.startService_moves
    | with_reducible apply State.enterOne_moves
    | with_reducible apply Moves.ite

theorem execBDispatch_moves {a s : State} (part : Fin 16) (ks : List (Fin 128)) (h : Moves a s) :
    ∃ t, execBDispatch part ks s = .next t ∧ Moves a t := by
  unfold execBDispatch
  refine ⟨_, rfl, ?_⟩
  repeat' first
    | with_reducible assumption
    | with_reducible apply State.dispatchB_moves

theorem execCommitComplete_moves {a s : State} (id : Nat) (h : Moves a s) :
    ∃ t, execCommitComplete id s = .next t ∧ Moves a t := by
  unfold execCommitComplete
  refine ⟨_, rfl, ?_⟩
  repeat' first
    | with_reducible assumption
    | with_reducible apply State.commitComplete_moves

theorem execCommitEnter_moves {a s : State} (id : Nat) (h : Moves a s) :
    ∃ t, execCommitEnter id s = .next t ∧ Moves a t := by
  unfold execCommitEnter
  refine ⟨_, rfl, ?_⟩
  repeat' first
    | with_reducible assumption
    | with_reducible apply State.commitEnter_moves

theorem execCopy_moves {a s : State} (id : Nat) (h : Moves a s) :
    ∃ t, execCopy id s = .next t ∧ Moves a t := by
  unfold execCopy
  refine ⟨_, rfl, ?_⟩
  repeat' first
    | with_reducible assumption
    | with_reducible apply State.startAction_moves
    | with_reducible apply State.copyRun_moves

theorem execDeadline_moves {a s : State} (id : Nat) (h : Moves a s) :
    ∃ t, execDeadline id s = .next t ∧ Moves a t := by
  unfold execDeadline
  refine ⟨_, rfl, ?_⟩
  repeat' first
    | with_reducible assumption
    | with_reducible apply State.deadline_moves

theorem execFDispatch_moves {a s : State} (h : Moves a s) :
    ∃ t, execFDispatch s = .next t ∧ Moves a t := by
  unfold execFDispatch
  refine ⟨_, rfl, ?_⟩
  repeat' first
    | with_reducible assumption
    | with_reducible apply State.dispatchAllF_moves

theorem execFence_moves {a s : State} (id : Nat) (h : Moves a s) :
    ∃ t, execFence id s = .next t ∧ Moves a t := by
  unfold execFence
  refine ⟨_, rfl, ?_⟩
  repeat' first
    | with_reducible assumption
    | with_reducible apply State.startAction_moves
    | with_reducible apply State.actNow_moves

theorem execFillBatchRelease_moves {a s : State} (id : Nat) (h : Moves a s) :
    ∃ t, execFillBatchRelease id s = .next t ∧ Moves a t := by
  unfold execFillBatchRelease
  refine ⟨_, rfl, ?_⟩
  repeat' first
    | with_reducible assumption
    | with_reducible apply State.releaseBatch_moves

theorem execLampRequest_moves {a s : State} (id : Nat) (h : Moves a s) :
    ∃ t, execLampRequest id s = .next t ∧ Moves a t := by
  unfold execLampRequest
  refine ⟨_, rfl, ?_⟩
  repeat' first
    | with_reducible assumption
    | with_reducible apply State.startAction_moves
    | with_reducible apply State.actNow_moves

theorem execNop_moves {a s : State} (id : Nat) (h : Moves a s) :
    ∃ t, execNop id s = .next t ∧ Moves a t := by
  unfold execNop
  refine ⟨_, rfl, ?_⟩
  repeat' first
    | with_reducible assumption
    | with_reducible apply State.startAction_moves
    | with_reducible apply State.actNow_moves

theorem execOrbitSolve_moves {a s : State} (id : Nat) (h : Moves a s) :
    ∃ t, execOrbitSolve id s = .next t ∧ Moves a t := by
  unfold execOrbitSolve
  refine ⟨_, rfl, ?_⟩
  repeat' first
    | with_reducible assumption
    | with_reducible apply State.orbDispatch_moves

theorem execRunRecipe_moves {a s : State} (id : Nat) (h : Moves a s) :
    ∃ t, execRunRecipe id s = .next t ∧ Moves a t := by
  unfold execRunRecipe
  refine ⟨_, rfl, ?_⟩
  repeat' first
    | with_reducible assumption
    | with_reducible apply State.enterRecipe_moves

theorem execSignal_moves {a s : State} (id : Nat) (h : Moves a s) :
    ∃ t, execSignal id s = .next t ∧ Moves a t := by
  unfold execSignal
  refine ⟨_, rfl, ?_⟩
  repeat' first
    | with_reducible assumption
    | with_reducible apply State.startAction_moves
    | with_reducible apply State.actNow_moves

theorem execTrivetWriteAck_moves {a s : State} (id : Nat) (n : Nat) (ce : Bool) (ue : Option Nat) (h : Moves a s) :
    ∃ t, execTrivetWriteAck id n ce ue s = .next t ∧ Moves a t := by
  unfold execTrivetWriteAck
  refine ⟨_, rfl, ?_⟩
  repeat' first
    | with_reducible assumption
    | with_reducible apply State.writeAck_moves

theorem execWaitGt_moves {a s : State} (id : Nat) (h : Moves a s) :
    ∃ t, execWaitGt id s = .next t ∧ Moves a t := by
  unfold execWaitGt
  refine ⟨_, rfl, ?_⟩
  repeat' first
    | with_reducible assumption
    | with_reducible apply State.startAction_moves
    | with_reducible apply State.waitRun_moves

theorem execWaitGtReached_moves {a s : State} (id : Nat) (h : Moves a s) :
    ∃ t, execWaitGtReached id s = .next t ∧ Moves a t := by
  unfold execWaitGtReached
  refine ⟨_, rfl, ?_⟩
  repeat' first
    | with_reducible assumption
    | with_reducible apply State.enterOne_moves
    | split

end Sys2Proof.Machine
end

