-- ==== Sys2Proof/Laws/MovesCabinet.lean ====
section
/-! SUPPORT. What each operation of Machine/Cabinet.lean may do to the stores and the queue (Safety.lean, Moves): one lemma for each. -/

namespace Sys2Proof.Machine

open Host Sys2Proof

theorem SkTxn.acked_moves {a s : State} (x : SkTxn) (h : Moves a s) :
    Moves a (SkTxn.acked x s) := by
  unfold SkTxn.acked
  repeat' first
    | with_reducible assumption
    | with_reducible apply State.writeAck_moves
    | split

theorem SkTxn.refused_moves {a s : State} (x : SkTxn) (h : Moves a s) :
    Moves a (SkTxn.refused x s) := by
  unfold SkTxn.refused
  repeat' first
    | with_reducible assumption
    | with_reducible apply State.writeAck_moves
    | with_reducible apply State.updCmd_moves
    | with_reducible apply State.killClose_moves
    | split

theorem State.joinGo_moves {a s : State} (v : Nat) (ok : Bool) (h : Moves a s) :
    Moves a (State.joinGo s v ok) := by
  unfold State.joinGo
  repeat' first
    | with_reducible assumption
    | with_reducible apply State.skSetRole_moves
    | with_reducible apply State.wr_moves
    | with_reducible apply State.tookFree_moves
    | with_reducible apply State.raise_moves
    | with_reducible apply State.skTopo_moves
    | with_reducible apply State.skSend_moves
    | with_reducible apply Moves.ite
    | simp only [Moves.put_iff]
    | with_reducible apply Moves.foldl
    | intro _ _

theorem State.ctxForward_moves {a s : State} (orig : Src) (which : Nat) (c : Nat) (v : Nat) (h : Moves a s) :
    Moves a (State.ctxForward s orig which c v) := by
  unfold State.ctxForward
  repeat' first
    | with_reducible assumption
    | with_reducible apply State.ctxWrite_moves
    | with_reducible apply State.doorbell_moves
    | with_reducible apply State.lease_moves
    | with_reducible apply State.cqHead_moves
    | with_reducible apply Moves.ite
    | intro _ _

theorem State.cabWrite_moves {a s : State} (src : Src) (which : Nat) (v : Nat) (h : Moves a s) :
    Moves a (State.cabWrite s src which v) := by
  unfold State.cabWrite
  repeat' first
    | with_reducible assumption
    | with_reducible apply State.ctxForward_moves
    | with_reducible apply State.skRequest_moves
    | with_reducible apply Moves.ite
    | simp only [Moves.put_iff]

theorem State.skFrom_moves {a s : State} (src : Nat) (ab : Bool) (k : State → State) (h : Moves a s) (hk : ∀ y0, Moves a y0 → Moves a (k y0)) :
    Moves a (State.skFrom s src ab k) := by
  unfold State.skFrom
  repeat' first
    | with_reducible assumption
    | with_reducible apply State.inc_moves
    | with_reducible apply hk
    | with_reducible apply Moves.ite

theorem State.skPart_moves {a s : State} (ctx : Nat) (part : Nat) (h : Moves a s) :
    Moves a (State.skPart s ctx part) := by
  unfold State.skPart
  repeat' first
    | with_reducible assumption
    | simp only [Moves.put_iff]

theorem State.delegateIn_moves {a s : State} (src : Nat) (ctx : Nat) (part : Nat) (attempt : Nat) (reruns : Nat) (ks : List Nat) (bs : List Byte) (h : Moves a s) :
    Moves a (State.delegateIn s src ctx part attempt reruns ks bs) := by
  unfold State.delegateIn
  repeat' first
    | with_reducible assumption
    | with_reducible apply State.skFrom_moves
    | with_reducible apply State.skNote_moves
    | with_reducible apply State.inc_moves
    | with_reducible apply State.updCmd_moves
    | with_reducible apply State.skPart_moves
    | with_reducible apply State.place_moves
    | simp only [Moves.put_iff]
    | intro _ _
    | split

theorem State.dropCmd_moves {a s : State} (id : Nat) (h : Moves a s) :
    Moves a (State.dropCmd s id) := by
  unfold State.dropCmd
  repeat' first
    | with_reducible assumption
    | with_reducible apply State.killCmd_moves
    | with_reducible apply State.orbDrop_moves
    | simp only [Moves.put_iff]

theorem State.fillBkts_moves {a s : State} (h : Moves a s) :
    Moves a (State.fillBkts s) := by
  unfold State.fillBkts
  repeat' first
    | with_reducible assumption
    | with_reducible apply State.setBkt_moves
    | with_reducible apply Moves.foldl
    | intro _ _ _

theorem State.lostTxns_moves {a s : State} (m : Nat) (h : Moves a s) :
    Moves a (State.lostTxns s m) := by
  unfold State.lostTxns
  repeat' first
    | with_reducible assumption
    | with_reducible apply SkTxn.acked_moves
    | simp only [Moves.put_iff]
    | with_reducible apply Moves.foldl

theorem State.orphansOf_moves {a s : State} (m : Nat) (h : Moves a s) :
    Moves a (State.orphansOf s m) := by
  unfold State.orphansOf
  repeat' first
    | with_reducible assumption
    | with_reducible apply State.inc_moves
    | with_reducible apply State.dropCmd_moves
    | with_reducible apply State.skKill_moves
    | with_reducible apply Moves.ite
    | with_reducible apply Moves.foldl
    | intro _ _ _

theorem State.forsake_moves {a s : State} (m : Nat) (h : Moves a s) :
    Moves a (State.forsake s m) := by
  unfold State.forsake
  repeat' first
    | with_reducible assumption
    | with_reducible apply State.lostTxns_moves
    | with_reducible apply State.orphansOf_moves
    | with_reducible apply State.skTopo_moves
    | with_reducible apply State.raise_moves
    | with_reducible apply State.wr_moves
    | simp only [Moves.put_iff]

theorem State.handoffIn_moves {a s : State} (src : Nat) (ctx : Nat) (part : Nat) (bs : List Byte) (h : Moves a s) :
    Moves a (State.handoffIn s src ctx part bs) := by
  unfold State.handoffIn
  repeat' first
    | with_reducible assumption
    | with_reducible apply State.skFrom_moves
    | with_reducible apply State.bktOpen_moves
    | with_reducible apply State.setCtx_moves
    | with_reducible apply State.skPart_moves
    | with_reducible apply State.newCmd_moves
    | with_reducible apply Moves.ite
    | intro _ _

theorem State.renumber_moves {a s : State} (f : Nat → Nat) (h : Moves a s) :
    Moves a (State.renumber s f) := by
  unfold State.renumber
  repeat' first
    | with_reducible assumption
    | simp only [Moves.put_iff]

theorem State.headLost_moves {a s : State} (h : Moves a s) :
    Moves a (State.headLost s) := by
  unfold State.headLost
  repeat' first
    | with_reducible assumption
    | with_reducible apply State.dropCmd_moves
    | with_reducible apply State.close_moves
    | with_reducible apply State.wr_moves
    | with_reducible apply State.renumber_moves
    | with_reducible apply State.refCheckAll_moves
    | with_reducible apply State.fillBkts_moves
    | with_reducible apply State.skSetRole_moves
    | with_reducible apply Moves.ite
    | simp only [Moves.put_iff]
    | with_reducible apply Moves.foldl
    | intro _ _

theorem State.joinIn_moves {a s : State} (members : Nat) (h : Moves a s) :
    Moves a (State.joinIn s members) := by
  unfold State.joinIn
  repeat' first
    | with_reducible assumption
    | with_reducible apply State.wr_moves
    | with_reducible apply State.skSetRole_moves
    | with_reducible apply State.renumber_moves
    | with_reducible apply State.raise_moves
    | with_reducible apply State.skTopo_moves
    | with_reducible apply Moves.ite
    | simp only [Moves.put_iff]

theorem State.killIn_moves {a s : State} (ctx : Nat) (seq : Nat) (h : Moves a s) :
    Moves a (State.killIn s ctx seq) := by
  unfold State.killIn
  repeat' first
    | with_reducible assumption
    | with_reducible apply State.skReport_moves
    | with_reducible apply State.dropCmd_moves
    | with_reducible apply State.updCmd_moves
    | with_reducible apply State.killCmd_moves
    | simp only [Moves.put_iff]
    | split

theorem State.lossReruns_moves {a s : State} (m : Nat) (h : Moves a s) :
    Moves a (State.lossReruns s m) := by
  unfold State.lossReruns
  repeat' first
    | with_reducible assumption
    | with_reducible apply State.close_moves
    | with_reducible apply State.inc_moves
    | with_reducible apply State.updCmd_moves
    | simp only [Moves.put_iff]
    | with_reducible apply Moves.foldl
    | intro _ _ _
    | split

theorem State.memberLose_moves {a s : State} (m : Nat) (h : Moves a s) :
    Moves a (State.memberLose s m) := by
  unfold State.memberLose
  repeat' first
    | with_reducible assumption
    | with_reducible apply State.inc_moves
    | with_reducible apply State.forsake_moves
    | with_reducible apply State.skSend_moves
    | with_reducible apply State.lossReruns_moves
    | with_reducible apply Moves.ite
    | simp only [Moves.put_iff]
    | with_reducible apply Moves.foldl
    | intro _ _

theorem State.reportIn_moves {a s : State} (ctx : Nat) (seq : Nat) (what : Nat) (disp : Nat) (b20 : Nat) (place : Nat) (h : Moves a s) :
    Moves a (State.reportIn s ctx seq what disp b20 place) := by
  unfold State.reportIn
  repeat' first
    | with_reducible assumption
    | with_reducible apply State.updCmd_moves
    | with_reducible apply State.record_moves
    | with_reducible apply State.close_moves
    | with_reducible apply State.setCtx_moves
    | simp only [Moves.put_iff]
    | split

theorem State.skAnswered_moves {a s : State} (src : Nat) (tag : Nat) (k : SkTxn → State → State) (h : Moves a s) (hk : ∀ y0 y1, Moves a y1 → Moves a (k y0 y1)) :
    Moves a (State.skAnswered s src tag k) := by
  unfold State.skAnswered
  repeat' first
    | with_reducible assumption
    | with_reducible apply State.skFrom_moves
    | with_reducible apply hk
    | simp only [Moves.put_iff]
    | intro _ _
    | split

theorem State.skLeave_moves {a s : State} (h : Moves a s) :
    Moves a (State.skLeave s) := by
  unfold State.skLeave
  repeat' first
    | with_reducible assumption
    | with_reducible apply State.headLost_moves
    | with_reducible apply State.memberLose_moves
    | with_reducible apply State.lossReruns_moves
    | with_reducible apply Moves.ite
    | simp only [Moves.put_iff]
    | with_reducible apply Moves.foldl
    | intro _ _ _

theorem State.skOnce_moves {a s : State} (src : Nat) (tag : Nat) (k : State → State × Nat × List Byte) (h : Moves a s) (hk : ∀ y0, Moves a y0 → Moves a (k y0).1) :
    Moves a (State.skOnce s src tag k) := by
  unfold State.skOnce
  repeat' first
    | with_reducible assumption
    | with_reducible apply State.skFrom_moves
    | with_reducible apply State.skReply_moves
    | with_reducible apply State.inc_moves
    | with_reducible apply hk
    | simp only [Moves.put_iff]
    | intro _ _
    | split

theorem State.timeIn_moves {a s : State} (n : Nat) (gq : Nat) (sq : Nat) (h : Moves a s) :
    Moves a (State.timeIn s n gq sq) := by
  unfold State.timeIn
  repeat' first
    | with_reducible assumption
    | with_reducible apply State.refCheckAll_moves
    | with_reducible apply State.skGive_moves
    | with_reducible apply Moves.ite
    | simp only [Moves.put_iff]

theorem State.timeOut_moves {a s : State} (h : Moves a s) :
    Moves a (State.timeOut s) := by
  unfold State.timeOut
  repeat' first
    | with_reducible assumption
    | with_reducible apply State.refCheckAll_moves
    | with_reducible apply Moves.ite
    | simp only [Moves.put_iff]

theorem execCabCqhead_moves {a s : State} (src : Src) (v : Word) (h : Moves a s) :
    ∃ t, execCabCqhead src v s = .next t ∧ Moves a t := by
  unfold execCabCqhead
  refine ⟨_, rfl, ?_⟩
  repeat' first
    | with_reducible assumption
    | with_reducible apply State.reach_moves
    | with_reducible apply State.cabWrite_moves
    | intro _ _

theorem execCabDoorbell_moves {a s : State} (src : Src) (v : Word) (h : Moves a s) :
    ∃ t, execCabDoorbell src v s = .next t ∧ Moves a t := by
  unfold execCabDoorbell
  refine ⟨_, rfl, ?_⟩
  repeat' first
    | with_reducible assumption
    | with_reducible apply State.reach_moves
    | with_reducible apply State.cabWrite_moves
    | intro _ _

theorem execCabLease_moves {a s : State} (src : Src) (v : Word) (h : Moves a s) :
    ∃ t, execCabLease src v s = .next t ∧ Moves a t := by
  unfold execCabLease
  refine ⟨_, rfl, ?_⟩
  repeat' first
    | with_reducible assumption
    | with_reducible apply State.reach_moves
    | with_reducible apply State.cabWrite_moves
    | intro _ _

theorem execCtxWr_moves {a s : State} (src : Fin 8) (tag : BitVec 16) (orig : Src) (which : Fin 3) (c : BitVec 8) (v : Word) (h : Moves a s) :
    ∃ t, execCtxWr src tag orig which c v s = .next t ∧ Moves a t := by
  unfold execCtxWr
  refine ⟨_, rfl, ?_⟩
  repeat' first
    | with_reducible assumption
    | with_reducible apply State.skOnce_moves
    | with_reducible apply State.ctxForward_moves
    | intro _ _

theorem execDelegate_moves {a s : State} (src : Fin 8) (ctx : BitVec 11) (part : Fin 16) (attempt : Byte) (reruns : Byte) (kettles : List (Fin 16)) (desc : List Byte) (h : Moves a s) :
    ∃ t, execDelegate src ctx part attempt reruns kettles desc s = .next t ∧ Moves a t := by
  unfold execDelegate
  refine ⟨_, rfl, ?_⟩
  repeat' first
    | with_reducible assumption
    | with_reducible apply State.delegateIn_moves

theorem execEcho_moves {a s : State} (port : Fin 2) (latNs : BitVec 16) (h : Moves a s) :
    ∃ t, execEcho port latNs s = .next t ∧ Moves a t := by
  unfold execEcho
  refine ⟨_, rfl, ?_⟩
  repeat' first
    | with_reducible assumption
    | with_reducible apply State.wr_moves
    | with_reducible apply Moves.ite

theorem execErr_moves {a s : State} (src : Fin 8) (tag : BitVec 16) (h : Moves a s) :
    ∃ t, execErr src tag s = .next t ∧ Moves a t := by
  unfold execErr
  refine ⟨_, rfl, ?_⟩
  repeat' first
    | with_reducible assumption
    | with_reducible apply State.skAnswered_moves
    | with_reducible apply SkTxn.refused_moves
    | intro _ _

theorem execHandoff_moves {a s : State} (src : Fin 8) (ctx : BitVec 11) (part : Fin 16) (desc : List Byte) (h : Moves a s) :
    ∃ t, execHandoff src ctx part desc s = .next t ∧ Moves a t := by
  unfold execHandoff
  refine ⟨_, rfl, ?_⟩
  repeat' first
    | with_reducible assumption
    | with_reducible apply State.handoffIn_moves

theorem execHeadUnreachable_moves {a s : State} (h : Moves a s) :
    ∃ t, execHeadUnreachable s = .next t ∧ Moves a t := by
  unfold execHeadUnreachable
  refine ⟨_, rfl, ?_⟩
  repeat' first
    | with_reducible assumption
    | with_reducible apply State.headLost_moves
    | with_reducible apply Moves.ite

theorem execJoin_moves {a s : State} (members : Byte) (h : Moves a s) :
    ∃ t, execJoin members s = .next t ∧ Moves a t := by
  unfold execJoin
  refine ⟨_, rfl, ?_⟩
  repeat' first
    | with_reducible assumption
    | with_reducible apply State.joinIn_moves

theorem execLostAck_moves {a s : State} (src : Fin 8) (lost : Fin 8) (h : Moves a s) :
    ∃ t, execLostAck src lost s = .next t ∧ Moves a t := by
  unfold execLostAck
  refine ⟨_, rfl, ?_⟩
  repeat' first
    | with_reducible assumption
    | with_reducible apply State.skFrom_moves
    | with_reducible apply State.lossReruns_moves
    | with_reducible apply Moves.ite
    | simp only [Moves.put_iff]
    | intro _ _

theorem execMemberHbTimeout_moves {a s : State} (m : Fin 8) (portsDown : Bool) (h : Moves a s) :
    ∃ t, execMemberHbTimeout m portsDown s = .next t ∧ Moves a t := by
  unfold execMemberHbTimeout
  refine ⟨_, rfl, ?_⟩
  repeat' first
    | with_reducible assumption
    | with_reducible apply State.memberLose_moves
    | with_reducible apply Moves.ite

theorem execMemberLost_moves {a s : State} (m : Fin 8) (h : Moves a s) :
    ∃ t, execMemberLost m s = .next t ∧ Moves a t := by
  unfold execMemberLost
  refine ⟨_, rfl, ?_⟩
  repeat' first
    | with_reducible assumption
    | with_reducible apply State.skSend_moves
    | with_reducible apply State.forsake_moves
    | with_reducible apply Moves.ite

theorem execRdData_moves {a s : State} (src : Fin 8) (tag : BitVec 16) (v2 : List Byte) (h : Moves a s) :
    ∃ t, execRdData src tag v2 s = .next t ∧ Moves a t := by
  unfold execRdData
  refine ⟨_, rfl, ?_⟩
  repeat' first
    | with_reducible assumption
    | with_reducible apply State.skAnswered_moves
    | intro _ _ _

theorem execReport_moves {a s : State} (src : Fin 8) (ctx : BitVec 11) (seq : Word) (what : Fin 5) (disp : Byte) (b20 : Word) (place : BitVec 16) (h : Moves a s) :
    ∃ t, execReport src ctx seq what disp b20 place s = .next t ∧ Moves a t := by
  unfold execReport
  refine ⟨_, rfl, ?_⟩
  repeat' first
    | with_reducible assumption
    | with_reducible apply State.skFrom_moves
    | with_reducible apply State.reportIn_moves
    | intro _ _

theorem execSkJoinGo_moves {a s : State} (v : Word) (ok : Bool) (h : Moves a s) :
    ∃ t, execSkJoinGo v ok s = .next t ∧ Moves a t := by
  unfold execSkJoinGo
  refine ⟨_, rfl, ?_⟩
  repeat' first
    | with_reducible assumption
    | with_reducible apply State.reach_moves
    | with_reducible apply State.joinGo_moves
    | intro _ _

theorem execSkewTimeTimeout_moves {a s : State} (h : Moves a s) :
    ∃ t, execSkewTimeTimeout s = .next t ∧ Moves a t := by
  unfold execSkewTimeTimeout
  refine ⟨_, rfl, ?_⟩
  repeat' first
    | with_reducible assumption
    | with_reducible apply State.timeOut_moves
    | with_reducible apply Moves.ite

theorem execSkewerHbSend_moves {a s : State} (h : Moves a s) :
    ∃ t, execSkewerHbSend s = .next t ∧ Moves a t := by
  unfold execSkewerHbSend
  refine ⟨_, rfl, ?_⟩
  repeat' first
    | with_reducible assumption
    | with_reducible apply State.skNote_moves
    | with_reducible apply Moves.ite
    | simp only [Moves.put_iff]

theorem execSkewerHeartbeat_moves {a s : State} (m : Fin 8) (running : Bool) (h : Moves a s) :
    ∃ t, execSkewerHeartbeat m running s = .next t ∧ Moves a t := by
  unfold execSkewerHeartbeat
  refine ⟨_, rfl, ?_⟩
  repeat' first
    | with_reducible assumption
    | with_reducible apply State.skFrom_moves
    | with_reducible apply State.memberLose_moves
    | with_reducible apply Moves.ite
    | simp only [Moves.put_iff]
    | intro _ _

theorem execSkewerKill_moves {a s : State} (src : Fin 8) (tag : BitVec 16) (ctx : BitVec 11) (seq : Word) (h : Moves a s) :
    ∃ t, execSkewerKill src tag ctx seq s = .next t ∧ Moves a t := by
  unfold execSkewerKill
  refine ⟨_, rfl, ?_⟩
  repeat' first
    | with_reducible assumption
    | with_reducible apply State.skOnce_moves
    | with_reducible apply State.killIn_moves
    | intro _ _

theorem execTime_moves {a s : State} (port : Fin 2) (gridQ : Byte) (siQ : Byte) (h : Moves a s) :
    ∃ t, execTime port gridQ siQ s = .next t ∧ Moves a t := by
  unfold execTime
  refine ⟨_, rfl, ?_⟩
  repeat' first
    | with_reducible assumption
    | with_reducible apply State.timeIn_moves

theorem execWrAck_moves {a s : State} (src : Fin 8) (tag : BitVec 16) (h : Moves a s) :
    ∃ t, execWrAck src tag s = .next t ∧ Moves a t := by
  unfold execWrAck
  refine ⟨_, rfl, ?_⟩
  repeat' first
    | with_reducible assumption
    | with_reducible apply State.skAnswered_moves
    | with_reducible apply SkTxn.acked_moves
    | intro _ _

end Sys2Proof.Machine
end

