-- ==== Sys2Proof/Laws/MovesCamera.lean ====
section
/-! SUPPORT. What each operation of Machine/Camera.lean may do to the stores and the queue (Safety.lean, Moves): one lemma for each. -/

namespace Sys2Proof.Machine

open Host Sys2Proof

theorem State.staleCount_moves {a s : State} (st : Nat) (h : Moves a s) :
    Moves a (State.staleCount s st) := by
  unfold State.staleCount
  repeat' first
    | with_reducible assumption
    | with_reducible apply State.raise_moves
    | with_reducible apply State.inc_moves

theorem State.bindGo_moves {a s : State} (id : Nat) (h : Moves a s) :
    Moves a (State.bindGo s id) := by
  unfold State.bindGo
  repeat' first
    | with_reducible assumption
    | with_reducible apply State.close_moves
    | with_reducible apply State.updCmd_moves
    | with_reducible apply State.startService_moves
    | with_reducible apply State.enterOne_moves
    | split

theorem State.bindTo_moves {a s : State} (id : Nat) (f : Nat) (h : Moves a s) :
    Moves a (State.bindTo s id f) := by
  unfold State.bindTo
  repeat' first
    | with_reducible assumption
    | with_reducible apply State.updCmd_moves
    | with_reducible apply State.bindGo_moves
    | simp only [Moves.put_iff]
    | split

theorem State.bindWaiting_moves {a s : State} (st : Nat) (f : Nat) (h : Moves a s) :
    Moves a (State.bindWaiting s st f) := by
  unfold State.bindWaiting
  repeat' first
    | with_reducible assumption
    | with_reducible apply State.bindTo_moves
    | with_reducible apply Moves.foldl
    | intro _ _

theorem State.agRelease_moves {a s : State} (w : AgWin) (h : Moves a s) :
    Moves a (State.agRelease s w) := by
  unfold State.agRelease
  repeat' first
    | with_reducible assumption
    | with_reducible apply State.staleCount_moves
    | with_reducible apply State.raise_moves
    | with_reducible apply State.inc_moves
    | with_reducible apply State.updFrame_moves
    | with_reducible apply State.wr_moves
    | with_reducible apply State.bindWaiting_moves
    | with_reducible apply Moves.ite
    | simp only [Moves.put_iff]
    | with_reducible apply Moves.foldl
    | intro _ _

theorem State.agJoin_moves {a s : State} (g : Nat) (st : Nat) (f : Nat) (gt : Nat) (h : Moves a s) :
    Moves a (State.agJoin s g st f gt) := by
  unfold State.agJoin
  repeat' first
    | with_reducible assumption
    | with_reducible apply State.agRelease_moves
    | simp only [Moves.put_iff]
    | split

theorem State.armedDue_moves {a s : State} (st : Nat) (n : Nat) (h : Moves a s) :
    Moves a (State.armedDue s st n) := by
  unfold State.armedDue
  repeat' first
    | with_reducible assumption
    | simp only [Moves.put_iff]

theorem State.domCfg_moves {a s : State} (d : Nat) (en : Bool) (h : Moves a s) :
    Moves a (State.domCfg s d en) := by
  unfold State.domCfg
  repeat' first
    | with_reducible assumption
    | with_reducible apply State.wr_moves
    | with_reducible apply Moves.ite

theorem State.bufSweep_moves {a s : State} (h : Moves a s) :
    Moves a (State.bufSweep s) := by
  unfold State.bufSweep
  repeat' first
    | with_reducible assumption
    | simp only [Moves.put_iff]

theorem State.dropHolds_moves {a s : State} (p : BindHold → Bool) (h : Moves a s) :
    Moves a (State.dropHolds s p) := by
  unfold State.dropHolds
  repeat' first
    | with_reducible assumption
    | with_reducible apply State.bufSweep_moves
    | simp only [Moves.put_iff]

theorem State.refRelease_moves {a s : State} (port : Nat) (v : Nat) (h : Moves a s) :
    Moves a (State.refRelease s port v) := by
  unfold State.refRelease
  repeat' first
    | with_reducible assumption
    | with_reducible apply State.dropHolds_moves
    | with_reducible apply Moves.ite

theorem State.strCtrl_moves {a s : State} (p : Nat) (vc : Nat) (v : Nat) (h : Moves a s) :
    Moves a (State.strCtrl s p vc v) := by
  unfold State.strCtrl
  repeat' first
    | with_reducible assumption
    | with_reducible apply State.wr_moves

theorem State.strWrite_moves {a s0 : State} (p : Nat) (vc : Nat) (v : Nat) (hs0 : Moves a s0) :
    Moves a (State.strWrite s0 p vc v) := by
  unfold State.strWrite
  repeat' first
    | with_reducible assumption
    | with_reducible apply State.lockWord_moves
    | with_reducible apply State.wr_moves
    | with_reducible apply State.strCtrl_moves
    | with_reducible apply State.raise_moves
    | with_reducible apply Moves.ite
    | simp only [Moves.put_iff]

theorem State.setCtrl_moves {a s : State} (x : SensorSt) (h : Moves a s) :
    Moves a (State.setCtrl s x) := by
  unfold State.setCtrl
  repeat' first
    | with_reducible assumption
    | simp only [Moves.put_iff]

theorem State.bundleEnd_moves {a s : State} (b : Bundle) (status : Nat) (idx : Nat) (fid : Nat) (h : Moves a s) :
    Moves a (State.bundleEnd s b status idx fid) := by
  unfold State.bundleEnd
  repeat' first
    | with_reducible assumption
    | with_reducible apply State.raise_moves
    | with_reducible apply State.poke_moves

theorem State.bindStart_moves {a s : State} (c : Cmd) (h : Moves a s) :
    Moves a (State.bindStart s c) := by
  unfold State.bindStart
  repeat' first
    | with_reducible assumption
    | with_reducible apply State.close_moves
    | with_reducible apply State.updCmd_moves
    | with_reducible apply State.staleCount_moves
    | with_reducible apply State.bindTo_moves
    | simp only [Moves.put_iff]
    | split

theorem State.bufHeader_moves {a s : State} (b : CapBuf) (h : Moves a s) :
    Moves a (State.bufHeader s b) := by
  unfold State.bufHeader
  repeat' first
    | with_reducible assumption
    | with_reducible apply State.poke_moves

theorem State.bundlesAt_moves {a s : State} (st : Nat) (n : Nat) (capGt : Nat) (h : Moves a s) :
    Moves a (State.bundlesAt s st n capGt) := by
  unfold State.bundlesAt
  repeat' first
    | with_reducible assumption
    | with_reducible apply State.bundleEnd_moves
    | with_reducible apply State.setCtrl_moves
    | with_reducible apply Moves.foldl
    | intro _ _ _

theorem State.frameConfirm_moves {a s : State} (f : Nat) (h : Moves a s) :
    Moves a (State.frameConfirm s f) := by
  unfold State.frameConfirm
  repeat' first
    | with_reducible assumption
    | with_reducible apply State.inc_moves
    | with_reducible apply State.updFrame_moves
    | with_reducible apply State.settle_moves
    | with_reducible apply State.bindGo_moves
    | with_reducible apply Moves.ite
    | with_reducible apply Moves.foldl
    | intro _ _

theorem State.tryConfirm_moves {a s : State} (f : Nat) (h : Moves a s) :
    Moves a (State.tryConfirm s f) := by
  unfold State.tryConfirm
  repeat' first
    | with_reducible assumption
    | with_reducible apply State.frameConfirm_moves
    | split

theorem State.frameRetract_moves {a s : State} (f : Nat) (cause : Nat) (h : Moves a s) :
    Moves a (State.frameRetract s f cause) := by
  unfold State.frameRetract
  repeat' first
    | with_reducible assumption
    | with_reducible apply State.raise_moves
    | with_reducible apply State.inc_moves
    | with_reducible apply State.updFrame_moves
    | with_reducible apply State.wr_moves
    | with_reducible apply Moves.ite
    | simp only [Moves.put_iff]

theorem State.confirmDeadline_moves {a s : State} (f : Nat) (h : Moves a s) :
    Moves a (State.confirmDeadline s f) := by
  unfold State.confirmDeadline
  repeat' first
    | with_reducible assumption
    | with_reducible apply State.tryConfirm_moves
    | with_reducible apply State.frameRetract_moves
    | split

theorem State.mark_moves {a s : State} (f : Nat) (b : Nat) (h : Moves a s) :
    Moves a (State.mark s f b) := by
  unfold State.mark
  repeat' first
    | with_reducible assumption
    | with_reducible apply State.updFrame_moves

theorem State.dropLine_moves {a s : State} (f : Frame) (h : Moves a s) :
    Moves a (State.dropLine s f) := by
  unfold State.dropLine
  repeat' first
    | with_reducible assumption
    | with_reducible apply State.inc_moves
    | with_reducible apply State.raise_moves
    | with_reducible apply State.mark_moves
    | with_reducible apply State.frameRetract_moves
    | with_reducible apply Moves.ite

theorem State.judgeCrc_moves {a s : State} (f : Frame) (crcOk : Bool) (h : Moves a s) :
    Moves a (State.judgeCrc s f crcOk) := by
  unfold State.judgeCrc
  repeat' first
    | with_reducible assumption
    | with_reducible apply State.mark_moves
    | with_reducible apply State.raise_moves
    | with_reducible apply State.inc_moves
    | with_reducible apply State.updFrame_moves
    | with_reducible apply State.frameRetract_moves
    | with_reducible apply Moves.ite

theorem State.embIn_moves {a s : State} (f : Frame) (bs : List Byte) (crcOk : Bool) (h : Moves a s) :
    Moves a (State.embIn s f bs crcOk) := by
  unfold State.embIn
  repeat' first
    | with_reducible assumption
    | with_reducible apply State.updFrame_moves
    | with_reducible apply State.poke_moves
    | with_reducible apply State.judgeCrc_moves
    | split

theorem State.updBuf_moves {a s : State} (port : Nat) (idx : Nat) (f : CapBuf → CapBuf) (h : Moves a s) :
    Moves a (State.updBuf s port idx f) := by
  unfold State.updBuf
  repeat' first
    | with_reducible assumption
    | simp only [Moves.put_iff]

theorem State.endBuf_moves {a s : State} (f : Frame) (h : Moves a s) :
    Moves a (State.endBuf s f) := by
  unfold State.endBuf
  repeat' first
    | with_reducible assumption
    | with_reducible apply State.bufSweep_moves
    | with_reducible apply State.updBuf_moves
    | split

theorem State.retain_moves {a s : State} (st : Nat) (h : Moves a s) :
    Moves a (State.retain s st) := by
  unfold State.retain
  repeat' first
    | with_reducible assumption
    | with_reducible apply State.bufSweep_moves
    | simp only [Moves.put_iff]

theorem State.frameClose_moves {a s : State} (f : Frame) (h : Moves a s) :
    Moves a (State.frameClose s f) := by
  unfold State.frameClose
  repeat' first
    | with_reducible assumption
    | with_reducible apply State.bufHeader_moves
    | with_reducible apply State.endBuf_moves
    | with_reducible apply State.updFrame_moves
    | with_reducible apply State.inc_moves
    | with_reducible apply State.mark_moves
    | with_reducible apply State.frameRetract_moves
    | with_reducible apply State.raise_moves
    | with_reducible apply State.tryConfirm_moves
    | with_reducible apply State.retain_moves
    | split

theorem State.frameEnd_moves {a s : State} (st : Nat) (inferred : Bool) (h : Moves a s) :
    Moves a (State.frameEnd s st inferred) := by
  unfold State.frameEnd
  repeat' first
    | with_reducible assumption
    | with_reducible apply State.mark_moves
    | with_reducible apply State.inc_moves
    | with_reducible apply State.frameClose_moves
    | simp only [Moves.put_iff]
    | split

theorem State.takeBuf_moves {a s : State} (f : Frame) (h : Moves a s) :
    Moves a (State.takeBuf s f) := by
  unfold State.takeBuf
  repeat' first
    | with_reducible assumption
    | with_reducible apply State.updBuf_moves
    | with_reducible apply State.bufHeader_moves
    | with_reducible apply State.updFrame_moves
    | simp only [Moves.put_iff]
    | split

theorem State.sieveNote_moves {a s : State} (st : Nat) (f : Nat) (h : Moves a s) :
    Moves a (State.sieveNote s st f) := by
  unfold State.sieveNote
  repeat' first
    | with_reducible assumption
    | simp only [Moves.put_iff]
    | with_reducible apply Moves.foldl
    | intro _ _ _

theorem State.openNew_moves {a s : State} (st : Nat) (inferred : Bool) (h : Moves a s) :
    Moves a (State.openNew s st inferred) := by
  unfold State.openNew
  repeat' first
    | with_reducible assumption
    | with_reducible apply State.inc_moves
    | with_reducible apply State.wr_moves
    | with_reducible apply State.takeBuf_moves
    | with_reducible apply State.sieveNote_moves
    | with_reducible apply State.armedDue_moves
    | with_reducible apply State.bundlesAt_moves
    | with_reducible apply State.agJoin_moves
    | with_reducible apply State.bindWaiting_moves
    | simp only [Moves.put_iff]
    | split

theorem State.frameStart_moves {a s : State} (st : Nat) (h : Moves a s) :
    Moves a (State.frameStart s st) := by
  unfold State.frameStart
  repeat' first
    | with_reducible assumption
    | with_reducible apply State.openNew_moves
    | with_reducible apply State.frameEnd_moves

theorem State.header_moves {a s : State} (p : Nat) (hdr : Nat) (k : State → State) (h : Moves a s) (hk : ∀ y0, Moves a y0 → Moves a (k y0)) :
    Moves a (State.header s p hdr k) := by
  unfold State.header
  repeat' first
    | with_reducible assumption
    | with_reducible apply State.inc_moves
    | with_reducible apply hk
    | with_reducible apply Moves.ite

theorem State.judgeLine_moves {a s : State} (f : Frame) (flags : Nat) (h : Moves a s) :
    Moves a (State.judgeLine s f flags) := by
  unfold State.judgeLine
  repeat' first
    | with_reducible assumption
    | with_reducible apply State.updFrame_moves
    | with_reducible apply State.mark_moves
    | with_reducible apply State.inc_moves
    | with_reducible apply State.frameRetract_moves
    | with_reducible apply Moves.ite

theorem State.putLine_moves {a s : State} (f : Frame) (bs : List Byte) (flags : Nat) (rx : Nat) (h : Moves a s) :
    Moves a (State.putLine s f bs flags rx) := by
  unfold State.putLine
  repeat' first
    | with_reducible assumption
    | with_reducible apply State.poke_moves
    | with_reducible apply State.updBuf_moves
    | with_reducible apply State.updFrame_moves
    | with_reducible apply State.bufHeader_moves
    | simp only [Moves.put_iff]
    | split

theorem State.lineIn_moves {a s : State} (f : Frame) (pkt : List Byte) (crcOk : Bool) (corr : Bool) (h : Moves a s) :
    Moves a (State.lineIn s f pkt crcOk corr) := by
  unfold State.lineIn
  repeat' first
    | with_reducible assumption
    | with_reducible apply State.judgeCrc_moves
    | with_reducible apply State.inc_moves
    | with_reducible apply State.mark_moves
    | with_reducible apply State.frameRetract_moves
    | with_reducible apply State.takeBuf_moves
    | with_reducible apply State.dropLine_moves
    | with_reducible apply State.judgeLine_moves
    | with_reducible apply State.putLine_moves
    | simp only [Moves.put_iff]
    | split

theorem State.longPkt_moves {a s : State} (p : Nat) (k : Packet) (h : Moves a s) :
    Moves a (State.longPkt s p k) := by
  unfold State.longPkt
  repeat' first
    | with_reducible assumption
    | with_reducible apply State.inc_moves
    | with_reducible apply State.embIn_moves
    | with_reducible apply State.openNew_moves
    | with_reducible apply State.lineIn_moves
    | simp only [Moves.put_iff]
    | split

theorem State.shortPkt_moves {a s : State} (p : Nat) (vc : Nat) (vcx : Bool) (k : State → State) (h : Moves a s) (hk : ∀ y0, Moves a y0 → Moves a (k y0)) :
    Moves a (State.shortPkt s p vc vcx k) := by
  unfold State.shortPkt
  repeat' first
    | with_reducible assumption
    | with_reducible apply State.inc_moves
    | with_reducible apply hk
    | with_reducible apply Moves.ite

theorem execAgWindowClose_moves {a s : State} (g : Fin 4) (h : Moves a s) :
    ∃ t, execAgWindowClose g s = .next t ∧ Moves a t := by
  unfold execAgWindowClose
  refine ⟨_, rfl, ?_⟩
  repeat' first
    | with_reducible assumption
    | with_reducible apply State.agRelease_moves
    | split

theorem execBindHoldExpire_moves {a s : State} (cmd : Nat) (h : Moves a s) :
    ∃ t, execBindHoldExpire cmd s = .next t ∧ Moves a t := by
  unfold execBindHoldExpire
  refine ⟨_, rfl, ?_⟩
  repeat' first
    | with_reducible assumption
    | with_reducible apply State.dropHolds_moves

theorem execCaptureBind_moves {a s : State} (id : Nat) (h : Moves a s) :
    ∃ t, execCaptureBind id s = .next t ∧ Moves a t := by
  unfold execCaptureBind
  refine ⟨_, rfl, ?_⟩
  repeat' first
    | with_reducible assumption
    | with_reducible apply State.startAction_moves
    | with_reducible apply State.bindStart_moves

theorem execConfirmDeadline_moves {a s : State} (frame : BitVec 32) (h : Moves a s) :
    ∃ t, execConfirmDeadline frame s = .next t ∧ Moves a t := by
  unfold execConfirmDeadline
  refine ⟨_, rfl, ?_⟩
  repeat' first
    | with_reducible assumption
    | with_reducible apply State.confirmDeadline_moves

theorem execDomDisable_moves {a s : State} (v : Word) (h : Moves a s) :
    ∃ t, execDomDisable v s = .next t ∧ Moves a t := by
  unfold execDomDisable
  refine ⟨_, rfl, ?_⟩
  repeat' first
    | with_reducible assumption
    | with_reducible apply State.reach_moves
    | with_reducible apply State.domCfg_moves
    | with_reducible apply Moves.ite
    | intro _ _

theorem execDomEnable_moves {a s : State} (v : Word) (h : Moves a s) :
    ∃ t, execDomEnable v s = .next t ∧ Moves a t := by
  unfold execDomEnable
  refine ⟨_, rfl, ?_⟩
  repeat' first
    | with_reducible assumption
    | with_reducible apply State.reach_moves
    | with_reducible apply State.domCfg_moves
    | with_reducible apply Moves.ite
    | intro _ _

theorem execRefRelease_moves {a s : State} (port : Fin 16) (v : Word) (h : Moves a s) :
    ∃ t, execRefRelease port v s = .next t ∧ Moves a t := by
  unfold execRefRelease
  refine ⟨_, rfl, ?_⟩
  repeat' first
    | with_reducible assumption
    | with_reducible apply State.reach_moves
    | with_reducible apply State.refRelease_moves
    | intro _ _

theorem execStreamEnable_moves {a s : State} (port : Fin 16) (vc : Fin 4) (v : Word) (h : Moves a s) :
    ∃ t, execStreamEnable port vc v s = .next t ∧ Moves a t := by
  unfold execStreamEnable
  refine ⟨_, rfl, ?_⟩
  repeat' first
    | with_reducible assumption
    | with_reducible apply State.reach_moves
    | with_reducible apply State.strWrite_moves
    | intro _ _

end Sys2Proof.Machine
end

