-- ==== Sys2Proof/Laws/MovesClk.lean ====
section
/-! SUPPORT. What each operation of Machine/Clk.lean may do to the stores and the queue (Safety.lean, Moves): one lemma for each. -/

namespace Sys2Proof.Machine

open Host Sys2Proof

theorem State.pllTargetWrite_moves {a s : State} (n : Nat) (v : Nat) (h : Moves a s) :
    Moves a (State.pllTargetWrite s n v) := by
  unfold State.pllTargetWrite
  repeat' first
    | with_reducible assumption
    | with_reducible apply State.wr_moves
    | with_reducible apply State.accFault_moves
    | with_reducible apply Moves.ite

theorem State.breachSync_moves {a s : State} (h : Moves a s) :
    Moves a (State.breachSync s) := by
  unfold State.breachSync
  repeat' first
    | with_reducible assumption
    | with_reducible apply State.raise_moves
    | with_reducible apply State.wrB_moves
    | with_reducible apply Moves.ite

theorem State.pllBypass_moves {a s : State} (n : Nat) (h : Moves a s) :
    Moves a (State.pllBypass s n) := by
  unfold State.pllBypass
  repeat' first
    | with_reducible assumption
    | with_reducible apply State.wr_moves
    | with_reducible apply State.wrB_moves

theorem State.pllRelock_moves {a s : State} (n : Nat) (h : Moves a s) :
    Moves a (State.pllRelock s n) := by
  unfold State.pllRelock
  repeat' first
    | with_reducible assumption
    | with_reducible apply State.breachSync_moves
    | with_reducible apply State.pllBypass_moves
    | simp only [Moves.put_iff]

theorem State.mclkTargetWrite_moves {a s : State} (n : Nat) (v : Nat) (h : Moves a s) :
    Moves a (State.mclkTargetWrite s n v) := by
  unfold State.mclkTargetWrite
  repeat' first
    | with_reducible assumption
    | with_reducible apply State.wrB_moves
    | with_reducible apply State.wr_moves
    | with_reducible apply State.raise_moves
    | with_reducible apply Moves.ite

theorem State.mclkSlewDone_moves {a s : State} (n : Nat) (h : Moves a s) :
    Moves a (State.mclkSlewDone s n) := by
  unfold State.mclkSlewDone
  repeat' first
    | with_reducible assumption
    | with_reducible apply State.wr_moves
    | with_reducible apply Moves.ite

theorem State.pllBypassEnd_moves {a s : State} (n : Nat) (h : Moves a s) :
    Moves a (State.pllBypassEnd s n) := by
  unfold State.pllBypassEnd
  repeat' first
    | with_reducible assumption
    | with_reducible apply State.wr_moves
    | with_reducible apply Moves.ite
    | simp only [Moves.put_iff]

theorem State.pllFault_moves {a s : State} (n : Nat) (h : Moves a s) :
    Moves a (State.pllFault s n) := by
  unfold State.pllFault
  repeat' first
    | with_reducible assumption
    | with_reducible apply State.breachSync_moves
    | with_reducible apply State.wr_moves
    | with_reducible apply Moves.ite
    | simp only [Moves.put_iff]

theorem State.pllLock_moves {a s : State} (n : Nat) (h : Moves a s) :
    Moves a (State.pllLock s n) := by
  unfold State.pllLock
  repeat' first
    | with_reducible assumption
    | with_reducible apply State.wr_moves
    | with_reducible apply Moves.ite
    | simp only [Moves.put_iff]

theorem execMclkSlewDone_moves {a s : State} (n : Fin 8) (h : Moves a s) :
    ∃ t, execMclkSlewDone n s = .next t ∧ Moves a t := by
  unfold execMclkSlewDone
  refine ⟨_, rfl, ?_⟩
  repeat' first
    | with_reducible assumption
    | with_reducible apply State.mclkSlewDone_moves

theorem execMclkTargetWrite_moves {a s : State} (n : Fin 8) (v : Word) (h : Moves a s) :
    ∃ t, execMclkTargetWrite n v s = .next t ∧ Moves a t := by
  unfold execMclkTargetWrite
  refine ⟨_, rfl, ?_⟩
  repeat' first
    | with_reducible assumption
    | with_reducible apply State.reach_moves
    | with_reducible apply State.mclkTargetWrite_moves
    | intro _ _

theorem execPllBypassEnd_moves {a s : State} (n : Fin 5) (h : Moves a s) :
    ∃ t, execPllBypassEnd n s = .next t ∧ Moves a t := by
  unfold execPllBypassEnd
  refine ⟨_, rfl, ?_⟩
  repeat' first
    | with_reducible assumption
    | with_reducible apply State.pllBypassEnd_moves

theorem execPllFault_moves {a s : State} (n : Fin 5) (h : Moves a s) :
    ∃ t, execPllFault n s = .next t ∧ Moves a t := by
  unfold execPllFault
  refine ⟨_, rfl, ?_⟩
  repeat' first
    | with_reducible assumption
    | with_reducible apply State.pllFault_moves

theorem execPllLock_moves {a s : State} (n : Fin 5) (h : Moves a s) :
    ∃ t, execPllLock n s = .next t ∧ Moves a t := by
  unfold execPllLock
  refine ⟨_, rfl, ?_⟩
  repeat' first
    | with_reducible assumption
    | with_reducible apply State.pllLock_moves

theorem execPllRelock_moves {a s : State} (n : Fin 5) (h : Moves a s) :
    ∃ t, execPllRelock n s = .next t ∧ Moves a t := by
  unfold execPllRelock
  refine ⟨_, rfl, ?_⟩
  repeat' first
    | with_reducible assumption
    | with_reducible apply State.reach_moves
    | with_reducible apply State.pllRelock_moves
    | intro _ _

theorem execPllTargetWrite_moves {a s : State} (n : Fin 5) (v : Word) (h : Moves a s) :
    ∃ t, execPllTargetWrite n v s = .next t ∧ Moves a t := by
  unfold execPllTargetWrite
  refine ⟨_, rfl, ?_⟩
  repeat' first
    | with_reducible assumption
    | with_reducible apply State.reach_moves
    | with_reducible apply State.pllTargetWrite_moves
    | intro _ _

end Sys2Proof.Machine
end

