-- ==== Sys2Proof/Laws/MovesMandoline.lean ====
section
/-! SUPPORT. What each operation of Machine/Mandoline.lean may do to the stores and the queue (Safety.lean, Moves): one lemma for each. -/

namespace Sys2Proof.Machine

open Host Sys2Proof

theorem State.mdSync_moves {a s : State} (h : Moves a s) :
    Moves a (State.mdSync s) := by
  unfold State.mdSync
  repeat' first
    | with_reducible assumption
    | with_reducible apply State.wrB_moves

theorem State.svSweep_moves {a s : State} (h : Moves a s) :
    Moves a (State.svSweep s) := by
  unfold State.svSweep
  repeat' first
    | with_reducible assumption
    | simp only [Moves.put_iff]

theorem State.notify_moves {a s : State} (v1 : Nat) (v : Nat) (h : Moves a s) :
    Moves a (State.notify s v1 v) := by
  unfold State.notify
  repeat' first
    | with_reducible assumption
    | simp only [Moves.put_iff]

theorem State.bandNotify_moves {a s : State} (p : Nat) (j : Nat) (k : Nat) (abandoned : Bool) (h : Moves a s) :
    Moves a (State.bandNotify s p j k abandoned) := by
  unfold State.bandNotify
  repeat' first
    | with_reducible assumption
    | with_reducible apply State.notify_moves
    | with_reducible apply Moves.ite

theorem State.tbufHeader_moves {a s : State} (b : TBuf) (h : Moves a s) :
    Moves a (State.tbufHeader s b) := by
  unfold State.tbufHeader
  repeat' first
    | with_reducible assumption
    | with_reducible apply State.poke_moves

theorem State.updTBuf_moves {a s : State} (p : Nat) (i : Nat) (f : TBuf → TBuf) (h : Moves a s) :
    Moves a (State.updTBuf s p i f) := by
  unfold State.updTBuf
  repeat' first
    | with_reducible assumption
    | simp only [Moves.put_iff]

theorem State.mdFinish_moves {a s : State} (v : Nat) (c : Nat) (n : Nat) (f : Nat) (h : Moves a s) :
    Moves a (State.mdFinish s v c n f) := by
  unfold State.mdFinish
  repeat' first
    | with_reducible assumption
    | with_reducible apply State.svSweep_moves
    | with_reducible apply Moves.ite
    | simp only [Moves.put_iff]

theorem State.tbufHold_moves {a s : State} (b : TBuf) (h : Moves a s) :
    Moves a (State.tbufHold s b) := by
  unfold State.tbufHold
  repeat' first
    | with_reducible assumption
    | with_reducible apply State.updTBuf_moves

theorem State.tbufDrop_moves {a s : State} (b : TBuf) (h : Moves a s) :
    Moves a (State.tbufDrop s b) := by
  unfold State.tbufDrop
  repeat' first
    | with_reducible assumption
    | with_reducible apply State.raise_moves
    | with_reducible apply State.inc_moves
    | with_reducible apply State.tbufHeader_moves
    | with_reducible apply State.updTBuf_moves
    | with_reducible apply State.bandNotify_moves
    | with_reducible apply State.mdFinish_moves
    | with_reducible apply State.tbufHold_moves
    | with_reducible apply Moves.foldl
    | intro _ _

theorem State.bandDone_moves {a s : State} (h : Moves a s) :
    Moves a (State.bandDone s) := by
  unfold State.bandDone
  repeat' first
    | with_reducible assumption
    | with_reducible apply State.mdSync_moves
    | with_reducible apply State.svSweep_moves
    | with_reducible apply State.inc_moves
    | with_reducible apply State.poke_moves
    | with_reducible apply State.bandNotify_moves
    | with_reducible apply State.raise_moves
    | with_reducible apply State.tbufHeader_moves
    | with_reducible apply State.updTBuf_moves
    | with_reducible apply State.mdFinish_moves
    | with_reducible apply State.tbufHold_moves
    | with_reducible apply State.tbufDrop_moves
    | simp only [Moves.put_iff]
    | with_reducible apply Moves.foldl
    | intro _ _
    | split

theorem State.bandStart_moves {a s : State} (h : Moves a s) :
    Moves a (State.bandStart s) := by
  unfold State.bandStart
  repeat' first
    | with_reducible assumption
    | with_reducible apply State.mdSync_moves
    | simp only [Moves.put_iff]
    | split

theorem State.mdGiveUp_moves {a s : State} (b : TBuf) (h : Moves a s) :
    Moves a (State.mdGiveUp s b) := by
  unfold State.mdGiveUp
  repeat' first
    | with_reducible assumption
    | with_reducible apply State.tbufDrop_moves
    | with_reducible apply Moves.ite
    | simp only [Moves.put_iff]

theorem State.pgDisable_moves {a s : State} (p : Nat) (h : Moves a s) :
    Moves a (State.pgDisable s p) := by
  unfold State.pgDisable
  repeat' first
    | with_reducible assumption
    | with_reducible apply State.mdGiveUp_moves
    | with_reducible apply State.wr_moves
    | simp only [Moves.put_iff]
    | with_reducible apply Moves.foldl

theorem State.pgEnable_moves {a s : State} (p : Nat) (h : Moves a s) :
    Moves a (State.pgEnable s p) := by
  unfold State.pgEnable
  repeat' first
    | with_reducible assumption
    | with_reducible apply State.wr_moves
    | simp only [Moves.put_iff]
    | split

theorem State.pgCtrl_moves {a s0 : State} (p : Nat) (v : Nat) (hs0 : Moves a s0) :
    Moves a (State.pgCtrl s0 p v) := by
  unfold State.pgCtrl
  repeat' first
    | with_reducible assumption
    | with_reducible apply State.lockWord_moves
    | with_reducible apply State.pgDisable_moves
    | with_reducible apply State.wr_moves
    | with_reducible apply State.pgEnable_moves
    | with_reducible apply Moves.ite

theorem State.holdDrop_moves {a s : State} (q : TBuf → Bool) (h : Moves a s) :
    Moves a (State.holdDrop s q) := by
  unfold State.holdDrop
  repeat' first
    | with_reducible assumption
    | simp only [Moves.put_iff]

theorem State.pgRelease_moves {a s : State} (p : Nat) (v : Nat) (h : Moves a s) :
    Moves a (State.pgRelease s p v) := by
  unfold State.pgRelease
  repeat' first
    | with_reducible assumption
    | with_reducible apply State.holdDrop_moves

theorem State.jqTail_moves {a s : State} (q : Nat) (v : Nat) (h : Moves a s) :
    Moves a (State.jqTail s q v) := by
  unfold State.jqTail
  repeat' first
    | with_reducible assumption
    | with_reducible apply State.wr_moves
    | with_reducible apply State.raise_moves
    | with_reducible apply State.inc_moves
    | with_reducible apply Moves.ite

theorem State.setSvCtx_moves {a s : State} (x : SvCtx) (h : Moves a s) :
    Moves a (State.setSvCtx s x) := by
  unfold State.setSvCtx
  repeat' first
    | with_reducible assumption
    | simp only [Moves.put_iff]

theorem State.mdAbandon_moves {a s : State} (v : Nat) (c : Nat) (f : Nat) (h : Moves a s) :
    Moves a (State.mdAbandon s v c f) := by
  unfold State.mdAbandon
  repeat' first
    | with_reducible assumption
    | with_reducible apply State.mdGiveUp_moves
    | with_reducible apply Moves.foldl

theorem State.bindShedNow_moves {a s : State} (id : Nat) (h : Moves a s) :
    Moves a (State.bindShedNow s id) := by
  unfold State.bindShedNow
  repeat' first
    | with_reducible assumption
    | with_reducible apply State.close_moves
    | with_reducible apply State.inc_moves
    | split

theorem State.setJob_moves {a s : State} (j : MdJob) (h : Moves a s) :
    Moves a (State.setJob s j) := by
  unfold State.setJob
  repeat' first
    | with_reducible assumption
    | simp only [Moves.put_iff]

theorem State.itemStop_moves {a s : State} (j : MdJob) (r : Nat) (h : Moves a s) :
    Moves a (State.itemStop s j r) := by
  unfold State.itemStop
  repeat' first
    | with_reducible assumption
    | with_reducible apply State.setJob_moves
    | simp only [Moves.put_iff]

theorem State.unitWrite_moves {a s : State} (v1 : Nat) (bs : List Byte) (h : Moves a s) :
    Moves a (State.unitWrite s v1 bs).1 := by
  unfold State.unitWrite
  repeat' first
    | with_reducible assumption
    | with_reducible apply State.guardRefuse_moves
    | with_reducible apply State.cmdWrite_moves
    | split

theorem State.unitWrites_moves {a s : State} (v1 : List (Nat × List Byte)) (h : Moves a s) :
    Moves a (State.unitWrites s v1).1 := by
  induction v1 generalizing s with
  | nil => unfold State.unitWrites; exact h
  | cons x t ih =>
    unfold State.unitWrites
    repeat' first
      | with_reducible assumption
      | with_reducible apply ih
      | with_reducible apply State.unitWrite_moves
      | simp only [Moves.put_iff]
      | split

theorem State.itemDone_moves {a s : State} (j : MdJob) (code : Nat) (h : Moves a s) :
    Moves a (State.itemDone s j code) := by
  unfold State.itemDone
  repeat' first
    | with_reducible assumption
    | with_reducible apply State.setJob_moves
    | simp only [Moves.put_iff]

theorem State.crop_moves {a s : State} (h : Moves a s) :
    Moves a (State.crop s) := by
  unfold State.crop
  repeat' first
    | with_reducible assumption
    | with_reducible apply State.itemStop_moves
    | with_reducible apply State.guardRefuse_moves
    | with_reducible apply State.addrFault_moves
    | with_reducible apply State.unitWrites_moves
    | with_reducible apply State.inc_moves
    | with_reducible apply State.itemDone_moves
    | simp only [Moves.put_iff]
    | split

theorem State.unitRead_moves {a s : State} (v1 : Nat) (n : Nat) (h : Moves a s) :
    Moves a (State.unitRead s v1 n).1 := by
  unfold State.unitRead
  repeat' first
    | with_reducible assumption
    | with_reducible apply State.skRead_moves
    | with_reducible apply State.badAccess_moves
    | with_reducible apply State.guardRefuse_moves
    | with_reducible apply State.noteRead_moves
    | split

theorem State.decodeRecord_moves {a s : State} (h : Moves a s) :
    Moves a (State.decodeRecord s) := by
  unfold State.decodeRecord
  repeat' first
    | with_reducible assumption
    | with_reducible apply State.unitRead_moves
    | with_reducible apply State.itemStop_moves
    | with_reducible apply State.inc_moves
    | with_reducible apply State.unitWrite_moves
    | with_reducible apply State.itemDone_moves
    | simp only [Moves.put_iff]
    | split
    | (refine Moves.fstEq (by with_reducible assumption) ?_)

theorem State.mdStale_moves {a s : State} (f : Nat) (h : Moves a s) :
    Moves a (State.mdStale s f) := by
  unfold State.mdStale
  repeat' first
    | with_reducible assumption
    | with_reducible apply State.mdGiveUp_moves
    | with_reducible apply Moves.foldl

theorem State.jobNotify_moves {a s : State} (q : Nat) (n : Nat) (r : Nat) (h : Moves a s) :
    Moves a (State.jobNotify s q n r) := by
  unfold State.jobNotify
  repeat' first
    | with_reducible assumption
    | with_reducible apply State.notify_moves
    | with_reducible apply Moves.ite

theorem State.jobEnd_moves {a s : State} (q : Nat) (h : Moves a s) :
    Moves a (State.jobEnd s q) := by
  unfold State.jobEnd
  repeat' first
    | with_reducible assumption
    | with_reducible apply State.unitWrites_moves
    | with_reducible apply State.poke_moves
    | with_reducible apply State.wr_moves
    | with_reducible apply State.jobNotify_moves
    | with_reducible apply State.raise_moves
    | simp only [Moves.put_iff]
    | split

theorem State.jobRun_moves {a s : State} (j : MdJob) (h : Moves a s) :
    Moves a (State.jobRun s j) := by
  unfold State.jobRun
  repeat' first
    | with_reducible assumption
    | with_reducible apply State.setJob_moves
    | with_reducible apply State.unitRead_moves
    | simp only [Moves.put_iff]
    | split
    | (refine Moves.fstEq (by with_reducible assumption) ?_)

theorem State.jobStart_moves {a s : State} (q : Nat) (h : Moves a s) :
    Moves a (State.jobStart s q) := by
  unfold State.jobStart
  repeat' first
    | with_reducible assumption
    | with_reducible apply State.unitRead_moves
    | with_reducible apply State.setJob_moves
    | with_reducible apply State.jobRun_moves
    | simp only [Moves.put_iff]
    | split
    | (refine Moves.fstEq (by with_reducible assumption) ?_)

theorem State.jobRetract_moves {a s : State} (h : Moves a s) :
    Moves a (State.jobRetract s) := by
  unfold State.jobRetract
  repeat' first
    | with_reducible assumption
    | with_reducible apply State.jobStart_moves
    | with_reducible apply Moves.foldl
    | intro _ _ _
    | split

theorem State.mdTakeOne_moves {a s : State} (f : Nat) (g : MdProg) (h : Moves a s) :
    Moves a (State.mdTakeOne s f g) := by
  unfold State.mdTakeOne
  repeat' first
    | with_reducible assumption
    | with_reducible apply State.raise_moves
    | with_reducible apply State.inc_moves
    | with_reducible apply State.wr_moves
    | with_reducible apply State.tbufHeader_moves
    | with_reducible apply Moves.ite
    | simp only [Moves.put_iff]

theorem State.mdTake_moves {a s : State} (v : Nat) (c : Nat) (f : Nat) (h : Moves a s) :
    Moves a (State.mdTake s v c f) := by
  unfold State.mdTake
  repeat' first
    | with_reducible assumption
    | with_reducible apply State.mdTakeOne_moves
    | with_reducible apply Moves.foldl
    | intro _ _

theorem State.pgReady_moves {a s : State} (p : Nat) (h : Moves a s) :
    Moves a (State.pgReady s p) := by
  unfold State.pgReady
  repeat' first
    | with_reducible assumption
    | with_reducible apply State.raise_moves
    | with_reducible apply State.wr_moves
    | with_reducible apply Moves.ite

theorem execBandStart_moves {a s : State} (h : Moves a s) :
    ∃ t, execBandStart s = .next t ∧ Moves a t := by
  unfold execBandStart
  refine ⟨_, rfl, ?_⟩
  repeat' first
    | with_reducible assumption
    | with_reducible apply State.bandStart_moves

theorem execBindShed_moves {a s : State} (id : Nat) (h : Moves a s) :
    ∃ t, execBindShed id s = .next t ∧ Moves a t := by
  unfold execBindShed
  refine ⟨_, rfl, ?_⟩
  repeat' first
    | with_reducible assumption
    | with_reducible apply State.bindShedNow_moves

theorem execCrop_moves {a s : State} (h : Moves a s) :
    ∃ t, execCrop s = .next t ∧ Moves a t := by
  unfold execCrop
  refine ⟨_, rfl, ?_⟩
  repeat' first
    | with_reducible assumption
    | with_reducible apply State.crop_moves

theorem execDecodeRecord_moves {a s : State} (h : Moves a s) :
    ∃ t, execDecodeRecord s = .next t ∧ Moves a t := by
  unfold execDecodeRecord
  refine ⟨_, rfl, ?_⟩
  repeat' first
    | with_reducible assumption
    | with_reducible apply State.decodeRecord_moves

theorem execJobStart_moves {a s : State} (q : Fin 4) (h : Moves a s) :
    ∃ t, execJobStart q s = .next t ∧ Moves a t := by
  unfold execJobStart
  refine ⟨_, rfl, ?_⟩
  repeat' first
    | with_reducible assumption
    | with_reducible apply State.jobStart_moves

theorem execJqTail_moves {a s : State} (q : Fin 4) (v : Word) (h : Moves a s) :
    ∃ t, execJqTail q v s = .next t ∧ Moves a t := by
  unfold execJqTail
  refine ⟨_, rfl, ?_⟩
  repeat' first
    | with_reducible assumption
    | with_reducible apply State.reach_moves
    | with_reducible apply State.jqTail_moves
    | intro _ _

theorem execPgHoldExpire_moves {a s : State} (p : Fin 16) (i : Fin 16) (h : Moves a s) :
    ∃ t, execPgHoldExpire p i s = .next t ∧ Moves a t := by
  unfold execPgHoldExpire
  refine ⟨_, rfl, ?_⟩
  repeat' first
    | with_reducible assumption
    | with_reducible apply State.holdDrop_moves

theorem execPgReady_moves {a s : State} (p : Fin 16) (h : Moves a s) :
    ∃ t, execPgReady p s = .next t ∧ Moves a t := by
  unfold execPgReady
  refine ⟨_, rfl, ?_⟩
  repeat' first
    | with_reducible assumption
    | with_reducible apply State.pgReady_moves

theorem execPgRel_moves {a s : State} (p : Fin 16) (v : Word) (h : Moves a s) :
    ∃ t, execPgRel p v s = .next t ∧ Moves a t := by
  unfold execPgRel
  refine ⟨_, rfl, ?_⟩
  repeat' first
    | with_reducible assumption
    | with_reducible apply State.reach_moves
    | with_reducible apply State.pgRelease_moves
    | intro _ _

end Sys2Proof.Machine
end

