-- ==== Sys2Proof/Laws/MovesCompositor.lean ====
section
/-! SUPPORT. What each operation of Machine/Compositor.lean may do to the stores and the queue (Safety.lean, Moves): one lemma for each. -/

namespace Sys2Proof.Machine

open Host Sys2Proof

theorem State.setEncSes_moves {a s : State} (x : EncSes) (h : Moves a s) :
    Moves a (State.setEncSes s x) := by
  unfold State.setEncSes
  repeat' first
    | with_reducible assumption
    | with_reducible apply State.wr_moves
    | simp only [Moves.put_iff]

theorem State.setCompOut_moves {a s : State} (x : CompOut) (h : Moves a s) :
    Moves a (State.setCompOut s x) := by
  unfold State.setCompOut
  repeat' first
    | with_reducible assumption
    | simp only [Moves.put_iff]

theorem State.cpSync_moves {a s : State} (o : Nat) (h : Moves a s) :
    Moves a (State.cpSync s o) := by
  unfold State.cpSync
  repeat' first
    | with_reducible assumption
    | with_reducible apply State.wrB_moves
    | with_reducible apply Moves.foldl
    | intro _ _ _

theorem State.ocDisable_moves {a s : State} (o : Nat) (h : Moves a s) :
    Moves a (State.ocDisable s o) := by
  unfold State.ocDisable
  repeat' first
    | with_reducible assumption
    | with_reducible apply State.wr_moves
    | with_reducible apply State.wrB_moves
    | with_reducible apply State.setCompOut_moves
    | with_reducible apply State.cpSync_moves
    | simp only [Moves.put_iff]
    | with_reducible apply Moves.foldl
    | intro _ _ _

theorem State.ocCtrl_moves {a s0 : State} (o : Nat) (v : Nat) (hs0 : Moves a s0) :
    Moves a (State.ocCtrl s0 o v) := by
  unfold State.ocCtrl
  repeat' first
    | with_reducible assumption
    | with_reducible apply State.lockWord_moves
    | with_reducible apply State.ocDisable_moves
    | with_reducible apply State.wr_moves
    | with_reducible apply State.cpSync_moves
    | with_reducible apply State.setCompOut_moves
    | with_reducible apply State.raise_moves
    | with_reducible apply Moves.ite

theorem State.maskReload_moves {a s : State} (o : Nat) (v : Nat) (h : Moves a s) :
    Moves a (State.maskReload s o v) := by
  unfold State.maskReload
  repeat' first
    | with_reducible assumption
    | with_reducible apply State.setCompOut_moves
    | with_reducible apply Moves.ite

theorem State.lyPost_moves {a s : State} (o : Nat) (l : Nat) (v : Nat) (h : Moves a s) :
    Moves a (State.lyPost s o l v) := by
  unfold State.lyPost
  repeat' first
    | with_reducible assumption
    | with_reducible apply State.cpSync_moves
    | with_reducible apply State.setCompOut_moves

theorem State.baseDrop_moves {a s : State} (p : SvBuf → Bool) (h : Moves a s) :
    Moves a (State.baseDrop s p) := by
  unfold State.baseDrop
  repeat' first
    | with_reducible assumption
    | with_reducible apply State.svSweep_moves
    | simp only [Moves.put_iff]

theorem State.baseRelease_moves {a s : State} (f : Nat) (h : Moves a s) :
    Moves a (State.baseRelease s f) := by
  unfold State.baseRelease
  repeat' first
    | with_reducible assumption
    | with_reducible apply State.baseDrop_moves

theorem State.staticMask_moves {a s : State} (o : Nat) (h : Moves a s) :
    Moves a (State.staticMask s o) := by
  unfold State.staticMask
  repeat' first
    | with_reducible assumption
    | with_reducible apply State.setCompOut_moves
    | simp only [Moves.put_iff]
    | split

theorem State.dropLate_moves {a s : State} (o : Nat) (h : Moves a s) :
    Moves a (State.dropLate s o) := by
  unfold State.dropLate
  repeat' first
    | with_reducible assumption
    | with_reducible apply State.raise_moves
    | with_reducible apply State.inc_moves
    | with_reducible apply Moves.ite
    | simp only [Moves.put_iff]

theorem State.takePic_moves {a s : State} (p : CompPic) (k : State → State) (h : Moves a s) (hk : ∀ y0, Moves a y0 → Moves a (k y0)) :
    Moves a (State.takePic s p k) := by
  unfold State.takePic
  repeat' first
    | with_reducible assumption
    | with_reducible apply State.raise_moves
    | with_reducible apply State.inc_moves
    | with_reducible apply hk
    | simp only [Moves.put_iff]
    | split

theorem State.emitBlank_moves {a s : State} (o : Nat) (b : Nat) (h : Moves a s) :
    Moves a (State.emitBlank s o b) := by
  unfold State.emitBlank
  repeat' first
    | with_reducible assumption
    | with_reducible apply State.takePic_moves
    | with_reducible apply State.raise_moves
    | with_reducible apply State.inc_moves
    | intro _ _

theorem State.encOffer_moves {a s : State} (n : Nat) (p : CompPic) (h : Moves a s) :
    Moves a (State.encOffer s n p) := by
  unfold State.encOffer
  repeat' first
    | with_reducible assumption
    | with_reducible apply State.setEncSes_moves
    | with_reducible apply State.raise_moves
    | with_reducible apply State.inc_moves
    | with_reducible apply Moves.ite

theorem State.emitPic_moves {a s : State} (p : CompPic) (h : Moves a s) :
    Moves a (State.emitPic s p) := by
  unfold State.emitPic
  repeat' first
    | with_reducible assumption
    | with_reducible apply State.encOffer_moves
    | with_reducible apply Moves.foldl
    | intro _ _

theorem State.holdOrBlank_moves {a s : State} (o : Nat) (b : Nat) (h : Moves a s) :
    Moves a (State.holdOrBlank s o b) := by
  unfold State.holdOrBlank
  repeat' first
    | with_reducible assumption
    | with_reducible apply State.raise_moves
    | with_reducible apply State.inc_moves
    | with_reducible apply State.setCompOut_moves
    | with_reducible apply State.emitPic_moves
    | with_reducible apply State.emitBlank_moves
    | simp only [Moves.put_iff]
    | split

theorem State.layerStep_moves {a s : State} (o : Nat) (l : Nat) (posted : List (Nat × Nat)) (acc : List (Nat × Nat) × Bool) (h : Moves a s) :
    Moves a (State.layerStep s o l posted acc).1 := by
  unfold State.layerStep
  repeat' first
    | with_reducible assumption
    | with_reducible apply State.inc_moves
    | with_reducible apply State.wr_moves
    | simp only [Moves.put_iff]
    | split

theorem State.layersOf_moves {a s : State} (o : Nat) (posted : List (Nat × Nat)) (h : Moves a s) :
    Moves a (State.layersOf s o posted).1 := by
  unfold State.layersOf
  repeat' first
    | with_reducible assumption
    | with_reducible apply State.layerStep_moves
    | simp only [Moves.put_iff]
    | split

theorem State.skipOlder_moves {a s : State} (o : Nat) (b : SvBuf) (h : Moves a s) :
    Moves a (State.skipOlder s o b) := by
  unfold State.skipOlder
  repeat' first
    | with_reducible assumption
    | with_reducible apply State.inc_moves
    | with_reducible apply State.baseDrop_moves

theorem State.composePic_moves {a s : State} (o : Nat) (bg : Nat) (b : SvBuf) (m : Option (List Byte)) (ls : List (Nat × Nat) × Bool) (posted : List (Nat × Nat)) (h : Moves a s) :
    Moves a (State.composePic s o bg b m ls posted) := by
  unfold State.composePic
  repeat' first
    | with_reducible assumption
    | with_reducible apply State.takePic_moves
    | with_reducible apply State.skipOlder_moves
    | with_reducible apply State.setCompOut_moves
    | with_reducible apply State.wr_moves
    | with_reducible apply Moves.foldl
    | intro _ _ _
    | intro _ _

theorem State.judgePic_moves {a s : State} (o : Nat) (bg : Nat) (posted : List (Nat × Nat)) (h : Moves a s) :
    Moves a (State.judgePic s o bg posted) := by
  unfold State.judgePic
  repeat' first
    | with_reducible assumption
    | with_reducible apply State.raise_moves
    | with_reducible apply State.emitBlank_moves
    | with_reducible apply State.holdOrBlank_moves
    | with_reducible apply State.inc_moves
    | with_reducible apply State.layersOf_moves
    | with_reducible apply State.composePic_moves
    | simp only [Moves.put_iff]
    | split

theorem State.compBoundary_moves {a s : State} (o : Nat) (h : Moves a s) :
    Moves a (State.compBoundary s o) := by
  unfold State.compBoundary
  repeat' first
    | with_reducible assumption
    | with_reducible apply State.staticMask_moves
    | with_reducible apply State.dropLate_moves
    | with_reducible apply State.setCompOut_moves
    | with_reducible apply State.cpSync_moves
    | with_reducible apply State.judgePic_moves
    | simp only [Moves.put_iff]
    | split

theorem State.pictureDone_moves {a s : State} (h : Moves a s) :
    Moves a (State.pictureDone s) := by
  unfold State.pictureDone
  repeat' first
    | with_reducible assumption
    | with_reducible apply State.raise_moves
    | with_reducible apply State.inc_moves
    | with_reducible apply State.baseDrop_moves
    | with_reducible apply State.emitPic_moves
    | with_reducible apply State.wr_moves
    | simp only [Moves.put_iff]
    | with_reducible apply Moves.foldl
    | split

theorem State.pictureStart_moves {a s : State} (h : Moves a s) :
    Moves a (State.pictureStart s) := by
  unfold State.pictureStart
  repeat' first
    | with_reducible assumption
    | with_reducible apply State.poke_moves
    | with_reducible apply State.wr_moves
    | with_reducible apply State.setCompOut_moves
    | simp only [Moves.put_iff]
    | split

theorem execCompOutputEnable_moves {a s : State} (o : Fin 8) (v : Word) (h : Moves a s) :
    ∃ t, execCompOutputEnable o v s = .next t ∧ Moves a t := by
  unfold execCompOutputEnable
  refine ⟨_, rfl, ?_⟩
  repeat' first
    | with_reducible assumption
    | with_reducible apply State.reach_moves
    | with_reducible apply State.ocCtrl_moves
    | intro _ _

theorem execCompositorBoundary_moves {a s : State} (o : Fin 8) (h : Moves a s) :
    ∃ t, execCompositorBoundary o s = .next t ∧ Moves a t := by
  unfold execCompositorBoundary
  refine ⟨_, rfl, ?_⟩
  repeat' first
    | with_reducible assumption
    | with_reducible apply State.compBoundary_moves

theorem execLyPost_moves {a s : State} (o : Fin 8) (l : Fin 2) (v : Word) (h : Moves a s) :
    ∃ t, execLyPost o l v s = .next t ∧ Moves a t := by
  unfold execLyPost
  refine ⟨_, rfl, ?_⟩
  repeat' first
    | with_reducible assumption
    | with_reducible apply State.reach_moves
    | with_reducible apply State.lyPost_moves
    | intro _ _

theorem execMaskReload_moves {a s : State} (o : Fin 8) (v : Word) (h : Moves a s) :
    ∃ t, execMaskReload o v s = .next t ∧ Moves a t := by
  unfold execMaskReload
  refine ⟨_, rfl, ?_⟩
  repeat' first
    | with_reducible assumption
    | with_reducible apply State.reach_moves
    | with_reducible apply State.maskReload_moves
    | intro _ _

theorem execPictureDone_moves {a s : State} (h : Moves a s) :
    ∃ t, execPictureDone s = .next t ∧ Moves a t := by
  unfold execPictureDone
  refine ⟨_, rfl, ?_⟩
  repeat' first
    | with_reducible assumption
    | with_reducible apply State.pictureDone_moves

theorem execPictureStart_moves {a s : State} (h : Moves a s) :
    ∃ t, execPictureStart s = .next t ∧ Moves a t := by
  unfold execPictureStart
  refine ⟨_, rfl, ?_⟩
  repeat' first
    | with_reducible assumption
    | with_reducible apply State.pictureStart_moves

end Sys2Proof.Machine
end

