-- ==== Sys2Proof/Laws/MovesEncoder.lean ====
section
/-! SUPPORT. What each operation of Machine/Encoder.lean may do to the stores and the queue (Safety.lean, Moves): one lemma for each. -/

namespace Sys2Proof.Machine

open Host Sys2Proof

theorem State.auWrite_moves {a s : State} (n : Nat) (len : Nat) (qp : Nat) (ty : Nat) (p : CompPic) (h : Moves a s) :
    Moves a (State.auWrite s n len qp ty p) := by
  unfold State.auWrite
  repeat' first
    | with_reducible assumption
    | with_reducible apply State.raise_moves
    | with_reducible apply State.inc_moves
    | with_reducible apply State.setEncSes_moves
    | with_reducible apply State.poke_moves
    | with_reducible apply State.wr_moves
    | with_reducible apply Moves.ite
    | simp only [Moves.put_iff]

theorem State.esCfg_moves {a s0 : State} (n : Nat) (v : Nat) (hs0 : Moves a s0) :
    Moves a (State.esCfg s0 n v) := by
  unfold State.esCfg
  repeat' first
    | with_reducible assumption
    | with_reducible apply State.lockWord_moves
    | with_reducible apply State.wr_moves
    | with_reducible apply State.setEncSes_moves
    | with_reducible apply State.raise_moves
    | with_reducible apply Moves.ite

theorem State.bsRd_moves {a s : State} (n : Nat) (v : Nat) (h : Moves a s) :
    Moves a (State.bsRd s n v) := by
  unfold State.bsRd
  repeat' first
    | with_reducible assumption
    | with_reducible apply State.wr_moves
    | with_reducible apply State.raise_moves
    | with_reducible apply State.inc_moves
    | with_reducible apply Moves.ite

theorem State.forceIdr_moves {a s : State} (n : Nat) (v : Nat) (h : Moves a s) :
    Moves a (State.forceIdr s n v) := by
  unfold State.forceIdr
  repeat' first
    | with_reducible assumption
    | with_reducible apply State.setEncSes_moves
    | with_reducible apply Moves.ite

theorem State.encBegin_moves {a s : State} (n : Nat) (e : EncSes) (p : CompPic) (h : Moves a s) :
    Moves a (State.encBegin s n e p) := by
  unfold State.encBegin
  repeat' first
    | with_reducible assumption
    | with_reducible apply State.setEncSes_moves

theorem State.refWrite_moves {a s : State} (n : Nat) (ty : Nat) (p : CompPic) (h : Moves a s) :
    Moves a (State.refWrite s n ty p) := by
  unfold State.refWrite
  repeat' first
    | with_reducible assumption
    | with_reducible apply State.setEncSes_moves
    | with_reducible apply State.poke_moves
    | with_reducible apply Moves.ite
    | simp only [Moves.put_iff]

theorem State.encodeDone_moves {a s : State} (n : Nat) (len : Nat) (qp : Nat) (h : Moves a s) :
    Moves a (State.encodeDone s n len qp) := by
  unfold State.encodeDone
  repeat' first
    | with_reducible assumption
    | with_reducible apply State.auWrite_moves
    | with_reducible apply State.refWrite_moves
    | with_reducible apply State.setEncSes_moves
    | simp only [Moves.put_iff]
    | split

theorem State.encodeStart_moves {a s : State} (n : Nat) (h : Moves a s) :
    Moves a (State.encodeStart s n) := by
  unfold State.encodeStart
  repeat' first
    | with_reducible assumption
    | with_reducible apply State.encBegin_moves
    | simp only [Moves.put_iff]
    | split

theorem execBsRdWrite_moves {a s : State} (n : Fin 8) (v : Word) (h : Moves a s) :
    ∃ t, execBsRdWrite n v s = .next t ∧ Moves a t := by
  unfold execBsRdWrite
  refine ⟨_, rfl, ?_⟩
  repeat' first
    | with_reducible assumption
    | with_reducible apply State.reach_moves
    | with_reducible apply State.bsRd_moves
    | intro _ _

theorem execEncSessionEnable_moves {a s : State} (n : Fin 8) (v : Word) (h : Moves a s) :
    ∃ t, execEncSessionEnable n v s = .next t ∧ Moves a t := by
  unfold execEncSessionEnable
  refine ⟨_, rfl, ?_⟩
  repeat' first
    | with_reducible assumption
    | with_reducible apply State.reach_moves
    | with_reducible apply State.esCfg_moves
    | intro _ _

theorem execEncodeDone_moves {a s : State} (n : Fin 8) (len : BitVec 24) (qp : BitVec 8) (h : Moves a s) :
    ∃ t, execEncodeDone n len qp s = .next t ∧ Moves a t := by
  unfold execEncodeDone
  refine ⟨_, rfl, ?_⟩
  repeat' first
    | with_reducible assumption
    | with_reducible apply State.encodeDone_moves

theorem execEncodeStart_moves {a s : State} (n : Fin 8) (h : Moves a s) :
    ∃ t, execEncodeStart n s = .next t ∧ Moves a t := by
  unfold execEncodeStart
  refine ⟨_, rfl, ?_⟩
  repeat' first
    | with_reducible assumption
    | with_reducible apply State.encodeStart_moves

theorem execForceIdr_moves {a s : State} (n : Fin 8) (v : Word) (h : Moves a s) :
    ∃ t, execForceIdr n v s = .next t ∧ Moves a t := by
  unfold execForceIdr
  refine ⟨_, rfl, ?_⟩
  repeat' first
    | with_reducible assumption
    | with_reducible apply State.reach_moves
    | with_reducible apply State.forceIdr_moves
    | intro _ _

end Sys2Proof.Machine
end

