-- ==== Sys2Proof/Laws/MovesFarside.lean ====
section
/-! SUPPORT. What each operation of Machine/Farside.lean may do to the stores and the queue (Safety.lean, Moves): one lemma for each. -/

namespace Sys2Proof.Machine

open Host Sys2Proof

theorem State.fsSend_moves {a s : State} (ty : Nat) (body : List Byte) (h : Moves a s) :
    Moves a (State.fsSend s ty body) := by
  unfold State.fsSend
  repeat' first
    | with_reducible assumption
    | with_reducible apply State.emit_moves
    | simp only [Moves.put_iff]

theorem State.fsAck_moves {a s : State} (num : Nat) (out : Nat) (result : Nat) (idx : Nat) (h : Moves a s) :
    Moves a (State.fsAck s num out result idx) := by
  unfold State.fsAck
  repeat' first
    | with_reducible assumption
    | with_reducible apply State.fsSend_moves

theorem State.fsApply_moves {a s : State} (o : Nat) (level : Nat) (ramp : Nat) (spec : Bool) (idx : Nat) (h : Moves a s) :
    Moves a (State.fsApply s o level ramp spec idx) := by
  unfold State.fsApply
  repeat' first
    | with_reducible assumption
    | with_reducible apply State.emit_moves
    | with_reducible apply Moves.ite
    | simp only [Moves.put_iff]

theorem State.fsApplyDue_moves {a s : State} (h : Moves a s) :
    Moves a (State.fsApplyDue s) := by
  unfold State.fsApplyDue
  repeat' first
    | with_reducible assumption
    | with_reducible apply State.fsApply_moves
    | with_reducible apply State.fsAck_moves
    | simp only [Moves.put_iff]
    | with_reducible apply Moves.foldl
    | intro _ _ _

theorem State.fsHeartbeat_moves {a s : State} (echo : Bool) (h : Moves a s) :
    Moves a (State.fsHeartbeat s echo) := by
  unfold State.fsHeartbeat
  repeat' first
    | with_reducible assumption
    | with_reducible apply State.fsSend_moves

theorem State.fsFault_moves {a s : State} (code : Nat) (detail : Nat) (h : Moves a s) :
    Moves a (State.fsFault s code detail) := by
  unfold State.fsFault
  repeat' first
    | with_reducible assumption
    | with_reducible apply State.fsSend_moves
    | simp only [Moves.put_iff]

theorem State.fsReceive_moves {a s : State} (m : List Byte) (k : State → State) (h : Moves a s) (hk : ∀ y0, Moves a y0 → Moves a (k y0)) :
    Moves a (State.fsReceive s m k) := by
  unfold State.fsReceive
  repeat' first
    | with_reducible assumption
    | with_reducible apply State.fsHeartbeat_moves
    | with_reducible apply State.fsFault_moves
    | with_reducible apply hk
    | with_reducible apply Moves.ite
    | simp only [Moves.put_iff]

theorem State.fsArrive_moves {a s : State} (m : List Byte) (ty : Nat) (k : State → State) (h : Moves a s) (hk : ∀ y0, Moves a y0 → Moves a (k y0)) :
    Moves a (State.fsArrive s m ty k) := by
  unfold State.fsArrive
  repeat' first
    | with_reducible assumption
    | with_reducible apply State.fsReceive_moves
    | with_reducible apply hk
    | with_reducible apply Moves.ite

theorem State.fsBackstopRun_moves {a s : State} (h : Moves a s) :
    Moves a (State.fsBackstopRun s) := by
  unfold State.fsBackstopRun
  repeat' first
    | with_reducible assumption
    | with_reducible apply State.fsApply_moves
    | with_reducible apply Moves.foldl
    | intro _ _

theorem State.fsMainsStat_moves {a s : State} (h : Moves a s) :
    Moves a (State.fsMainsStat s) := by
  unfold State.fsMainsStat
  repeat' first
    | with_reducible assumption
    | with_reducible apply State.fsSend_moves
    | simp only [Moves.put_iff]

theorem State.fsBrownout_moves {a s : State} (h : Moves a s) :
    Moves a (State.fsBrownout s) := by
  unfold State.fsBrownout
  repeat' first
    | with_reducible assumption
    | with_reducible apply State.fsMainsStat_moves
    | with_reducible apply Moves.ite
    | simp only [Moves.put_iff]

theorem State.fsBusOk_moves {a s : State} (h : Moves a s) :
    Moves a (State.fsBusOk s) := by
  unfold State.fsBusOk
  repeat' first
    | with_reducible assumption
    | with_reducible apply State.fsFault_moves
    | with_reducible apply State.emit_moves
    | with_reducible apply Moves.ite
    | simp only [Moves.put_iff]
    | with_reducible apply Moves.foldl
    | intro _ _

theorem State.fsPowerLevel_moves {a s : State} (due : Bool) (h : Moves a s) :
    Moves a (State.fsPowerLevel s due) := by
  unfold State.fsPowerLevel
  repeat' first
    | with_reducible assumption
    | with_reducible apply State.fsApply_moves
    | with_reducible apply Moves.ite
    | simp only [Moves.put_iff]
    | with_reducible apply Moves.foldl
    | intro _ _

theorem State.fsEnterFailsafe_moves {a s : State} (h : Moves a s) :
    Moves a (State.fsEnterFailsafe s) := by
  unfold State.fsEnterFailsafe
  repeat' first
    | with_reducible assumption
    | with_reducible apply State.fsApply_moves
    | with_reducible apply State.fsFault_moves
    | simp only [Moves.put_iff]
    | with_reducible apply Moves.foldl
    | intro _ _

theorem State.fsIoStat_moves {a s : State} (h : Moves a s) :
    Moves a (State.fsIoStat s) := by
  unfold State.fsIoStat
  repeat' first
    | with_reducible assumption
    | with_reducible apply State.fsSend_moves
    | simp only [Moves.put_iff]

theorem State.fsCrossing_moves {a s : State} (real : Bool) (h : Moves a s) :
    Moves a (State.fsCrossing s real) := by
  unfold State.fsCrossing
  repeat' first
    | with_reducible assumption
    | with_reducible apply State.fsPowerLevel_moves
    | with_reducible apply State.fsEnterFailsafe_moves
    | with_reducible apply State.fsBackstopRun_moves
    | with_reducible apply State.fsApplyDue_moves
    | with_reducible apply State.fsMainsStat_moves
    | with_reducible apply State.fsIoStat_moves
    | with_reducible apply Moves.ite
    | simp only [Moves.put_iff]
    | split

theorem State.fsDapc_moves {a s : State} (o : Nat) (delayed : Bool) (h : Moves a s) :
    Moves a (State.fsDapc s o delayed) := by
  unfold State.fsDapc
  repeat' first
    | with_reducible assumption
    | with_reducible apply State.emit_moves
    | with_reducible apply Moves.ite
    | simp only [Moves.put_iff]

theorem State.fsFailsafeCfg_moves {a s : State} (m : List Byte) (h : Moves a s) :
    Moves a (State.fsFailsafeCfg s m) := by
  unfold State.fsFailsafeCfg
  repeat' first
    | with_reducible assumption
    | with_reducible apply State.fsFault_moves
    | with_reducible apply Moves.ite
    | simp only [Moves.put_iff]

theorem State.fsHeard_moves {a s : State} (h : Moves a s) :
    Moves a (State.fsHeard s) := by
  unfold State.fsHeard
  repeat' first
    | with_reducible assumption
    | with_reducible apply State.fsFault_moves
    | with_reducible apply Moves.ite
    | simp only [Moves.put_iff]

theorem State.fsInput_moves {a s : State} (v : Nat) (h : Moves a s) :
    Moves a (State.fsInput s v) := by
  unfold State.fsInput
  repeat' first
    | with_reducible assumption
    | with_reducible apply State.fsIoStat_moves
    | with_reducible apply Moves.ite
    | simp only [Moves.put_iff]

theorem State.fsLevelSet_moves {a s : State} (m : List Byte) (h : Moves a s) :
    Moves a (State.fsLevelSet s m) := by
  unfold State.fsLevelSet
  repeat' first
    | with_reducible assumption
    | with_reducible apply State.fsHeard_moves
    | with_reducible apply State.fsAck_moves
    | simp only [Moves.put_iff]
    | split

theorem State.fsMeasure_moves {a s : State} (half : Nat) (rms : Nat) (freq : Nat) (h : Moves a s) :
    Moves a (State.fsMeasure s half rms freq) := by
  unfold State.fsMeasure
  repeat' first
    | with_reducible assumption
    | with_reducible apply State.fsMainsStat_moves
    | with_reducible apply Moves.ite
    | simp only [Moves.put_iff]

theorem State.fsNsHeartbeat_moves {a s : State} (m : List Byte) (h : Moves a s) :
    Moves a (State.fsNsHeartbeat s m) := by
  unfold State.fsNsHeartbeat
  repeat' first
    | with_reducible assumption
    | with_reducible apply State.fsHeard_moves
    | with_reducible apply State.fsHeartbeat_moves
    | with_reducible apply Moves.ite
    | simp only [Moves.put_iff]

theorem State.fsParamStart_moves {a s : State} (h : Moves a s) :
    Moves a (State.fsParamStart s) := by
  unfold State.fsParamStart
  repeat' first
    | with_reducible assumption
    | simp only [Moves.put_iff]

theorem State.fsParamChunk_moves {a s : State} (m : List Byte) (h : Moves a s) :
    Moves a (State.fsParamChunk s m) := by
  unfold State.fsParamChunk
  repeat' first
    | with_reducible assumption
    | simp only [Moves.put_iff]

theorem State.fsParamCommit_moves {a s : State} (h : Moves a s) :
    Moves a (State.fsParamCommit s) := by
  unfold State.fsParamCommit
  repeat' first
    | with_reducible assumption
    | with_reducible apply State.fsFault_moves
    | with_reducible apply Moves.ite
    | simp only [Moves.put_iff]

theorem State.fsParam_moves {a s : State} (m : List Byte) (start : Bool) (chunk : Bool) (commit : Bool) (h : Moves a s) :
    Moves a (State.fsParam s m start chunk commit) := by
  unfold State.fsParam
  repeat' first
    | with_reducible assumption
    | with_reducible apply State.fsParamStart_moves
    | with_reducible apply State.fsParamChunk_moves
    | with_reducible apply State.fsParamCommit_moves
    | with_reducible apply Moves.ite

theorem State.fsPowerup_moves {a s : State} (h : Moves a s) :
    Moves a (State.fsPowerup s) := by
  unfold State.fsPowerup
  repeat' first
    | with_reducible assumption
    | with_reducible apply State.fsFault_moves
    | with_reducible apply Moves.ite
    | simp only [Moves.put_iff]

theorem State.fsQuery_moves {a s : State} (m : List Byte) (status : Nat) (data : List Byte) (h : Moves a s) :
    Moves a (State.fsQuery s m status data) := by
  unfold State.fsQuery
  repeat' first
    | with_reducible assumption
    | with_reducible apply State.fsSend_moves
    | with_reducible apply State.emit_moves
    | with_reducible apply Moves.ite
    | with_reducible apply Moves.foldl

theorem State.fsVinLow_moves {a s : State} (h : Moves a s) :
    Moves a (State.fsVinLow s) := by
  unfold State.fsVinLow
  repeat' first
    | with_reducible assumption
    | with_reducible apply State.fsFault_moves
    | with_reducible apply Moves.ite
    | simp only [Moves.put_iff]

theorem State.fsVinStop_moves {a s : State} (h : Moves a s) :
    Moves a (State.fsVinStop s) := by
  unfold State.fsVinStop
  repeat' first
    | with_reducible assumption
    | with_reducible apply State.emit_moves
    | with_reducible apply Moves.ite
    | simp only [Moves.put_iff]

theorem State.fsZeroCrossing_moves {a s : State} (period : Nat) (age : Nat) (rms : Nat) (freq : Nat) (h : Moves a s) :
    Moves a (State.fsZeroCrossing s period age rms freq) := by
  unfold State.fsZeroCrossing
  repeat' first
    | with_reducible assumption
    | with_reducible apply State.fsCrossing_moves
    | with_reducible apply State.fsSend_moves
    | with_reducible apply Moves.ite
    | simp only [Moves.put_iff]

theorem execBrownoutWarn_moves {a s : State} (h : Moves a s) :
    ∃ t, execBrownoutWarn s = .next t ∧ Moves a t := by
  unfold execBrownoutWarn
  refine ⟨_, rfl, ?_⟩
  repeat' first
    | with_reducible assumption
    | with_reducible apply State.fsBrownout_moves

theorem execDaliBusFail_moves {a s : State} (h : Moves a s) :
    ∃ t, execDaliBusFail s = .next t ∧ Moves a t := by
  unfold execDaliBusFail
  refine ⟨_, rfl, ?_⟩
  repeat' first
    | with_reducible assumption
    | with_reducible apply State.fsFault_moves
    | with_reducible apply Moves.ite
    | simp only [Moves.put_iff]

theorem execDaliBusRecover_moves {a s : State} (h : Moves a s) :
    ∃ t, execDaliBusRecover s = .next t ∧ Moves a t := by
  unfold execDaliBusRecover
  refine ⟨_, rfl, ?_⟩
  repeat' first
    | with_reducible assumption
    | with_reducible apply State.fsBusOk_moves

theorem execDaliCollision_moves {a s : State} (h : Moves a s) :
    ∃ t, execDaliCollision s = .next t ∧ Moves a t := by
  unfold execDaliCollision
  refine ⟨_, rfl, ?_⟩
  repeat' first
    | with_reducible assumption
    | with_reducible apply Moves.ite
    | simp only [Moves.put_iff]

theorem execDaliQuery_moves {a s : State} (m : List Byte) (status : Fin 3) (data : List Byte) (h : Moves a s) :
    ∃ t, execDaliQuery m status data s = .next t ∧ Moves a t := by
  unfold execDaliQuery
  refine ⟨_, rfl, ?_⟩
  repeat' first
    | with_reducible assumption
    | with_reducible apply State.fsArrive_moves
    | with_reducible apply State.fsQuery_moves
    | intro _ _

theorem execDapcStep_moves {a s : State} (o : Fin 81) (delayed : Bool) (h : Moves a s) :
    ∃ t, execDapcStep o delayed s = .next t ∧ Moves a t := by
  unfold execDapcStep
  refine ⟨_, rfl, ?_⟩
  repeat' first
    | with_reducible assumption
    | with_reducible apply State.fsDapc_moves

theorem execFailsafeCfg_moves {a s : State} (m : List Byte) (h : Moves a s) :
    ∃ t, execFailsafeCfg m s = .next t ∧ Moves a t := by
  unfold execFailsafeCfg
  refine ⟨_, rfl, ?_⟩
  repeat' first
    | with_reducible assumption
    | with_reducible apply State.fsArrive_moves
    | with_reducible apply State.fsFailsafeCfg_moves
    | intro _ _

theorem execFieldInputChange_moves {a s : State} (v : BitVec 2) (h : Moves a s) :
    ∃ t, execFieldInputChange v s = .next t ∧ Moves a t := by
  unfold execFieldInputChange
  refine ⟨_, rfl, ?_⟩
  repeat' first
    | with_reducible assumption
    | with_reducible apply State.fsInput_moves

theorem execFlywheelCrossing_moves {a s : State} (h : Moves a s) :
    ∃ t, execFlywheelCrossing s = .next t ∧ Moves a t := by
  unfold execFlywheelCrossing
  refine ⟨_, rfl, ?_⟩
  repeat' first
    | with_reducible assumption
    | with_reducible apply State.fsCrossing_moves
    | with_reducible apply Moves.ite

theorem execFsPowerup_moves {a s : State} (h : Moves a s) :
    ∃ t, execFsPowerup s = .next t ∧ Moves a t := by
  unfold execFsPowerup
  refine ⟨_, rfl, ?_⟩
  repeat' first
    | with_reducible assumption
    | with_reducible apply State.fsPowerup_moves

theorem execFsVinLow_moves {a s : State} (h : Moves a s) :
    ∃ t, execFsVinLow s = .next t ∧ Moves a t := by
  unfold execFsVinLow
  refine ⟨_, rfl, ?_⟩
  repeat' first
    | with_reducible assumption
    | with_reducible apply State.fsVinLow_moves

theorem execFsVinStop_moves {a s : State} (h : Moves a s) :
    ∃ t, execFsVinStop s = .next t ∧ Moves a t := by
  unfold execFsVinStop
  refine ⟨_, rfl, ?_⟩
  repeat' first
    | with_reducible assumption
    | with_reducible apply State.fsVinStop_moves

theorem execLevelSet_moves {a s : State} (m : List Byte) (h : Moves a s) :
    ∃ t, execLevelSet m s = .next t ∧ Moves a t := by
  unfold execLevelSet
  refine ⟨_, rfl, ?_⟩
  repeat' first
    | with_reducible assumption
    | with_reducible apply State.fsArrive_moves
    | with_reducible apply State.fsLevelSet_moves
    | intro _ _

theorem execMainsFlagChange_moves {a s : State} (half : BitVec 16) (rms : BitVec 16) (freq : BitVec 16) (h : Moves a s) :
    ∃ t, execMainsFlagChange half rms freq s = .next t ∧ Moves a t := by
  unfold execMainsFlagChange
  refine ⟨_, rfl, ?_⟩
  repeat' first
    | with_reducible assumption
    | with_reducible apply State.fsMeasure_moves

theorem execNsHeartbeat_moves {a s : State} (m : List Byte) (h : Moves a s) :
    ∃ t, execNsHeartbeat m s = .next t ∧ Moves a t := by
  unfold execNsHeartbeat
  refine ⟨_, rfl, ?_⟩
  repeat' first
    | with_reducible assumption
    | with_reducible apply State.fsArrive_moves
    | with_reducible apply State.fsNsHeartbeat_moves
    | intro _ _

theorem execParamCommit_moves {a s : State} (m : List Byte) (h : Moves a s) :
    ∃ t, execParamCommit m s = .next t ∧ Moves a t := by
  unfold execParamCommit
  refine ⟨_, rfl, ?_⟩
  repeat' first
    | with_reducible assumption
    | with_reducible apply State.fsArrive_moves
    | with_reducible apply State.fsParam_moves
    | with_reducible apply Moves.ite
    | intro _ _

theorem execParamWriteChunk_moves {a s : State} (m : List Byte) (h : Moves a s) :
    ∃ t, execParamWriteChunk m s = .next t ∧ Moves a t := by
  unfold execParamWriteChunk
  refine ⟨_, rfl, ?_⟩
  repeat' first
    | with_reducible assumption
    | with_reducible apply State.fsArrive_moves
    | with_reducible apply State.fsParam_moves
    | with_reducible apply Moves.ite
    | intro _ _

theorem execParamWriteStart_moves {a s : State} (m : List Byte) (h : Moves a s) :
    ∃ t, execParamWriteStart m s = .next t ∧ Moves a t := by
  unfold execParamWriteStart
  refine ⟨_, rfl, ?_⟩
  repeat' first
    | with_reducible assumption
    | with_reducible apply State.fsArrive_moves
    | with_reducible apply State.fsParam_moves
    | with_reducible apply Moves.ite
    | intro _ _

theorem execRelayCoilFault_moves {a s : State} (h : Moves a s) :
    ∃ t, execRelayCoilFault s = .next t ∧ Moves a t := by
  unfold execRelayCoilFault
  refine ⟨_, rfl, ?_⟩
  repeat' first
    | with_reducible assumption
    | with_reducible apply State.fsIoStat_moves
    | with_reducible apply State.fsFault_moves
    | with_reducible apply Moves.ite
    | simp only [Moves.put_iff]

theorem execUnknownType_moves {a s : State} (m : List Byte) (h : Moves a s) :
    ∃ t, execUnknownType m s = .next t ∧ Moves a t := by
  unfold execUnknownType
  refine ⟨_, rfl, ?_⟩
  repeat' first
    | with_reducible assumption
    | with_reducible apply State.fsReceive_moves
    | with_reducible apply State.fsFault_moves
    | with_reducible apply Moves.ite
    | simp only [Moves.put_iff]
    | intro _ _

theorem execZeroCrossing_moves {a s : State} (period : BitVec 16) (age : BitVec 16) (rms : BitVec 16) (freq : BitVec 16) (h : Moves a s) :
    ∃ t, execZeroCrossing period age rms freq s = .next t ∧ Moves a t := by
  unfold execZeroCrossing
  refine ⟨_, rfl, ?_⟩
  repeat' first
    | with_reducible assumption
    | with_reducible apply State.fsZeroCrossing_moves

end Sys2Proof.Machine
end

