-- ==== Sys2Proof/Laws/MovesPilot.lean ====
section
/-! SUPPORT. What each operation of Machine/Pilot.lean may do to the stores and the queue (Safety.lean, Moves): one lemma for each. -/

namespace Sys2Proof.Machine

open Host Sys2Proof

theorem State.evPop_moves {a s : State} (h : Moves a s) :
    Moves a (State.evPop s).1 := by
  unfold State.evPop
  repeat' first
    | with_reducible assumption
    | with_reducible apply State.wr_moves
    | simp only [Moves.put_iff]
    | split

theorem State.offDefer_moves {a s : State} (h : Moves a s) :
    Moves a (State.offDefer s) := by
  unfold State.offDefer
  repeat' first
    | with_reducible assumption
    | with_reducible apply State.raise_moves
    | with_reducible apply State.inc_moves
    | simp only [Moves.put_iff]

theorem State.pdmCall_moves {a s : State} (rate : Nat) (h : Moves a s) :
    Moves a (State.pdmCall s rate) := by
  unfold State.pdmCall
  repeat' first
    | with_reducible assumption
    | simp only [Moves.put_iff]

theorem State.paCtrl_moves {a s : State} (v : Nat) (h : Moves a s) :
    Moves a (State.paCtrl s v) := by
  unfold State.paCtrl
  repeat' first
    | with_reducible assumption
    | with_reducible apply State.wr_moves
    | with_reducible apply Moves.ite
    | simp only [Moves.put_iff]

theorem State.unfreeze_moves {a s : State} (h : Moves a s) :
    Moves a (State.unfreeze s) := by
  unfold State.unfreeze
  repeat' first
    | with_reducible assumption
    | with_reducible apply State.wr_moves
    | simp only [Moves.put_iff]

theorem State.freezeRelease_moves {a s : State} (h : Moves a s) :
    Moves a (State.freezeRelease s) := by
  unfold State.freezeRelease
  repeat' first
    | with_reducible assumption
    | with_reducible apply State.unfreeze_moves
    | with_reducible apply Moves.ite

theorem State.simCtrl_moves {a s : State} (slot : Nat) (run : Bool) (len : Nat) (h : Moves a s) :
    Moves a (State.simCtrl s slot run len) := by
  unfold State.simCtrl
  repeat' first
    | with_reducible assumption
    | with_reducible apply State.wr_moves
    | simp only [Moves.put_iff]
    | split

theorem State.exportErr_moves {a s : State} (h : Moves a s) :
    Moves a (State.exportErr s) := by
  unfold State.exportErr
  repeat' first
    | with_reducible assumption
    | with_reducible apply State.raise_moves
    | with_reducible apply State.wr_moves

theorem State.exportStart_moves {a s : State} (v : Nat) (h : Moves a s) :
    Moves a (State.exportStart s v) := by
  unfold State.exportStart
  repeat' first
    | with_reducible assumption
    | with_reducible apply State.wr_moves
    | with_reducible apply State.exportErr_moves
    | simp only [Moves.put_iff]
    | split

theorem State.offCancel_moves {a s : State} (h : Moves a s) :
    Moves a (State.offCancel s) := by
  unfold State.offCancel
  repeat' first
    | with_reducible assumption
    | with_reducible apply State.raise_moves
    | with_reducible apply State.inc_moves
    | with_reducible apply State.wr_moves
    | with_reducible apply Moves.ite
    | simp only [Moves.put_iff]

theorem State.freeze_moves {a s : State} (w : Nat) (h : Moves a s) :
    Moves a (State.freeze s w) := by
  unfold State.freeze
  repeat' first
    | with_reducible assumption
    | with_reducible apply State.inc_moves
    | with_reducible apply State.wr_moves
    | with_reducible apply Moves.ite
    | simp only [Moves.put_iff]

theorem State.detect_moves {a s : State} (h : Moves a s) :
    Moves a (State.detect s) := by
  unfold State.detect
  repeat' first
    | with_reducible assumption
    | with_reducible apply State.wr_moves
    | with_reducible apply State.offCancel_moves
    | with_reducible apply State.freeze_moves
    | with_reducible apply State.wakeLatch_moves
    | with_reducible apply State.raise_moves
    | with_reducible apply State.inc_moves
    | simp only [Moves.put_iff]

theorem State.eventOne_moves {a s : State} (c : Nat) (v : Nat) (h : Moves a s) :
    Moves a (State.eventOne s c v) := by
  unfold State.eventOne
  repeat' first
    | with_reducible assumption
    | with_reducible apply State.raise_moves
    | with_reducible apply State.inc_moves
    | with_reducible apply State.wakeLatch_moves
    | with_reducible apply Moves.ite
    | simp only [Moves.put_iff]

theorem State.eventScores_moves {a s : State} (sc : List Nat) (h : Moves a s) :
    Moves a (State.eventScores s sc) := by
  unfold State.eventScores
  repeat' first
    | with_reducible assumption
    | with_reducible apply State.eventOne_moves
    | simp only [Moves.put_iff]
    | with_reducible apply Moves.foldl
    | intro _ _

theorem State.freezeDue_moves {a s : State} (h : Moves a s) :
    Moves a (State.freezeDue s) := by
  unfold State.freezeDue
  repeat' first
    | with_reducible assumption
    | with_reducible apply State.raise_moves
    | with_reducible apply State.inc_moves
    | with_reducible apply State.unfreeze_moves

theorem State.exportDone_moves {a s : State} (h : Moves a s) :
    Moves a (State.exportDone s) := by
  unfold State.exportDone
  repeat' first
    | with_reducible assumption
    | with_reducible apply State.raise_moves
    | with_reducible apply State.wr_moves
    | with_reducible apply State.poke_moves
    | with_reducible apply State.freezeDue_moves
    | with_reducible apply State.unfreeze_moves
    | with_reducible apply State.exportErr_moves
    | simp only [Moves.put_iff]
    | split

theorem State.featureFrame_moves {a s : State} (h : Moves a s) :
    Moves a (State.featureFrame s) := by
  unfold State.featureFrame
  repeat' first
    | with_reducible assumption
    | with_reducible apply Moves.ite
    | simp only [Moves.put_iff]

theorem State.freezeExpire_moves {a s : State} (h : Moves a s) :
    Moves a (State.freezeExpire s) := by
  unfold State.freezeExpire
  repeat' first
    | with_reducible assumption
    | with_reducible apply State.freezeDue_moves
    | with_reducible apply Moves.ite

theorem State.streamResume_moves {a s : State} (h : Moves a s) :
    Moves a (State.streamResume s) := by
  unfold State.streamResume
  repeat' first
    | with_reducible assumption
    | with_reducible apply State.inc_moves
    | with_reducible apply Moves.ite
    | simp only [Moves.put_iff]

theorem State.offDeferEnd_moves {a s : State} (h : Moves a s) :
    Moves a (State.offDeferEnd s) := by
  unfold State.offDeferEnd
  repeat' first
    | with_reducible assumption
    | simp only [Moves.put_iff]
    | split

theorem State.pdmChange_moves {a s : State} (h : Moves a s) :
    Moves a (State.pdmChange s) := by
  unfold State.pdmChange
  repeat' first
    | with_reducible assumption
    | with_reducible apply State.inc_moves
    | with_reducible apply State.wr_moves
    | simp only [Moves.put_iff]
    | split

theorem State.ringPut_moves {a s : State} (base : Nat) (l : Nat) (n : Nat) (w : Nat) (v5 : List (List Byte)) (h : Moves a s) :
    Moves a (State.ringPut s base l n w v5) := by
  induction v5 generalizing s w with
  | nil => unfold State.ringPut; exact h
  | cons x t ih =>
    unfold State.ringPut
    repeat' first
      | with_reducible assumption
      | with_reducible apply ih
      | with_reducible apply State.poke_moves

theorem State.wakeScore_moves {a s : State} (v : Nat) (h : Moves a s) :
    Moves a (State.wakeScore s v) := by
  unfold State.wakeScore
  repeat' first
    | with_reducible assumption
    | with_reducible apply State.wr_moves
    | with_reducible apply State.detect_moves
    | with_reducible apply Moves.ite
    | simp only [Moves.put_iff]

theorem State.simmerEval_moves {a s : State} (slot : Nat) (overrun : Bool) (scores : List Nat) (h : Moves a s) :
    Moves a (State.simmerEval s slot overrun scores) := by
  unfold State.simmerEval
  repeat' first
    | with_reducible assumption
    | with_reducible apply State.inc_moves
    | with_reducible apply State.wakeScore_moves
    | with_reducible apply State.eventScores_moves
    | simp only [Moves.put_iff]
    | split

theorem State.streamHop_moves {a s : State} (h : Moves a s) :
    Moves a (State.streamHop s) := by
  unfold State.streamHop
  repeat' first
    | with_reducible assumption
    | with_reducible apply State.ringPut_moves
    | with_reducible apply State.addW_moves
    | with_reducible apply Moves.ite
    | simp only [Moves.put_iff]

theorem State.timerFired_moves {a s : State} (n : Nat) (h : Moves a s) :
    Moves a (State.timerFired s n) := by
  unfold State.timerFired
  repeat' first
    | with_reducible assumption
    | with_reducible apply State.raise_moves
    | with_reducible apply State.wr_moves

theorem State.timerLevel_moves {a s : State} (n : Nat) (h : Moves a s) :
    Moves a (State.timerLevel s n) := by
  unfold State.timerLevel
  repeat' first
    | with_reducible assumption
    | with_reducible apply State.brQueue_moves
    | with_reducible apply State.timerFired_moves
    | with_reducible apply Moves.ite

theorem State.timerWake_moves {a s : State} (n : Nat) (h : Moves a s) :
    Moves a (State.timerWake s n) := by
  unfold State.timerWake
  repeat' first
    | with_reducible assumption
    | with_reducible apply State.wakeLatch_moves
    | with_reducible apply State.timerFired_moves
    | with_reducible apply Moves.ite

theorem State.xfadeEnd_moves {a s : State} (h : Moves a s) :
    Moves a (State.xfadeEnd s) := by
  unfold State.xfadeEnd
  repeat' first
    | with_reducible assumption
    | with_reducible apply State.raise_moves
    | with_reducible apply State.wr_moves
    | split

theorem execAudioStreamHop_moves {a s : State} (h : Moves a s) :
    ∃ t, execAudioStreamHop s = .next t ∧ Moves a t := by
  unfold execAudioStreamHop
  refine ⟨_, rfl, ?_⟩
  repeat' first
    | with_reducible assumption
    | with_reducible apply State.streamHop_moves

theorem execExportDone_moves {a s : State} (h : Moves a s) :
    ∃ t, execExportDone s = .next t ∧ Moves a t := by
  unfold execExportDone
  refine ⟨_, rfl, ?_⟩
  repeat' first
    | with_reducible assumption
    | with_reducible apply State.exportDone_moves

theorem execExportStart_moves {a s : State} (v : Word) (h : Moves a s) :
    ∃ t, execExportStart v s = .next t ∧ Moves a t := by
  unfold execExportStart
  refine ⟨_, rfl, ?_⟩
  repeat' first
    | with_reducible assumption
    | with_reducible apply State.reach_moves
    | with_reducible apply State.exportStart_moves
    | intro _ _

theorem execFeatureFrame_moves {a s : State} (h : Moves a s) :
    ∃ t, execFeatureFrame s = .next t ∧ Moves a t := by
  unfold execFeatureFrame
  refine ⟨_, rfl, ?_⟩
  repeat' first
    | with_reducible assumption
    | with_reducible apply State.featureFrame_moves

theorem execFreezeExpire_moves {a s : State} (h : Moves a s) :
    ∃ t, execFreezeExpire s = .next t ∧ Moves a t := by
  unfold execFreezeExpire
  refine ⟨_, rfl, ?_⟩
  repeat' first
    | with_reducible assumption
    | with_reducible apply State.freezeExpire_moves

theorem execFreezeRel_moves {a s : State} (v : Word) (h : Moves a s) :
    ∃ t, execFreezeRel v s = .next t ∧ Moves a t := by
  unfold execFreezeRel
  refine ⟨_, rfl, ?_⟩
  repeat' first
    | with_reducible assumption
    | with_reducible apply State.reach_moves
    | with_reducible apply State.freezeRelease_moves
    | with_reducible apply Moves.ite
    | intro _ _

theorem execOffDeferEnd_moves {a s : State} (h : Moves a s) :
    ∃ t, execOffDeferEnd s = .next t ∧ Moves a t := by
  unfold execOffDeferEnd
  refine ⟨_, rfl, ?_⟩
  repeat' first
    | with_reducible assumption
    | with_reducible apply State.offDeferEnd_moves

theorem execPdmRateChange_moves {a s : State} (h : Moves a s) :
    ∃ t, execPdmRateChange s = .next t ∧ Moves a t := by
  unfold execPdmRateChange
  refine ⟨_, rfl, ?_⟩
  repeat' first
    | with_reducible assumption
    | with_reducible apply State.pdmChange_moves

theorem execPilotTimerLevel_moves {a s : State} (n : Fin 16) (h : Moves a s) :
    ∃ t, execPilotTimerLevel n s = .next t ∧ Moves a t := by
  unfold execPilotTimerLevel
  refine ⟨_, rfl, ?_⟩
  repeat' first
    | with_reducible assumption
    | with_reducible apply State.timerLevel_moves

theorem execPilotTimerWake_moves {a s : State} (n : Fin 16) (h : Moves a s) :
    ∃ t, execPilotTimerWake n s = .next t ∧ Moves a t := by
  unfold execPilotTimerWake
  refine ⟨_, rfl, ?_⟩
  repeat' first
    | with_reducible assumption
    | with_reducible apply State.timerWake_moves

theorem execSimmerEval_moves {a s : State} (slot : Fin 2) (overrun : Bool) (scores : List Byte) (h : Moves a s) :
    ∃ t, execSimmerEval slot overrun scores s = .next t ∧ Moves a t := by
  unfold execSimmerEval
  refine ⟨_, rfl, ?_⟩
  repeat' first
    | with_reducible assumption
    | with_reducible apply State.simmerEval_moves

theorem execSimmerStart_moves {a s : State} (v : Word) (len0 : BitVec 19) (len1 : BitVec 19) (h : Moves a s) :
    ∃ t, execSimmerStart v len0 len1 s = .next t ∧ Moves a t := by
  unfold execSimmerStart
  refine ⟨_, rfl, ?_⟩
  repeat' first
    | with_reducible assumption
    | with_reducible apply State.reach_moves
    | with_reducible apply State.simCtrl_moves
    | intro _ _

theorem execXfadeEnd_moves {a s : State} (h : Moves a s) :
    ∃ t, execXfadeEnd s = .next t ∧ Moves a t := by
  unfold execXfadeEnd
  refine ⟨_, rfl, ?_⟩
  repeat' first
    | with_reducible assumption
    | with_reducible apply State.xfadeEnd_moves

end Sys2Proof.Machine
end

