-- ==== Sys2Proof/Laws/MovesRepair.lean ====
section
/-! SUPPORT. What each operation of Machine/Repair.lean may do to the stores and the queue (Safety.lean, Moves): one lemma for each. -/

namespace Sys2Proof.Machine

open Host Sys2Proof

theorem State.ledgerAdd_moves {a s : State} (kind : Nat) (tile : Nat) (unit : Nat) (logical : Nat) (cause : Nat) (h : Moves a s) :
    Moves a (State.ledgerAdd s kind tile unit logical cause) := by
  unfold State.ledgerAdd
  repeat' first
    | with_reducible assumption
    | with_reducible apply State.wr_moves
    | simp only [Moves.put_iff]

theorem State.budgetFit_moves {a s : State} (k : Nat) (h : Moves a s) :
    Moves a (State.budgetFit s k) := by
  unfold State.budgetFit
  repeat' first
    | with_reducible assumption
    | with_reducible apply State.raise_moves
    | with_reducible apply State.wr_moves
    | with_reducible apply Moves.ite
    | with_reducible apply Moves.foldl
    | intro _ _ _

theorem State.repairKill_moves {a s : State} (id : Nat) (h : Moves a s) :
    Moves a (State.repairKill s id) := by
  unfold State.repairKill
  repeat' first
    | with_reducible assumption
    | with_reducible apply State.killClose_moves
    | with_reducible apply State.updCmd_moves
    | with_reducible apply State.killCmd_moves
    | with_reducible apply State.inc_moves
    | split

theorem State.drainTile_moves {a s : State} (p : Nat) (h : Moves a s) :
    Moves a (State.drainTile s p) := by
  unfold State.drainTile
  repeat' first
    | with_reducible assumption
    | with_reducible apply State.repairKill_moves
    | with_reducible apply State.killCanary_moves
    | with_reducible apply Moves.foldl

theorem State.kettleOut_moves {a s : State} (k : Nat) (cause : Nat) (h : Moves a s) :
    Moves a (State.kettleOut s k cause) := by
  unfold State.kettleOut
  repeat' first
    | with_reducible assumption
    | with_reducible apply State.ledgerAdd_moves
    | with_reducible apply State.raise_moves
    | with_reducible apply State.wr_moves
    | with_reducible apply State.budgetFit_moves
    | with_reducible apply State.drainTile_moves
    | with_reducible apply State.close_moves
    | with_reducible apply Moves.ite
    | with_reducible apply Moves.foldl
    | intro _ _

theorem State.repairKettle_moves {a s : State} (k : Nat) (cause : Nat) (h : Moves a s) :
    Moves a (State.repairKettle s k cause) := by
  unfold State.repairKettle
  repeat' first
    | with_reducible assumption
    | with_reducible apply State.raise_moves
    | with_reducible apply State.kettleOut_moves
    | with_reducible apply State.ledgerAdd_moves
    | with_reducible apply Moves.ite
    | simp only [Moves.put_iff]

theorem State.ageRefresh_moves {a s : State} (p : Nat) (margin : Nat) (h : Moves a s) :
    Moves a (State.ageRefresh s p margin) := by
  unfold State.ageRefresh
  repeat' first
    | with_reducible assumption
    | with_reducible apply State.wr_moves
    | with_reducible apply State.raise_moves
    | with_reducible apply State.repairKettle_moves
    | simp only [Moves.put_iff]
    | split

theorem State.rmCmd_moves {a s : State} (v : Nat) (h : Moves a s) :
    Moves a (State.rmCmd s v) := by
  unfold State.rmCmd
  repeat' first
    | with_reducible assumption
    | with_reducible apply State.repairKettle_moves
    | with_reducible apply Moves.ite

theorem State.canaryAtOnce_moves {a s : State} (p : Nat) (h : Moves a s) :
    Moves a (State.canaryAtOnce s p) := by
  unfold State.canaryAtOnce
  repeat' first
    | with_reducible assumption
    | simp only [Moves.put_iff]
    | split

theorem State.repairUnit_moves {a s : State} (p : Nat) (bank : Bool) (unit : Nat) (cause : Nat) (h : Moves a s) :
    Moves a (State.repairUnit s p bank unit cause) := by
  unfold State.repairUnit
  repeat' first
    | with_reducible assumption
    | with_reducible apply State.repairKettle_moves
    | with_reducible apply State.ledgerAdd_moves
    | with_reducible apply State.raise_moves
    | with_reducible apply State.drainTile_moves
    | with_reducible apply State.wr_moves
    | simp only [Moves.put_iff]
    | split

theorem State.classify_moves {a s : State} (p : Nat) (cols : List Nat) (banks : List Nat) (other : Bool) (h : Moves a s) :
    Moves a (State.classify s p cols banks other) := by
  unfold State.classify
  repeat' first
    | with_reducible assumption
    | with_reducible apply State.repairUnit_moves
    | with_reducible apply State.repairKettle_moves
    | with_reducible apply Moves.foldl
    | intro _ _
    | split

theorem State.canaryDone_moves {a s : State} (cols : List Nat) (banks : List Nat) (other : Bool) (h : Moves a s) :
    Moves a (State.canaryDone s cols banks other) := by
  unfold State.canaryDone
  repeat' first
    | with_reducible assumption
    | with_reducible apply State.setTile_moves
    | with_reducible apply State.wr_moves
    | with_reducible apply State.classify_moves
    | with_reducible apply State.raise_moves
    | with_reducible apply State.inc_moves
    | simp only [Moves.put_iff]
    | split

theorem State.canaryStart_moves {a s : State} (h : Moves a s) :
    Moves a (State.canaryStart s) := by
  unfold State.canaryStart
  repeat' first
    | with_reducible assumption
    | with_reducible apply State.setTile_moves
    | simp only [Moves.put_iff]
    | split

theorem State.clearPantry_moves {a s : State} (p : Nat) (h : Moves a s) :
    Moves a (State.clearPantry s p) := by
  unfold State.clearPantry
  repeat' first
    | with_reducible assumption
    | with_reducible apply State.forget_moves
    | with_reducible apply State.setTile_moves

theorem State.drainDone_moves {a s : State} (h : Moves a s) :
    Moves a (State.drainDone s) := by
  unfold State.drainDone
  repeat' first
    | with_reducible assumption
    | with_reducible apply State.wr_moves
    | with_reducible apply Moves.ite

theorem State.sparePut_moves {a s : State} (p : Nat) (bank : Bool) (unit : Nat) (h : Moves a s) :
    Moves a (State.sparePut s p bank unit) := by
  unfold State.sparePut
  repeat' first
    | with_reducible assumption
    | with_reducible apply State.wr_moves
    | simp only [Moves.put_iff]
    | split

theorem State.remapAbort_moves {a s : State} (h : Moves a s) :
    Moves a (State.remapAbort s) := by
  unfold State.remapAbort
  repeat' first
    | with_reducible assumption
    | with_reducible apply State.ledgerAdd_moves
    | with_reducible apply State.wr_moves
    | with_reducible apply State.kettleOut_moves
    | simp only [Moves.put_iff]
    | split

theorem State.moveVault_moves {a s : State} (p : Nat) (q : Nat) (h : Moves a s) :
    Moves a (State.moveVault s p q) := by
  unfold State.moveVault
  repeat' first
    | with_reducible assumption
    | with_reducible apply State.forget_moves
    | with_reducible apply State.setByte_moves
    | with_reducible apply State.setPoison_moves
    | with_reducible apply Moves.foldl
    | intro _ _ _

theorem State.remapSwitch_moves {a s : State} (h : Moves a s) :
    Moves a (State.remapSwitch s) := by
  unfold State.remapSwitch
  repeat' first
    | with_reducible assumption
    | with_reducible apply State.ledgerAdd_moves
    | with_reducible apply State.moveVault_moves
    | with_reducible apply State.wr_moves
    | with_reducible apply State.clearPantry_moves
    | with_reducible apply State.raise_moves
    | with_reducible apply State.inc_moves

theorem State.migrationDone_moves {a s : State} (fault : Bool) (h : Moves a s) :
    Moves a (State.migrationDone s fault) := by
  unfold State.migrationDone
  repeat' first
    | with_reducible assumption
    | with_reducible apply State.remapAbort_moves
    | with_reducible apply State.remapSwitch_moves
    | with_reducible apply Moves.ite

theorem State.pantryCe_moves {a s : State} (p : Nat) (bank : Nat) (h : Moves a s) :
    Moves a (State.pantryCe s p bank) := by
  unfold State.pantryCe
  repeat' first
    | with_reducible assumption
    | with_reducible apply State.repairUnit_moves
    | with_reducible apply Moves.ite
    | simp only [Moves.put_iff]

theorem State.remapStart_moves {a s : State} (h : Moves a s) :
    Moves a (State.remapStart s) := by
  unfold State.remapStart
  repeat' first
    | with_reducible assumption
    | with_reducible apply State.wr_moves
    | with_reducible apply State.budgetFit_moves
    | with_reducible apply State.drainTile_moves
    | with_reducible apply State.kettleOut_moves
    | simp only [Moves.put_iff]
    | split

theorem State.rewritePantry_moves {a s : State} (p : Nat) (h : Moves a s) :
    Moves a (State.rewritePantry s p) := by
  unfold State.rewritePantry
  repeat' first
    | with_reducible assumption
    | with_reducible apply State.forget_moves
    | with_reducible apply Moves.foldl
    | intro _ _ _

theorem State.vaultUe_moves {a s : State} (p : Nat) (h : Moves a s) :
    Moves a (State.vaultUe s p) := by
  unfold State.vaultUe
  repeat' first
    | with_reducible assumption
    | with_reducible apply State.repairKettle_moves
    | split

theorem State.unitRemap_moves {a s : State} (p : Nat) (bank : Bool) (h : Moves a s) :
    Moves a (State.unitRemap s p bank) := by
  unfold State.unitRemap
  repeat' first
    | with_reducible assumption
    | with_reducible apply State.inc_moves
    | with_reducible apply State.rewritePantry_moves
    | with_reducible apply State.sparePut_moves
    | with_reducible apply State.wr_moves
    | simp only [Moves.put_iff]
    | split

theorem execAgeRefresh_moves {a s : State} (tile : Fin 18) (margin : BitVec 8) (h : Moves a s) :
    ∃ t, execAgeRefresh tile margin s = .next t ∧ Moves a t := by
  unfold execAgeRefresh
  refine ⟨_, rfl, ?_⟩
  repeat' first
    | with_reducible assumption
    | with_reducible apply State.ageRefresh_moves

theorem execBankRemap_moves {a s : State} (tile : Fin 18) (h : Moves a s) :
    ∃ t, execBankRemap tile s = .next t ∧ Moves a t := by
  unfold execBankRemap
  refine ⟨_, rfl, ?_⟩
  repeat' first
    | with_reducible assumption
    | with_reducible apply State.unitRemap_moves

theorem execCanaryComplete_moves {a s : State} (cols : List (Fin 128)) (banks : List (Fin 32)) (other : Bool) (h : Moves a s) :
    ∃ t, execCanaryComplete cols banks other s = .next t ∧ Moves a t := by
  unfold execCanaryComplete
  refine ⟨_, rfl, ?_⟩
  repeat' first
    | with_reducible assumption
    | with_reducible apply State.canaryDone_moves

theorem execCanaryStart_moves {a s : State} (h : Moves a s) :
    ∃ t, execCanaryStart s = .next t ∧ Moves a t := by
  unfold execCanaryStart
  refine ⟨_, rfl, ?_⟩
  repeat' first
    | with_reducible assumption
    | with_reducible apply State.canaryStart_moves

theorem execColumnRemap_moves {a s : State} (tile : Fin 18) (h : Moves a s) :
    ∃ t, execColumnRemap tile s = .next t ∧ Moves a t := by
  unfold execColumnRemap
  refine ⟨_, rfl, ?_⟩
  repeat' first
    | with_reducible assumption
    | with_reducible apply State.unitRemap_moves

theorem execDrainComplete_moves {a s : State} (h : Moves a s) :
    ∃ t, execDrainComplete s = .next t ∧ Moves a t := by
  unfold execDrainComplete
  refine ⟨_, rfl, ?_⟩
  repeat' first
    | with_reducible assumption
    | with_reducible apply State.drainDone_moves

theorem execMigrationComplete_moves {a s : State} (fault : Bool) (h : Moves a s) :
    ∃ t, execMigrationComplete fault s = .next t ∧ Moves a t := by
  unfold execMigrationComplete
  refine ⟨_, rfl, ?_⟩
  repeat' first
    | with_reducible assumption
    | with_reducible apply State.migrationDone_moves

theorem execRemapStart_moves {a s : State} (h : Moves a s) :
    ∃ t, execRemapStart s = .next t ∧ Moves a t := by
  unfold execRemapStart
  refine ⟨_, rfl, ?_⟩
  repeat' first
    | with_reducible assumption
    | with_reducible apply State.remapStart_moves

theorem execRmCmd_moves {a s : State} (v : Word) (h : Moves a s) :
    ∃ t, execRmCmd v s = .next t ∧ Moves a t := by
  unfold execRmCmd
  refine ⟨_, rfl, ?_⟩
  repeat' first
    | with_reducible assumption
    | with_reducible apply State.reach_moves
    | with_reducible apply State.rmCmd_moves
    | intro _ _

end Sys2Proof.Machine
end

