-- ==== Sys2Proof/Laws/MovesHost.lean ====
section
/-! SUPPORT. What each operation of Machine/Host.lean may do to the stores and the queue (Safety.lean, Moves): one lemma for each. -/

namespace Sys2Proof.Machine

open Host Sys2Proof

theorem State.gnSync_moves {a s : State} (h : Moves a s) :
    Moves a (State.gnSync s) := by
  unfold State.gnSync
  repeat' first
    | with_reducible assumption
    | with_reducible apply State.wr_moves

theorem State.huSync_moves {a s : State} (h : Moves a s) :
    Moves a (State.huSync s) := by
  unfold State.huSync
  repeat' first
    | with_reducible assumption
    | with_reducible apply State.wr_moves
    | with_reducible apply State.raise_moves
    | with_reducible apply Moves.ite

theorem State.msixScan_moves {a s : State} (h : Moves a s) :
    Moves a (State.msixScan s) := by
  unfold State.msixScan
  repeat' first
    | with_reducible assumption
    | simp only [Moves.put_iff]

theorem State.pcieReset_moves {a s : State} (h : Moves a s) :
    Moves a (State.pcieReset s) := by
  unfold State.pcieReset
  repeat' first
    | with_reducible assumption
    | with_reducible apply State.raise_moves
    | with_reducible apply State.inc_moves
    | with_reducible apply State.wr_moves
    | with_reducible apply Moves.ite
    | with_reducible apply Moves.foldl
    | intro _ _ _

theorem State.msixDue_moves {a s : State} (v : Nat) (h : Moves a s) :
    Moves a (State.msixDue s v) := by
  unfold State.msixDue
  repeat' first
    | with_reducible assumption
    | with_reducible apply State.wr_moves
    | with_reducible apply State.raise_moves
    | with_reducible apply State.emit_moves
    | with_reducible apply State.inc_moves
    | with_reducible apply Moves.ite
    | simp only [Moves.put_iff]

theorem State.vecEoi_moves {a s : State} (v : Nat) (h : Moves a s) :
    Moves a (State.vecEoi s v) := by
  unfold State.vecEoi
  repeat' first
    | with_reducible assumption
    | with_reducible apply State.msixDue_moves
    | with_reducible apply State.msixScan_moves
    | with_reducible apply Moves.ite
    | simp only [Moves.put_iff]

theorem State.msixUnmask_moves {a s : State} (v : Nat) (h : Moves a s) :
    Moves a (State.msixUnmask s v) := by
  unfold State.msixUnmask
  repeat' first
    | with_reducible assumption
    | with_reducible apply State.wr_moves
    | with_reducible apply State.msixDue_moves
    | with_reducible apply Moves.ite

theorem State.ethTail_moves {a s : State} (port : Nat) (tail : Fld) (head : Fld) (log : Fld) (v : Nat) (h : Moves a s) :
    Moves a (State.ethTail s port tail head log v) := by
  unfold State.ethTail
  repeat' first
    | with_reducible assumption
    | with_reducible apply State.wr_moves
    | with_reducible apply Moves.ite

theorem State.ptpLive_moves {a s : State} (port : Nat) (b : Bool) (h : Moves a s) :
    Moves a (State.ptpLive s port b) := by
  unfold State.ptpLive
  repeat' first
    | with_reducible assumption
    | with_reducible apply State.refCheckAll_moves
    | with_reducible apply Moves.ite
    | simp only [Moves.put_iff]

theorem State.ptpMeas_moves {a s : State} (port : Nat) (v : Nat) (h : Moves a s) :
    Moves a (State.ptpMeas s port v) := by
  unfold State.ptpMeas
  repeat' first
    | with_reducible assumption
    | with_reducible apply State.wr_moves
    | with_reducible apply State.ptpLive_moves
    | simp only [Moves.put_iff]

theorem State.gnPut_moves {a s : State} (v : Nat) (h : Moves a s) :
    Moves a (State.gnPut s v) := by
  unfold State.gnPut
  repeat' first
    | with_reducible assumption
    | with_reducible apply State.gnSync_moves
    | with_reducible apply Moves.ite
    | simp only [Moves.put_iff]

theorem State.huPut_moves {a s : State} (v : Nat) (h : Moves a s) :
    Moves a (State.huPut s v) := by
  unfold State.huPut
  repeat' first
    | with_reducible assumption
    | with_reducible apply State.huSync_moves
    | with_reducible apply Moves.ite
    | simp only [Moves.put_iff]

theorem State.gpioEdges_moves {a s old : State} (h : Moves a s) (hold : Moves a old) :
    Moves a (State.gpioEdges s old) := by
  unfold State.gpioEdges
  repeat' first
    | with_reducible assumption
    | with_reducible apply State.wr_moves
    | with_reducible apply State.raise_moves
    | with_reducible apply Moves.ite
    | with_reducible apply Moves.foldl
    | intro _ _ _

theorem State.extRead_moves {a s : State} (v1 : Nat) (n : Nat) (h : Moves a s) :
    Moves a (State.extRead s v1 n).1 := by
  unfold State.extRead
  repeat' first
    | with_reducible assumption
    | with_reducible apply State.skRead_moves
    | with_reducible apply State.badAccess_moves
    | with_reducible apply State.guardRefuse_moves
    | with_reducible apply State.noteRead_moves
    | split

theorem State.extWrite_moves {a s : State} (v1 : Nat) (bs : List Byte) (h : Moves a s) :
    Moves a (State.extWrite s v1 bs).1 := by
  unfold State.extWrite
  repeat' first
    | with_reducible assumption
    | with_reducible apply State.skWrite_moves
    | with_reducible apply State.badAccess_moves
    | with_reducible apply State.guardRefuse_moves
    | with_reducible apply State.poke_moves
    | split

theorem State.iommuFault_moves {a s : State} (src : Nat) (iova : Nat) (h : Moves a s) :
    Moves a (State.iommuFault s src iova) := by
  unfold State.iommuFault
  repeat' first
    | with_reducible assumption
    | with_reducible apply State.raise_moves
    | with_reducible apply State.wr_moves
    | with_reducible apply State.inc_moves
    | with_reducible apply Moves.ite

theorem State.dmaRead_moves {a s : State} (port : Nat) (iova : Nat) (n : Nat) (h : Moves a s) :
    Moves a (State.dmaRead s port iova n).1 := by
  unfold State.dmaRead
  repeat' first
    | with_reducible assumption
    | with_reducible apply State.extRead_moves
    | with_reducible apply State.iommuFault_moves
    | split

theorem State.dmaWrite_moves {a s : State} (port : Nat) (iova : Nat) (bs : List Byte) (h : Moves a s) :
    Moves a (State.dmaWrite s port iova bs).1 := by
  unfold State.dmaWrite
  repeat' first
    | with_reducible assumption
    | with_reducible apply State.extWrite_moves
    | with_reducible apply State.iommuFault_moves
    | split

theorem State.ethDrop_moves {a s : State} (f : Fld) (port : Nat) (h : Moves a s) :
    Moves a (State.ethDrop s f port) := by
  unfold State.ethDrop
  repeat' first
    | with_reducible assumption
    | with_reducible apply State.raise_moves
    | with_reducible apply State.inc_moves

theorem State.ethLink_moves {a s : State} (port : Nat) (speed : Nat) (h : Moves a s) :
    Moves a (State.ethLink s port speed) := by
  unfold State.ethLink
  repeat' first
    | with_reducible assumption
    | with_reducible apply State.raise_moves
    | with_reducible apply State.wr_moves
    | with_reducible apply State.wrB_moves
    | with_reducible apply Moves.ite

theorem State.ethReceive_moves {a s : State} (port : Nat) (bs : List Byte) (h : Moves a s) :
    Moves a (State.ethReceive s port bs) := by
  unfold State.ethReceive
  repeat' first
    | with_reducible assumption
    | with_reducible apply State.ethDrop_moves
    | with_reducible apply State.dmaRead_moves
    | with_reducible apply State.dmaWrite_moves
    | with_reducible apply State.raise_moves
    | with_reducible apply State.addW_moves
    | simp only [Moves.put_iff]
    | split
    | (refine Moves.fstEq (by with_reducible assumption) ?_)

theorem State.ethRx_moves {a s : State} (port : Nat) (bs : List Byte) (fcsOk : Bool) (h : Moves a s) :
    Moves a (State.ethRx s port bs fcsOk) := by
  unfold State.ethRx
  repeat' first
    | with_reducible assumption
    | with_reducible apply State.ethDrop_moves
    | with_reducible apply State.inc_moves
    | with_reducible apply State.ethReceive_moves
    | with_reducible apply Moves.ite

theorem State.ethTx_moves {a s : State} (port : Nat) (h : Moves a s) :
    Moves a (State.ethTx s port) := by
  unfold State.ethTx
  repeat' first
    | with_reducible assumption
    | with_reducible apply State.dmaRead_moves
    | with_reducible apply State.addW_moves
    | with_reducible apply State.emit_moves
    | with_reducible apply State.dmaWrite_moves
    | with_reducible apply State.raise_moves
    | simp only [Moves.put_iff]
    | split
    | (refine Moves.fstEq (by with_reducible assumption) ?_)

theorem State.gpioPin_moves {a s : State} (n : Nat) (drive : Bool) (level : Bool) (h : Moves a s) :
    Moves a (State.gpioPin s n drive level) := by
  unfold State.gpioPin
  repeat' first
    | with_reducible assumption
    | with_reducible apply State.gpioEdges_moves
    | with_reducible apply Moves.ite
    | simp only [Moves.put_iff]

theorem State.msixSend_moves {a s0 : State} (v : Nat) (hs0 : Moves a s0) :
    Moves a (State.msixSend s0 v) := by
  unfold State.msixSend
  repeat' first
    | with_reducible assumption
    | with_reducible apply State.msixScan_moves
    | with_reducible apply State.msixDue_moves
    | with_reducible apply Moves.ite

theorem State.pcieLinkUp_moves {a s : State} (speed : Nat) (width : Nat) (h : Moves a s) :
    Moves a (State.pcieLinkUp s speed width) := by
  unfold State.pcieLinkUp
  repeat' first
    | with_reducible assumption
    | with_reducible apply State.raise_moves
    | with_reducible apply State.wr_moves
    | with_reducible apply Moves.ite

theorem State.ppsEdge_moves {a s : State} (rising : Bool) (h : Moves a s) :
    Moves a (State.ppsEdge s rising) := by
  unfold State.ppsEdge
  repeat' first
    | with_reducible assumption
    | with_reducible apply State.raise_moves
    | with_reducible apply State.inc_moves
    | with_reducible apply State.wr_moves
    | with_reducible apply State.refCheckAll_moves
    | with_reducible apply Moves.ite
    | simp only [Moves.put_iff]

theorem State.ppsMissing_moves {a s : State} (h : Moves a s) :
    Moves a (State.ppsMissing s) := by
  unfold State.ppsMissing
  repeat' first
    | with_reducible assumption
    | with_reducible apply State.refCheckAll_moves
    | with_reducible apply Moves.ite
    | simp only [Moves.put_iff]

theorem State.ptpTimeout_moves {a s : State} (port : Nat) (h : Moves a s) :
    Moves a (State.ptpTimeout s port) := by
  unfold State.ptpTimeout
  repeat' first
    | with_reducible assumption
    | with_reducible apply State.ptpLive_moves
    | with_reducible apply Moves.ite
    | simp only [Moves.put_iff]

theorem State.uartSent_moves {a s : State} (port : Nat) (h : Moves a s) :
    Moves a (State.uartSent s port) := by
  unfold State.uartSent
  repeat' first
    | with_reducible assumption
    | with_reducible apply State.gnSync_moves
    | with_reducible apply State.emit_moves
    | with_reducible apply State.huSync_moves
    | simp only [Moves.put_iff]
    | split

theorem execEthLinkChange_moves {a s : State} (port : Fin 2) (speed : Fin 3) (h : Moves a s) :
    ∃ t, execEthLinkChange port speed s = .next t ∧ Moves a t := by
  unfold execEthLinkChange
  refine ⟨_, rfl, ?_⟩
  repeat' first
    | with_reducible assumption
    | with_reducible apply State.ethLink_moves

theorem execEthRxFrame_moves {a s : State} (port : Fin 2) (bytes : List Byte) (fcsOk : Bool) (h : Moves a s) :
    ∃ t, execEthRxFrame port bytes fcsOk s = .next t ∧ Moves a t := by
  unfold execEthRxFrame
  refine ⟨_, rfl, ?_⟩
  repeat' first
    | with_reducible assumption
    | with_reducible apply State.ethRx_moves

theorem execEthRxTail_moves {a s : State} (port : Fin 2) (v : Word) (h : Moves a s) :
    ∃ t, execEthRxTail port v s = .next t ∧ Moves a t := by
  unfold execEthRxTail
  refine ⟨_, rfl, ?_⟩
  repeat' first
    | with_reducible assumption
    | with_reducible apply State.reach_moves
    | with_reducible apply State.ethTail_moves
    | intro _ _

theorem execEthTxFrame_moves {a s : State} (port : Fin 2) (h : Moves a s) :
    ∃ t, execEthTxFrame port s = .next t ∧ Moves a t := by
  unfold execEthTxFrame
  refine ⟨_, rfl, ?_⟩
  repeat' first
    | with_reducible assumption
    | with_reducible apply State.ethTx_moves

theorem execEthTxTail_moves {a s : State} (port : Fin 2) (v : Word) (h : Moves a s) :
    ∃ t, execEthTxTail port v s = .next t ∧ Moves a t := by
  unfold execEthTxTail
  refine ⟨_, rfl, ?_⟩
  repeat' first
    | with_reducible assumption
    | with_reducible apply State.reach_moves
    | with_reducible apply State.ethTail_moves
    | intro _ _

theorem execGnssRxByte_moves {a s : State} (b : Byte) (h : Moves a s) :
    ∃ t, execGnssRxByte b s = .next t ∧ Moves a t := by
  unfold execGnssRxByte
  refine ⟨_, rfl, ?_⟩
  repeat' first
    | with_reducible assumption
    | with_reducible apply State.inc_moves
    | with_reducible apply State.gnSync_moves
    | with_reducible apply Moves.ite
    | simp only [Moves.put_iff]

theorem execGnssTxByte_moves {a s : State} (v : Word) (h : Moves a s) :
    ∃ t, execGnssTxByte v s = .next t ∧ Moves a t := by
  unfold execGnssTxByte
  refine ⟨_, rfl, ?_⟩
  repeat' first
    | with_reducible assumption
    | with_reducible apply State.reach_moves
    | with_reducible apply State.gnPut_moves
    | intro _ _

theorem execGpioEdge_moves {a s : State} (n : Fin 11) (drive : Bool) (level : Bool) (h : Moves a s) :
    ∃ t, execGpioEdge n drive level s = .next t ∧ Moves a t := by
  unfold execGpioEdge
  refine ⟨_, rfl, ?_⟩
  repeat' first
    | with_reducible assumption
    | with_reducible apply State.gpioPin_moves

theorem execHuRxByte_moves {a s : State} (b : Byte) (good : Bool) (h : Moves a s) :
    ∃ t, execHuRxByte b good s = .next t ∧ Moves a t := by
  unfold execHuRxByte
  refine ⟨_, rfl, ?_⟩
  repeat' first
    | with_reducible assumption
    | with_reducible apply State.raise_moves
    | with_reducible apply State.inc_moves
    | with_reducible apply State.huSync_moves
    | with_reducible apply Moves.ite
    | simp only [Moves.put_iff]

theorem execHuTxByte_moves {a s : State} (v : Word) (h : Moves a s) :
    ∃ t, execHuTxByte v s = .next t ∧ Moves a t := by
  unfold execHuTxByte
  refine ⟨_, rfl, ?_⟩
  repeat' first
    | with_reducible assumption
    | with_reducible apply State.reach_moves
    | with_reducible apply State.huPut_moves
    | intro _ _

theorem execMsixSend_moves {a s : State} (v : Fin 64) (h : Moves a s) :
    ∃ t, execMsixSend v s = .next t ∧ Moves a t := by
  unfold execMsixSend
  refine ⟨_, rfl, ?_⟩
  repeat' first
    | with_reducible assumption
    | with_reducible apply State.msixSend_moves

theorem execMsixUnmask_moves {a s : State} (v : Fin 64) (h : Moves a s) :
    ∃ t, execMsixUnmask v s = .next t ∧ Moves a t := by
  unfold execMsixUnmask
  refine ⟨_, rfl, ?_⟩
  repeat' first
    | with_reducible assumption
    | with_reducible apply State.reach_moves
    | with_reducible apply State.msixUnmask_moves
    | intro _ _

theorem execPcieLinkDown_moves {a s : State} (h : Moves a s) :
    ∃ t, execPcieLinkDown s = .next t ∧ Moves a t := by
  unfold execPcieLinkDown
  refine ⟨_, rfl, ?_⟩
  repeat' first
    | with_reducible assumption
    | with_reducible apply State.pcieReset_moves
    | with_reducible apply Moves.ite

theorem execPcieLinkUp_moves {a s : State} (speed : BitVec 3) (width : BitVec 3) (h : Moves a s) :
    ∃ t, execPcieLinkUp speed width s = .next t ∧ Moves a t := by
  unfold execPcieLinkUp
  refine ⟨_, rfl, ?_⟩
  repeat' first
    | with_reducible assumption
    | with_reducible apply State.pcieLinkUp_moves

theorem execPerst_moves {a s : State} (h : Moves a s) :
    ∃ t, execPerst s = .next t ∧ Moves a t := by
  unfold execPerst
  refine ⟨_, rfl, ?_⟩
  repeat' first
    | with_reducible assumption
    | with_reducible apply State.raise_moves
    | with_reducible apply State.inc_moves
    | with_reducible apply State.pcieReset_moves
    | with_reducible apply Moves.ite

theorem execPpsEdge_moves {a s : State} (rising : Bool) (h : Moves a s) :
    ∃ t, execPpsEdge rising s = .next t ∧ Moves a t := by
  unfold execPpsEdge
  refine ⟨_, rfl, ?_⟩
  repeat' first
    | with_reducible assumption
    | with_reducible apply State.ppsEdge_moves

theorem execPpsMissing_moves {a s : State} (h : Moves a s) :
    ∃ t, execPpsMissing s = .next t ∧ Moves a t := by
  unfold execPpsMissing
  refine ⟨_, rfl, ?_⟩
  repeat' first
    | with_reducible assumption
    | with_reducible apply State.ppsMissing_moves

theorem execPtpMeas_moves {a s : State} (port : Fin 2) (v : Word) (h : Moves a s) :
    ∃ t, execPtpMeas port v s = .next t ∧ Moves a t := by
  unfold execPtpMeas
  refine ⟨_, rfl, ?_⟩
  repeat' first
    | with_reducible assumption
    | with_reducible apply State.reach_moves
    | with_reducible apply State.ptpMeas_moves
    | intro _ _

theorem execPtpTimeout_moves {a s : State} (port : Fin 2) (h : Moves a s) :
    ∃ t, execPtpTimeout port s = .next t ∧ Moves a t := by
  unfold execPtpTimeout
  refine ⟨_, rfl, ?_⟩
  repeat' first
    | with_reducible assumption
    | with_reducible apply State.ptpTimeout_moves

theorem execUartByteSent_moves {a s : State} (port : Fin 2) (h : Moves a s) :
    ∃ t, execUartByteSent port s = .next t ∧ Moves a t := by
  unfold execUartByteSent
  refine ⟨_, rfl, ?_⟩
  repeat' first
    | with_reducible assumption
    | with_reducible apply State.uartSent_moves

theorem execVecEoi_moves {a s : State} (v : Fin 64) (w : Word) (h : Moves a s) :
    ∃ t, execVecEoi v w s = .next t ∧ Moves a t := by
  unfold execVecEoi
  refine ⟨_, rfl, ?_⟩
  repeat' first
    | with_reducible assumption
    | with_reducible apply State.reach_moves
    | with_reducible apply State.vecEoi_moves
    | with_reducible apply Moves.ite
    | intro _ _

end Sys2Proof.Machine
end

