-- ==== Sys2Proof/Laws/MovesReset.lean ====
section
/-! SUPPORT. What each operation of Machine/Reset.lean may do to the stores and the queue (Safety.lean, Moves): one lemma for each. -/

namespace Sys2Proof.Machine

open Host Sys2Proof

theorem State.clearPage_moves {a s : State} (page : Nat) (h : Moves a s) :
    Moves a (State.clearPage s page) := by
  exact h.regsFilter (fun c => !keyLost page c.1) (fun c => !keyLost page c.1) rfl (Or.inr (Or.inl rfl)) rfl rfl rfl

theorem State.clearAudio_moves {a s : State} (h : Moves a s) :
    Moves a (State.clearAudio s) := by
  unfold State.clearAudio
  repeat' first
    | with_reducible assumption
    | simp only [Moves.put_iff]

theorem State.clearPort_moves {a s : State} (p : Nat) (h : Moves a s) :
    Moves a (State.clearPort s p) := by
  unfold State.clearPort
  repeat' first
    | with_reducible assumption
    | simp only [Moves.put_iff]

theorem State.clearSieve_moves {a s : State} (v : Nat) (h : Moves a s) :
    Moves a (State.clearSieve s v) := by
  unfold State.clearSieve
  repeat' first
    | with_reducible assumption
    | with_reducible apply State.bufSweep_moves
    | simp only [Moves.put_iff]

theorem State.dropRefs_moves {a s : State} (bit : Nat) (h : Moves a s) :
    Moves a (State.dropRefs s bit) := by
  unfold State.dropRefs
  repeat' first
    | with_reducible assumption
    | with_reducible apply State.svSweep_moves
    | simp only [Moves.put_iff]

theorem State.clearInner_moves {a s : State} (i : Nat) (h : Moves a s) :
    Moves a (State.clearInner s i) := by
  unfold State.clearInner
  repeat' first
    | with_reducible assumption
    | with_reducible apply State.clearPort_moves
    | with_reducible apply State.clearSieve_moves
    | with_reducible apply State.dropRefs_moves
    | with_reducible apply State.ptpLive_moves
    | with_reducible apply State.brReset_moves
    | with_reducible apply State.clearAudio_moves
    | with_reducible apply Moves.ite
    | simp only [Moves.put_iff]

theorem State.clearBlock_moves {a s : State} (i : Nat) (h : Moves a s) :
    Moves a (State.clearBlock s i) := by
  unfold State.clearBlock
  repeat' first
    | with_reducible assumption
    | with_reducible apply State.pcieReset_moves
    | with_reducible apply State.clearInner_moves
    | with_reducible apply State.clearPage_moves
    | with_reducible apply Moves.ite

end Sys2Proof.Machine
end

