-- ==== Sys2Proof/Laws/MovesPower.lean ====
section
/-! SUPPORT. What each operation of Machine/Power.lean may do to the stores and the queue (Safety.lean, Moves): one lemma for each. -/

namespace Sys2Proof.Machine

open Host Sys2Proof

theorem State.psErr_moves {a s : State} (code : Nat) (h : Moves a s) :
    Moves a (State.psErr s code) := by
  unfold State.psErr
  repeat' first
    | with_reducible assumption
    | with_reducible apply State.raise_moves
    | with_reducible apply State.wr_moves

theorem State.psReq_moves {a s : State} (to_ : Nat) (k : State → State) (h : Moves a s) (hk : ∀ y0, Moves a y0 → Moves a (k y0)) :
    Moves a (State.psReq s to_ k) := by
  unfold State.psReq
  repeat' first
    | with_reducible assumption
    | with_reducible apply State.psErr_moves
    | with_reducible apply hk
    | with_reducible apply Moves.ite

theorem State.psAccept_moves {a s : State} (to_ : Nat) (gate : Nat) (h : Moves a s) :
    Moves a (State.psAccept s to_ gate) := by
  unfold State.psAccept
  repeat' first
    | with_reducible assumption
    | with_reducible apply State.wr_moves
    | simp only [Moves.put_iff]

theorem State.psRun_moves {a s : State} (h : Moves a s) :
    Moves a (State.psRun s) := by
  unfold State.psRun
  repeat' first
    | with_reducible assumption
    | with_reducible apply State.psReq_moves
    | with_reducible apply State.psErr_moves
    | with_reducible apply State.psAccept_moves
    | with_reducible apply Moves.ite
    | intro _ _

theorem State.psWatch_moves {a s : State} (h : Moves a s) :
    Moves a (State.psWatch s) := by
  unfold State.psWatch
  repeat' first
    | with_reducible assumption
    | with_reducible apply State.psReq_moves
    | with_reducible apply State.psErr_moves
    | with_reducible apply State.psAccept_moves
    | intro _ _
    | split

theorem State.psDown_moves {a s : State} (to_ : Nat) (h : Moves a s) :
    Moves a (State.psDown s to_) := by
  unfold State.psDown
  repeat' first
    | with_reducible assumption
    | with_reducible apply State.psReq_moves
    | with_reducible apply State.psErr_moves
    | with_reducible apply State.psAccept_moves
    | with_reducible apply State.mbEnd_moves
    | with_reducible apply State.offDefer_moves
    | with_reducible apply State.pdmCall_moves
    | with_reducible apply Moves.ite
    | intro _ _

theorem State.kgateReq_moves {a s : State} (v : Nat) (h : Moves a s) :
    Moves a (State.kgateReq s v) := by
  unfold State.kgateReq
  repeat' first
    | with_reducible assumption
    | with_reducible apply State.psErr_moves
    | with_reducible apply State.wr_moves
    | with_reducible apply State.psAccept_moves
    | with_reducible apply Moves.ite

theorem State.hostEn_moves {a s : State} (v : Nat) (h : Moves a s) :
    Moves a (State.hostEn s v) := by
  unfold State.hostEn
  repeat' first
    | with_reducible assumption
    | with_reducible apply State.wr_moves
    | with_reducible apply Moves.ite
    | simp only [Moves.put_iff]

theorem State.setGrp_moves {a s : State} (g : Nat) (x : GrpSt) (h : Moves a s) :
    Moves a (State.setGrp s g x) := by
  unfold State.setGrp
  repeat' first
    | with_reducible assumption
    | simp only [Moves.put_iff]

theorem State.bypassFall_moves {a s : State} (g : Nat) (op : Nat) (h : Moves a s) :
    Moves a (State.bypassFall s g op) := by
  unfold State.bypassFall
  repeat' first
    | with_reducible assumption
    | with_reducible apply State.wr_moves
    | with_reducible apply Moves.ite

theorem State.opBusySync_moves {a s : State} (h : Moves a s) :
    Moves a (State.opBusySync s) := by
  unfold State.opBusySync
  repeat' first
    | with_reducible assumption
    | with_reducible apply State.wrB_moves

theorem State.opKick_moves {a s : State} (g : Nat) (h : Moves a s) :
    Moves a (State.opKick s g) := by
  unfold State.opKick
  repeat' first
    | with_reducible assumption
    | with_reducible apply State.setGrp_moves
    | with_reducible apply State.pllRelock_moves
    | with_reducible apply State.wr_moves
    | with_reducible apply State.bypassFall_moves
    | with_reducible apply State.opBusySync_moves
    | simp only [Moves.put_iff]
    | split

theorem State.opKickAll_moves {a s : State} (h : Moves a s) :
    Moves a (State.opKickAll s) := by
  unfold State.opKickAll
  repeat' first
    | with_reducible assumption
    | with_reducible apply State.opKick_moves
    | with_reducible apply Moves.ite

theorem State.opReqWrite_moves {a s : State} (v : Nat) (h : Moves a s) :
    Moves a (State.opReqWrite s v) := by
  unfold State.opReqWrite
  repeat' first
    | with_reducible assumption
    | with_reducible apply State.opKickAll_moves
    | with_reducible apply State.wr_moves

theorem State.padRelease_moves {a s : State} (v : Nat) (h : Moves a s) :
    Moves a (State.padRelease s v) := by
  unfold State.padRelease
  repeat' first
    | with_reducible assumption
    | with_reducible apply State.wr_moves
    | with_reducible apply State.inc_moves
    | with_reducible apply Moves.ite
    | with_reducible apply Moves.foldl
    | intro _ _ _

theorem State.floorSettle_moves {a s : State} (h : Moves a s) :
    Moves a (State.floorSettle s) := by
  unfold State.floorSettle
  repeat' first
    | with_reducible assumption
    | simp only [Moves.put_iff]

theorem State.floorWrite_moves {a s : State} (part : Nat) (v : Nat) (h : Moves a s) :
    Moves a (State.floorWrite s part v) := by
  unfold State.floorWrite
  repeat' first
    | with_reducible assumption
    | with_reducible apply State.wr_moves
    | with_reducible apply State.partErr_moves
    | with_reducible apply State.opKickAll_moves
    | with_reducible apply State.floorSettle_moves
    | with_reducible apply Moves.ite
    | simp only [Moves.put_iff]

theorem State.firmwareOff_moves {a s : State} (rest : Bool) (h : Moves a s) :
    Moves a (State.firmwareOff s rest) := by
  unfold State.firmwareOff
  repeat' first
    | with_reducible assumption
    | with_reducible apply Moves.ite
    | simp only [Moves.put_iff]

theorem State.mainOff_moves {a s0 : State} (rest : Bool) (hs0 : Moves a s0) :
    Moves a (State.mainOff s0 rest) := by
  unfold State.mainOff
  repeat' first
    | with_reducible assumption
    | (lift_lets; intro x; refine Moves.cut (P := Moves a x) ?_ ?_; subst x; rotate_left; intro hx; clear_value x; rotate_right)
    | (refine Moves.regsFilter (s := x) ?_ (fun c => keyStays c.1) (fun _ => true) rfl (Or.inr (Or.inr rfl)) rfl rfl rfl)
    | with_reducible apply State.firmwareOff_moves
    | with_reducible apply State.orrMainOff_moves
    | with_reducible apply State.flashBreak_moves
    | with_reducible apply State.wr_moves
    | with_reducible apply State.forget_moves

theorem State.mainStart_moves {a s : State} (cause : Nat) (h : Moves a s) :
    Moves a (State.mainStart s cause) := by
  unfold State.mainStart
  repeat' first
    | with_reducible assumption
    | with_reducible apply State.wr_moves
    | with_reducible apply State.wrB_moves
    | with_reducible apply State.orrMainOn_moves
    | with_reducible apply Moves.ite
    | simp only [Moves.put_iff]
    | with_reducible apply Moves.foldl
    | intro _ _ _

theorem State.emergStart_moves {a s : State} (h : Moves a s) :
    Moves a (State.emergStart s) := by
  unfold State.emergStart
  repeat' first
    | with_reducible assumption
    | with_reducible apply State.opKickAll_moves
    | with_reducible apply State.breachSync_moves
    | with_reducible apply State.raise_moves
    | with_reducible apply State.inc_moves
    | with_reducible apply State.wr_moves

theorem State.tjSample_moves {a s : State} (temp : Nat) (src : Nat) (h : Moves a s) :
    Moves a (State.tjSample s temp src) := by
  unfold State.tjSample
  repeat' first
    | with_reducible assumption
    | with_reducible apply State.wr_moves
    | with_reducible apply State.raise_moves
    | with_reducible apply State.wrB_moves
    | with_reducible apply State.emergStart_moves
    | with_reducible apply Moves.ite

theorem State.emergEnd_moves {a s : State} (temp : Nat) (src : Nat) (h : Moves a s) :
    Moves a (State.emergEnd s temp src) := by
  unfold State.emergEnd
  repeat' first
    | with_reducible assumption
    | with_reducible apply State.opKickAll_moves
    | with_reducible apply State.tjSample_moves
    | with_reducible apply State.breachSync_moves
    | with_reducible apply State.raise_moves
    | with_reducible apply State.wr_moves
    | with_reducible apply Moves.ite

theorem State.kettleGate_moves {a s : State} (k : Nat) (h : Moves a s) :
    Moves a (State.kettleGate s k) := by
  unfold State.kettleGate
  repeat' first
    | with_reducible assumption
    | with_reducible apply State.forget_moves
    | with_reducible apply State.clearPage_moves
    | with_reducible apply State.killCanary_moves
    | with_reducible apply State.wr_moves
    | simp only [Moves.put_iff]
    | split

theorem State.kettleUngate_moves {a s : State} (k : Nat) (h : Moves a s) :
    Moves a (State.kettleUngate s k) := by
  unfold State.kettleUngate
  repeat' first
    | with_reducible assumption
    | with_reducible apply State.wr_moves
    | with_reducible apply State.clearPantry_moves
    | split

theorem State.leaveOff_moves {a s : State} (h : Moves a s) :
    Moves a (State.leaveOff s) := by
  unfold State.leaveOff
  repeat' first
    | with_reducible assumption
    | with_reducible apply Moves.ite
    | simp only [Moves.put_iff]

theorem State.loadTimers_moves {a s : State} (v1 : List (Nat × Nat)) (h : Moves a s) :
    Moves a (State.loadTimers s v1) := by
  induction v1 generalizing s with
  | nil => unfold State.loadTimers; exact h
  | cons x t ih =>
    unfold State.loadTimers
    repeat' first
      | with_reducible assumption
      | with_reducible apply ih
      | with_reducible apply State.wr_moves
      | split

theorem State.mainPowerGood_moves {a s : State} (bootsel : Bool) (cab : Nat) (temp : Nat) (src : Nat) (h : Moves a s) :
    Moves a (State.mainPowerGood s bootsel cab temp src) := by
  unfold State.mainPowerGood
  repeat' first
    | with_reducible assumption
    | with_reducible apply State.wr_moves
    | with_reducible apply State.wrB_moves
    | with_reducible apply State.mainStart_moves
    | with_reducible apply State.pdmCall_moves
    | with_reducible apply State.streamResume_moves
    | with_reducible apply State.tjSample_moves
    | with_reducible apply Moves.ite

theorem State.memoryOff_moves {a s : State} (h : Moves a s) :
    Moves a (State.memoryOff s) := by
  unfold State.memoryOff
  repeat' first
    | with_reducible assumption
    | with_reducible apply State.forget_moves

theorem State.opStep_moves {a s : State} (g : Nat) (h : Moves a s) :
    Moves a (State.opStep s g) := by
  unfold State.opStep
  repeat' first
    | with_reducible assumption
    | with_reducible apply State.setGrp_moves
    | with_reducible apply State.opKick_moves
    | with_reducible apply State.raise_moves
    | with_reducible apply State.floorSettle_moves
    | with_reducible apply State.opBusySync_moves
    | with_reducible apply State.wr_moves
    | simp only [Moves.put_iff]
    | split

theorem State.padHold_moves {a s : State} (mask : Nat) (h : Moves a s) :
    Moves a (State.padHold s mask) := by
  unfold State.padHold
  repeat' first
    | with_reducible assumption
    | with_reducible apply State.wr_moves

theorem State.pilotOff_moves {a s : State} (h : Moves a s) :
    Moves a (State.pilotOff s) := by
  unfold State.pilotOff
  repeat' first
    | with_reducible assumption
    | (refine Moves.regsFilter (s := s) ?_ _ (fun _ => true) rfl (Or.inl rfl) rfl rfl rfl)
    | with_reducible apply State.forget_moves

theorem State.pilotPowerGood_moves {a s : State} (h : Moves a s) :
    Moves a (State.pilotPowerGood s) := by
  unfold State.pilotPowerGood
  repeat' first
    | with_reducible assumption
    | with_reducible apply Moves.ite
    | simp only [Moves.put_iff]

theorem State.railsOff_moves {a s : State} (to_ : Nat) (h : Moves a s) :
    Moves a (State.railsOff s to_) := by
  unfold State.railsOff
  repeat' first
    | with_reducible assumption
    | with_reducible apply State.loadTimers_moves
    | with_reducible apply State.mainOff_moves
    | with_reducible apply State.memoryOff_moves
    | with_reducible apply State.pilotOff_moves
    | with_reducible apply Moves.ite
    | simp only [Moves.put_iff]

theorem State.runEnter_moves {a s : State} (h : Moves a s) :
    Moves a (State.runEnter s) := by
  unfold State.runEnter
  repeat' first
    | with_reducible assumption
    | simp only [Moves.put_iff]

theorem State.thermTrip_moves {a s : State} (temp : Nat) (h : Moves a s) :
    Moves a (State.thermTrip s temp) := by
  unfold State.thermTrip
  repeat' first
    | with_reducible assumption
    | with_reducible apply State.memoryOff_moves
    | with_reducible apply State.mainOff_moves
    | with_reducible apply Moves.ite
    | simp only [Moves.put_iff]

theorem State.transAbort_moves {a s : State} (h : Moves a s) :
    Moves a (State.transAbort s) := by
  unfold State.transAbort
  repeat' first
    | with_reducible assumption
    | with_reducible apply State.pdmCall_moves
    | with_reducible apply State.inc_moves
    | with_reducible apply State.psErr_moves
    | with_reducible apply State.wr_moves
    | simp only [Moves.put_iff]

theorem State.transDone_moves {a s : State} (h : Moves a s) :
    Moves a (State.transDone s) := by
  unfold State.transDone
  repeat' first
    | with_reducible assumption
    | with_reducible apply State.raise_moves
    | with_reducible apply State.inc_moves
    | with_reducible apply State.wr_moves
    | simp only [Moves.put_iff]

theorem State.watchEnter_moves {a s : State} (h : Moves a s) :
    Moves a (State.watchEnter s) := by
  unfold State.watchEnter
  repeat' first
    | with_reducible assumption
    | with_reducible apply State.clearBlock_moves
    | with_reducible apply State.skLeave_moves
    | with_reducible apply State.padHold_moves
    | with_reducible apply State.clearPage_moves
    | simp only [Moves.put_iff]
    | with_reducible apply Moves.foldl

theorem State.transition_moves {a s : State} (h : Moves a s) :
    Moves a (State.transition s) := by
  unfold State.transition
  repeat' first
    | with_reducible assumption
    | with_reducible apply State.railsOff_moves
    | with_reducible apply State.wr_moves
    | with_reducible apply State.transDone_moves
    | with_reducible apply State.watchEnter_moves
    | with_reducible apply State.runEnter_moves
    | split

theorem State.vinClear_moves {a s : State} (mv : Nat) (h : Moves a s) :
    Moves a (State.vinClear s mv) := by
  unfold State.vinClear
  repeat' first
    | with_reducible assumption
    | with_reducible apply State.wr_moves
    | with_reducible apply Moves.ite
    | simp only [Moves.put_iff]

theorem State.vinWarn_moves {a s : State} (mv : Nat) (h : Moves a s) :
    Moves a (State.vinWarn s mv) := by
  unfold State.vinWarn
  repeat' first
    | with_reducible assumption
    | with_reducible apply State.flashQuiesce_moves
    | with_reducible apply State.raise_moves
    | with_reducible apply State.inc_moves
    | with_reducible apply State.wr_moves
    | with_reducible apply Moves.ite
    | simp only [Moves.put_iff]

theorem State.wakeGo_moves {a s : State} (h : Moves a s) :
    Moves a (State.wakeGo s) := by
  unfold State.wakeGo
  repeat' first
    | with_reducible assumption
    | with_reducible apply State.transAbort_moves
    | with_reducible apply Moves.ite
    | simp only [Moves.put_iff]

theorem execFoldbackRetry_moves {a s : State} (out : Fin 13) (ok : Bool) (h : Moves a s) :
    ∃ t, execFoldbackRetry out ok s = .next t ∧ Moves a t := by
  unfold execFoldbackRetry
  refine ⟨_, rfl, ?_⟩
  repeat' first
    | with_reducible assumption
    | with_reducible apply Moves.ite
    | simp only [Moves.put_iff]

theorem execGrpOpReqWrite_moves {a s : State} (v : Word) (h : Moves a s) :
    ∃ t, execGrpOpReqWrite v s = .next t ∧ Moves a t := by
  unfold execGrpOpReqWrite
  refine ⟨_, rfl, ?_⟩
  repeat' first
    | with_reducible assumption
    | with_reducible apply State.reach_moves
    | with_reducible apply State.opReqWrite_moves
    | intro _ _

theorem execHostEnWrite_moves {a s : State} (v : Word) (h : Moves a s) :
    ∃ t, execHostEnWrite v s = .next t ∧ Moves a t := by
  unfold execHostEnWrite
  refine ⟨_, rfl, ?_⟩
  repeat' first
    | with_reducible assumption
    | with_reducible apply State.reach_moves
    | with_reducible apply State.hostEn_moves
    | intro _ _

theorem execKettleGated_moves {a s : State} (k : Fin 16) (h : Moves a s) :
    ∃ t, execKettleGated k s = .next t ∧ Moves a t := by
  unfold execKettleGated
  refine ⟨_, rfl, ?_⟩
  repeat' first
    | with_reducible assumption
    | with_reducible apply State.kettleGate_moves

theorem execKettleUngated_moves {a s : State} (k : Fin 16) (h : Moves a s) :
    ∃ t, execKettleUngated k s = .next t ∧ Moves a t := by
  unfold execKettleUngated
  refine ⟨_, rfl, ?_⟩
  repeat' first
    | with_reducible assumption
    | with_reducible apply State.kettleUngate_moves

theorem execKgateWrite_moves {a s : State} (v : Word) (h : Moves a s) :
    ∃ t, execKgateWrite v s = .next t ∧ Moves a t := by
  unfold execKgateWrite
  refine ⟨_, rfl, ?_⟩
  repeat' first
    | with_reducible assumption
    | with_reducible apply State.reach_moves
    | with_reducible apply State.kgateReq_moves
    | intro _ _

theorem execMainPowerGood_moves {a s : State} (bootsel : Bool) (cab : Fin 8) (temp : Byte) (sensor : Fin 21) (h : Moves a s) :
    ∃ t, execMainPowerGood bootsel cab temp sensor s = .next t ∧ Moves a t := by
  unfold execMainPowerGood
  refine ⟨_, rfl, ?_⟩
  repeat' first
    | with_reducible assumption
    | with_reducible apply State.mainPowerGood_moves

theorem execOpChangeStep_moves {a s : State} (g : Fin 3) (h : Moves a s) :
    ∃ t, execOpChangeStep g s = .next t ∧ Moves a t := by
  unfold execOpChangeStep
  refine ⟨_, rfl, ?_⟩
  repeat' first
    | with_reducible assumption
    | with_reducible apply State.opStep_moves

theorem execOpFloorWrite_moves {a s : State} (v : Word) (h : Moves a s) :
    ∃ t, execOpFloorWrite v s = .next t ∧ Moves a t := by
  unfold execOpFloorWrite
  refine ⟨_, rfl, ?_⟩
  repeat' first
    | with_reducible assumption
    | with_reducible apply State.reach_moves
    | with_reducible apply State.floorWrite_moves
    | intro _ _

theorem execPadRelease_moves {a s : State} (v : Word) (h : Moves a s) :
    ∃ t, execPadRelease v s = .next t ∧ Moves a t := by
  unfold execPadRelease
  refine ⟨_, rfl, ?_⟩
  repeat' first
    | with_reducible assumption
    | with_reducible apply State.reach_moves
    | with_reducible apply State.padRelease_moves
    | intro _ _

theorem execPilotPowerGood_moves {a s : State} (h : Moves a s) :
    ∃ t, execPilotPowerGood s = .next t ∧ Moves a t := by
  unfold execPilotPowerGood
  refine ⟨_, rfl, ?_⟩
  repeat' first
    | with_reducible assumption
    | with_reducible apply State.pilotPowerGood_moves

theorem execPsReqDeep_moves {a s : State} (h : Moves a s) :
    ∃ t, execPsReqDeep s = .next t ∧ Moves a t := by
  unfold execPsReqDeep
  refine ⟨_, rfl, ?_⟩
  repeat' first
    | with_reducible assumption
    | with_reducible apply State.reach_moves
    | with_reducible apply State.psDown_moves
    | intro _ _

theorem execPsReqOff_moves {a s : State} (h : Moves a s) :
    ∃ t, execPsReqOff s = .next t ∧ Moves a t := by
  unfold execPsReqOff
  refine ⟨_, rfl, ?_⟩
  repeat' first
    | with_reducible assumption
    | with_reducible apply State.reach_moves
    | with_reducible apply State.psDown_moves
    | intro _ _

theorem execPsReqRest_moves {a s : State} (h : Moves a s) :
    ∃ t, execPsReqRest s = .next t ∧ Moves a t := by
  unfold execPsReqRest
  refine ⟨_, rfl, ?_⟩
  repeat' first
    | with_reducible assumption
    | with_reducible apply State.reach_moves
    | with_reducible apply State.psDown_moves
    | intro _ _

theorem execPsReqRun_moves {a s : State} (h : Moves a s) :
    ∃ t, execPsReqRun s = .next t ∧ Moves a t := by
  unfold execPsReqRun
  refine ⟨_, rfl, ?_⟩
  repeat' first
    | with_reducible assumption
    | with_reducible apply State.reach_moves
    | with_reducible apply State.psRun_moves

theorem execPsReqWatch_moves {a s : State} (h : Moves a s) :
    ∃ t, execPsReqWatch s = .next t ∧ Moves a t := by
  unfold execPsReqWatch
  refine ⟨_, rfl, ?_⟩
  repeat' first
    | with_reducible assumption
    | with_reducible apply State.reach_moves
    | with_reducible apply State.psWatch_moves

theorem execPwrOnEdge_moves {a s : State} (mv : BitVec 16) (h : Moves a s) :
    ∃ t, execPwrOnEdge mv s = .next t ∧ Moves a t := by
  unfold execPwrOnEdge
  refine ⟨_, rfl, ?_⟩
  repeat' first
    | with_reducible assumption
    | with_reducible apply State.leaveOff_moves
    | with_reducible apply Moves.ite

theorem execSupplyFoldback_moves {a s : State} (out : Fin 13) (h : Moves a s) :
    ∃ t, execSupplyFoldback out s = .next t ∧ Moves a t := by
  unfold execSupplyFoldback
  refine ⟨_, rfl, ?_⟩
  repeat' first
    | with_reducible assumption
    | with_reducible apply Moves.ite
    | simp only [Moves.put_iff]

theorem execThermEmerg_moves {a s : State} (temp : Byte) (sensor : Fin 21) (h : Moves a s) :
    ∃ t, execThermEmerg temp sensor s = .next t ∧ Moves a t := by
  unfold execThermEmerg
  refine ⟨_, rfl, ?_⟩
  repeat' first
    | with_reducible assumption
    | with_reducible apply State.tjSample_moves
    | with_reducible apply Moves.ite

theorem execThermEmergEnd_moves {a s : State} (temp : Byte) (sensor : Fin 21) (h : Moves a s) :
    ∃ t, execThermEmergEnd temp sensor s = .next t ∧ Moves a t := by
  unfold execThermEmergEnd
  refine ⟨_, rfl, ?_⟩
  repeat' first
    | with_reducible assumption
    | with_reducible apply State.emergEnd_moves

theorem execThermTrip_moves {a s : State} (temp : Byte) (v1 : Fin 21) (h : Moves a s) :
    ∃ t, execThermTrip temp v1 s = .next t ∧ Moves a t := by
  unfold execThermTrip
  refine ⟨_, rfl, ?_⟩
  repeat' first
    | with_reducible assumption
    | with_reducible apply State.thermTrip_moves

theorem execThermWarn_moves {a s : State} (temp : Byte) (sensor : Fin 21) (h : Moves a s) :
    ∃ t, execThermWarn temp sensor s = .next t ∧ Moves a t := by
  unfold execThermWarn
  refine ⟨_, rfl, ?_⟩
  repeat' first
    | with_reducible assumption
    | with_reducible apply State.tjSample_moves
    | with_reducible apply Moves.ite

theorem execTransitionComplete_moves {a s : State} (h : Moves a s) :
    ∃ t, execTransitionComplete s = .next t ∧ Moves a t := by
  unfold execTransitionComplete
  refine ⟨_, rfl, ?_⟩
  repeat' first
    | with_reducible assumption
    | with_reducible apply State.transition_moves

theorem execTripWakeUnblock_moves {a s : State} (temp : Byte) (h : Moves a s) :
    ∃ t, execTripWakeUnblock temp s = .next t ∧ Moves a t := by
  unfold execTripWakeUnblock
  refine ⟨_, rfl, ?_⟩
  repeat' first
    | with_reducible assumption
    | with_reducible apply Moves.ite
    | simp only [Moves.put_iff]

theorem execVinStart_moves {a s : State} (h : Moves a s) :
    ∃ t, execVinStart s = .next t ∧ Moves a t := by
  unfold execVinStart
  refine ⟨_, rfl, ?_⟩
  repeat' first
    | with_reducible assumption
    | with_reducible apply State.leaveOff_moves

theorem execVinUv_moves {a s : State} (h : Moves a s) :
    ∃ t, execVinUv s = .next t ∧ Moves a t := by
  unfold execVinUv
  refine ⟨_, rfl, ?_⟩
  repeat' first
    | with_reducible assumption
    | with_reducible apply State.pilotOff_moves
    | with_reducible apply State.memoryOff_moves
    | with_reducible apply State.mainOff_moves

theorem execVinWarn_moves {a s : State} (mv : BitVec 16) (h : Moves a s) :
    ∃ t, execVinWarn mv s = .next t ∧ Moves a t := by
  unfold execVinWarn
  refine ⟨_, rfl, ?_⟩
  repeat' first
    | with_reducible assumption
    | with_reducible apply State.vinWarn_moves

theorem execVinWarnClear_moves {a s : State} (mv : BitVec 16) (h : Moves a s) :
    ∃ t, execVinWarnClear mv s = .next t ∧ Moves a t := by
  unfold execVinWarnClear
  refine ⟨_, rfl, ?_⟩
  repeat' first
    | with_reducible assumption
    | with_reducible apply State.vinClear_moves

theorem execWakeCause_moves {a s : State} (h : Moves a s) :
    ∃ t, execWakeCause s = .next t ∧ Moves a t := by
  unfold execWakeCause
  refine ⟨_, rfl, ?_⟩
  repeat' first
    | with_reducible assumption
    | with_reducible apply State.wakeGo_moves

end Sys2Proof.Machine
end

