-- ==== Sys2Proof/Laws/MovesFirmware.lean ====
section
/-! SUPPORT. What each operation of Machine/Firmware.lean may do to the stores and the queue (Safety.lean, Moves): one lemma for each. -/

namespace Sys2Proof.Machine

open Host Sys2Proof

theorem State.pilotLoad_moves {a s : State} (k : Nat) (v2 : List Byte) (h : Moves a s) :
    Moves a (State.pilotLoad s k v2) := by
  induction v2 generalizing s k with
  | nil => unfold State.pilotLoad; exact h
  | cons x t ih =>
    unfold State.pilotLoad
    repeat' first
      | with_reducible assumption
      | with_reducible apply ih
      | with_reducible apply State.setByte_moves

theorem State.fwGo_moves {a s : State} (st : Nat) (h : Moves a s) :
    Moves a (State.fwGo s st) := by
  unfold State.fwGo
  repeat' first
    | with_reducible assumption
    | with_reducible apply State.wr_moves

theorem State.runShow_moves {a s : State} (v1 : List Byte) (digest : List Byte) (h : Moves a s) :
    Moves a (State.runShow s v1 digest) := by
  unfold State.runShow
  repeat' first
    | with_reducible assumption
    | with_reducible apply State.wr_moves
    | simp only [Moves.put_iff]
    | with_reducible apply Moves.foldl
    | intro _ _ _

theorem State.imageLoad_moves {a s : State} (img : List Byte) (src : Nat) (h : Moves a s) :
    Moves a (State.imageLoad s img src) := by
  unfold State.imageLoad
  repeat' first
    | with_reducible assumption
    | with_reducible apply State.clearAudio_moves
    | with_reducible apply State.wr_moves
    | with_reducible apply State.pilotLoad_moves
    | with_reducible apply State.wrB_moves
    | with_reducible apply State.poke_moves
    | with_reducible apply State.brEnable_moves
    | with_reducible apply State.slotSync_moves
    | with_reducible apply State.fwGo_moves
    | with_reducible apply State.runShow_moves
    | simp only [Moves.put_iff]
    | split

theorem State.bootDoorbell_moves {a s : State} (v : Nat) (h : Moves a s) :
    Moves a (State.bootDoorbell s v) := by
  unfold State.bootDoorbell
  repeat' first
    | with_reducible assumption
    | with_reducible apply State.wr_moves
    | with_reducible apply State.noteRead_moves
    | with_reducible apply State.imageLoad_moves
    | with_reducible apply State.sigNote_moves
    | simp only [Moves.put_iff]
    | split

theorem State.mbInfo_moves {a s : State} (h : Moves a s) :
    Moves a (State.mbInfo s) := by
  unfold State.mbInfo
  repeat' first
    | with_reducible assumption
    | with_reducible apply State.mbEnd_moves
    | with_reducible apply State.wr_moves
    | with_reducible apply Moves.foldl
    | intro _ _ _

theorem State.mbActs_moves {a s : State} (h : Moves a s) :
    Moves a (State.mbActs s) := by
  unfold State.mbActs
  repeat' first
    | with_reducible assumption
    | simp only [Moves.put_iff]

theorem State.updBegin_moves {a s : State} (len : Nat) (h : Moves a s) :
    Moves a (State.updBegin s len) := by
  unfold State.updBegin
  repeat' first
    | with_reducible assumption
    | with_reducible apply State.mbEnd_moves
    | with_reducible apply State.mbActs_moves
    | with_reducible apply Moves.ite

theorem State.updWrite_moves {a s : State} (ofs : Nat) (addr : Nat) (len : Nat) (h : Moves a s) :
    Moves a (State.updWrite s ofs addr len) := by
  unfold State.updWrite
  repeat' first
    | with_reducible assumption
    | with_reducible apply State.mbEnd_moves
    | with_reducible apply State.mbActs_moves
    | with_reducible apply Moves.ite

theorem State.liveLoad_moves {a s : State} (slot : Nat) (h : Moves a s) :
    Moves a (State.liveLoad s slot) := by
  unfold State.liveLoad
  repeat' first
    | with_reducible assumption
    | with_reducible apply State.mbEnd_moves
    | with_reducible apply State.sigNote_moves
    | with_reducible apply Moves.ite
    | simp only [Moves.put_iff]

theorem State.recEnd_moves {a s : State} (r : BootRec) (h : Moves a s) :
    Moves a (State.recEnd s r) := by
  unfold State.recEnd
  repeat' first
    | with_reducible assumption
    | with_reducible apply State.mbEnd_moves
    | with_reducible apply State.recWrite_moves

theorem State.updActivate_moves {a s : State} (how : Nat) (h : Moves a s) :
    Moves a (State.updActivate s how) := by
  unfold State.updActivate
  repeat' first
    | with_reducible assumption
    | with_reducible apply State.mbEnd_moves
    | with_reducible apply State.liveLoad_moves
    | with_reducible apply State.recEnd_moves
    | with_reducible apply Moves.ite

theorem State.svnBurn_moves {a s : State} (h : Moves a s) :
    Moves a (State.svnBurn s) := by
  unfold State.svnBurn
  repeat' first
    | with_reducible assumption
    | with_reducible apply State.raise_moves
    | with_reducible apply State.wr_moves
    | with_reducible apply Moves.ite

theorem State.updConfirm_moves {a s : State} (h : Moves a s) :
    Moves a (State.updConfirm s) := by
  unfold State.updConfirm
  repeat' first
    | with_reducible assumption
    | with_reducible apply State.mbEnd_moves
    | with_reducible apply State.recWrite_moves
    | with_reducible apply State.svnBurn_moves
    | with_reducible apply State.wr_moves
    | with_reducible apply Moves.ite

theorem State.updRevert_moves {a s : State} (h : Moves a s) :
    Moves a (State.updRevert s) := by
  unfold State.updRevert
  repeat' first
    | with_reducible assumption
    | with_reducible apply State.liveLoad_moves
    | with_reducible apply State.mbEnd_moves
    | with_reducible apply State.recEnd_moves
    | with_reducible apply Moves.ite

theorem State.reboot_moves {a s : State} (h : Moves a s) :
    Moves a (State.reboot s) := by
  unfold State.reboot
  dsimp only
  apply State.mainStart_moves
  exact (State.mainOff_moves false h).regsPut _ rfl rfl rfl rfl rfl

theorem State.tapLock_moves {a s : State} (v : Nat) (h : Moves a s) :
    Moves a (State.tapLock s v) := by
  unfold State.tapLock
  repeat' first
    | with_reducible assumption
    | with_reducible apply State.mbEnd_moves
    | with_reducible apply State.wr_moves
    | with_reducible apply Moves.ite

theorem State.mbAct_moves {a s : State} (h : Moves a s) :
    Moves a (State.mbAct s) := by
  unfold State.mbAct
  repeat' first
    | with_reducible assumption
    | with_reducible apply State.mbInfo_moves
    | with_reducible apply State.updBegin_moves
    | with_reducible apply State.updWrite_moves
    | with_reducible apply State.mbEnd_moves
    | with_reducible apply State.mbActs_moves
    | with_reducible apply State.updActivate_moves
    | with_reducible apply State.updConfirm_moves
    | with_reducible apply State.updRevert_moves
    | with_reducible apply State.reboot_moves
    | with_reducible apply State.tapLock_moves
    | with_reducible apply State.tookFree_moves
    | with_reducible apply Moves.ite
    | split

theorem State.mbIssue_moves {a s : State} (src : Src) (code : Nat) (h : Moves a s) :
    Moves a (State.mbIssue s src code) := by
  unfold State.mbIssue
  repeat' first
    | with_reducible assumption
    | with_reducible apply State.wr_moves
    | with_reducible apply State.mbAct_moves
    | with_reducible apply State.inc_moves
    | with_reducible apply Moves.ite
    | simp only [Moves.put_iff]

theorem State.trialCount_moves {a s : State} (h : Moves a s) :
    Moves a (State.trialCount s).1 := by
  unfold State.trialCount
  repeat' first
    | with_reducible assumption
    | with_reducible apply State.recWrite_moves
    | simp only [Moves.put_iff]
    | split

theorem State.slotTry_moves {a s : State} (k : Nat) (h : Moves a s) :
    Moves a (State.slotTry s k).1 := by
  unfold State.slotTry
  repeat' first
    | with_reducible assumption
    | with_reducible apply State.wr_moves
    | with_reducible apply State.sigNote_moves

theorem State.bootFlash_moves {a s0 : State} (hs0 : Moves a s0) :
    Moves a (State.bootFlash s0).1 := by
  unfold State.bootFlash
  repeat' first
    | with_reducible assumption
    | with_reducible apply State.trialCount_moves
    | with_reducible apply State.wr_moves
    | with_reducible apply State.wrB_moves
    | with_reducible apply State.raise_moves
    | with_reducible apply State.slotTry_moves
    | with_reducible apply State.imageLoad_moves
    | simp only [Moves.put_iff]
    | split

theorem State.bootSelect_moves {a s : State} (h : Moves a s) :
    Moves a (State.bootSelect s) := by
  unfold State.bootSelect
  repeat' first
    | with_reducible assumption
    | with_reducible apply State.fwGo_moves
    | with_reducible apply State.bootFlash_moves
    | with_reducible apply State.slotSync_moves
    | with_reducible apply State.wr_moves
    | with_reducible apply Moves.ite

theorem State.chunkWrite_moves {a s : State} (slot : Nat) (ofs : Nat) (addr : Nat) (len : Nat) (h : Moves a s) :
    Moves a (State.chunkWrite s slot ofs addr len) := by
  unfold State.chunkWrite
  repeat' first
    | with_reducible assumption
    | with_reducible apply State.noteRead_moves
    | with_reducible apply State.mbEnd_moves
    | with_reducible apply State.flashWr_moves
    | split

theorem State.fwBuckets_moves {a s : State} (h : Moves a s) :
    Moves a (State.fwBuckets s) := by
  unfold State.fwBuckets
  repeat' first
    | with_reducible assumption
    | with_reducible apply State.setBkt_moves

theorem State.ledgerApply_moves {a s : State} (e : LedgerEnt) (h : Moves a s) :
    Moves a (State.ledgerApply s e) := by
  unfold State.ledgerApply
  repeat' first
    | with_reducible assumption
    | with_reducible apply State.sparePut_moves
    | with_reducible apply State.wr_moves
    | with_reducible apply Moves.ite

theorem State.ledgerFinish_moves {a s : State} (k : Nat) (h : Moves a s) :
    Moves a (State.ledgerFinish s k) := by
  unfold State.ledgerFinish
  repeat' first
    | with_reducible assumption
    | with_reducible apply State.ledgerAdd_moves
    | with_reducible apply State.ledgerApply_moves
    | with_reducible apply State.kettleOut_moves
    | simp only [Moves.put_iff]
    | split

theorem State.ledgerBoot_moves {a s : State} (h : Moves a s) :
    Moves a (State.ledgerBoot s) := by
  unfold State.ledgerBoot
  repeat' first
    | with_reducible assumption
    | with_reducible apply State.ledgerApply_moves
    | with_reducible apply State.wr_moves
    | with_reducible apply State.ledgerFinish_moves
    | with_reducible apply Moves.foldl

theorem State.orderLoad_moves {a s : State} (e : FwOrder) (h : Moves a s) :
    Moves a (State.orderLoad s e) := by
  unfold State.orderLoad
  repeat' first
    | with_reducible assumption
    | with_reducible apply State.orderArm_moves
    | with_reducible apply Moves.ite

theorem State.spLoad_moves {a s : State} (e : SpEnt) (h : Moves a s) :
    Moves a (State.spLoad s e) := by
  unfold State.spLoad
  repeat' first
    | with_reducible assumption
    | with_reducible apply State.spEnable_moves
    | with_reducible apply State.wr_moves

theorem State.kettlesUp_moves {a s : State} (h : Moves a s) :
    Moves a (State.kettlesUp s) := by
  unfold State.kettlesUp
  repeat' first
    | with_reducible assumption
    | with_reducible apply State.wr_moves
    | simp only [Moves.put_iff]
    | with_reducible apply Moves.foldl
    | intro _ _ _
    | split

theorem State.fwInit_moves {a s : State} (b : FwBoot) (h : Moves a s) :
    Moves a (State.fwInit s b) := by
  unfold State.fwInit
  repeat' first
    | with_reducible assumption
    | with_reducible apply State.ledgerBoot_moves
    | with_reducible apply State.wr_moves
    | with_reducible apply State.wrB_moves
    | with_reducible apply State.orderLoad_moves
    | with_reducible apply State.spLoad_moves
    | with_reducible apply State.orbStat_moves
    | with_reducible apply State.kettlesUp_moves
    | with_reducible apply State.raise_moves
    | with_reducible apply State.fwGo_moves
    | with_reducible apply State.fwBuckets_moves
    | with_reducible apply State.classify_moves
    | with_reducible apply State.lampBoot_moves
    | simp only [Moves.put_iff]
    | with_reducible apply Moves.foldl
    | intro _ _

theorem State.fwResume_moves {a s : State} (h : Moves a s) :
    Moves a (State.fwResume s) := by
  unfold State.fwResume
  dsimp only
  exact State.fwBuckets_moves (State.orbStat_moves (State.kettlesUp_moves (h.regsPut s.pwr.saved rfl rfl rfl rfl rfl)))

theorem State.heldRecords_moves {a s : State} (h : Moves a s) :
    Moves a (State.heldRecords s) := by
  unfold State.heldRecords
  repeat' first
    | with_reducible assumption
    | with_reducible apply State.commitComplete_moves
    | with_reducible apply Moves.foldl
    | intro _ _

theorem State.handoverEnd_moves {a s : State} (valid : Bool) (pause : Nat) (h : Moves a s) :
    Moves a (State.handoverEnd s valid pause) := by
  unfold State.handoverEnd
  repeat' first
    | with_reducible assumption
    | with_reducible apply State.fwGo_moves
    | with_reducible apply State.wr_moves
    | with_reducible apply State.mbEnd_moves
    | with_reducible apply State.raise_moves
    | with_reducible apply State.inc_moves
    | with_reducible apply State.wrB_moves
    | with_reducible apply State.runShow_moves
    | with_reducible apply State.heldRecords_moves
    | simp only [Moves.put_iff]
    | split

theorem State.liveHandover_moves {a s : State} (valid : Bool) (pause : Nat) (h : Moves a s) :
    Moves a (State.liveHandover s valid pause) := by
  unfold State.liveHandover
  repeat' first
    | with_reducible assumption
    | with_reducible apply State.handoverEnd_moves
    | with_reducible apply State.fwGo_moves
    | with_reducible apply State.wr_moves
    | with_reducible apply Moves.ite

theorem State.mbCall_moves {a s : State} (src : Src) (code : Nat) (args : List Nat) (h : Moves a s) :
    Moves a (State.mbCall s src code args) := by
  unfold State.mbCall
  repeat' first
    | with_reducible assumption
    | with_reducible apply State.reach_moves
    | with_reducible apply State.mbIssue_moves
    | with_reducible apply State.wr_moves
    | with_reducible apply Moves.foldl
    | intro _ _ _
    | intro _ _

theorem State.mbComplete_moves {a s : State} (err : Bool) (h : Moves a s) :
    Moves a (State.mbComplete s err) := by
  unfold State.mbComplete
  repeat' first
    | with_reducible assumption
    | with_reducible apply State.mbEnd_moves
    | with_reducible apply State.flashBreak_moves
    | with_reducible apply State.flashWr_moves
    | with_reducible apply State.flashErase_moves
    | with_reducible apply State.chunkWrite_moves
    | with_reducible apply State.sigNote_moves
    | simp only [Moves.put_iff]
    | split

theorem State.tripNote_moves {a s : State} (h : Moves a s) :
    Moves a (State.tripNote s) := by
  unfold State.tripNote
  repeat' first
    | with_reducible assumption
    | with_reducible apply State.wr_moves
    | with_reducible apply Moves.ite
    | simp only [Moves.put_iff]

theorem State.readyRecord_moves {a s : State} (h : Moves a s) :
    Moves a (State.readyRecord s) := by
  unfold State.readyRecord
  repeat' first
    | with_reducible assumption
    | with_reducible apply State.slotSync_moves
    | with_reducible apply State.recWrite_moves
    | with_reducible apply State.svnBurn_moves
    | with_reducible apply Moves.ite

theorem State.ready_moves {a s : State} (b : FwBoot) (h : Moves a s) :
    Moves a (State.ready s b) := by
  unfold State.ready
  repeat' first
    | with_reducible assumption
    | with_reducible apply State.mbAct_moves
    | with_reducible apply State.fwResume_moves
    | with_reducible apply State.tripNote_moves
    | with_reducible apply State.readyRecord_moves
    | with_reducible apply State.fwInit_moves
    | with_reducible apply Moves.ite

theorem State.tapLoad_moves {a s : State} (i : Nat) (h : Moves a s) :
    Moves a (State.tapLoad s i) := by
  unfold State.tapLoad
  repeat' first
    | with_reducible assumption
    | with_reducible apply State.emit_moves
    | with_reducible apply State.raise_moves
    | with_reducible apply State.inc_moves
    | with_reducible apply Moves.ite

theorem execBootDoorbell_moves {a s : State} (v : Word) (h : Moves a s) :
    ∃ t, execBootDoorbell v s = .next t ∧ Moves a t := by
  unfold execBootDoorbell
  refine ⟨_, rfl, ?_⟩
  repeat' first
    | with_reducible assumption
    | with_reducible apply State.reach_moves
    | with_reducible apply State.bootDoorbell_moves
    | intro _ _

theorem execBootSelect_moves {a s : State} (h : Moves a s) :
    ∃ t, execBootSelect s = .next t ∧ Moves a t := by
  unfold execBootSelect
  refine ⟨_, rfl, ?_⟩
  repeat' first
    | with_reducible assumption
    | with_reducible apply State.bootSelect_moves

theorem execFwReady_moves {a s : State} (boot : FwBoot) (h : Moves a s) :
    ∃ t, execFwReady boot s = .next t ∧ Moves a t := by
  unfold execFwReady
  refine ⟨_, rfl, ?_⟩
  repeat' first
    | with_reducible assumption
    | with_reducible apply State.ready_moves

theorem execInfo_moves {a s : State} (src : Src) (h : Moves a s) :
    ∃ t, execInfo src s = .next t ∧ Moves a t := by
  unfold execInfo
  refine ⟨_, rfl, ?_⟩
  repeat' first
    | with_reducible assumption
    | with_reducible apply State.mbCall_moves

theorem execLiveHandover_moves {a s : State} (valid : Bool) (pauseUs : BitVec 12) (h : Moves a s) :
    ∃ t, execLiveHandover valid pauseUs s = .next t ∧ Moves a t := by
  unfold execLiveHandover
  refine ⟨_, rfl, ?_⟩
  repeat' first
    | with_reducible assumption
    | with_reducible apply State.liveHandover_moves

theorem execMbComplete_moves {a s : State} (flashError : Bool) (h : Moves a s) :
    ∃ t, execMbComplete flashError s = .next t ∧ Moves a t := by
  unfold execMbComplete
  refine ⟨_, rfl, ?_⟩
  repeat' first
    | with_reducible assumption
    | with_reducible apply State.mbComplete_moves

theorem execReboot_moves {a s : State} (src : Src) (h : Moves a s) :
    ∃ t, execReboot src s = .next t ∧ Moves a t := by
  unfold execReboot
  refine ⟨_, rfl, ?_⟩
  repeat' first
    | with_reducible assumption
    | with_reducible apply State.mbCall_moves

theorem execTapInstruction_moves {a s : State} (instr : Fin 5) (h : Moves a s) :
    ∃ t, execTapInstruction instr s = .next t ∧ Moves a t := by
  unfold execTapInstruction
  refine ⟨_, rfl, ?_⟩
  repeat' first
    | with_reducible assumption
    | with_reducible apply State.tapLoad_moves

theorem execTapLock_moves {a s : State} (src : Src) (v : Word) (h : Moves a s) :
    ∃ t, execTapLock src v s = .next t ∧ Moves a t := by
  unfold execTapLock
  refine ⟨_, rfl, ?_⟩
  repeat' first
    | with_reducible assumption
    | with_reducible apply State.mbCall_moves

theorem execUpdAbort_moves {a s : State} (src : Src) (h : Moves a s) :
    ∃ t, execUpdAbort src s = .next t ∧ Moves a t := by
  unfold execUpdAbort
  refine ⟨_, rfl, ?_⟩
  repeat' first
    | with_reducible assumption
    | with_reducible apply State.mbCall_moves

theorem execUpdActivateLive_moves {a s : State} (src : Src) (h : Moves a s) :
    ∃ t, execUpdActivateLive src s = .next t ∧ Moves a t := by
  unfold execUpdActivateLive
  refine ⟨_, rfl, ?_⟩
  repeat' first
    | with_reducible assumption
    | with_reducible apply State.mbCall_moves

theorem execUpdActivateNextBoot_moves {a s : State} (src : Src) (h : Moves a s) :
    ∃ t, execUpdActivateNextBoot src s = .next t ∧ Moves a t := by
  unfold execUpdActivateNextBoot
  refine ⟨_, rfl, ?_⟩
  repeat' first
    | with_reducible assumption
    | with_reducible apply State.mbCall_moves

theorem execUpdBegin_moves {a s : State} (src : Src) (len : Word) (h : Moves a s) :
    ∃ t, execUpdBegin src len s = .next t ∧ Moves a t := by
  unfold execUpdBegin
  refine ⟨_, rfl, ?_⟩
  repeat' first
    | with_reducible assumption
    | with_reducible apply State.mbCall_moves

theorem execUpdConfirm_moves {a s : State} (src : Src) (h : Moves a s) :
    ∃ t, execUpdConfirm src s = .next t ∧ Moves a t := by
  unfold execUpdConfirm
  refine ⟨_, rfl, ?_⟩
  repeat' first
    | with_reducible assumption
    | with_reducible apply State.mbCall_moves

theorem execUpdRevert_moves {a s : State} (src : Src) (h : Moves a s) :
    ∃ t, execUpdRevert src s = .next t ∧ Moves a t := by
  unfold execUpdRevert
  refine ⟨_, rfl, ?_⟩
  repeat' first
    | with_reducible assumption
    | with_reducible apply State.mbCall_moves

theorem execUpdVerify_moves {a s : State} (src : Src) (h : Moves a s) :
    ∃ t, execUpdVerify src s = .next t ∧ Moves a t := by
  unfold execUpdVerify
  refine ⟨_, rfl, ?_⟩
  repeat' first
    | with_reducible assumption
    | with_reducible apply State.mbCall_moves

theorem execUpdWrite_moves {a s : State} (src : Src) (ofs : Word) (addr : BitVec 64) (len : Word) (h : Moves a s) :
    ∃ t, execUpdWrite src ofs addr len s = .next t ∧ Moves a t := by
  unfold execUpdWrite
  refine ⟨_, rfl, ?_⟩
  repeat' first
    | with_reducible assumption
    | with_reducible apply State.mbCall_moves

end Sys2Proof.Machine
end

