-- ==== Sys2Proof/Laws/MovesKettle.lean ====
section
/-! SUPPORT. What each operation of Machine/Kettle.lean may do to the stores and the queue (Safety.lean, Moves): one lemma for each. -/

namespace Sys2Proof.Machine

open Host Sys2Proof

theorem State.accKill_moves {a s : State} (p : Nat) (need : Nat) (v3 : Nat) (h : Moves a s) :
    Moves a (State.accKill s p need v3) := by
  induction v3 generalizing s with
  | zero => unfold State.accKill; exact h
  | succ n ih =>
    unfold State.accKill
    repeat' first
      | with_reducible assumption
      | with_reducible apply ih
      | with_reducible apply State.inc_moves
      | with_reducible apply State.killCmd_moves
      | simp only [Moves.put_iff]
      | split

theorem State.failSlot_moves {a s : State} (p : Nat) (n : Nat) (disp : Nat) (h : Moves a s) :
    Moves a (State.failSlot s p n disp) := by
  unfold State.failSlot
  repeat' first
    | with_reducible assumption
    | with_reducible apply State.killCmd_moves
    | with_reducible apply State.close_moves
    | with_reducible apply Moves.foldl
    | intro _ _
    | split

theorem State.tagViol_moves {a s : State} (p : Nat) (n : Nat) (h : Moves a s) :
    Moves a (State.tagViol s p n) := by
  unfold State.tagViol
  repeat' first
    | with_reducible assumption
    | with_reducible apply State.failSlot_moves
    | with_reducible apply State.raise_moves
    | with_reducible apply State.inc_moves

theorem State.accessFault_moves {a s : State} (p : Nat) (n : Nat) (rs : List (Nat × Nat)) (h : Moves a s) :
    ∀ t, State.accessFault s p n rs = some t → Moves a t := by
  intro t e
  unfold State.accessFault at e
  split at e
  · cases e
    repeat' first
      | with_reducible assumption
      | with_reducible assumption
      | with_reducible apply State.tagViol_moves
      | with_reducible apply State.failSlot_moves
      | with_reducible apply State.noteUE_moves
  · split at e
    · cases e
      repeat' first
        | with_reducible assumption
        | with_reducible assumption
        | with_reducible apply State.tagViol_moves
        | with_reducible apply State.failSlot_moves
        | with_reducible apply State.noteUE_moves
    · cases e

theorem State.advance_moves {a s : State} (p : Nat) (c : Nat) (h : Moves a s) :
    Moves a (State.advance s p c) := by
  unfold State.advance
  repeat' first
    | with_reducible assumption
    | with_reducible apply State.setTile_moves
    | with_reducible apply State.inc_moves
    | with_reducible apply State.addW_moves
    | with_reducible apply Moves.ite
    | with_reducible apply Moves.foldl
    | intro _ _

theorem State.bankFlip_moves {a s : State} (p : Nat) (h : Moves a s) :
    Moves a (State.bankFlip s p) := by
  unfold State.bankFlip
  repeat' first
    | with_reducible assumption
    | with_reducible apply State.advance_moves
    | with_reducible apply State.setTile_moves
    | simp only [Moves.put_iff]
    | split

theorem State.noteHalt_moves {a s0 s : State} (p : Nat) (hs0 : Moves a s0) (h : Moves a s) :
    Moves a (State.noteHalt s0 s p) := by
  unfold State.noteHalt
  repeat' first
    | with_reducible assumption
    | with_reducible apply State.raise_moves
    | with_reducible apply Moves.ite

theorem State.ktCtrl_moves {a s : State} (p : Nat) (v : Nat) (h : Moves a s) :
    Moves a (State.ktCtrl s p v) := by
  unfold State.ktCtrl
  repeat' first
    | with_reducible assumption
    | with_reducible apply State.setTile_moves
    | with_reducible apply State.noteHalt_moves
    | with_reducible apply State.wr_moves
    | with_reducible apply Moves.ite

theorem State.cntCtrl_moves {a s : State} (p : Nat) (v : Nat) (h : Moves a s) :
    Moves a (State.cntCtrl s p v) := by
  unfold State.cntCtrl
  repeat' first
    | with_reducible assumption
    | with_reducible apply State.wr_moves
    | with_reducible apply Moves.ite
    | with_reducible apply Moves.foldl
    | intro _ _ _

theorem State.pantryStore_moves {a s : State} (p : Nat) (ofs : Nat) (bs : List Byte) (bad : Bool) (h : Moves a s) :
    Moves a (State.pantryStore s p ofs bs bad) := by
  unfold State.pantryStore
  repeat' first
    | with_reducible assumption
    | with_reducible apply State.noteUE_moves
    | with_reducible apply State.putPlaces_moves
    | split

theorem State.issueStart_moves {a s : State} (p : Nat) (part : Nat) (id : Nat) (h : Moves a s) :
    Moves a (State.issueStart s p part id) := by
  unfold State.issueStart
  repeat' first
    | with_reducible assumption
    | with_reducible apply State.startService_moves
    | with_reducible apply State.updCmd_moves
    | with_reducible apply State.wr_moves
    | with_reducible apply State.raise_moves
    | with_reducible apply State.inc_moves
    | simp only [Moves.put_iff]
    | split

theorem State.killArrive_moves {a s : State} (p : Nat) (n : Nat) (wait : Nat) (h : Moves a s) :
    Moves a (State.killArrive s p n wait) := by
  unfold State.killArrive
  repeat' first
    | with_reducible assumption
    | with_reducible apply State.killCmd_moves
    | with_reducible apply State.advance_moves
    | split

theorem State.killDone_moves {a s : State} (p : Nat) (n : Nat) (h : Moves a s) :
    Moves a (State.killDone s p n) := by
  unfold State.killDone
  repeat' first
    | with_reducible assumption
    | with_reducible apply State.advance_moves
    | with_reducible apply State.setTile_moves
    | with_reducible apply State.noteHalt_moves
    | with_reducible apply State.raise_moves
    | with_reducible apply State.slotFree_moves
    | simp only [Moves.put_iff]
    | split

theorem State.passDrain_moves {a s : State} (p : Nat) (h : Moves a s) :
    Moves a (State.passDrain s p) := by
  unfold State.passDrain
  repeat' first
    | with_reducible assumption
    | with_reducible apply State.advance_moves
    | with_reducible apply State.setTile_moves
    | with_reducible apply State.updSlot_moves
    | with_reducible apply State.noteHalt_moves
    | simp only [Moves.put_iff]
    | split

theorem State.passIssue_moves {a s : State} (p : Nat) (h : Moves a s) :
    Moves a (State.passIssue s p) := by
  unfold State.passIssue
  repeat' first
    | with_reducible assumption
    | with_reducible apply State.advance_moves
    | (refine State.accessFault_moves _ _ _ ?_ _ (by with_reducible assumption))
    | with_reducible apply State.setTile_moves
    | with_reducible apply State.inc_moves
    | with_reducible apply State.ktCount_moves
    | with_reducible apply State.issueStart_moves
    | simp only [Moves.put_iff]
    | with_reducible apply Moves.foldl
    | intro _ _
    | split

theorem State.stepChoose_moves {a s : State} (p : Nat) (wait : Nat) (h : Moves a s) :
    Moves a (State.stepChoose s p wait) := by
  unfold State.stepChoose
  repeat' first
    | with_reducible assumption
    | with_reducible apply State.advance_moves
    | with_reducible apply State.setTile_moves
    | with_reducible apply State.accKill_moves
    | simp only [Moves.put_iff]
    | split

theorem State.tileLoad_moves {a s : State} (p : Nat) (h : Moves a s) :
    Moves a (State.tileLoad s p) := by
  unfold State.tileLoad
  repeat' first
    | with_reducible assumption
    | with_reducible apply State.advance_moves
    | with_reducible apply State.setTile_moves
    | simp only [Moves.put_iff]
    | split

theorem State.whiskRead_moves {a s : State} (p : Nat) (parity : Bool) (h : Moves a s) :
    Moves a (State.whiskRead s p parity) := by
  unfold State.whiskRead
  repeat' first
    | with_reducible assumption
    | with_reducible apply State.advance_moves
    | with_reducible apply State.canaryAtOnce_moves
    | with_reducible apply State.failSlot_moves
    | with_reducible apply State.raise_moves
    | with_reducible apply State.setTile_moves
    | simp only [Moves.put_iff]
    | split

theorem State.whiskWrite_moves {a s : State} (p : Nat) (h : Moves a s) :
    Moves a (State.whiskWrite s p) := by
  unfold State.whiskWrite
  repeat' first
    | with_reducible assumption
    | (refine State.accessFault_moves _ _ _ ?_ _ (by with_reducible assumption))
    | with_reducible apply State.tagViol_moves
    | with_reducible apply State.pantryStore_moves
    | with_reducible apply State.inc_moves
    | with_reducible apply State.raise_moves
    | with_reducible apply State.wr_moves
    | with_reducible apply State.setTile_moves
    | simp only [Moves.put_iff]
    | split

theorem execBankFlip_moves {a s : State} (tile : Fin 18) (h : Moves a s) :
    ∃ t, execBankFlip tile s = .next t ∧ Moves a t := by
  unfold execBankFlip
  refine ⟨_, rfl, ?_⟩
  repeat' first
    | with_reducible assumption
    | with_reducible apply State.bankFlip_moves

theorem execKettleCntClear_moves {a s : State} (tile : Fin 18) (freeze : Bool) (h : Moves a s) :
    ∃ t, execKettleCntClear tile freeze s = .next t ∧ Moves a t := by
  unfold execKettleCntClear
  refine ⟨_, rfl, ?_⟩
  repeat' first
    | with_reducible assumption
    | with_reducible apply State.reach_moves
    | with_reducible apply State.cntCtrl_moves
    | intro _ _

theorem execKill_moves {a s : State} (tile : Fin 18) (n : Fin 32) (wait : Nat) (h : Moves a s) :
    ∃ t, execKill tile n wait s = .next t ∧ Moves a t := by
  unfold execKill
  refine ⟨_, rfl, ?_⟩
  repeat' first
    | with_reducible assumption
    | with_reducible apply State.killArrive_moves

theorem execKillComplete_moves {a s : State} (tile : Fin 18) (n : Fin 32) (h : Moves a s) :
    ∃ t, execKillComplete tile n s = .next t ∧ Moves a t := by
  unfold execKillComplete
  refine ⟨_, rfl, ?_⟩
  repeat' first
    | with_reducible assumption
    | with_reducible apply State.killDone_moves

theorem execPassDrain_moves {a s : State} (tile : Fin 18) (h : Moves a s) :
    ∃ t, execPassDrain tile s = .next t ∧ Moves a t := by
  unfold execPassDrain
  refine ⟨_, rfl, ?_⟩
  repeat' first
    | with_reducible assumption
    | with_reducible apply State.passDrain_moves

theorem execPassIssue_moves {a s : State} (tile : Fin 18) (h : Moves a s) :
    ∃ t, execPassIssue tile s = .next t ∧ Moves a t := by
  unfold execPassIssue
  refine ⟨_, rfl, ?_⟩
  repeat' first
    | with_reducible assumption
    | with_reducible apply State.passIssue_moves

theorem execStepChoose_moves {a s : State} (tile : Fin 18) (wait : Nat) (h : Moves a s) :
    ∃ t, execStepChoose tile wait s = .next t ∧ Moves a t := by
  unfold execStepChoose
  refine ⟨_, rfl, ?_⟩
  repeat' first
    | with_reducible assumption
    | with_reducible apply State.stepChoose_moves

theorem execTileLoadStart_moves {a s : State} (tile : Fin 18) (h : Moves a s) :
    ∃ t, execTileLoadStart tile s = .next t ∧ Moves a t := by
  unfold execTileLoadStart
  refine ⟨_, rfl, ?_⟩
  repeat' first
    | with_reducible assumption
    | with_reducible apply State.tileLoad_moves

theorem execWhiskRead_moves {a s : State} (tile : Fin 18) (parity : Bool) (h : Moves a s) :
    ∃ t, execWhiskRead tile parity s = .next t ∧ Moves a t := by
  unfold execWhiskRead
  refine ⟨_, rfl, ?_⟩
  repeat' first
    | with_reducible assumption
    | with_reducible apply State.whiskRead_moves

theorem execWhiskWrite_moves {a s : State} (tile : Fin 18) (h : Moves a s) :
    ∃ t, execWhiskWrite tile s = .next t ∧ Moves a t := by
  unfold execWhiskWrite
  refine ⟨_, rfl, ?_⟩
  repeat' first
    | with_reducible assumption
    | with_reducible apply State.whiskWrite_moves

end Sys2Proof.Machine
end

