-- ==== Sys2Proof/Laws/MovesMemory.lean ====
section
/-! SUPPORT. What each operation of Machine/Memory.lean may do to the stores and the queue (Safety.lean, Moves): one lemma for each. -/

namespace Sys2Proof.Machine

open Host Sys2Proof

theorem State.iwinWrite_moves {a s0 : State} (w : Nat) (v : Nat) (hs0 : Moves a s0) :
    Moves a (State.iwinWrite s0 w v) := by
  unfold State.iwinWrite
  repeat' first
    | with_reducible assumption
    | with_reducible apply State.lockWord_moves
    | with_reducible apply State.wr_moves
    | with_reducible apply State.raise_moves
    | with_reducible apply Moves.ite

theorem State.haloAck_moves {a s : State} (p : Nat) (n : Nat) (h : Moves a s) :
    Moves a (State.haloAck s p n) := by
  unfold State.haloAck
  repeat' first
    | with_reducible assumption
    | with_reducible apply State.updSlot_moves
    | with_reducible apply State.wr_moves
    | split

theorem State.haloRow_moves {a s : State} (p : Nat) (n : Nat) (x : Slot) (r : Recipe) (i : Nat) (j : Nat) (g : Nat) (h : Moves a s) :
    Moves a (State.haloRow s p n x r i j g) := by
  unfold State.haloRow
  repeat' first
    | with_reducible assumption
    | with_reducible apply State.tagViol_moves
    | with_reducible apply State.updSlot_moves
    | with_reducible apply State.pantryStore_moves
    | with_reducible apply State.inc_moves
    | with_reducible apply State.wr_moves
    | simp only [Moves.put_iff]
    | split

theorem State.haloSend_moves {a s : State} (p : Nat) (n : Nat) (h : Moves a s) :
    Moves a (State.haloSend s p n) := by
  unfold State.haloSend
  repeat' first
    | with_reducible assumption
    | with_reducible apply State.haloRow_moves
    | with_reducible apply State.updSlot_moves
    | with_reducible apply Moves.foldl
    | intro _ _
    | split

theorem State.pantryServe_moves {a s : State} (p : Nat) (q : PantryReq) (h : Moves a s) :
    Moves a (State.pantryServe s p q) := by
  unfold State.pantryServe
  repeat' first
    | with_reducible assumption
    | with_reducible apply State.tagViol_moves
    | with_reducible apply State.pantryCe_moves
    | with_reducible apply State.noteCE_moves
    | with_reducible apply State.setPoison_moves
    | with_reducible apply State.pantryStore_moves
    | with_reducible apply State.repairUnit_moves
    | with_reducible apply State.noteUE_moves
    | with_reducible apply State.failSlot_moves
    | simp only [Moves.put_iff]
    | split

theorem State.pantryAccess_moves {a s : State} (p : Nat) (bank : Nat) (arrive : List PantryReq) (same : Bool) (h : Moves a s) :
    Moves a (State.pantryAccess s p bank arrive same) := by
  unfold State.pantryAccess
  repeat' first
    | with_reducible assumption
    | with_reducible apply State.setTile_moves
    | with_reducible apply State.inc_moves
    | with_reducible apply State.pantryServe_moves
    | simp only [Moves.put_iff]
    | split

theorem State.runMoves_moves {a s : State} (p : Nat) (n : Nat) (dom : Option Nat) (len : Nat) (v5 : List (Nat × Nat)) (h : Moves a s) :
    Moves a (State.runMoves s p n dom len v5) := by
  induction v5 generalizing s with
  | nil => unfold State.runMoves; exact h
  | cons x t ih =>
    unfold State.runMoves
    repeat' first
      | with_reducible assumption
      | with_reducible apply ih
      | with_reducible apply State.cmdRead_moves
      | with_reducible apply State.failSlot_moves
      | with_reducible apply State.tagViol_moves
      | with_reducible apply State.pantryStore_moves
      | simp only [Moves.put_iff]
      | split

theorem State.scrubPass_moves {a s : State} (v : Nat) (ce : Nat) (bad : List Nat) (h : Moves a s) :
    Moves a (State.scrubPass s v ce bad) := by
  unfold State.scrubPass
  repeat' first
    | with_reducible assumption
    | with_reducible apply State.raise_moves
    | with_reducible apply State.inc_moves
    | with_reducible apply State.vaultUe_moves
    | with_reducible apply State.noteUE_moves
    | with_reducible apply State.setPoison_moves
    | with_reducible apply Moves.ite
    | with_reducible apply Moves.foldl
    | intro _ _ _

theorem State.vaultMove_moves {a s : State} (v : Nat) (from_ : Nat) (to_ : Nat) (k : State → State) (h : Moves a s) (hk : ∀ y0, Moves a y0 → Moves a (k y0)) :
    Moves a (State.vaultMove s v from_ to_ k) := by
  unfold State.vaultMove
  repeat' first
    | with_reducible assumption
    | with_reducible apply State.wr_moves
    | with_reducible apply hk
    | with_reducible apply Moves.ite

theorem State.xferEnd_moves {a s : State} (p : Nat) (n : Nat) (h : Moves a s) :
    Moves a (State.xferEnd s p n) := by
  unfold State.xferEnd
  repeat' first
    | with_reducible assumption
    | with_reducible apply State.wr_moves
    | with_reducible apply State.addW_moves
    | with_reducible apply State.updSlot_moves
    | split

theorem State.xferStart_moves {a s : State} (p : Nat) (n : Nat) (h : Moves a s) :
    Moves a (State.xferStart s p n) := by
  unfold State.xferStart
  repeat' first
    | with_reducible assumption
    | with_reducible apply State.wr_moves
    | with_reducible apply State.updSlot_moves
    | with_reducible apply State.runMoves_moves
    | split

theorem execClevelXferDone_moves {a s : State} (tile : Fin 18) (n : Fin 32) (h : Moves a s) :
    ∃ t, execClevelXferDone tile n s = .next t ∧ Moves a t := by
  unfold execClevelXferDone
  refine ⟨_, rfl, ?_⟩
  repeat' first
    | with_reducible assumption
    | with_reducible apply State.xferEnd_moves

theorem execClevelXferStart_moves {a s : State} (tile : Fin 18) (n : Fin 32) (h : Moves a s) :
    ∃ t, execClevelXferStart tile n s = .next t ∧ Moves a t := by
  unfold execClevelXferStart
  refine ⟨_, rfl, ?_⟩
  repeat' first
    | with_reducible assumption
    | with_reducible apply State.xferStart_moves

theorem execHaloAck_moves {a s : State} (tile : Fin 18) (n : Fin 32) (h : Moves a s) :
    ∃ t, execHaloAck tile n s = .next t ∧ Moves a t := by
  unfold execHaloAck
  refine ⟨_, rfl, ?_⟩
  repeat' first
    | with_reducible assumption
    | with_reducible apply State.haloAck_moves

theorem execHaloSend_moves {a s : State} (tile : Fin 18) (n : Fin 32) (h : Moves a s) :
    ∃ t, execHaloSend tile n s = .next t ∧ Moves a t := by
  unfold execHaloSend
  refine ⟨_, rfl, ?_⟩
  repeat' first
    | with_reducible assumption
    | with_reducible apply State.haloSend_moves

theorem execIwinDisable_moves {a s : State} (w : Fin 8) (v : Word) (h : Moves a s) :
    ∃ t, execIwinDisable w v s = .next t ∧ Moves a t := by
  unfold execIwinDisable
  refine ⟨_, rfl, ?_⟩
  repeat' first
    | with_reducible assumption
    | with_reducible apply State.reach_moves
    | with_reducible apply State.iwinWrite_moves
    | intro _ _

theorem execIwinEnable_moves {a s : State} (w : Fin 8) (v : Word) (h : Moves a s) :
    ∃ t, execIwinEnable w v s = .next t ∧ Moves a t := by
  unfold execIwinEnable
  refine ⟨_, rfl, ?_⟩
  repeat' first
    | with_reducible assumption
    | with_reducible apply State.reach_moves
    | with_reducible apply State.iwinWrite_moves
    | intro _ _

theorem execLarderInitDone_moves {a s : State} (h : Moves a s) :
    ∃ t, execLarderInitDone s = .next t ∧ Moves a t := by
  unfold execLarderInitDone
  refine ⟨_, rfl, ?_⟩
  repeat' first
    | with_reducible assumption
    | with_reducible apply State.raise_moves
    | with_reducible apply State.wr_moves
    | with_reducible apply State.forget_moves
    | with_reducible apply Moves.ite

theorem execPantryAccess_moves {a s : State} (tile : Fin 18) (bank : Fin 32) (arrive : List PantryReq) (same : Bool) (h : Moves a s) :
    ∃ t, execPantryAccess tile bank arrive same s = .next t ∧ Moves a t := by
  unfold execPantryAccess
  refine ⟨_, rfl, ?_⟩
  repeat' first
    | with_reducible assumption
    | with_reducible apply State.pantryAccess_moves

theorem execScrubPass_moves {a s : State} (v : Fin 18) (ce : Nat) (bad : List (BitVec 30)) (h : Moves a s) :
    ∃ t, execScrubPass v ce bad s = .next t ∧ Moves a t := by
  unfold execScrubPass
  refine ⟨_, rfl, ?_⟩
  repeat' first
    | with_reducible assumption
    | with_reducible apply State.scrubPass_moves

theorem execTempBandChange_moves {a s : State} (v : Fin 18) (band : Fin 3) (temp : BitVec 8) (h : Moves a s) :
    ∃ t, execTempBandChange v band temp s = .next t ∧ Moves a t := by
  unfold execTempBandChange
  refine ⟨_, rfl, ?_⟩
  repeat' first
    | with_reducible assumption
    | with_reducible apply State.wr_moves
    | with_reducible apply State.raise_moves
    | with_reducible apply Moves.ite

theorem execVaultInitDone_moves {a s : State} (v : Fin 18) (h : Moves a s) :
    ∃ t, execVaultInitDone v s = .next t ∧ Moves a t := by
  unfold execVaultInitDone
  refine ⟨_, rfl, ?_⟩
  repeat' first
    | with_reducible assumption
    | with_reducible apply State.vaultMove_moves
    | simp only [id_eq]
    | with_reducible apply Moves.ite
    | intro _ _

theorem execVaultSrEntered_moves {a s : State} (v : Fin 18) (h : Moves a s) :
    ∃ t, execVaultSrEntered v s = .next t ∧ Moves a t := by
  unfold execVaultSrEntered
  refine ⟨_, rfl, ?_⟩
  repeat' first
    | with_reducible assumption
    | with_reducible apply State.vaultMove_moves
    | with_reducible apply State.inc_moves
    | intro _ _

theorem execVaultSrEntry_moves {a s : State} (v : Fin 18) (h : Moves a s) :
    ∃ t, execVaultSrEntry v s = .next t ∧ Moves a t := by
  unfold execVaultSrEntry
  refine ⟨_, rfl, ?_⟩
  repeat' first
    | with_reducible assumption
    | with_reducible apply State.vaultMove_moves
    | simp only [id_eq]
    | with_reducible apply Moves.ite
    | intro _ _

theorem execVaultSrExit_moves {a s : State} (v : Fin 18) (h : Moves a s) :
    ∃ t, execVaultSrExit v s = .next t ∧ Moves a t := by
  unfold execVaultSrExit
  refine ⟨_, rfl, ?_⟩
  repeat' first
    | with_reducible assumption
    | with_reducible apply State.vaultMove_moves
    | with_reducible apply State.raise_moves
    | intro _ _

theorem execVaultSrExited_moves {a s : State} (v : Fin 18) (h : Moves a s) :
    ∃ t, execVaultSrExited v s = .next t ∧ Moves a t := by
  unfold execVaultSrExited
  refine ⟨_, rfl, ?_⟩
  repeat' first
    | with_reducible assumption
    | with_reducible apply State.vaultMove_moves
    | simp only [id_eq]
    | intro _ _

end Sys2Proof.Machine
end

