-- ==== Sys2Proof/Laws/MovesSieve.lean ====
section
/-! SUPPORT. What each operation of Machine/Sieve.lean may do to the stores and the queue (Safety.lean, Moves): one lemma for each. -/

namespace Sys2Proof.Machine

open Host Sys2Proof

theorem State.svSync_moves {a s : State} (v : Nat) (h : Moves a s) :
    Moves a (State.svSync s v) := by
  unfold State.svSync
  repeat' first
    | with_reducible assumption
    | with_reducible apply State.wrB_moves
    | with_reducible apply State.wr_moves

theorem State.hostDrop_moves {a s : State} (p : SvBuf → Bool) (h : Moves a s) :
    Moves a (State.hostDrop s p) := by
  unfold State.hostDrop
  repeat' first
    | with_reducible assumption
    | with_reducible apply State.svSweep_moves
    | simp only [Moves.put_iff]

theorem State.relCmd_moves {a s : State} (v : Nat) (w : Nat) (h : Moves a s) :
    Moves a (State.relCmd s v w) := by
  unfold State.relCmd
  repeat' first
    | with_reducible assumption
    | with_reducible apply State.hostDrop_moves

theorem State.setSvInst_moves {a s : State} (x : SvInst) (h : Moves a s) :
    Moves a (State.setSvInst s x) := by
  unfold State.setSvInst
  repeat' first
    | with_reducible assumption
    | simp only [Moves.put_iff]

theorem State.inputRelease_moves {a s : State} (f : Nat) (hi : Nat) (all : Bool) (h : Moves a s) :
    Moves a (State.inputRelease s f hi all) := by
  unfold State.inputRelease
  repeat' first
    | with_reducible assumption
    | with_reducible apply State.bufSweep_moves
    | simp only [Moves.put_iff]

theorem State.svFlags_moves {a s : State} (v : Nat) (c : Nat) (h : Moves a s) :
    Moves a (State.svFlags s v c) := by
  unfold State.svFlags
  repeat' first
    | with_reducible assumption
    | with_reducible apply State.wrB_moves

theorem State.svAbandonCtx_moves {a s : State} (f : Nat) (x : SvCtx) (h : Moves a s) :
    Moves a (State.svAbandonCtx s f x) := by
  unfold State.svAbandonCtx
  repeat' first
    | with_reducible assumption
    | with_reducible apply State.setSvCtx_moves
    | with_reducible apply State.setSvInst_moves
    | with_reducible apply State.inputRelease_moves
    | with_reducible apply State.raise_moves
    | with_reducible apply State.inc_moves
    | with_reducible apply State.svFlags_moves
    | with_reducible apply State.svSync_moves
    | with_reducible apply State.svSweep_moves
    | with_reducible apply State.mdAbandon_moves
    | with_reducible apply Moves.ite

theorem State.svDisable_moves {a s : State} (v : Nat) (c : Nat) (h : Moves a s) :
    Moves a (State.svDisable s v c) := by
  unfold State.svDisable
  repeat' first
    | with_reducible assumption
    | with_reducible apply State.svAbandonCtx_moves
    | with_reducible apply State.wr_moves
    | with_reducible apply Moves.foldl
    | intro _ _

theorem State.svCfg_moves {a s : State} (v : Nat) (c : Nat) (w : Nat) (h : Moves a s) :
    Moves a (State.svCfg s v c w) := by
  unfold State.svCfg
  repeat' first
    | with_reducible assumption
    | with_reducible apply State.wr_moves

theorem State.svCommit_moves {a s : State} (v : Nat) (c : Nat) (v3 : Nat) (h : Moves a s) :
    Moves a (State.svCommit s v c v3) := by
  unfold State.svCommit
  repeat' first
    | with_reducible assumption
    | with_reducible apply State.wr_moves
    | with_reducible apply State.setSvCtx_moves
    | with_reducible apply State.raise_moves
    | with_reducible apply State.addW_moves
    | with_reducible apply State.inc_moves
    | split

theorem State.svEnable_moves {a s : State} (v : Nat) (c : Nat) (h : Moves a s) :
    Moves a (State.svEnable s v c) := by
  unfold State.svEnable
  repeat' first
    | with_reducible assumption
    | with_reducible apply State.raise_moves
    | with_reducible apply State.wr_moves
    | with_reducible apply State.svCommit_moves
    | with_reducible apply State.setSvCtx_moves
    | with_reducible apply Moves.ite

theorem State.svCfgWrite_moves {a s0 : State} (v : Nat) (w : Nat) (hs0 : Moves a s0) :
    Moves a (State.svCfgWrite s0 v w) := by
  unfold State.svCfgWrite
  repeat' first
    | with_reducible assumption
    | with_reducible apply State.lockCheck_moves
    | with_reducible apply State.svDisable_moves
    | with_reducible apply State.svCfg_moves
    | with_reducible apply State.svEnable_moves
    | with_reducible apply Moves.ite

theorem State.pbNext_moves {a s : State} (v : Nat) (hi : Nat) (h : Moves a s) :
    Moves a (State.pbNext s v hi) := by
  unfold State.pbNext
  repeat' first
    | with_reducible assumption
    | with_reducible apply State.inc_moves
    | with_reducible apply State.wr_moves
    | with_reducible apply State.setSvCtx_moves
    | with_reducible apply Moves.ite

theorem State.svArm_moves {a s : State} (st : Nat) (fid : Nat) (h : Moves a s) :
    Moves a (State.svArm s st fid) := by
  unfold State.svArm
  repeat' first
    | with_reducible assumption
    | with_reducible apply State.setSvCtx_moves
    | with_reducible apply State.inc_moves
    | simp only [Moves.put_iff]
    | with_reducible apply Moves.foldl
    | intro _ _
    | split

theorem State.statsWrite_moves {a s : State} (v : Nat) (c : Nat) (f : Frame) (r : SvRun) (h : Moves a s) :
    Moves a (State.statsWrite s v c f r) := by
  unfold State.statsWrite
  repeat' first
    | with_reducible assumption
    | with_reducible apply State.poke_moves
    | with_reducible apply Moves.ite

theorem State.handOff_moves {a s : State} (v : Nat) (c : Nat) (f : Nat) (outs : List (Nat × Nat)) (h : Moves a s) :
    Moves a (State.handOff s v c f outs) := by
  unfold State.handOff
  repeat' first
    | with_reducible assumption
    | with_reducible apply State.wr_moves
    | with_reducible apply State.svSweep_moves
    | with_reducible apply State.mdFinish_moves
    | simp only [Moves.put_iff]
    | with_reducible apply Moves.foldl
    | intro _ _ _

theorem State.frameDone_moves {a s : State} (v : Nat) (c : Nat) (f : Frame) (r : SvRun) (h : Moves a s) :
    Moves a (State.frameDone s v c f r) := by
  unfold State.frameDone
  repeat' first
    | with_reducible assumption
    | with_reducible apply State.inputRelease_moves
    | with_reducible apply State.statsWrite_moves
    | with_reducible apply State.handOff_moves
    | with_reducible apply State.setSvCtx_moves
    | with_reducible apply State.svSweep_moves
    | with_reducible apply State.updFrame_moves
    | with_reducible apply State.raise_moves
    | with_reducible apply State.wr_moves
    | with_reducible apply State.tryConfirm_moves
    | with_reducible apply Moves.ite

theorem State.svAbandon_moves {a s : State} (f : Nat) (p : SvCtx → Bool) (h : Moves a s) :
    Moves a (State.svAbandon s f p) := by
  unfold State.svAbandon
  repeat' first
    | with_reducible assumption
    | with_reducible apply State.svAbandonCtx_moves
    | with_reducible apply Moves.foldl
    | intro _ _

theorem State.frameStale_moves {a s : State} (f : Nat) (h : Moves a s) :
    Moves a (State.frameStale s f) := by
  unfold State.frameStale
  repeat' first
    | with_reducible assumption
    | with_reducible apply State.mdStale_moves
    | with_reducible apply State.svAbandon_moves
    | with_reducible apply State.frameRetract_moves
    | split

theorem State.outHeader_moves {a s : State} (b : SvBuf) (r : SvRun) (h : Moves a s) :
    Moves a (State.outHeader s b r) := by
  unfold State.outHeader
  repeat' first
    | with_reducible assumption
    | with_reducible apply State.poke_moves

theorem State.outRows_moves {a s : State} (v : Nat) (c : Nat) (r : SvRun) (lo : Nat) (hi : Nat) (o : Nat × Nat) (h : Moves a s) :
    Moves a (State.outRows s v c r lo hi o) := by
  unfold State.outRows
  repeat' first
    | with_reducible assumption
    | with_reducible apply State.poke_moves
    | with_reducible apply State.outHeader_moves
    | simp only [Moves.put_iff]
    | with_reducible apply Moves.foldl
    | intro _ _
    | split

theorem State.svRetract_moves {a s : State} (f : Nat) (h : Moves a s) :
    Moves a (State.svRetract s f) := by
  unfold State.svRetract
  repeat' first
    | with_reducible assumption
    | with_reducible apply State.svAbandon_moves

theorem State.svSave_moves {a s : State} (v : Nat) (c : Nat) (h : Moves a s) :
    Moves a (State.svSave s v c) := by
  unfold State.svSave
  repeat' first
    | with_reducible assumption
    | with_reducible apply State.poke_moves
    | with_reducible apply State.inc_moves
    | with_reducible apply State.setSvCtx_moves
    | simp only [Moves.put_iff]

theorem State.saveOther_moves {a s : State} (v : Nat) (c : Nat) (h : Moves a s) :
    Moves a (State.saveOther s v c) := by
  unfold State.saveOther
  repeat' first
    | with_reducible assumption
    | with_reducible apply State.svSave_moves
    | simp only [Moves.put_iff]
    | split

theorem State.svScan_moves {a s : State} (h : Moves a s) :
    Moves a (State.svScan s) := by
  unfold State.svScan
  repeat' first
    | with_reducible assumption
    | simp only [Moves.put_iff]

theorem State.stripeDelivered_moves {a s : State} (v : Nat) (h : Moves a s) :
    Moves a (State.stripeDelivered s v) := by
  unfold State.stripeDelivered
  repeat' first
    | with_reducible assumption
    | with_reducible apply State.outRows_moves
    | with_reducible apply State.wr_moves
    | with_reducible apply State.inc_moves
    | with_reducible apply State.inputRelease_moves
    | with_reducible apply State.setSvInst_moves
    | with_reducible apply State.frameDone_moves
    | with_reducible apply State.setSvCtx_moves
    | with_reducible apply State.svScan_moves
    | with_reducible apply State.svFlags_moves
    | with_reducible apply State.svSync_moves
    | simp only [Moves.put_iff]
    | with_reducible apply Moves.foldl
    | intro _ _
    | split

theorem State.svPendAt_moves {a s : State} (v : Nat) (c : Nat) (f : Frame) (k : Nat) (h : Moves a s) :
    Moves a (State.svPendAt s v c f k) := by
  unfold State.svPendAt
  repeat' first
    | with_reducible assumption
    | with_reducible apply State.svCommit_moves
    | with_reducible apply State.setSvCtx_moves
    | simp only [Moves.put_iff]
    | split

theorem State.svRestore_moves {a s : State} (v : Nat) (c : Nat) (h : Moves a s) :
    Moves a (State.svRestore s v c) := by
  unfold State.svRestore
  repeat' first
    | with_reducible assumption
    | with_reducible apply State.inc_moves
    | with_reducible apply State.setSvCtx_moves
    | with_reducible apply Moves.ite

theorem State.takeOuts_moves {a s : State} (v : Nat) (c : Nat) (f : Frame) (h : Moves a s) :
    Moves a (State.takeOuts s v c f) := by
  unfold State.takeOuts
  repeat' first
    | with_reducible assumption
    | with_reducible apply State.setSvCtx_moves
    | with_reducible apply State.raise_moves
    | with_reducible apply State.inc_moves
    | simp only [Moves.put_iff]
    | with_reducible apply Moves.foldl
    | intro _ _ _
    | split

theorem State.stripeGo_moves {a s : State} (v : Nat) (x : SvCtx) (f : Frame) (k : Nat) (h : Moves a s) :
    Moves a (State.stripeGo s v x f k) := by
  unfold State.stripeGo
  repeat' first
    | with_reducible assumption
    | with_reducible apply State.svPendAt_moves
    | with_reducible apply State.svRestore_moves
    | with_reducible apply State.saveOther_moves
    | with_reducible apply State.setSvCtx_moves
    | with_reducible apply State.mdTake_moves
    | with_reducible apply State.takeOuts_moves
    | with_reducible apply State.wr_moves
    | with_reducible apply State.setSvInst_moves
    | with_reducible apply State.svFlags_moves
    | with_reducible apply State.svSync_moves
    | with_reducible apply Moves.ite

theorem State.stripeStart_moves {a s : State} (v : Nat) (h : Moves a s) :
    Moves a (State.stripeStart s v) := by
  unfold State.stripeStart
  repeat' first
    | with_reducible assumption
    | with_reducible apply State.svAbandonCtx_moves
    | with_reducible apply State.staleCount_moves
    | with_reducible apply State.stripeGo_moves
    | simp only [Moves.put_iff]
    | split

theorem State.stripeSuspend_moves {a s : State} (v : Nat) (h : Moves a s) :
    Moves a (State.stripeSuspend s v) := by
  unfold State.stripeSuspend
  repeat' first
    | with_reducible assumption
    | with_reducible apply State.setSvCtx_moves
    | with_reducible apply State.setSvInst_moves
    | with_reducible apply State.raise_moves
    | with_reducible apply State.inc_moves
    | with_reducible apply State.svSave_moves
    | with_reducible apply State.svFlags_moves
    | with_reducible apply State.svSync_moves
    | simp only [Moves.put_iff]
    | split

theorem execFrameEnd_moves {a s : State} (port : Fin 16) (vc : Fin 4) (vcx : Bool) (hdr : Fin 3) (h : Moves a s) :
    ∃ t, execFrameEnd port vc vcx hdr s = .next t ∧ Moves a t := by
  unfold execFrameEnd
  refine ⟨_, rfl, ?_⟩
  repeat' first
    | with_reducible assumption
    | with_reducible apply State.header_moves
    | with_reducible apply State.shortPkt_moves
    | with_reducible apply State.svScan_moves
    | with_reducible apply State.frameEnd_moves
    | intro _ _

theorem execFrameStart_moves {a s : State} (port : Fin 16) (vc : Fin 4) (vcx : Bool) (hdr : Fin 3) (h : Moves a s) :
    ∃ t, execFrameStart port vc vcx hdr s = .next t ∧ Moves a t := by
  unfold execFrameStart
  refine ⟨_, rfl, ?_⟩
  repeat' first
    | with_reducible assumption
    | with_reducible apply State.header_moves
    | with_reducible apply State.shortPkt_moves
    | with_reducible apply State.svScan_moves
    | with_reducible apply State.frameStart_moves
    | intro _ _

theorem execHostHoldExpire_moves {a s : State} (v : Fin 2) (c : Fin 64) (o : Fin 3) (i : Fin 16) (h : Moves a s) :
    ∃ t, execHostHoldExpire v c o i s = .next t ∧ Moves a t := by
  unfold execHostHoldExpire
  refine ⟨_, rfl, ?_⟩
  repeat' first
    | with_reducible assumption
    | with_reducible apply State.hostDrop_moves

theorem execLineReceive_moves {a s : State} (port : Fin 16) (pkt : Packet) (h : Moves a s) :
    ∃ t, execLineReceive port pkt s = .next t ∧ Moves a t := by
  unfold execLineReceive
  refine ⟨_, rfl, ?_⟩
  repeat' first
    | with_reducible assumption
    | with_reducible apply State.inc_moves
    | with_reducible apply State.header_moves
    | with_reducible apply State.svScan_moves
    | with_reducible apply State.longPkt_moves
    | with_reducible apply Moves.ite
    | intro _ _

theorem execPbNextWrite_moves {a s : State} (v : Fin 2) (w : Word) (h : Moves a s) :
    ∃ t, execPbNextWrite v w s = .next t ∧ Moves a t := by
  unfold execPbNextWrite
  refine ⟨_, rfl, ?_⟩
  repeat' first
    | with_reducible assumption
    | with_reducible apply State.reach_moves
    | with_reducible apply State.pbNext_moves
    | intro _ _

theorem execSieveRelCmd_moves {a s : State} (v : Fin 2) (w : Word) (h : Moves a s) :
    ∃ t, execSieveRelCmd v w s = .next t ∧ Moves a t := by
  unfold execSieveRelCmd
  refine ⟨_, rfl, ?_⟩
  repeat' first
    | with_reducible assumption
    | with_reducible apply State.reach_moves
    | with_reducible apply State.relCmd_moves
    | intro _ _

theorem execStripeDelivered_moves {a s : State} (v : Fin 2) (h : Moves a s) :
    ∃ t, execStripeDelivered v s = .next t ∧ Moves a t := by
  unfold execStripeDelivered
  refine ⟨_, rfl, ?_⟩
  repeat' first
    | with_reducible assumption
    | with_reducible apply State.stripeDelivered_moves

theorem execStripeSuspend_moves {a s : State} (v : Fin 2) (h : Moves a s) :
    ∃ t, execStripeSuspend v s = .next t ∧ Moves a t := by
  unfold execStripeSuspend
  refine ⟨_, rfl, ?_⟩
  repeat' first
    | with_reducible assumption
    | with_reducible apply State.stripeSuspend_moves

end Sys2Proof.Machine
end

