-- ==== Sys2Proof/Laws/MovesSensor.lean ====
section
/-! SUPPORT. What each operation of Machine/Sensor.lean may do to the stores and the queue (Safety.lean, Moves): one lemma for each. -/

namespace Sys2Proof.Machine

open Host Sys2Proof

theorem State.scSync_moves {a s : State} (c : Nat) (h : Moves a s) :
    Moves a (State.scSync s c) := by
  unfold State.scSync
  repeat' first
    | with_reducible assumption
    | with_reducible apply State.wrB_moves
    | with_reducible apply State.wr_moves

theorem State.bundlePush_moves {a s : State} (c : Nat) (v2 : Nat) (h : Moves a s) :
    Moves a (State.bundlePush s c v2) := by
  unfold State.bundlePush
  repeat' first
    | with_reducible assumption
    | with_reducible apply State.inc_moves
    | with_reducible apply State.raise_moves
    | with_reducible apply State.poke_moves
    | with_reducible apply State.scSync_moves
    | with_reducible apply State.setCtrl_moves
    | simp only [Moves.put_iff]
    | split

theorem State.scPushHi_moves {a s : State} (c : Nat) (v : Nat) (h : Moves a s) :
    Moves a (State.scPushHi s c v) := by
  unfold State.scPushHi
  repeat' first
    | with_reducible assumption
    | with_reducible apply State.bundlePush_moves
    | with_reducible apply State.wr_moves

theorem State.scFlush_moves {a s : State} (c : Nat) (h : Moves a s) :
    Moves a (State.scFlush s c) := by
  unfold State.scFlush
  repeat' first
    | with_reducible assumption
    | with_reducible apply State.bundleEnd_moves
    | with_reducible apply State.scSync_moves
    | with_reducible apply State.setCtrl_moves
    | with_reducible apply Moves.foldl
    | intro _ _

theorem State.busWrites_moves {a s : State} (c : Nat) (b : Bundle) (n : Nat) (h : Moves a s) :
    Moves a (State.busWrites s c b n) := by
  unfold State.busWrites
  repeat' first
    | with_reducible assumption
    | with_reducible apply State.emit_moves
    | with_reducible apply Moves.foldl
    | intro _ _

theorem State.bundleComplete_moves {a s : State} (c : Nat) (h : Moves a s) :
    Moves a (State.bundleComplete s c) := by
  unfold State.bundleComplete
  repeat' first
    | with_reducible assumption
    | with_reducible apply State.setCtrl_moves
    | with_reducible apply State.busWrites_moves
    | with_reducible apply State.scSync_moves
    | with_reducible apply State.bundleEnd_moves
    | with_reducible apply State.raise_moves
    | with_reducible apply State.inc_moves
    | with_reducible apply State.svArm_moves
    | simp only [Moves.put_iff]
    | split

theorem State.bundleNack_moves {a s : State} (c : Nat) (i : Nat) (h : Moves a s) :
    Moves a (State.bundleNack s c i) := by
  unfold State.bundleNack
  repeat' first
    | with_reducible assumption
    | with_reducible apply State.setCtrl_moves
    | with_reducible apply State.busWrites_moves
    | with_reducible apply State.scSync_moves
    | with_reducible apply State.raise_moves
    | with_reducible apply State.inc_moves
    | with_reducible apply State.bundleEnd_moves
    | simp only [Moves.put_iff]
    | split

theorem State.bundleStart_moves {a s : State} (c : Nat) (h : Moves a s) :
    Moves a (State.bundleStart s c) := by
  unfold State.bundleStart
  repeat' first
    | with_reducible assumption
    | with_reducible apply State.scSync_moves
    | with_reducible apply State.setCtrl_moves
    | simp only [Moves.put_iff]
    | split

theorem State.ibi_moves {a s : State} (c : Nat) (addr : Nat) (payload : List Byte) (h : Moves a s) :
    Moves a (State.ibi s c addr payload) := by
  unfold State.ibi
  repeat' first
    | with_reducible assumption
    | with_reducible apply State.raise_moves
    | with_reducible apply State.inc_moves
    | with_reducible apply Moves.ite
    | simp only [Moves.put_iff]

theorem State.zeroPages_moves {a s : State} (id : Nat) (h : Moves a s) :
    Moves a (State.zeroPages s id) := by
  unfold State.zeroPages
  repeat' first
    | with_reducible assumption
    | with_reducible apply State.poke_moves
    | simp only [Moves.put_iff]
    | with_reducible apply Moves.foldl
    | intro _ _

theorem State.retractCmd_moves {a s : State} (id : Nat) (h : Moves a s) :
    Moves a (State.retractCmd s id) := by
  unfold State.retractCmd
  repeat' first
    | with_reducible assumption
    | with_reducible apply State.drain_moves
    | with_reducible apply State.commitComplete_moves
    | with_reducible apply State.updCmd_moves
    | with_reducible apply State.close_moves
    | with_reducible apply State.zeroPages_moves
    | with_reducible apply State.killClose_moves
    | split

theorem State.retraction_moves {a s : State} (h : Moves a s) :
    Moves a (State.retraction s) := by
  unfold State.retraction
  repeat' first
    | with_reducible assumption
    | with_reducible apply State.jobRetract_moves
    | with_reducible apply State.svRetract_moves
    | with_reducible apply State.retractCmd_moves
    | with_reducible apply State.raise_moves
    | with_reducible apply State.wr_moves
    | simp only [Moves.put_iff]
    | with_reducible apply Moves.foldl
    | split

theorem execBundleComplete_moves {a s : State} (c : Fin 8) (h : Moves a s) :
    ∃ t, execBundleComplete c s = .next t ∧ Moves a t := by
  unfold execBundleComplete
  refine ⟨_, rfl, ?_⟩
  repeat' first
    | with_reducible assumption
    | with_reducible apply State.bundleComplete_moves

theorem execBundleNack_moves {a s : State} (c : Fin 8) (i : Fin 32) (h : Moves a s) :
    ∃ t, execBundleNack c i s = .next t ∧ Moves a t := by
  unfold execBundleNack
  refine ⟨_, rfl, ?_⟩
  repeat' first
    | with_reducible assumption
    | with_reducible apply State.bundleNack_moves

theorem execBundleStart_moves {a s : State} (c : Fin 8) (h : Moves a s) :
    ∃ t, execBundleStart c s = .next t ∧ Moves a t := by
  unfold execBundleStart
  refine ⟨_, rfl, ?_⟩
  repeat' first
    | with_reducible assumption
    | with_reducible apply State.bundleStart_moves

theorem execIbiReceive_moves {a s : State} (c : Fin 8) (addr : BitVec 7) (payload : List Byte) (h : Moves a s) :
    ∃ t, execIbiReceive c addr payload s = .next t ∧ Moves a t := by
  unfold execIbiReceive
  refine ⟨_, rfl, ?_⟩
  repeat' first
    | with_reducible assumption
    | with_reducible apply State.ibi_moves

theorem execScFlush_moves {a s : State} (c : Fin 8) (h : Moves a s) :
    ∃ t, execScFlush c s = .next t ∧ Moves a t := by
  unfold execScFlush
  refine ⟨_, rfl, ?_⟩
  repeat' first
    | with_reducible assumption
    | with_reducible apply State.reach_moves
    | with_reducible apply State.scFlush_moves
    | intro _ _

theorem execScPush_moves {a s : State} (c : Fin 8) (v : Word) (h : Moves a s) :
    ∃ t, execScPush c v s = .next t ∧ Moves a t := by
  unfold execScPush
  refine ⟨_, rfl, ?_⟩
  repeat' first
    | with_reducible assumption
    | with_reducible apply State.reach_moves
    | with_reducible apply State.scPushHi_moves
    | intro _ _

end Sys2Proof.Machine
end

