-- ==== Sys2Proof/Laws/MovesRouter.lean ====
section
/-! SUPPORT. What each operation of Machine/Router.lean may do to the stores and the queue (Safety.lean, Moves): one lemma for each. -/

namespace Sys2Proof.Machine

open Host Sys2Proof

theorem State.agWrite_moves {a s : State} (g : Nat) (v : Nat) (h : Moves a s) :
    Moves a (State.agWrite s g v) := by
  unfold State.agWrite
  repeat' first
    | with_reducible assumption
    | with_reducible apply State.wr_moves
    | with_reducible apply Moves.ite
    | simp only [Moves.put_iff]

theorem State.answer_moves {a s : State} (v : Nat) (err : optParam Bool false) (h : Moves a s) :
    Moves a (State.answer s v err) := by
  unfold State.answer
  repeat' first
    | with_reducible assumption
    | simp only [Moves.put_iff]

theorem State.partRead_moves {a s : State} (q : Part) (h : Moves a s) :
    Moves a (State.partRead s q) := by
  unfold State.partRead
  repeat' first
    | with_reducible assumption
    | with_reducible apply State.tookFree_moves
    | with_reducible apply State.evPop_moves
    | with_reducible apply State.wr_moves
    | with_reducible apply State.gnSync_moves
    | with_reducible apply State.huSync_moves
    | simp only [Moves.put_iff]
    | split

theorem State.regRead_moves {a s : State} (page : Nat) (ofs : Nat) (h : Moves a s) :
    Moves a (State.regRead s page ofs).1 := by
  unfold State.regRead
  repeat' first
    | with_reducible assumption
    | with_reducible apply State.unmapped_moves
    | with_reducible apply State.accFault_moves
    | with_reducible apply State.partRead_moves
    | simp only [Moves.put_iff]
    | with_reducible apply Moves.foldl
    | split

theorem State.cntClear_moves {a s : State} (page : Nat) (h : Moves a s) :
    Moves a (State.cntClear s page) := by
  exact h.regsFilter (fun c => !(keyPage c.1 == page && (counterIds page).contains (c.1 / 65536 % 4096))) (fun _ => true) rfl (Or.inl rfl) rfl rfl rfl

theorem State.evtClr_moves {a s : State} (page : Nat) (v : Nat) (h : Moves a s) :
    Moves a (State.evtClr s page v) := by
  unfold State.evtClr
  repeat' first
    | with_reducible assumption
    | with_reducible apply State.wr_moves
    | with_reducible apply State.msixScan_moves
    | with_reducible apply State.huSync_moves
    | with_reducible apply Moves.ite

theorem State.evtSet_moves {a s : State} (page : Nat) (v : Nat) (h : Moves a s) :
    Moves a (State.evtSet s page v) := by
  unfold State.evtSet
  repeat' first
    | with_reducible assumption
    | with_reducible apply State.wr_moves

theorem State.shadowArm_moves {a s : State} (page : Nat) (h : Moves a s) :
    Moves a (State.shadowArm s page) := by
  unfold State.shadowArm
  repeat' first
    | with_reducible assumption
    | with_reducible apply State.commitPage_moves
    | with_reducible apply State.commitLate_moves
    | with_reducible apply Moves.ite
    | simp only [Moves.put_iff]

theorem State.shadowCtrl_moves {a s : State} (page : Nat) (v : Nat) (h : Moves a s) :
    Moves a (State.shadowCtrl s page v) := by
  unfold State.shadowCtrl
  repeat' first
    | with_reducible assumption
    | with_reducible apply State.accFault_moves
    | with_reducible apply State.wr_moves
    | with_reducible apply State.shadowArm_moves
    | with_reducible apply Moves.ite
    | simp only [Moves.put_iff]

theorem State.commonWord_moves {a s : State} (page : Nat) (ofs : Nat) (v : Nat) (h : Moves a s) :
    Moves a (State.commonWord s page ofs v) := by
  unfold State.commonWord
  repeat' first
    | with_reducible assumption
    | with_reducible apply State.cntClear_moves
    | with_reducible apply State.evtClr_moves
    | with_reducible apply State.evtSet_moves
    | with_reducible apply State.shadowCtrl_moves
    | with_reducible apply State.wordWrite_moves
    | with_reducible apply Moves.ite

theorem State.shadowWrite_moves {a s : State} (page : Nat) (ofs : Nat) (v : Nat) (h : Moves a s) :
    Moves a (State.shadowWrite s page ofs v) := by
  unfold State.shadowWrite
  repeat' first
    | with_reducible assumption
    | with_reducible apply State.wrSh_moves
    | with_reducible apply State.commitPage_moves
    | with_reducible apply Moves.ite
    | with_reducible apply Moves.foldl
    | intro _ _ _

theorem State.ctxCommand_moves {a s : State} (c : Nat) (v : Nat) (h : Moves a s) :
    Moves a (State.ctxCommand s c v) := by
  unfold State.ctxCommand
  repeat' first
    | with_reducible assumption
    | with_reducible apply State.ctxCmd_moves
    | with_reducible apply State.ctxOpen_moves
    | with_reducible apply State.ctxClose_moves
    | with_reducible apply State.ctxAdopt_moves
    | with_reducible apply Moves.ite
    | intro _ _

theorem State.ctxWord_moves {a s : State} (c : Nat) (ofs : Nat) (v : Nat) (h : Moves a s) :
    Moves a (State.ctxWord s c ofs v) := by
  unfold State.ctxWord
  repeat' first
    | with_reducible assumption
    | with_reducible apply State.ctxCommand_moves
    | with_reducible apply State.doorbell_moves
    | with_reducible apply State.cqHead_moves
    | with_reducible apply State.lease_moves
    | with_reducible apply State.soArm_moves
    | with_reducible apply State.soDisarm_moves
    | with_reducible apply State.wordWrite_moves
    | with_reducible apply Moves.ite

theorem State.rstBit_moves {a s : State} (src : Src) (i : Nat) (h : Moves a s) :
    Moves a (State.rstBit s src i) := by
  unfold State.rstBit
  repeat' first
    | with_reducible assumption
    | with_reducible apply State.wr_moves
    | with_reducible apply State.inc_moves
    | with_reducible apply State.pcieReset_moves
    | with_reducible apply State.clearPage_moves
    | with_reducible apply Moves.ite

theorem State.rstReq_moves {a s : State} (src : Src) (v : Nat) (h : Moves a s) :
    Moves a (State.rstReq s src v) := by
  unfold State.rstReq
  repeat' first
    | with_reducible assumption
    | with_reducible apply State.rstBit_moves
    | with_reducible apply Moves.foldl
    | intro _ _

theorem State.psWrite_moves {a s : State} (v : Nat) (h : Moves a s) :
    Moves a (State.psWrite s v) := by
  unfold State.psWrite
  repeat' first
    | with_reducible assumption
    | with_reducible apply State.psRun_moves
    | with_reducible apply State.psWatch_moves
    | with_reducible apply State.psDown_moves
    | with_reducible apply Moves.ite

theorem State.coreWord_moves {a s : State} (src : Src) (page : Nat) (ofs : Nat) (v : Nat) (h : Moves a s) :
    Moves a (State.coreWord s src page ofs v) := by
  unfold State.coreWord
  repeat' first
    | with_reducible assumption
    | with_reducible apply State.wordWrite_moves
    | with_reducible apply State.rmCmd_moves
    | with_reducible apply State.pllTargetWrite_moves
    | with_reducible apply State.pllRelock_moves
    | with_reducible apply State.mclkTargetWrite_moves
    | with_reducible apply State.rstReq_moves
    | with_reducible apply State.psWrite_moves
    | with_reducible apply State.kgateReq_moves
    | with_reducible apply State.hostEn_moves
    | with_reducible apply State.opReqWrite_moves
    | with_reducible apply State.padRelease_moves
    | with_reducible apply State.snapTake_moves
    | with_reducible apply State.realignWrite_moves
    | with_reducible apply State.realignLost_moves
    | with_reducible apply State.refCheckAll_moves
    | with_reducible apply State.snapRequest_moves
    | with_reducible apply State.kmaskWrite_moves
    | with_reducible apply State.floorWrite_moves
    | with_reducible apply State.budgetWrite_moves
    | with_reducible apply State.domCfg_moves
    | with_reducible apply State.vecEoi_moves
    | with_reducible apply Moves.ite
    | split

theorem State.barrierWord_moves {a s : State} (src : Src) (ofs : Nat) (v : Nat) (h : Moves a s) :
    Moves a (State.barrierWord s src ofs v) := by
  unfold State.barrierWord
  repeat' first
    | with_reducible assumption
    | with_reducible apply State.wordWrite_moves
    | with_reducible apply State.brEnable_moves
    | with_reducible apply State.wr_moves
    | with_reducible apply State.brGuard_moves
    | with_reducible apply State.brPush_moves
    | with_reducible apply State.rxPop_moves
    | with_reducible apply State.brDqPush_moves
    | with_reducible apply State.spEnable_moves
    | with_reducible apply Moves.ite
    | intro _ _

theorem State.jqCfg_moves {a s : State} (q : Nat) (v : Nat) (h : Moves a s) :
    Moves a (State.jqCfg s q v) := by
  unfold State.jqCfg
  repeat' first
    | with_reducible assumption
    | with_reducible apply State.wordWrite_moves
    | with_reducible apply State.wr_moves
    | with_reducible apply Moves.ite
    | simp only [Moves.put_iff]

theorem State.mediaWord_moves {a s : State} (page : Nat) (ofs : Nat) (v : Nat) (h : Moves a s) :
    Moves a (State.mediaWord s page ofs v) := by
  unfold State.mediaWord
  repeat' first
    | with_reducible assumption
    | with_reducible apply State.wordWrite_moves
    | with_reducible apply State.mdSync_moves
    | with_reducible apply State.pgCtrl_moves
    | with_reducible apply State.pgRelease_moves
    | with_reducible apply State.jqCfg_moves
    | with_reducible apply State.jqTail_moves
    | with_reducible apply State.orbStat_moves
    | with_reducible apply State.ocCtrl_moves
    | with_reducible apply State.maskReload_moves
    | with_reducible apply State.lyPost_moves
    | with_reducible apply State.esCfg_moves
    | with_reducible apply State.bsRd_moves
    | with_reducible apply State.forceIdr_moves
    | split

theorem State.frontWord_moves {a s : State} (page : Nat) (ofs : Nat) (v : Nat) (h : Moves a s) :
    Moves a (State.frontWord s page ofs v) := by
  unfold State.frontWord
  repeat' first
    | with_reducible assumption
    | with_reducible apply State.wordWrite_moves
    | with_reducible apply State.ktCtrl_moves
    | with_reducible apply State.cntCtrl_moves
    | with_reducible apply State.iwinWrite_moves
    | with_reducible apply State.refRelease_moves
    | with_reducible apply State.strWrite_moves
    | with_reducible apply State.agWrite_moves
    | with_reducible apply State.scPushHi_moves
    | with_reducible apply State.scFlush_moves
    | with_reducible apply State.svSync_moves
    | with_reducible apply State.relCmd_moves
    | with_reducible apply State.svCfgWrite_moves
    | with_reducible apply State.pbNext_moves
    | split

theorem State.simWrite_moves {a s : State} (v : Nat) (h : Moves a s) :
    Moves a (State.simWrite s v) := by
  unfold State.simWrite
  repeat' first
    | with_reducible assumption
    | with_reducible apply State.tookFree_moves
    | with_reducible apply State.simCtrl_moves

theorem State.edgeWord_moves {a s : State} (src : Src) (page : Nat) (ofs : Nat) (v : Nat) (h : Moves a s) :
    Moves a (State.edgeWord s src page ofs v) := by
  unfold State.edgeWord
  repeat' first
    | with_reducible assumption
    | with_reducible apply State.wordWrite_moves
    | with_reducible apply State.paCtrl_moves
    | with_reducible apply State.freezeRelease_moves
    | with_reducible apply State.simWrite_moves
    | with_reducible apply State.exportStart_moves
    | with_reducible apply State.msixUnmask_moves
    | with_reducible apply State.ethTail_moves
    | with_reducible apply State.ptpMeas_moves
    | with_reducible apply State.refCheckAll_moves
    | with_reducible apply State.gnPut_moves
    | with_reducible apply State.huPut_moves
    | with_reducible apply State.huSync_moves
    | with_reducible apply State.gpioEdges_moves
    | with_reducible apply State.skCtrl_moves
    | with_reducible apply State.joinGo_moves
    | with_reducible apply State.cabWrite_moves
    | with_reducible apply State.bootDoorbell_moves
    | with_reducible apply State.mbIssue_moves
    | with_reducible apply Moves.ite
    | split

theorem State.liveWord_moves {a s : State} (src : Src) (page : Nat) (ofs : Nat) (v : Nat) (h : Moves a s) :
    Moves a (State.liveWord s src page ofs v) := by
  unfold State.liveWord
  repeat' first
    | with_reducible assumption
    | with_reducible apply State.shadowWrite_moves
    | with_reducible apply State.ctxWord_moves
    | with_reducible apply State.coreWord_moves
    | with_reducible apply State.barrierWord_moves
    | with_reducible apply State.mediaWord_moves
    | with_reducible apply State.frontWord_moves
    | with_reducible apply State.edgeWord_moves
    | with_reducible apply Moves.ite

theorem State.pageWord_moves {a s : State} (src : Src) (page : Nat) (ofs : Nat) (v : Nat) (h : Moves a s) :
    Moves a (State.pageWord s src page ofs v) := by
  unfold State.pageWord
  repeat' first
    | with_reducible assumption
    | with_reducible apply State.commonWord_moves
    | with_reducible apply State.accFault_moves
    | with_reducible apply State.shadowWrite_moves
    | with_reducible apply State.liveWord_moves
    | with_reducible apply Moves.ite

theorem State.regWrite_moves {a s : State} (src : Src) (page : Nat) (ofs : Nat) (v : Nat) (h : Moves a s) :
    Moves a (State.regWrite s src page ofs v) := by
  unfold State.regWrite
  repeat' first
    | with_reducible assumption
    | with_reducible apply State.unmapped_moves
    | with_reducible apply State.raise_moves
    | with_reducible apply State.inc_moves
    | with_reducible apply State.msixScan_moves
    | with_reducible apply State.pageWord_moves
    | with_reducible apply Moves.ite

theorem State.rstDone_moves {a s : State} (i : Nat) (h : Moves a s) :
    Moves a (State.rstDone s i) := by
  unfold State.rstDone
  repeat' first
    | with_reducible assumption
    | with_reducible apply State.clearBlock_moves
    | with_reducible apply State.wr_moves
    | with_reducible apply Moves.ite

end Sys2Proof.Machine
end

