-- ==== Sys2Proof/Laws/MovesGateway.lean ====
section
/-! SUPPORT. What each operation of Machine/Gateway.lean may do to the stores and the queue (Safety.lean, Moves): one lemma for each. -/

namespace Sys2Proof.Machine

open Host Sys2Proof

theorem State.barRead_moves {a s : State} (base : Nat) (o : Nat) (n : Nat) (h : Moves a s) :
    Moves a (State.barRead s base o n) := by
  unfold State.barRead
  repeat' first
    | with_reducible assumption
    | with_reducible apply State.answer_moves
    | with_reducible apply State.badAccess_moves
    | with_reducible apply State.regRead_moves
    | with_reducible apply Moves.ite

theorem State.barWrite_moves {a s : State} (base : Nat) (o : Nat) (bytes : List (Option Byte)) (h : Moves a s) :
    Moves a (State.barWrite s base o bytes) := by
  unfold State.barWrite
  repeat' first
    | with_reducible assumption
    | with_reducible apply State.badAccess_moves
    | with_reducible apply State.regWrite_moves
    | simp only [Moves.put_iff]
    | split

theorem State.busRead_moves {a s : State} (v1 : Nat) (n : Nat) (h : Moves a s) :
    Moves a (State.busRead s v1 n).1 := by
  unfold State.busRead
  repeat' first
    | with_reducible assumption
    | with_reducible apply State.regRead_moves
    | with_reducible apply State.extRead_moves
    | split

theorem State.runRefused_moves {a s : State} (v1 : Nat) (bs : List Byte) (h : Moves a s) :
    ∀ t, State.runRefused s v1 bs = some t → Moves a t := by
  intro t e
  unfold State.runRefused at e
  split at e
  · cases e
  · cases e
  · split at e
    · cases e
      repeat' first
        | with_reducible assumption
        | with_reducible assumption
        | with_reducible apply State.guardRefuse_moves
        | with_reducible apply State.addrFault_moves
    · split at e
      · cases e
      · cases e
        repeat' first
          | with_reducible assumption
          | with_reducible assumption
          | with_reducible apply State.guardRefuse_moves
          | with_reducible apply State.addrFault_moves

theorem State.runWrite_moves {a s : State} (src : Src) (v2 : Nat) (bs : List Byte) (h : Moves a s) :
    Moves a (State.runWrite s src v2 bs).1 := by
  unfold State.runWrite
  repeat' first
    | with_reducible assumption
    | with_reducible apply State.regWrite_moves
    | with_reducible apply State.extWrite_moves
    | split

theorem State.busWrite_moves {a s : State} (src : Src) (v2 : Nat) (bytes : List (Option Byte)) (h : Moves a s) :
    Moves a (State.busWrite s src v2 bytes).1 := by
  unfold State.busWrite
  lift_lets
  intro rs
  split
  · rename_i t e
    obtain ⟨r, _, hr⟩ := List.exists_of_findSome?_eq_some e
    exact State.runRefused_moves _ _ h _ hr
  · repeat' first
      | with_reducible assumption
      | with_reducible assumption
      | (refine State.runRefused_moves _ _ ?_ _ (by with_reducible assumption))
      | with_reducible apply State.runWrite_moves
      | with_reducible apply Moves.foldl
      | intro _ _

theorem State.iovaRead_moves {a s : State} (o : Nat) (n : Nat) (h : Moves a s) :
    Moves a (State.iovaRead s o n) := by
  unfold State.iovaRead
  repeat' first
    | with_reducible assumption
    | with_reducible apply State.answer_moves
    | with_reducible apply State.inc_moves
    | with_reducible apply State.iommuFault_moves
    | with_reducible apply State.busRead_moves
    | split
    | (refine Moves.fstEq (by with_reducible assumption) ?_)

theorem State.iovaWrite_moves {a s : State} (o : Nat) (bytes : List (Option Byte)) (h : Moves a s) :
    Moves a (State.iovaWrite s o bytes) := by
  unfold State.iovaWrite
  repeat' first
    | with_reducible assumption
    | with_reducible apply State.iommuFault_moves
    | with_reducible apply State.busWrite_moves
    | split

theorem State.notifyOne_moves {a s : State} (n : Nat × Nat) (h : Moves a s) :
    Moves a (State.notifyOne s n) := by
  unfold State.notifyOne
  repeat' first
    | with_reducible assumption
    | with_reducible apply State.busWrite_moves
    | with_reducible apply State.raise_moves
    | with_reducible apply State.inc_moves
    | with_reducible apply Moves.ite

theorem State.notifyFlush_moves {a s : State} (h : Moves a s) :
    Moves a (State.notifyFlush s) := by
  unfold State.notifyFlush
  repeat' first
    | with_reducible assumption
    | with_reducible apply State.notifyOne_moves
    | simp only [Moves.put_iff]
    | with_reducible apply Moves.foldl

theorem State.pcieIn_moves {a s : State} (bar : Nat) (o : Nat) (n : Nat) (write : Option (List (Option Byte))) (h : Moves a s) :
    Moves a (State.pcieIn s bar o n write) := by
  unfold State.pcieIn
  repeat' first
    | with_reducible assumption
    | with_reducible apply State.iovaRead_moves
    | with_reducible apply State.barRead_moves
    | with_reducible apply State.iovaWrite_moves
    | with_reducible apply State.barWrite_moves
    | split

theorem State.put_moves {a s : State} (src : Src) (page : Nat) (ofs : Nat) (v : Nat) (h : Moves a s) :
    Moves a (State.put s src page ofs v) := by
  unfold State.put
  repeat' first
    | with_reducible assumption
    | with_reducible apply State.notifyFlush_moves
    | with_reducible apply State.regWrite_moves

theorem State.readOut_moves {a s : State} (page : Nat) (ofs : Nat) (h : Moves a s) :
    Moves a (State.readOut s page ofs) := by
  unfold State.readOut
  repeat' first
    | with_reducible assumption
    | with_reducible apply State.regRead_moves
    | with_reducible apply State.answer_moves

theorem execBadWidthAccess_moves {a s : State} (page : BitVec 14) (ofs : BitVec 12) (h : Moves a s) :
    ∃ t, execBadWidthAccess page ofs s = .next t ∧ Moves a t := by
  unfold execBadWidthAccess
  refine ⟨_, rfl, ?_⟩
  repeat' first
    | with_reducible assumption
    | with_reducible apply State.answer_moves
    | with_reducible apply State.badAccess_moves

theorem execBandDone_moves {a s : State} (h : Moves a s) :
    ∃ t, execBandDone s = .next t ∧ Moves a t := by
  unfold execBandDone
  refine ⟨_, rfl, ?_⟩
  repeat' first
    | with_reducible assumption
    | with_reducible apply State.notifyFlush_moves
    | with_reducible apply State.bandDone_moves

theorem execBlockResetDone_moves {a s : State} (i : Fin 28) (h : Moves a s) :
    ∃ t, execBlockResetDone i s = .next t ∧ Moves a t := by
  unfold execBlockResetDone
  refine ⟨_, rfl, ?_⟩
  repeat' first
    | with_reducible assumption
    | with_reducible apply State.rstDone_moves

theorem execBlockResetReq_moves {a s : State} (src : Src) (v : Word) (h : Moves a s) :
    ∃ t, execBlockResetReq src v s = .next t ∧ Moves a t := by
  unfold execBlockResetReq
  refine ⟨_, rfl, ?_⟩
  repeat' first
    | with_reducible assumption
    | with_reducible apply State.put_moves

theorem execCntClear_moves {a s : State} (src : Src) (page : BitVec 14) (h : Moves a s) :
    ∃ t, execCntClear src page s = .next t ∧ Moves a t := by
  unfold execCntClear
  refine ⟨_, rfl, ?_⟩
  repeat' first
    | with_reducible assumption
    | with_reducible apply State.put_moves

theorem execEvtClr_moves {a s : State} (src : Src) (page : BitVec 14) (v : Word) (h : Moves a s) :
    ∃ t, execEvtClr src page v s = .next t ∧ Moves a t := by
  unfold execEvtClr
  refine ⟨_, rfl, ?_⟩
  repeat' first
    | with_reducible assumption
    | with_reducible apply State.put_moves

theorem execEvtSet_moves {a s : State} (src : Src) (page : BitVec 14) (v : Word) (h : Moves a s) :
    ∃ t, execEvtSet src page v s = .next t ∧ Moves a t := by
  unfold execEvtSet
  refine ⟨_, rfl, ?_⟩
  repeat' first
    | with_reducible assumption
    | with_reducible apply State.put_moves

theorem execFrameStale_moves {a s : State} (frame : BitVec 32) (h : Moves a s) :
    ∃ t, execFrameStale frame s = .next t ∧ Moves a t := by
  unfold execFrameStale
  refine ⟨_, rfl, ?_⟩
  repeat' first
    | with_reducible assumption
    | with_reducible apply State.notifyFlush_moves
    | with_reducible apply State.frameStale_moves

theorem execJobEnd_moves {a s : State} (q : Fin 4) (h : Moves a s) :
    ∃ t, execJobEnd q s = .next t ∧ Moves a t := by
  unfold execJobEnd
  refine ⟨_, rfl, ?_⟩
  repeat' first
    | with_reducible assumption
    | with_reducible apply State.notifyFlush_moves
    | with_reducible apply State.jobEnd_moves

theorem execLoReadLatch_moves {a s : State} (page : BitVec 14) (ofs : BitVec 12) (h : Moves a s) :
    ∃ t, execLoReadLatch page ofs s = .next t ∧ Moves a t := by
  unfold execLoReadLatch
  refine ⟨_, rfl, ?_⟩
  repeat' first
    | with_reducible assumption
    | with_reducible apply State.readOut_moves

theorem execOffPageAccess_moves {a s : State} (page : BitVec 14) (v1 : BitVec 12) (h : Moves a s) :
    ∃ t, execOffPageAccess page v1 s = .next t ∧ Moves a t := by
  unfold execOffPageAccess
  refine ⟨_, rfl, ?_⟩
  repeat' first
    | with_reducible assumption
    | with_reducible apply State.answer_moves
    | with_reducible apply Moves.ite

theorem execPcieInbound_moves {a s : State} (bar : Fin 3) (ofs : BitVec 24) (len : BitVec 9) (write : Option (List (Option Byte))) (h : Moves a s) :
    ∃ t, execPcieInbound bar ofs len write s = .next t ∧ Moves a t := by
  unfold execPcieInbound
  refine ⟨_, rfl, ?_⟩
  repeat' first
    | with_reducible assumption
    | with_reducible apply State.notifyFlush_moves
    | with_reducible apply State.pcieIn_moves

theorem execPgEnable_moves {a s : State} (p : Fin 16) (v : Word) (h : Moves a s) :
    ∃ t, execPgEnable p v s = .next t ∧ Moves a t := by
  unfold execPgEnable
  refine ⟨_, rfl, ?_⟩
  repeat' first
    | with_reducible assumption
    | with_reducible apply State.reach_moves
    | with_reducible apply State.notifyFlush_moves
    | with_reducible apply State.pgCtrl_moves
    | intro _ _

theorem execRcRead_moves {a s : State} (page : BitVec 14) (ofs : BitVec 12) (h : Moves a s) :
    ∃ t, execRcRead page ofs s = .next t ∧ Moves a t := by
  unfold execRcRead
  refine ⟨_, rfl, ?_⟩
  repeat' first
    | with_reducible assumption
    | with_reducible apply State.readOut_moves

theorem execRd_moves {a s : State} (src : Fin 8) (tag : BitVec 16) (addr : Addr) (len : BitVec 9) (h : Moves a s) :
    ∃ t, execRd src tag addr len s = .next t ∧ Moves a t := by
  unfold execRd
  refine ⟨_, rfl, ?_⟩
  repeat' first
    | with_reducible assumption
    | with_reducible apply State.skOnce_moves
    | with_reducible apply State.busRead_moves
    | intro _ _
    | split
    | (refine Moves.fstEq (by with_reducible assumption) ?_)

theorem execRegisterWrite_moves {a s : State} (src : Src) (page : BitVec 14) (ofs : BitVec 12) (v : Word) (h : Moves a s) :
    ∃ t, execRegisterWrite src page ofs v s = .next t ∧ Moves a t := by
  unfold execRegisterWrite
  refine ⟨_, rfl, ?_⟩
  repeat' first
    | with_reducible assumption
    | with_reducible apply State.put_moves

theorem execRetraction_moves {a s : State} (h : Moves a s) :
    ∃ t, execRetraction s = .next t ∧ Moves a t := by
  unfold execRetraction
  refine ⟨_, rfl, ?_⟩
  repeat' first
    | with_reducible assumption
    | with_reducible apply State.notifyFlush_moves
    | with_reducible apply State.baseRelease_moves
    | with_reducible apply State.retraction_moves
    | split

theorem execShadowArm_moves {a s : State} (src : Src) (page : BitVec 14) (v : Word) (h : Moves a s) :
    ∃ t, execShadowArm src page v s = .next t ∧ Moves a t := by
  unfold execShadowArm
  refine ⟨_, rfl, ?_⟩
  repeat' first
    | with_reducible assumption
    | with_reducible apply State.put_moves

theorem execShadowCommit_moves {a s : State} (page : BitVec 14) (h : Moves a s) :
    ∃ t, execShadowCommit page s = .next t ∧ Moves a t := by
  unfold execShadowCommit
  refine ⟨_, rfl, ?_⟩
  repeat' first
    | with_reducible assumption
    | with_reducible apply State.commitPage_moves
    | with_reducible apply Moves.ite

theorem execShadowDisarm_moves {a s : State} (src : Src) (page : BitVec 14) (v : Word) (h : Moves a s) :
    ∃ t, execShadowDisarm src page v s = .next t ∧ Moves a t := by
  unfold execShadowDisarm
  refine ⟨_, rfl, ?_⟩
  repeat' first
    | with_reducible assumption
    | with_reducible apply State.put_moves

theorem execShadowWrite_moves {a s : State} (src : Src) (page : BitVec 14) (ofs : BitVec 12) (v : Word) (h : Moves a s) :
    ∃ t, execShadowWrite src page ofs v s = .next t ∧ Moves a t := by
  unfold execShadowWrite
  refine ⟨_, rfl, ?_⟩
  repeat' first
    | with_reducible assumption
    | with_reducible apply State.put_moves

theorem execSieveCtxEnable_moves {a s : State} (v : Fin 2) (w : Word) (h : Moves a s) :
    ∃ t, execSieveCtxEnable v w s = .next t ∧ Moves a t := by
  unfold execSieveCtxEnable
  refine ⟨_, rfl, ?_⟩
  repeat' first
    | with_reducible assumption
    | with_reducible apply State.reach_moves
    | with_reducible apply State.notifyFlush_moves
    | with_reducible apply State.svCfgWrite_moves
    | intro _ _

theorem execStripeStart_moves {a s : State} (v : Fin 2) (h : Moves a s) :
    ∃ t, execStripeStart v s = .next t ∧ Moves a t := by
  unfold execStripeStart
  refine ⟨_, rfl, ?_⟩
  repeat' first
    | with_reducible assumption
    | with_reducible apply State.notifyFlush_moves
    | with_reducible apply State.stripeStart_moves
    | with_reducible apply State.svScan_moves

theorem execUnmappedAccess_moves {a s : State} (page : BitVec 14) (h : Moves a s) :
    ∃ t, execUnmappedAccess page s = .next t ∧ Moves a t := by
  unfold execUnmappedAccess
  refine ⟨_, rfl, ?_⟩
  repeat' first
    | with_reducible assumption
    | with_reducible apply State.answer_moves
    | with_reducible apply State.unmapped_moves
    | with_reducible apply Moves.ite

theorem execWr_moves {a s : State} (src : Fin 8) (tag : BitVec 16) (addr : Addr) (bytes : List (Option Byte)) (h : Moves a s) :
    ∃ t, execWr src tag addr bytes s = .next t ∧ Moves a t := by
  unfold execWr
  refine ⟨_, rfl, ?_⟩
  repeat' first
    | with_reducible assumption
    | with_reducible apply State.skOnce_moves
    | with_reducible apply State.busWrite_moves
    | with_reducible apply State.notifyFlush_moves
    | intro _ _

end Sys2Proof.Machine
end

