-- ==== Sys2Proof/Laws/MovesOrbit.lean ====
section
/-! SUPPORT. What each operation of Machine/Orbit.lean may do to the stores and the queue (Safety.lean, Moves): one lemma for each. -/

namespace Sys2Proof.Machine

open Host Sys2Proof

theorem State.orbFail_moves {a s : State} (id : Nat) (code : Nat) (h : Moves a s) :
    Moves a (State.orbFail s id code) := by
  unfold State.orbFail
  repeat' first
    | with_reducible assumption
    | with_reducible apply State.close_moves
    | with_reducible apply State.wr_moves
    | with_reducible apply State.raise_moves
    | with_reducible apply State.inc_moves
    | with_reducible apply Moves.ite

theorem State.orbRead_moves {a s : State} (c : Cmd) (ofs : Nat) (n : Nat) (k : State → List Byte → State) (h : Moves a s) (hk : ∀ y0 y1, Moves a y0 → Moves a (k y0 y1)) :
    Moves a (State.orbRead s c ofs n k) := by
  unfold State.orbRead
  repeat' first
    | with_reducible assumption
    | with_reducible apply State.cmdRead_moves
    | with_reducible apply State.orbFail_moves
    | with_reducible apply State.close_moves
    | with_reducible apply hk
    | simp only [Moves.put_iff]
    | split

theorem State.solveComplete_moves {a s : State} (ce : Bool) (ue : Bool) (h : Moves a s) :
    Moves a (State.solveComplete s ce ue) := by
  unfold State.solveComplete
  repeat' first
    | with_reducible assumption
    | with_reducible apply State.raise_moves
    | with_reducible apply State.inc_moves
    | with_reducible apply State.orbStat_moves
    | with_reducible apply State.wr_moves
    | with_reducible apply State.close_moves
    | with_reducible apply State.updCmd_moves
    | simp only [Moves.put_iff]
    | split

theorem State.solveRun_moves {a s : State} (c : Cmd) (h : Moves a s) :
    Moves a (State.solveRun s c) := by
  unfold State.solveRun
  repeat' first
    | with_reducible assumption
    | with_reducible apply State.orbRead_moves
    | with_reducible apply State.orbFail_moves
    | with_reducible apply State.orbStat_moves
    | with_reducible apply State.wr_moves
    | with_reducible apply Moves.ite
    | simp only [Moves.put_iff]
    | intro _ _ _

theorem State.solveStart_moves {a s : State} (h : Moves a s) :
    Moves a (State.solveStart s) := by
  unfold State.solveStart
  repeat' first
    | with_reducible assumption
    | with_reducible apply State.startService_moves
    | with_reducible apply State.solveRun_moves
    | simp only [Moves.put_iff]
    | split

theorem execSolveComplete_moves {a s : State} (ce : Bool) (ue : Bool) (h : Moves a s) :
    ∃ t, execSolveComplete ce ue s = .next t ∧ Moves a t := by
  unfold execSolveComplete
  refine ⟨_, rfl, ?_⟩
  repeat' first
    | with_reducible assumption
    | with_reducible apply State.solveComplete_moves

theorem execSolveStart_moves {a s : State} (h : Moves a s) :
    ∃ t, execSolveStart s = .next t ∧ Moves a t := by
  unfold execSolveStart
  refine ⟨_, rfl, ?_⟩
  repeat' first
    | with_reducible assumption
    | with_reducible apply State.solveStart_moves

end Sys2Proof.Machine
end

