-- ==== Sys2Proof/Laws/MovesRecipe.lean ====
section
/-! SUPPORT. What each operation of Machine/Recipe.lean may do to the stores and the queue (Safety.lean, Moves): one lemma for each. -/

namespace Sys2Proof.Machine

open Host Sys2Proof

theorem State.recipeRegister_moves {a s : State} (addr : Nat) (constBase : Nat) (h : Moves a s) :
    Moves a (State.recipeRegister s addr constBase) := by
  unfold State.recipeRegister
  repeat' first
    | with_reducible assumption
    | with_reducible apply State.poke_moves
    | with_reducible apply State.noteRead_moves
    | simp only [Moves.put_iff]
    | split

theorem execRecipeRegister_moves {a s : State} (addr : Addr) (constBase : Addr) (h : Moves a s) :
    ∃ t, execRecipeRegister addr constBase s = .next t ∧ Moves a t := by
  unfold execRecipeRegister
  refine ⟨_, rfl, ?_⟩
  repeat' first
    | with_reducible assumption
    | with_reducible apply State.recipeRegister_moves

end Sys2Proof.Machine
end

