-- ==== Sys2Proof/Laws/MovesTick.lean ====
section
/-! SUPPORT. What each operation of Machine/Tick.lean may do to the stores and the queue (Safety.lean, Moves): one lemma for each. -/

namespace Sys2Proof.Machine

open Host Sys2Proof

theorem State.tick_moves {a s0 : State} (hs0 : Moves a s0) :
    Moves a (State.tick s0) := by
  unfold State.tick
  repeat' first
    | with_reducible assumption
    | with_reducible apply State.audioTick_moves
    | with_reducible apply Moves.ite
    | simp only [Moves.put_iff]

end Sys2Proof.Machine
end

