-- ==== Sys2Proof/Laws/State.lean ====
section
/-! SUPPORT. What each named update of the state leaves alone, field by field. -/

namespace Sys2Proof.Machine

/-! ### wr -/

@[simp] theorem State.wr_pending (s : State) (f : Fld) (p i v : Nat) : (s.wr f p i v).pending = s.pending := rfl
@[simp] theorem State.wr_shad (s : State) (f : Fld) (p i v : Nat) : (s.wr f p i v).shad = s.shad := rfl
@[simp] theorem State.wr_lat (s : State) (f : Fld) (p i v : Nat) : (s.wr f p i v).lat = s.lat := rfl
@[simp] theorem State.wr_mem (s : State) (f : Fld) (p i v : Nat) : (s.wr f p i v).mem = s.mem := rfl
@[simp] theorem State.wr_poison (s : State) (f : Fld) (p i v : Nat) : (s.wr f p i v).poison = s.poison := rfl
@[simp] theorem State.wr_armed (s : State) (f : Fld) (p i v : Nat) : (s.wr f p i v).armed = s.armed := rfl
@[simp] theorem State.wr_gt (s : State) (f : Fld) (p i v : Nat) : (s.wr f p i v).gt = s.gt := rfl
@[simp] theorem State.wr_si (s : State) (f : Fld) (p i v : Nat) : (s.wr f p i v).si = s.si := rfl
@[simp] theorem State.wr_siSub (s : State) (f : Fld) (p i v : Nat) : (s.wr f p i v).siSub = s.siSub := rfl
@[simp] theorem State.wr_now (s : State) (f : Fld) (p i v : Nat) : (s.wr f p i v).now = s.now := rfl
@[simp] theorem State.wr_nowSub (s : State) (f : Fld) (p i v : Nat) : (s.wr f p i v).nowSub = s.nowSub := rfl
@[simp] theorem State.wr_fresh (s : State) (f : Fld) (p i v : Nat) : (s.wr f p i v).fresh = s.fresh := rfl
@[simp] theorem State.wr_rdata (s : State) (f : Fld) (p i v : Nat) : (s.wr f p i v).rdata = s.rdata := rfl
@[simp] theorem State.wr_rerr (s : State) (f : Fld) (p i v : Nat) : (s.wr f p i v).rerr = s.rerr := rfl
@[simp] theorem State.wr_outs (s : State) (f : Fld) (p i v : Nat) : (s.wr f p i v).outs = s.outs := rfl
@[simp] theorem State.wr_orr (s : State) (f : Fld) (p i v : Nat) : (s.wr f p i v).orr = s.orr := rfl
@[simp] theorem State.wr_captures (s : State) (f : Fld) (p i v : Nat) : (s.wr f p i v).captures = s.captures := rfl
@[simp] theorem State.wr_tiles (s : State) (f : Fld) (p i v : Nat) : (s.wr f p i v).tiles = s.tiles := rfl
@[simp] theorem State.wr_recipes (s : State) (f : Fld) (p i v : Nat) : (s.wr f p i v).recipes = s.recipes := rfl
@[simp] theorem State.wr_sch (s : State) (f : Fld) (p i v : Nat) : (s.wr f p i v).sch = s.sch := rfl
@[simp] theorem State.wr_cam (s : State) (f : Fld) (p i v : Nat) : (s.wr f p i v).cam = s.cam := rfl
@[simp] theorem State.wr_sv (s : State) (f : Fld) (p i v : Nat) : (s.wr f p i v).sv = s.sv := rfl
@[simp] theorem State.wr_tbufs (s : State) (f : Fld) (p i v : Nat) : (s.wr f p i v).tbufs = s.tbufs := rfl
@[simp] theorem State.wr_md (s : State) (f : Fld) (p i v : Nat) : (s.wr f p i v).md = s.md := rfl
@[simp] theorem State.wr_orb (s : State) (f : Fld) (p i v : Nat) : (s.wr f p i v).orb = s.orb := rfl
@[simp] theorem State.wr_fs (s : State) (f : Fld) (p i v : Nat) : (s.wr f p i v).fs = s.fs := rfl
@[simp] theorem State.wr_br (s : State) (f : Fld) (p i v : Nat) : (s.wr f p i v).br = s.br := rfl
@[simp] theorem State.wr_maskValid (s : State) (f : Fld) (p i v : Nat) : (s.wr f p i v).maskValid = s.maskValid := rfl
@[simp] theorem State.wr_vid (s : State) (f : Fld) (p i v : Nat) : (s.wr f p i v).vid = s.vid := rfl
@[simp] theorem State.wr_pil (s : State) (f : Fld) (p i v : Nat) : (s.wr f p i v).pil = s.pil := rfl
@[simp] theorem State.wr_pwr (s : State) (f : Fld) (p i v : Nat) : (s.wr f p i v).pwr = s.pwr := rfl
@[simp] theorem State.wr_host (s : State) (f : Fld) (p i v : Nat) : (s.wr f p i v).host = s.host := rfl
@[simp] theorem State.wr_fw (s : State) (f : Fld) (p i v : Nat) : (s.wr f p i v).fw = s.fw := rfl
@[simp] theorem State.wr_rep (s : State) (f : Fld) (p i v : Nat) : (s.wr f p i v).rep = s.rep := rfl
@[simp] theorem State.wr_sk (s : State) (f : Fld) (p i v : Nat) : (s.wr f p i v).sk = s.sk := rfl

/-! ### inc -/

@[simp] theorem State.inc_pending (s : State) (f : Fld) (p i k : Nat) : (s.inc f p i k).pending = s.pending := rfl
@[simp] theorem State.inc_shad (s : State) (f : Fld) (p i k : Nat) : (s.inc f p i k).shad = s.shad := rfl
@[simp] theorem State.inc_lat (s : State) (f : Fld) (p i k : Nat) : (s.inc f p i k).lat = s.lat := rfl
@[simp] theorem State.inc_mem (s : State) (f : Fld) (p i k : Nat) : (s.inc f p i k).mem = s.mem := rfl
@[simp] theorem State.inc_poison (s : State) (f : Fld) (p i k : Nat) : (s.inc f p i k).poison = s.poison := rfl
@[simp] theorem State.inc_armed (s : State) (f : Fld) (p i k : Nat) : (s.inc f p i k).armed = s.armed := rfl
@[simp] theorem State.inc_gt (s : State) (f : Fld) (p i k : Nat) : (s.inc f p i k).gt = s.gt := rfl
@[simp] theorem State.inc_si (s : State) (f : Fld) (p i k : Nat) : (s.inc f p i k).si = s.si := rfl
@[simp] theorem State.inc_siSub (s : State) (f : Fld) (p i k : Nat) : (s.inc f p i k).siSub = s.siSub := rfl
@[simp] theorem State.inc_now (s : State) (f : Fld) (p i k : Nat) : (s.inc f p i k).now = s.now := rfl
@[simp] theorem State.inc_nowSub (s : State) (f : Fld) (p i k : Nat) : (s.inc f p i k).nowSub = s.nowSub := rfl
@[simp] theorem State.inc_fresh (s : State) (f : Fld) (p i k : Nat) : (s.inc f p i k).fresh = s.fresh := rfl
@[simp] theorem State.inc_rdata (s : State) (f : Fld) (p i k : Nat) : (s.inc f p i k).rdata = s.rdata := rfl
@[simp] theorem State.inc_rerr (s : State) (f : Fld) (p i k : Nat) : (s.inc f p i k).rerr = s.rerr := rfl
@[simp] theorem State.inc_outs (s : State) (f : Fld) (p i k : Nat) : (s.inc f p i k).outs = s.outs := rfl
@[simp] theorem State.inc_orr (s : State) (f : Fld) (p i k : Nat) : (s.inc f p i k).orr = s.orr := rfl
@[simp] theorem State.inc_captures (s : State) (f : Fld) (p i k : Nat) : (s.inc f p i k).captures = s.captures := rfl
@[simp] theorem State.inc_tiles (s : State) (f : Fld) (p i k : Nat) : (s.inc f p i k).tiles = s.tiles := rfl
@[simp] theorem State.inc_recipes (s : State) (f : Fld) (p i k : Nat) : (s.inc f p i k).recipes = s.recipes := rfl
@[simp] theorem State.inc_sch (s : State) (f : Fld) (p i k : Nat) : (s.inc f p i k).sch = s.sch := rfl
@[simp] theorem State.inc_cam (s : State) (f : Fld) (p i k : Nat) : (s.inc f p i k).cam = s.cam := rfl
@[simp] theorem State.inc_sv (s : State) (f : Fld) (p i k : Nat) : (s.inc f p i k).sv = s.sv := rfl
@[simp] theorem State.inc_tbufs (s : State) (f : Fld) (p i k : Nat) : (s.inc f p i k).tbufs = s.tbufs := rfl
@[simp] theorem State.inc_md (s : State) (f : Fld) (p i k : Nat) : (s.inc f p i k).md = s.md := rfl
@[simp] theorem State.inc_orb (s : State) (f : Fld) (p i k : Nat) : (s.inc f p i k).orb = s.orb := rfl
@[simp] theorem State.inc_fs (s : State) (f : Fld) (p i k : Nat) : (s.inc f p i k).fs = s.fs := rfl
@[simp] theorem State.inc_br (s : State) (f : Fld) (p i k : Nat) : (s.inc f p i k).br = s.br := rfl
@[simp] theorem State.inc_maskValid (s : State) (f : Fld) (p i k : Nat) : (s.inc f p i k).maskValid = s.maskValid := rfl
@[simp] theorem State.inc_vid (s : State) (f : Fld) (p i k : Nat) : (s.inc f p i k).vid = s.vid := rfl
@[simp] theorem State.inc_pil (s : State) (f : Fld) (p i k : Nat) : (s.inc f p i k).pil = s.pil := rfl
@[simp] theorem State.inc_pwr (s : State) (f : Fld) (p i k : Nat) : (s.inc f p i k).pwr = s.pwr := rfl
@[simp] theorem State.inc_host (s : State) (f : Fld) (p i k : Nat) : (s.inc f p i k).host = s.host := rfl
@[simp] theorem State.inc_fw (s : State) (f : Fld) (p i k : Nat) : (s.inc f p i k).fw = s.fw := rfl
@[simp] theorem State.inc_rep (s : State) (f : Fld) (p i k : Nat) : (s.inc f p i k).rep = s.rep := rfl
@[simp] theorem State.inc_sk (s : State) (f : Fld) (p i k : Nat) : (s.inc f p i k).sk = s.sk := rfl

/-! ### raise -/

@[simp] theorem State.raise_pending (s : State) (page bit : Nat) : (s.raise page bit).pending = s.pending := rfl
@[simp] theorem State.raise_shad (s : State) (page bit : Nat) : (s.raise page bit).shad = s.shad := rfl
@[simp] theorem State.raise_lat (s : State) (page bit : Nat) : (s.raise page bit).lat = s.lat := rfl
@[simp] theorem State.raise_mem (s : State) (page bit : Nat) : (s.raise page bit).mem = s.mem := rfl
@[simp] theorem State.raise_poison (s : State) (page bit : Nat) : (s.raise page bit).poison = s.poison := rfl
@[simp] theorem State.raise_armed (s : State) (page bit : Nat) : (s.raise page bit).armed = s.armed := rfl
@[simp] theorem State.raise_gt (s : State) (page bit : Nat) : (s.raise page bit).gt = s.gt := rfl
@[simp] theorem State.raise_si (s : State) (page bit : Nat) : (s.raise page bit).si = s.si := rfl
@[simp] theorem State.raise_siSub (s : State) (page bit : Nat) : (s.raise page bit).siSub = s.siSub := rfl
@[simp] theorem State.raise_now (s : State) (page bit : Nat) : (s.raise page bit).now = s.now := rfl
@[simp] theorem State.raise_nowSub (s : State) (page bit : Nat) : (s.raise page bit).nowSub = s.nowSub := rfl
@[simp] theorem State.raise_fresh (s : State) (page bit : Nat) : (s.raise page bit).fresh = s.fresh := rfl
@[simp] theorem State.raise_rdata (s : State) (page bit : Nat) : (s.raise page bit).rdata = s.rdata := rfl
@[simp] theorem State.raise_rerr (s : State) (page bit : Nat) : (s.raise page bit).rerr = s.rerr := rfl
@[simp] theorem State.raise_outs (s : State) (page bit : Nat) : (s.raise page bit).outs = s.outs := rfl
@[simp] theorem State.raise_orr (s : State) (page bit : Nat) : (s.raise page bit).orr = s.orr := rfl
@[simp] theorem State.raise_captures (s : State) (page bit : Nat) : (s.raise page bit).captures = s.captures := rfl
@[simp] theorem State.raise_tiles (s : State) (page bit : Nat) : (s.raise page bit).tiles = s.tiles := rfl
@[simp] theorem State.raise_recipes (s : State) (page bit : Nat) : (s.raise page bit).recipes = s.recipes := rfl
@[simp] theorem State.raise_sch (s : State) (page bit : Nat) : (s.raise page bit).sch = s.sch := rfl
@[simp] theorem State.raise_cam (s : State) (page bit : Nat) : (s.raise page bit).cam = s.cam := rfl
@[simp] theorem State.raise_sv (s : State) (page bit : Nat) : (s.raise page bit).sv = s.sv := rfl
@[simp] theorem State.raise_tbufs (s : State) (page bit : Nat) : (s.raise page bit).tbufs = s.tbufs := rfl
@[simp] theorem State.raise_md (s : State) (page bit : Nat) : (s.raise page bit).md = s.md := rfl
@[simp] theorem State.raise_orb (s : State) (page bit : Nat) : (s.raise page bit).orb = s.orb := rfl
@[simp] theorem State.raise_fs (s : State) (page bit : Nat) : (s.raise page bit).fs = s.fs := rfl
@[simp] theorem State.raise_br (s : State) (page bit : Nat) : (s.raise page bit).br = s.br := rfl
@[simp] theorem State.raise_maskValid (s : State) (page bit : Nat) : (s.raise page bit).maskValid = s.maskValid := rfl
@[simp] theorem State.raise_vid (s : State) (page bit : Nat) : (s.raise page bit).vid = s.vid := rfl
@[simp] theorem State.raise_pil (s : State) (page bit : Nat) : (s.raise page bit).pil = s.pil := rfl
@[simp] theorem State.raise_pwr (s : State) (page bit : Nat) : (s.raise page bit).pwr = s.pwr := rfl
@[simp] theorem State.raise_host (s : State) (page bit : Nat) : (s.raise page bit).host = s.host := rfl
@[simp] theorem State.raise_fw (s : State) (page bit : Nat) : (s.raise page bit).fw = s.fw := rfl
@[simp] theorem State.raise_rep (s : State) (page bit : Nat) : (s.raise page bit).rep = s.rep := rfl
@[simp] theorem State.raise_sk (s : State) (page bit : Nat) : (s.raise page bit).sk = s.sk := rfl

/-! ### wrSh -/

@[simp] theorem State.wrSh_pending (s : State) (f : Fld) (p i v : Nat) : (s.wrSh f p i v).pending = s.pending := rfl
@[simp] theorem State.wrSh_regs (s : State) (f : Fld) (p i v : Nat) : (s.wrSh f p i v).regs = s.regs := rfl
@[simp] theorem State.wrSh_lat (s : State) (f : Fld) (p i v : Nat) : (s.wrSh f p i v).lat = s.lat := rfl
@[simp] theorem State.wrSh_mem (s : State) (f : Fld) (p i v : Nat) : (s.wrSh f p i v).mem = s.mem := rfl
@[simp] theorem State.wrSh_poison (s : State) (f : Fld) (p i v : Nat) : (s.wrSh f p i v).poison = s.poison := rfl
@[simp] theorem State.wrSh_armed (s : State) (f : Fld) (p i v : Nat) : (s.wrSh f p i v).armed = s.armed := rfl
@[simp] theorem State.wrSh_gt (s : State) (f : Fld) (p i v : Nat) : (s.wrSh f p i v).gt = s.gt := rfl
@[simp] theorem State.wrSh_si (s : State) (f : Fld) (p i v : Nat) : (s.wrSh f p i v).si = s.si := rfl
@[simp] theorem State.wrSh_siSub (s : State) (f : Fld) (p i v : Nat) : (s.wrSh f p i v).siSub = s.siSub := rfl
@[simp] theorem State.wrSh_now (s : State) (f : Fld) (p i v : Nat) : (s.wrSh f p i v).now = s.now := rfl
@[simp] theorem State.wrSh_nowSub (s : State) (f : Fld) (p i v : Nat) : (s.wrSh f p i v).nowSub = s.nowSub := rfl
@[simp] theorem State.wrSh_fresh (s : State) (f : Fld) (p i v : Nat) : (s.wrSh f p i v).fresh = s.fresh := rfl
@[simp] theorem State.wrSh_rdata (s : State) (f : Fld) (p i v : Nat) : (s.wrSh f p i v).rdata = s.rdata := rfl
@[simp] theorem State.wrSh_rerr (s : State) (f : Fld) (p i v : Nat) : (s.wrSh f p i v).rerr = s.rerr := rfl
@[simp] theorem State.wrSh_outs (s : State) (f : Fld) (p i v : Nat) : (s.wrSh f p i v).outs = s.outs := rfl
@[simp] theorem State.wrSh_orr (s : State) (f : Fld) (p i v : Nat) : (s.wrSh f p i v).orr = s.orr := rfl
@[simp] theorem State.wrSh_captures (s : State) (f : Fld) (p i v : Nat) : (s.wrSh f p i v).captures = s.captures := rfl
@[simp] theorem State.wrSh_tiles (s : State) (f : Fld) (p i v : Nat) : (s.wrSh f p i v).tiles = s.tiles := rfl
@[simp] theorem State.wrSh_recipes (s : State) (f : Fld) (p i v : Nat) : (s.wrSh f p i v).recipes = s.recipes := rfl
@[simp] theorem State.wrSh_sch (s : State) (f : Fld) (p i v : Nat) : (s.wrSh f p i v).sch = s.sch := rfl
@[simp] theorem State.wrSh_cam (s : State) (f : Fld) (p i v : Nat) : (s.wrSh f p i v).cam = s.cam := rfl
@[simp] theorem State.wrSh_sv (s : State) (f : Fld) (p i v : Nat) : (s.wrSh f p i v).sv = s.sv := rfl
@[simp] theorem State.wrSh_tbufs (s : State) (f : Fld) (p i v : Nat) : (s.wrSh f p i v).tbufs = s.tbufs := rfl
@[simp] theorem State.wrSh_md (s : State) (f : Fld) (p i v : Nat) : (s.wrSh f p i v).md = s.md := rfl
@[simp] theorem State.wrSh_orb (s : State) (f : Fld) (p i v : Nat) : (s.wrSh f p i v).orb = s.orb := rfl
@[simp] theorem State.wrSh_fs (s : State) (f : Fld) (p i v : Nat) : (s.wrSh f p i v).fs = s.fs := rfl
@[simp] theorem State.wrSh_br (s : State) (f : Fld) (p i v : Nat) : (s.wrSh f p i v).br = s.br := rfl
@[simp] theorem State.wrSh_maskValid (s : State) (f : Fld) (p i v : Nat) : (s.wrSh f p i v).maskValid = s.maskValid := rfl
@[simp] theorem State.wrSh_vid (s : State) (f : Fld) (p i v : Nat) : (s.wrSh f p i v).vid = s.vid := rfl
@[simp] theorem State.wrSh_pil (s : State) (f : Fld) (p i v : Nat) : (s.wrSh f p i v).pil = s.pil := rfl
@[simp] theorem State.wrSh_pwr (s : State) (f : Fld) (p i v : Nat) : (s.wrSh f p i v).pwr = s.pwr := rfl
@[simp] theorem State.wrSh_host (s : State) (f : Fld) (p i v : Nat) : (s.wrSh f p i v).host = s.host := rfl
@[simp] theorem State.wrSh_fw (s : State) (f : Fld) (p i v : Nat) : (s.wrSh f p i v).fw = s.fw := rfl
@[simp] theorem State.wrSh_rep (s : State) (f : Fld) (p i v : Nat) : (s.wrSh f p i v).rep = s.rep := rfl
@[simp] theorem State.wrSh_sk (s : State) (f : Fld) (p i v : Nat) : (s.wrSh f p i v).sk = s.sk := rfl

/-! ### setByte -/

@[simp] theorem State.setByte_pending (s : State) (a : Nat) (b : Byte) : (s.setByte a b).pending = s.pending := rfl
@[simp] theorem State.setByte_regs (s : State) (a : Nat) (b : Byte) : (s.setByte a b).regs = s.regs := rfl
@[simp] theorem State.setByte_shad (s : State) (a : Nat) (b : Byte) : (s.setByte a b).shad = s.shad := rfl
@[simp] theorem State.setByte_lat (s : State) (a : Nat) (b : Byte) : (s.setByte a b).lat = s.lat := rfl
@[simp] theorem State.setByte_poison (s : State) (a : Nat) (b : Byte) : (s.setByte a b).poison = s.poison := rfl
@[simp] theorem State.setByte_armed (s : State) (a : Nat) (b : Byte) : (s.setByte a b).armed = s.armed := rfl
@[simp] theorem State.setByte_gt (s : State) (a : Nat) (b : Byte) : (s.setByte a b).gt = s.gt := rfl
@[simp] theorem State.setByte_si (s : State) (a : Nat) (b : Byte) : (s.setByte a b).si = s.si := rfl
@[simp] theorem State.setByte_siSub (s : State) (a : Nat) (b : Byte) : (s.setByte a b).siSub = s.siSub := rfl
@[simp] theorem State.setByte_now (s : State) (a : Nat) (b : Byte) : (s.setByte a b).now = s.now := rfl
@[simp] theorem State.setByte_nowSub (s : State) (a : Nat) (b : Byte) : (s.setByte a b).nowSub = s.nowSub := rfl
@[simp] theorem State.setByte_fresh (s : State) (a : Nat) (b : Byte) : (s.setByte a b).fresh = s.fresh := rfl
@[simp] theorem State.setByte_rdata (s : State) (a : Nat) (b : Byte) : (s.setByte a b).rdata = s.rdata := rfl
@[simp] theorem State.setByte_rerr (s : State) (a : Nat) (b : Byte) : (s.setByte a b).rerr = s.rerr := rfl
@[simp] theorem State.setByte_outs (s : State) (a : Nat) (b : Byte) : (s.setByte a b).outs = s.outs := rfl
@[simp] theorem State.setByte_orr (s : State) (a : Nat) (b : Byte) : (s.setByte a b).orr = s.orr := rfl
@[simp] theorem State.setByte_captures (s : State) (a : Nat) (b : Byte) : (s.setByte a b).captures = s.captures := rfl
@[simp] theorem State.setByte_tiles (s : State) (a : Nat) (b : Byte) : (s.setByte a b).tiles = s.tiles := rfl
@[simp] theorem State.setByte_recipes (s : State) (a : Nat) (b : Byte) : (s.setByte a b).recipes = s.recipes := rfl
@[simp] theorem State.setByte_sch (s : State) (a : Nat) (b : Byte) : (s.setByte a b).sch = s.sch := rfl
@[simp] theorem State.setByte_cam (s : State) (a : Nat) (b : Byte) : (s.setByte a b).cam = s.cam := rfl
@[simp] theorem State.setByte_sv (s : State) (a : Nat) (b : Byte) : (s.setByte a b).sv = s.sv := rfl
@[simp] theorem State.setByte_tbufs (s : State) (a : Nat) (b : Byte) : (s.setByte a b).tbufs = s.tbufs := rfl
@[simp] theorem State.setByte_md (s : State) (a : Nat) (b : Byte) : (s.setByte a b).md = s.md := rfl
@[simp] theorem State.setByte_orb (s : State) (a : Nat) (b : Byte) : (s.setByte a b).orb = s.orb := rfl
@[simp] theorem State.setByte_fs (s : State) (a : Nat) (b : Byte) : (s.setByte a b).fs = s.fs := rfl
@[simp] theorem State.setByte_br (s : State) (a : Nat) (b : Byte) : (s.setByte a b).br = s.br := rfl
@[simp] theorem State.setByte_maskValid (s : State) (a : Nat) (b : Byte) : (s.setByte a b).maskValid = s.maskValid := rfl
@[simp] theorem State.setByte_vid (s : State) (a : Nat) (b : Byte) : (s.setByte a b).vid = s.vid := rfl
@[simp] theorem State.setByte_pil (s : State) (a : Nat) (b : Byte) : (s.setByte a b).pil = s.pil := rfl
@[simp] theorem State.setByte_pwr (s : State) (a : Nat) (b : Byte) : (s.setByte a b).pwr = s.pwr := rfl
@[simp] theorem State.setByte_host (s : State) (a : Nat) (b : Byte) : (s.setByte a b).host = s.host := rfl
@[simp] theorem State.setByte_fw (s : State) (a : Nat) (b : Byte) : (s.setByte a b).fw = s.fw := rfl
@[simp] theorem State.setByte_rep (s : State) (a : Nat) (b : Byte) : (s.setByte a b).rep = s.rep := rfl
@[simp] theorem State.setByte_sk (s : State) (a : Nat) (b : Byte) : (s.setByte a b).sk = s.sk := rfl

/-! ### setPoison -/

@[simp] theorem State.setPoison_pending (s : State) (a : Nat) (b : Bool) : (s.setPoison a b).pending = s.pending := rfl
@[simp] theorem State.setPoison_regs (s : State) (a : Nat) (b : Bool) : (s.setPoison a b).regs = s.regs := rfl
@[simp] theorem State.setPoison_shad (s : State) (a : Nat) (b : Bool) : (s.setPoison a b).shad = s.shad := rfl
@[simp] theorem State.setPoison_lat (s : State) (a : Nat) (b : Bool) : (s.setPoison a b).lat = s.lat := rfl
@[simp] theorem State.setPoison_mem (s : State) (a : Nat) (b : Bool) : (s.setPoison a b).mem = s.mem := rfl
@[simp] theorem State.setPoison_armed (s : State) (a : Nat) (b : Bool) : (s.setPoison a b).armed = s.armed := rfl
@[simp] theorem State.setPoison_gt (s : State) (a : Nat) (b : Bool) : (s.setPoison a b).gt = s.gt := rfl
@[simp] theorem State.setPoison_si (s : State) (a : Nat) (b : Bool) : (s.setPoison a b).si = s.si := rfl
@[simp] theorem State.setPoison_siSub (s : State) (a : Nat) (b : Bool) : (s.setPoison a b).siSub = s.siSub := rfl
@[simp] theorem State.setPoison_now (s : State) (a : Nat) (b : Bool) : (s.setPoison a b).now = s.now := rfl
@[simp] theorem State.setPoison_nowSub (s : State) (a : Nat) (b : Bool) : (s.setPoison a b).nowSub = s.nowSub := rfl
@[simp] theorem State.setPoison_fresh (s : State) (a : Nat) (b : Bool) : (s.setPoison a b).fresh = s.fresh := rfl
@[simp] theorem State.setPoison_rdata (s : State) (a : Nat) (b : Bool) : (s.setPoison a b).rdata = s.rdata := rfl
@[simp] theorem State.setPoison_rerr (s : State) (a : Nat) (b : Bool) : (s.setPoison a b).rerr = s.rerr := rfl
@[simp] theorem State.setPoison_outs (s : State) (a : Nat) (b : Bool) : (s.setPoison a b).outs = s.outs := rfl
@[simp] theorem State.setPoison_orr (s : State) (a : Nat) (b : Bool) : (s.setPoison a b).orr = s.orr := rfl
@[simp] theorem State.setPoison_captures (s : State) (a : Nat) (b : Bool) : (s.setPoison a b).captures = s.captures := rfl
@[simp] theorem State.setPoison_tiles (s : State) (a : Nat) (b : Bool) : (s.setPoison a b).tiles = s.tiles := rfl
@[simp] theorem State.setPoison_recipes (s : State) (a : Nat) (b : Bool) : (s.setPoison a b).recipes = s.recipes := rfl
@[simp] theorem State.setPoison_sch (s : State) (a : Nat) (b : Bool) : (s.setPoison a b).sch = s.sch := rfl
@[simp] theorem State.setPoison_cam (s : State) (a : Nat) (b : Bool) : (s.setPoison a b).cam = s.cam := rfl
@[simp] theorem State.setPoison_sv (s : State) (a : Nat) (b : Bool) : (s.setPoison a b).sv = s.sv := rfl
@[simp] theorem State.setPoison_tbufs (s : State) (a : Nat) (b : Bool) : (s.setPoison a b).tbufs = s.tbufs := rfl
@[simp] theorem State.setPoison_md (s : State) (a : Nat) (b : Bool) : (s.setPoison a b).md = s.md := rfl
@[simp] theorem State.setPoison_orb (s : State) (a : Nat) (b : Bool) : (s.setPoison a b).orb = s.orb := rfl
@[simp] theorem State.setPoison_fs (s : State) (a : Nat) (b : Bool) : (s.setPoison a b).fs = s.fs := rfl
@[simp] theorem State.setPoison_br (s : State) (a : Nat) (b : Bool) : (s.setPoison a b).br = s.br := rfl
@[simp] theorem State.setPoison_maskValid (s : State) (a : Nat) (b : Bool) : (s.setPoison a b).maskValid = s.maskValid := rfl
@[simp] theorem State.setPoison_vid (s : State) (a : Nat) (b : Bool) : (s.setPoison a b).vid = s.vid := rfl
@[simp] theorem State.setPoison_pil (s : State) (a : Nat) (b : Bool) : (s.setPoison a b).pil = s.pil := rfl
@[simp] theorem State.setPoison_pwr (s : State) (a : Nat) (b : Bool) : (s.setPoison a b).pwr = s.pwr := rfl
@[simp] theorem State.setPoison_host (s : State) (a : Nat) (b : Bool) : (s.setPoison a b).host = s.host := rfl
@[simp] theorem State.setPoison_fw (s : State) (a : Nat) (b : Bool) : (s.setPoison a b).fw = s.fw := rfl
@[simp] theorem State.setPoison_rep (s : State) (a : Nat) (b : Bool) : (s.setPoison a b).rep = s.rep := rfl
@[simp] theorem State.setPoison_sk (s : State) (a : Nat) (b : Bool) : (s.setPoison a b).sk = s.sk := rfl

/-! ### emit -/

@[simp] theorem State.emit_pending (s : State) (o : Out) : (s.emit o).pending = s.pending := rfl
@[simp] theorem State.emit_regs (s : State) (o : Out) : (s.emit o).regs = s.regs := rfl
@[simp] theorem State.emit_shad (s : State) (o : Out) : (s.emit o).shad = s.shad := rfl
@[simp] theorem State.emit_lat (s : State) (o : Out) : (s.emit o).lat = s.lat := rfl
@[simp] theorem State.emit_mem (s : State) (o : Out) : (s.emit o).mem = s.mem := rfl
@[simp] theorem State.emit_poison (s : State) (o : Out) : (s.emit o).poison = s.poison := rfl
@[simp] theorem State.emit_armed (s : State) (o : Out) : (s.emit o).armed = s.armed := rfl
@[simp] theorem State.emit_gt (s : State) (o : Out) : (s.emit o).gt = s.gt := rfl
@[simp] theorem State.emit_si (s : State) (o : Out) : (s.emit o).si = s.si := rfl
@[simp] theorem State.emit_siSub (s : State) (o : Out) : (s.emit o).siSub = s.siSub := rfl
@[simp] theorem State.emit_now (s : State) (o : Out) : (s.emit o).now = s.now := rfl
@[simp] theorem State.emit_nowSub (s : State) (o : Out) : (s.emit o).nowSub = s.nowSub := rfl
@[simp] theorem State.emit_fresh (s : State) (o : Out) : (s.emit o).fresh = s.fresh := rfl
@[simp] theorem State.emit_rdata (s : State) (o : Out) : (s.emit o).rdata = s.rdata := rfl
@[simp] theorem State.emit_rerr (s : State) (o : Out) : (s.emit o).rerr = s.rerr := rfl
@[simp] theorem State.emit_orr (s : State) (o : Out) : (s.emit o).orr = s.orr := rfl
@[simp] theorem State.emit_captures (s : State) (o : Out) : (s.emit o).captures = s.captures := rfl
@[simp] theorem State.emit_tiles (s : State) (o : Out) : (s.emit o).tiles = s.tiles := rfl
@[simp] theorem State.emit_recipes (s : State) (o : Out) : (s.emit o).recipes = s.recipes := rfl
@[simp] theorem State.emit_sch (s : State) (o : Out) : (s.emit o).sch = s.sch := rfl
@[simp] theorem State.emit_cam (s : State) (o : Out) : (s.emit o).cam = s.cam := rfl
@[simp] theorem State.emit_sv (s : State) (o : Out) : (s.emit o).sv = s.sv := rfl
@[simp] theorem State.emit_tbufs (s : State) (o : Out) : (s.emit o).tbufs = s.tbufs := rfl
@[simp] theorem State.emit_md (s : State) (o : Out) : (s.emit o).md = s.md := rfl
@[simp] theorem State.emit_orb (s : State) (o : Out) : (s.emit o).orb = s.orb := rfl
@[simp] theorem State.emit_fs (s : State) (o : Out) : (s.emit o).fs = s.fs := rfl
@[simp] theorem State.emit_br (s : State) (o : Out) : (s.emit o).br = s.br := rfl
@[simp] theorem State.emit_maskValid (s : State) (o : Out) : (s.emit o).maskValid = s.maskValid := rfl
@[simp] theorem State.emit_vid (s : State) (o : Out) : (s.emit o).vid = s.vid := rfl
@[simp] theorem State.emit_pil (s : State) (o : Out) : (s.emit o).pil = s.pil := rfl
@[simp] theorem State.emit_pwr (s : State) (o : Out) : (s.emit o).pwr = s.pwr := rfl
@[simp] theorem State.emit_host (s : State) (o : Out) : (s.emit o).host = s.host := rfl
@[simp] theorem State.emit_fw (s : State) (o : Out) : (s.emit o).fw = s.fw := rfl
@[simp] theorem State.emit_rep (s : State) (o : Out) : (s.emit o).rep = s.rep := rfl
@[simp] theorem State.emit_sk (s : State) (o : Out) : (s.emit o).sk = s.sk := rfl

/-! ### tookFree -/

@[simp] theorem State.tookFree_pending (s : State) : (s.tookFree).pending = s.pending := rfl
@[simp] theorem State.tookFree_regs (s : State) : (s.tookFree).regs = s.regs := rfl
@[simp] theorem State.tookFree_shad (s : State) : (s.tookFree).shad = s.shad := rfl
@[simp] theorem State.tookFree_lat (s : State) : (s.tookFree).lat = s.lat := rfl
@[simp] theorem State.tookFree_mem (s : State) : (s.tookFree).mem = s.mem := rfl
@[simp] theorem State.tookFree_poison (s : State) : (s.tookFree).poison = s.poison := rfl
@[simp] theorem State.tookFree_armed (s : State) : (s.tookFree).armed = s.armed := rfl
@[simp] theorem State.tookFree_gt (s : State) : (s.tookFree).gt = s.gt := rfl
@[simp] theorem State.tookFree_si (s : State) : (s.tookFree).si = s.si := rfl
@[simp] theorem State.tookFree_siSub (s : State) : (s.tookFree).siSub = s.siSub := rfl
@[simp] theorem State.tookFree_now (s : State) : (s.tookFree).now = s.now := rfl
@[simp] theorem State.tookFree_nowSub (s : State) : (s.tookFree).nowSub = s.nowSub := rfl
@[simp] theorem State.tookFree_rdata (s : State) : (s.tookFree).rdata = s.rdata := rfl
@[simp] theorem State.tookFree_rerr (s : State) : (s.tookFree).rerr = s.rerr := rfl
@[simp] theorem State.tookFree_outs (s : State) : (s.tookFree).outs = s.outs := rfl
@[simp] theorem State.tookFree_orr (s : State) : (s.tookFree).orr = s.orr := rfl
@[simp] theorem State.tookFree_captures (s : State) : (s.tookFree).captures = s.captures := rfl
@[simp] theorem State.tookFree_tiles (s : State) : (s.tookFree).tiles = s.tiles := rfl
@[simp] theorem State.tookFree_recipes (s : State) : (s.tookFree).recipes = s.recipes := rfl
@[simp] theorem State.tookFree_sch (s : State) : (s.tookFree).sch = s.sch := rfl
@[simp] theorem State.tookFree_cam (s : State) : (s.tookFree).cam = s.cam := rfl
@[simp] theorem State.tookFree_sv (s : State) : (s.tookFree).sv = s.sv := rfl
@[simp] theorem State.tookFree_tbufs (s : State) : (s.tookFree).tbufs = s.tbufs := rfl
@[simp] theorem State.tookFree_md (s : State) : (s.tookFree).md = s.md := rfl
@[simp] theorem State.tookFree_orb (s : State) : (s.tookFree).orb = s.orb := rfl
@[simp] theorem State.tookFree_fs (s : State) : (s.tookFree).fs = s.fs := rfl
@[simp] theorem State.tookFree_br (s : State) : (s.tookFree).br = s.br := rfl
@[simp] theorem State.tookFree_maskValid (s : State) : (s.tookFree).maskValid = s.maskValid := rfl
@[simp] theorem State.tookFree_vid (s : State) : (s.tookFree).vid = s.vid := rfl
@[simp] theorem State.tookFree_pil (s : State) : (s.tookFree).pil = s.pil := rfl
@[simp] theorem State.tookFree_pwr (s : State) : (s.tookFree).pwr = s.pwr := rfl
@[simp] theorem State.tookFree_host (s : State) : (s.tookFree).host = s.host := rfl
@[simp] theorem State.tookFree_fw (s : State) : (s.tookFree).fw = s.fw := rfl
@[simp] theorem State.tookFree_rep (s : State) : (s.tookFree).rep = s.rep := rfl
@[simp] theorem State.tookFree_sk (s : State) : (s.tookFree).sk = s.sk := rfl

end Sys2Proof.Machine
end

