-- ==== Sys2Proof/WellFormed.lean ====
section
/-! DEFINITION. Which commands are well formed: a list of bytes has the length the specification gives what it stands for, and a number that
its type does not bound lies in its range. Every other operand is bounded by its type. -/

namespace Sys2Proof

/-- A barrier message is 16 bytes (R427). -/
def msgOk (m : List Byte) : Bool := m.length == 16

/-- A request at a Pantry bank (R106, R107): 1 to 64 bytes that lie in one 64-byte block, which is the bank's. -/
def PantryReq.wf (bank : Nat) (q : PantryReq) : Bool :=
  let n := match q.write with
    | some bs => bs.length
    | none => q.len
  decide (1 ≤ n) && decide (q.ofs.toNat % 64 + n ≤ 64) && q.ofs.toNat / 64 % 32 == bank

/-- A CAPTURE entry (R65, R68): an output of FSYNC0 to FSYNC15 and register words; a period of at least 0x1000, or 0 for none. -/
def CaptureEnt.wf (e : CaptureEnt) : Bool :=
  decide (e.output < 16) && decide (e.cfg < 2 ^ 32) && decide (e.anchor < 2 ^ 32) && decide (e.due < 2 ^ 64)
    && (e.period == 0 || decide (0x1000 ≤ e.period))

/-- A standing order of firmware's: its template is a 64-byte descriptor (Table CMD-2, R236). -/
def FwOrder.wf (o : FwOrder) : Bool := o.template.length == 64

/-- A command is well formed. -/
def Instr.wf : Instr → Bool
  | .zcStamp m | .mainsStat m | .levelSet m | .nsHeartbeat m | .failsafeCfg m | .paramWriteStart m | .paramWriteChunk m | .paramCommit m
  | .levelAck m | .daliReply m | .ioStat m | .fsHeartbeat m | .fsFault m | .unknownType m | .rxUnknown m => msgOk m
  | .daliQuery m _ data => msgOk m && decide (data.length ≤ 5)
  | .soArm _ (.firmware _ t _ _ _) | .soDisarm _ (.firmware _ t _ _ _) => t.length == 64
  | .pantryAccess _ bank arrive _ => arrive.all (PantryReq.wf bank.val)
  | .bDispatch _ ks => !ks.isEmpty && decide ks.Nodup
  | .simmerEval _ _ scores => decide (scores.length ≤ 16)
  | .ibiReceive _ _ payload => decide (payload.length ≤ 4)
  | .pcieInbound _ _ len w =>
    match w with
    | some b => decide (1 ≤ b.length ∧ b.length ≤ 256)
    | none => decide (1 ≤ len.toNat ∧ len.toNat ≤ 256)
  | .fwReady b => b.orders.all FwOrder.wf && b.captures.all CaptureEnt.wf
  | .flitReceive _ bytes => bytes.length == 64
  | .rd _ _ _ len => decide (1 ≤ len.toNat ∧ len.toNat ≤ 256)
  | .wr _ _ _ bytes => decide (1 ≤ bytes.length ∧ bytes.length ≤ 256)
  | .rdData _ _ bytes => decide (1 ≤ bytes.length ∧ bytes.length ≤ 256)
  | .delegate _ _ _ _ _ ks desc => desc.length == 64 && !ks.isEmpty
  | .handoff _ _ _ desc => desc.length == 64
  | .ethRxFrame _ bytes _ => decide (14 ≤ bytes.length)
  | _ => true

end Sys2Proof
end

