-- ==== Sys2Proof/Tests/Slice0.lean ====
section
/-! SUPPORT. The model's own tests: a witness for the hypotheses of every statement, the terms that WellFormed refuses, and values of the
specification's worked examples and tables. -/

namespace Sys2Proof.Tests

set_option linter.unusedVariables false
set_option Elab.async false

open Sys2Proof.Machine Host

/-- The states that witnesses start from: reset, and reset with firmware READY. -/
def R : State := State.reset
/-- Reset with firmware READY. -/
def RF : State := State.reset.wr F.FW_STATE_STATE 0 0 4
/-- A value that the witnesses use. -/
def cap4 : CaptureEnt := { num := 4, output := 3, cfg := 0x80010005, anchor := 0, period := 65536, due := 0 }
/-- A list of bytes with values put at offsets: each an offset, a size and a value. -/
def image (n : Nat) (l : List (Nat × Nat × Nat)) : List Byte :=
  l.foldl (fun bs x => bs.take x.1 ++ toBytes x.2.1 x.2.2 ++ bs.drop (x.1 + x.2.1)) (List.replicate n 0#8)
/-- A recipe of one stage and one part: one C-level move of 64 bytes, one pass of one vector, RELU. -/
def img1 : List Byte := image 640 [(0, 4, 0x4352564C), (4, 2, 0x0102), (8, 4, 640), (0x0C, 4, 3372984540), (0x10, 4, 9), (0x18, 2, 1), (0x1A, 1, 1),
  (0x1B, 1, 1), (0x1C, 2, 1), (0x20, 4, 10), (0x30, 4, 256), (0x34, 4, 288), (0x38, 4, 608), (0x3C, 4, 32), (0x40, 4, 64), (0x44, 4, 64),
  (0x4C, 4, 64), (256, 4, 320), (260, 4, 448), (264, 4, 296), (272, 4, 0xFFFFFFFF), (292, 4, 64), (296, 8, 5),
  (320, 4, 0x3FFF8012), (332, 6, 0x1000), (340, 6, 0x3000), (352, 4, 1), (448, 4, 0x3FFF8011), (458, 2, 2), (476, 2, 1), (480, 4, 0x30001),
  (608, 4, 0xA5)]
/-- A value that the witnesses use. -/
def rec1 : Recipe := { id := 9, image := img1, constBase := 0x1000200000 }
/-- The same for fill batches; and one of two parts whose second stage has a halo. -/
def rec2 : Recipe := { rec1 with image := (image 640 [(6, 2, 1), (0x1E, 1, 64)]).zipWith (fun a b => a ||| b) img1 }
/-- A value that the witnesses use. -/
def recH : Recipe := { id := 9, constBase := 0, image := image 640 [(0x18, 2, 2), (0x1A, 1, 2), (0x30, 4, 256), (256, 4, 320), (260, 4, 0xFFFFFFFF),
  (272, 4, 544), (288, 4, 320), (292, 4, 0xFFFFFFFF), (300, 4, 4), (304, 4, 576), (320, 4, 0x3FFF8092), (352, 4, 1), (468, 4, 64),
  (546, 2, 1), (562, 2, 1), (560, 2, 1), (588, 2, 0x0100), (589, 1, 1), (578, 2, 1), (592, 2, 1), (594, 2, 1), (604, 1, 1)] }
/-- A value that the witnesses use. -/
def c1 : Cmd := { id := 3, ctx := 255, desc := { opcode := 1, cls := 1, recipe := 9, cost := 10, outLen := 64, outAddr := 0x1000100000, lateOk := true }, phase := .ready, consumedAt := 0, admitGt := 0 }
/-- A value that the witnesses use. -/
def sl (n st : Nat) : Slot := { num := n, st, cmd := 3, part := 0, cls := 1, grans := [0] }
/-- Command 3 on tile 17's or tile 0's slot. -/
def onTile (p : Nat) (r : Recipe) (x : Slot) (g : TileSt → TileSt) : State :=
  { RF.wr F.KT_CTRL_EN p 0 1 with recipes := [r], sch := { RF.sch with cmds := [{ c1 with phase := .running }] }, tiles := [g { num := p, slots := [x], tags := [(0, x.num)] }] }
/-- A NOP of class 1, as a submission descriptor. -/
def nop1 : List Byte := image 64 [(0, 4, 5), (5, 1, 1), (7, 1, 3)]
/-- One command in the machine. -/
def with1 (s : State) (c : Cmd) : State := { s with sch := { s.sch with cmds := [c] } }
/-- A value that the witnesses use. -/
def cmdOf (opc cls : Nat) (ph : Phase) : Cmd := { id := 3, ctx := 255, desc := { opcode := opc, cls := cls, recipe := 9, seq := 5, cost := 1, deadline := 9 }, phase := ph, consumedAt := 0, admitGt := 0 }
/-- A value that the witnesses use. -/
def order1 : Order := { num := 2040, ctx := 255, desc := { cls := 1 }, period := 2, anchor := 0, phase := 0, occ := 0, due := 0 }
/-- A value that the witnesses use. -/
def frame1 : Frame := { id := 5, stream := 0, capGt := 0, capSi := 0, standing := 1, deadline := 9, ageGt := 9, isOpen := false, lines := 8, linePitch := 64 }
/-- A readout with k of its 1 entries read. -/
def ro (k : Nat) : Readout := { slot := 31, cmd := 3, first := 0, per := 1, stage := 0, blocks := 1, rows := [List.replicate 128 7], fp := false, addrs := [0x3000], readN := k, lastPass := true }
/-- A value that the witnesses use. -/
def default_ : PartEnt := { oy0 := 0, ohPart := 0, iy0 := 0, ihLocal := 0, b2Adj := 0, sendUp := 0, sendDn := 0 }
/-- The BARRIER link UP and the Farside powered. -/
def UP : State := { RF.wr F.BR_STAT_LINK 0 0 2 with fs := { on := true } }
/-- A value that the witnesses use. -/
def msg (ty : Nat) (l : List (Nat × Nat × Nat)) : List Byte := brFrame ty 7 (image 10 l)
/-- A value that the witnesses use. -/
def badMsg (ty : Nat) (l : List (Nat × Nat × Nat)) : List Byte := (msg ty l).take 15 ++ [(msg ty l).getD 15 0#8 + 1#8]
/-- A parameter block whose fields are in range. -/
def pblk : List Byte := image 1024 [(0, 4, 0x42505346), (4, 4, 6), (8, 2, 120), (0xA, 1, 50), (0x20, 2, 10), (0x22, 2, 2), (0x30, 2, 100),
  (0x32, 2, 100), (0x34, 2, 100), (0x36, 2, 25000), (0x3C, 1, 30)]
/-- An open provisional frame of stream 63 in capture buffer 0, one line of 8 stored. -/
def frO : Frame := { frame1 with stream := 63, isOpen := true, standing := 0, linesRx := 1, stored := 1, buf := some 0 }
/-- A value that the witnesses use. -/
def cam1 (s : State) (f : Frame) : State := { s with cam := { s.cam with frames := [f] } }
/-- Stream 63 with frames of 8 lines of 8 RAW8 pixels. -/
def P15 : State := (RF.wr F.CSI_PHY_CFG_EN 15 0 1).wr F.CSI_PHY_CFG_LANES 15 0 4
/-- A value that the witnesses use. -/
def S63 : State := ((((P15.wr F.CSI_STR_CTRL_EN 15 3 1).wr F.CSI_STR_CTRL_DT 15 3 0x2A).wr F.CSI_STR_GEOM_WIDTH 15 3 8).wr F.CSI_STR_MAX_WC 15 3 64).wr F.CSI_BUF_LINES 15 3 64
/-- A value that the witnesses use. -/
def bun1 : Bundle := { addr := 0x10000000, stream := 0, whenK := 1, nwr := 32, arm := false, m := 0, due := 0 }
/-- Memory of the device with bytes put at an offset of the Larder. -/
def atMem (s : State) (o : Nat) (bs : List Byte) : State := s.setBytes (0x10000000 + o) bs
/-- A parameter block at the start of the Larder, with its tone curves there too. -/
def memP : State := atMem RF 0x58 (toBytes 8 0x10000000)
/-- Sieve 1, context 63, output 2 of stream 0, on frame 5. -/
def svx : SvCtx := { inst := 1, num := 63, run := some { frame := 5 } }
/-- A value that the witnesses use. -/
def SV : State := (RF.wr F.SV_CTX_CFG_EN 1 63 1).wr F.SV_CTRL_EN 1 0 1
/-- A value that the witnesses use. -/
def withSv (s : State) (f : Frame) (x : SvCtx) (i : SvInst) : State := { cam1 s f with sv := { s.sv with ctxs := [x], insts := [i] } }
/-- A value that the witnesses use. -/
def svb : SvBuf := { inst := 1, ctx := 63, out := 2, idx := 3, frame := 5, capGt := 0, refs := 7, rows := 8 }
/-- A shape of 8 by 8 pixels and a mesh of one cell. -/
def shp8 : List Byte := image 64 [(0, 2, 8), (2, 2, 8), (0x30, 4, 0x3F800000), (0x34, 4, 0x3F800000), (0x38, 4, 0x3F800000)]
/-- A value that the witnesses use. -/
def mesh8 : List Byte := image 32 [(0, 2, 2), (2, 2, 2), (4, 2, 8), (6, 2, 8), (8, 8, 0x10001000), (16, 8, 0x10002000), (24, 8, 0x10002000)]
/-- A value that the witnesses use. -/
def prg8 : MdProg := { num := 15, shape := shp8, hdr := mesh8, nodes := List.replicate 32 0#8, modes := [0#8], homs := List.replicate 32 0#8, need := [1] }
/-- A value that the witnesses use. -/
def MD : State := ((((RF.wr F.MD_CTRL_EN 0 0 1).wr F.MD_PG_CTRL_EN 0 15 1).wr F.MD_PG_CTRL_SIEVE 0 15 1).wr F.MD_PG_CTRL_CTX 0 15 63).wr F.MD_PG_CTRL_OUT 0 15 2
/-- A value that the witnesses use. -/
def tb1 : TBuf := { prog := 15, idx := 15, frame := 5, j := 0 }
/-- A value that the witnesses use. -/
def withMd (s : State) (md : MandSt) : State := { cam1 s frO with md := md, tbufs := [tb1], sv := { s.sv with bufs := [svb] } }
/-- A value that the witnesses use. -/
def job1 : MdJob := { queue := 3, entry := image 64 [(0, 1, 1), (4, 4, 1), (24, 2, 8), (26, 2, 8), (28, 2, 64), (32, 8, 0x10004000), (40, 4, 0x10000)], prof := shp8, list := image 8 [(4, 2, 8), (6, 2, 8)], places := [some (0, 0)] }
/-- A header of one agent: 2 waypoints, 1 iteration, 10 ms. -/
def orbH : List Byte := image 256 [(0, 2, 1), (2, 1, 2), (3, 1, 1), (8, 4, 10000), (0x34, 4, 0x3F800000), (0x38, 4, 0x3F800000), (0x40, 4, 256)]
/-- A value that the witnesses use. -/
def orbC : Cmd := { cmdOf 8 0 .ready with desc := { opcode := 8, arg := 0x10000000, argLen := 832, outLen := 65536 } }
/-- A Compositor output of 128 by 96 pixels, enabled. -/
def CP : State := ((((((RF.wr F.CP_CTRL_EN 0 0 1).wr F.CP_OC_CTRL_EN 0 7 1).wr F.CP_OC_SIZE_W 0 7 128).wr F.CP_OC_SIZE_H 0 7 96).wr F.CP_OC_CTRL_CTX 0 7 63).wr F.CP_OC_CTRL_OUT 0 7 2).wr F.CP_OC_CTRL_SIEVE 0 7 1 |>.wr F.CP_OC_POOL_CFG_NBUF 0 7 1 |>.wr F.CP_OC_POOL_CFG_BUF_KIB 0 7 64
/-- A value that the witnesses use. -/
def CPg : State := { CP with gt := 65536 }
/-- A value that the witnesses use. -/
def pic1 : CompPic := { out := 7, kind := 0, bGt := 65536, buf := 0, base := some (1, 63, 2, 3), frame := 5 }
/-- A value that the witnesses use. -/
def co1 : CompOut := { num := 7, prev := some pic1 }
/-- A JPEG session on that output. -/
def EN : State := (CP.wr F.EN_CTRL_EN 0 0 1).wr F.EN_BS_SIZE 0 7 64
/-- A value that the witnesses use. -/
def withSes (s : State) (x : EncSes) (v : VideoSt) : State := { s with vid := { v with sessions := [x] } }
/-- A value that the witnesses use. -/
theorem sort_short {α : Type} (le : α → α → Bool) (l : List α) (h : l.length ≤ 1) : l.mergeSort le = l := by
  match l, h with
  | [], _ => simp
  | [_], _ => simp
/-- A Simmer program of one record. -/
def simP : List Byte := image 32 [(8, 1, 1), (9, 1, 8), (10, 1, 1)]
/-- A value that the witnesses use. -/
def sim1 : List Byte := image 32 [(8, 1, 1), (9, 1, 8), (10, 1, 1), (12, 4, crc32c simP)]
/-- A value that the witnesses use. -/
def simG (k : Nat) : SimProg := { slot := k, win := 1, eval := 8, outs := 1, last := 0 }
/-- A value that the witnesses use. -/
def PA : State := RF.wr F.PA_CTRL_EN 0 0 1
/-- A value that the witnesses use. -/
def withPil (s : State) (p : PilSt) : State := { s with pil := p }
/-- Vector 63 pending for MSI-X, the PCIe link up. -/
def MS : State := (((((RF.wr F.IA_CTRL_EN 0 0 1).wr F.IA_ROUTE_EN 0 5 1).wr F.IA_ROUTE_VEC 0 5 63).wr F.REG_EVT_RAW 5 0 1).wr F.REG_EVT_EN 5 0 1).wr F.IA_VEC_CFG_DEST 0 63 2 |>.wr F.PCIE_LINK_STAT_DL_UP 0 0 1 |>.wr F.PCIE_MSIX_CTRL 0 63 0
/-- Pads released; Ethernet port 1 up, its IOMMU mapping the first page of the Larder. -/
def PADS : State := RF.wr F.PWR_PAD_HELD 0 0 0
/-- A value that the witnesses use. -/
def ET : State := ((PADS.wr F.ETH_MAC_CFG_EN 1 0 1).wr F.ETH_PHY_STAT_LINK 1 0 1).wr F.ETH_MAC_CFG_PROMISC 1 0 1 |>.wr F.IOM_WIN_CFG_EN 2 7 1 |>.wr F.IOM_WIN_CFG_R 2 7 1 |>.wr F.IOM_WIN_CFG_W 2 7 1 |>.wr F.IOM_WIN_LEN 2 7 1 |>.wr F.IOM_WIN_PA 2 7 0x10000000
/-- A value that the witnesses use. -/
def fr60 : List Byte := image 60 [(12, 2, 0x0008)]
/-- A value that the witnesses use. -/
def ETd : State := atMem ((ET.wr F.ETH_RX_TAIL 1 0 1).wr F.ETH_TX_TAIL 1 0 1) 0 (image 32 [(0, 6, 0x100), (8, 2, 60)])
/-- The trial of a slot, and the target slot being written or verified. -/
def trialS : State := ((RF.flashWr 0 (toBytes 4 recMagic ++ toBytes 4 0 ++ [1#8, 2#8])).flashWr 12 [1#8, 3#8, 0#8]).flashWr 252 (toBytes 4 2829610398) |>.wr F.FW_STATE_TRIAL 0 0 1
/-- A value that the witnesses use. -/
def writingS : State := RF.flashWr 0x5000000 [0#8, 0#8, 0#8, 0#8]
/-- A value that the witnesses use. -/
def verifiedS : State := RF.flashWr 0x5000000 (List.replicate 8 0#8)
/-- A value that the witnesses use. -/
def acting (n : Nat) : State := { RF with fw := { RF.fw with cmd := some (n, [2]), acting := true } }
/-- The remap of Kettle 15 from tile 15 to tile 17. -/
def remapS (st : Nat) : State := (((RF.wr F.RP_RM_STAT_BUSY 0 0 1).wr F.RP_RM_STAT_LOGICAL 0 0 15).wr F.RP_RM_STAT_SRC 0 0 15).wr F.RP_RM_STAT_DST 0 0 17 |>.wr F.RP_KMAP_STATE 0 15 st
/-- A value that the witnesses use. -/
def boot0 : FwBoot := { zcDelay := 5, hz60 := false, level := 0, hold := 0, points := [], orders := [], captures := [], testSeed := 0, fails := [] }
/-- The head of a cabinet with member 7, and member 7 as a follower. -/
def HD : State := ((RF.wr F.SK_STAT_ROLE 0 0 1).wr F.SK_STAT_MEMBERS 0 0 0x81).wr F.SK_CFG_N_EXPECT 0 0 7
/-- A value that the witnesses use. -/
def FO : State := (HD.wr F.SK_STAT_ROLE 0 0 2).wr F.SK_STAT_CAB_ID 0 0 7
/-- A value that the witnesses use. -/
def PUP (s : State) : State := (s.wr F.SK_PT_STAT_STATE 0 1 2).wr F.SK_PT_STAT_STATE 0 0 2
/-- A value that the witnesses use. -/
def withSk (s : State) (k : SkSt) : State := { s with sk := k }
/-- A value that the witnesses use. -/
def flit (l : List (Nat × Nat × Nat)) : List Byte := image 60 l ++ toBytes 4 (crc32c (image 60 l))
/-- A value that the witnesses use. -/
def txn1 : SkTxn := { dest := 7, tag := 9, type := 0, cmd := none, units := 0, port := 0, msg := { vc := 0, flits := [] } }
/-- The PCIe link up; the IOMMU maps the first page of the Larder for PCIe. -/
def PC : State := ((PADS.wr F.PCIE_LINK_STAT_DL_UP 0 0 1).wr F.IOM_WIN_CFG_EN 0 0 0).wr F.IOM_WIN_CFG_EN 0 7 1 |>.wr F.IOM_WIN_CFG_R 0 7 1 |>.wr F.IOM_WIN_CFG_W 0 7 1 |>.wr F.IOM_WIN_LEN 0 7 1 |>.wr F.IOM_WIN_PA 0 7 0x10000000
/-- The recipe of one part with an empty Whisk list. -/
def recZ : Recipe := { rec1 with image := img1.take 296 ++ List.replicate 8 0#8 ++ img1.drop 304 }

/-! ### Witnesses -/

/-- What each clause of `StepTakesFrontCommand` assumes holds together of some state and operands. -/
theorem witnesses_StepTakesFrontCommand :
    (∃ (s : State), s.pending = []) :=
  ⟨R, by decide +kernel⟩

/-- What each clause of `EveryStepKeepsCanonicalForm` assumes holds together of some state and operands. -/
theorem witnesses_EveryStepKeepsCanonicalForm :
    (∃ (s : State), s.Canon) :=
  ⟨R, ⟨by decide +kernel, by decide +kernel, by decide +kernel, by decide +kernel⟩⟩

/-- What each clause of `PllAndMclkCommands` assumes holds together of some state and operands. -/
theorem witnesses_PllAndMclkCommands :
    (∃ (n : Fin 5) (v : Word) (s : State), s.live 0x002 = true ∧ pllInRange n (v.toNat % 4096) = true) ∧
    (∃ (n : Fin 5) (v : Word) (s : State), s.live 0x002 = true ∧ pllInRange n (v.toNat % 4096) = false) ∧
    (∃ (n : Fin 5) (s : State), s.live 0x002 = true) ∧
    (∃ (n : Fin 5) (s : State), n.val ∈ s.orr.relocking ∧ n.val ∉ s.orr.lockHeld ∧ s.rd F.CLK_PLL_STAT_FAULT 0 n ≠ 1) ∧
    (∃ (n : Fin 5) (s : State), n.val ∈ s.orr.lockHeld ∧ s.rd F.CLK_PLL_CFG_TARGET_MHZ 0 n ≤ s.pllClamp n (s.orr.pllTarget.getD n 0) (s.rd
      F.CLK_PLL_CFG_TARGET_MHZ 0 n)) ∧
    (∃ (n : Fin 5) (s : State), n.val ∈ s.orr.relocking ∧ n.val ∉ s.orr.lockHeld) ∧
    (∃ (n : Fin 8) (v : Word) (s : State), s.live 0x002 = true ∧ 6000000 ≤ v.toNat ∧ v.toNat ≤ 48000000) ∧
    (∃ (n : Fin 8) (v : Word) (s : State), s.live 0x002 = true ∧ (v.toNat < 6000000 ∨ 48000000 < v.toNat)) ∧
    (∃ (n : Fin 8) (s : State), s.rd F.CLK_MCLK_FLAG_SLEWING 0 n = 1) :=
  ⟨⟨0, 400, R, by decide +kernel⟩,
   ⟨0, 4095, R, by decide +kernel⟩,
   ⟨4, R, by decide +kernel⟩,
   ⟨4, { R with orr := { R.orr with relocking := [4] } }, by decide +kernel⟩,
   ⟨4, { R with orr := { R.orr with lockHeld := [4] } }, by decide +kernel⟩,
   ⟨0, { R with orr := { R.orr with relocking := [0] } }, by decide +kernel⟩,
   ⟨7, 6000000, R, by decide +kernel⟩,
   ⟨7, 5999999, R, by decide +kernel⟩,
   ⟨7, R.wr F.CLK_MCLK_FLAG_SLEWING 0 7 1, by decide +kernel⟩⟩

/-- What each clause of `MainsStampsQualify` assumes holds together of some state and operands. -/
theorem witnesses_MainsStampsQualify :
    (∃ (m : List Byte) (s : State), s.pwr.pilotOn = true ∧ s.pwr.mainOn = true ∧ s.rd F.BR_STAT_LINK 0 0 = 2 ∧ s.br.outst = [] ∧ s.br.rxq.length < 64
      ∧ brGood m = true ∧ leAt m 1 1 = 0x81 ∧ s.br.rxNext.getD (leAt m 2 2) = leAt m 2 2 ∧ s.orr.restart = false ∧ -0x199A ≤ s.crossErr (s.crossing
      (leAt m 8 2)) ∧ s.crossErr (s.crossing (leAt m 8 2)) ≤ 0x199A) ∧
    (∃ (m : List Byte) (s : State), s.pwr.pilotOn = true ∧ s.pwr.mainOn = true ∧ s.rd F.BR_STAT_LINK 0 0 = 2 ∧ s.br.outst = [] ∧ s.br.rxq.length < 64
      ∧ brGood m = true ∧ leAt m 1 1 = 0x81 ∧ s.br.rxNext.getD (leAt m 2 2) = leAt m 2 2 ∧ s.orr.restart = false ∧ leAt m 10 2 ≠ 0xFFFF ∧ (s.crossErr
      (s.crossing (leAt m 8 2)) < -0x199A ∨ 0x199A < s.crossErr (s.crossing (leAt m 8 2)))) ∧
    (∃ (s : State) (e : Nat), s.expected = some e ∧ s.pwr.mainOn = true ∧ e + 0x199A + s.usToUnits 60 ≤ s.gt) ∧
    (∃ (m : List Byte) (s : State), s.pwr.pilotOn = true ∧ s.rd F.BR_STAT_LINK 0 0 = 2 ∧ s.br.outst = [] ∧ brGood m = true ∧ leAt m 1 1 = 0x82 ∧
      bitOf (leAt m 8 1) 4 = false) :=
  ⟨⟨brFrame 0x81 7 [0, 0, 0, 0, 0, 0, 0xFF, 0xFF, 0, 0], { R.wr F.BR_STAT_LINK 0 0 2 with gt := 6553600, orr := { R.orr with restart := false, lastCross := 6553600, period := 65536 } },
     by decide +kernel⟩,
   ⟨brFrame 0x81 7 [0, 0, 0, 0, 0, 0, 0x80, 0, 0, 0], { R.wr F.BR_STAT_LINK 0 0 2 with gt := 6553600, orr := { R.orr with restart := false, lastCross := 6530000, period := 65536 } },
     by decide +kernel⟩,
   ⟨{ R with gt := 6663600, orr := { R.orr with restart := false, lastCross := 6553600, period := 65536, judged := some 6553600 } }, 6619136,
     by decide +kernel⟩,
   ⟨brFrame 0x82 7 [5, 0, 0, 0, 0, 0, 0, 0, 0, 0], R.wr F.BR_STAT_LINK 0 0 2, by decide +kernel⟩⟩

/-- What each clause of `ChannelReferenceEvents` assumes holds together of some state and operands. -/
theorem witnesses_ChannelReferenceEvents :
    (∃ (ofs : BitVec 64) (e : BitVec 32) (f : BitVec 32) (s : State), s.gt % 65536 = 0 ∧ s.orr.phaseZeroAt ≠ some s.gt ∧ s.pwr.mainOn = true ∧ s.rd
      F.ORR_CH_CTRL_REF_EN 0 0 = 0 ∧ s.chState 0 = 0 ∧ s.rd F.SK_STAT_ROLE 0 0 = 0) ∧
    (∃ (ofs : BitVec 64) (e : BitVec 32) (f : BitVec 32) (s : State), s.si / 1000000000 ≠ s.orr.siSecond ∧ s.pwr.mainOn = true) ∧
    (∃ (ofs : BitVec 64) (s : State) (b : Nat), b < 8 ∧ s.pwr.mainOn = true ∧ (s.refCheck 1).dwellCand 1 = some b ∧ (s.refCheck 1).dwellDone 1 b =
      true) ∧
    (∃ (ch : Fin 2) (ofs : BitVec 64) (s : State), (s.evaluate ch ofs.toInt).chState ch = 1 ∧ 10 ≤ ((s.evaluate ch ofs.toInt).chan ch).lockRun) ∧
    (∃ (ch : Fin 2) (ofs : BitVec 64) (s : State), s.pwr.mainOn = true ∧ s.rd F.ORR_CH_CTRL_REF_EN 0 ch = 0 ∧ s.chState ch = 3 ∧ s.rd
      F.ORR_CH_HOLD_HOLDOVER_LIMIT 0 ch * 1000000000 ≤ s.holdNs ch) ∧
    (∃ (ch : Fin 2) (ofs : BitVec 64) (s : State), s.pwr.mainOn = true ∧ s.rd F.ORR_CH_CTRL_REF_EN 0 ch = 0 ∧ s.chState ch = 3 ∧ s.rd
      F.ORR_CH_HOLD_LOST_ERR 0 ch ≤ s.holdEst ch) :=
  ⟨⟨5, 6, 7, { R.wr F.ORR_CH_CTRL_REF_EN 0 0 0 with gt := 65536 * 9 }, by decide +kernel⟩,
   ⟨5, 6, 7, { R with si := 5000000003 }, by decide +kernel⟩,
   ⟨5, { ((((R.wr F.ORR_CH_STAT_STATE 0 1 1).wr F.ORR_CH_STAT_SEL_REF 0 1 4).wr F.ORR_CH_CTRL_REF_EN 0 1 255).wr F.ETH_PTP_QUAL 0 0 10).wr F.ORR_CH_STAT_DWELL_ACTIVE 0 1 1 with now := 100000000000, orr := { R.orr with ptp0Live := true, ppsLive := true, sich := { dwellStart := 0, dwellQual := 10 } } },
     0, by decide +kernel⟩,
   ⟨0, 0, { R.wr F.ORR_CH_STAT_STATE 0 0 1 with orr := { R.orr with qualified := true, grid := { lockRun := 10 } } }, by decide +kernel⟩,
   ⟨1, 0, { ((R.wr F.ORR_CH_STAT_STATE 0 1 3).wr F.ORR_CH_CTRL_REF_EN 0 1 0).wr F.ORR_CH_HOLD_HOLDOVER_LIMIT 0 1 5 with now := 5000000000 },
     by decide +kernel⟩,
   ⟨0, 0, { ((R.wr F.ORR_CH_STAT_STATE 0 0 3).wr F.ORR_CH_CTRL_REF_EN 0 0 0).wr F.ORR_CH_HOLD_LOST_ERR 0 0 1 with now := 50000000000000 },
     by decide +kernel⟩⟩

/-- What each clause of `SnapCapturesGtAndSi` assumes holds together of some state and operands. -/
theorem witnesses_SnapCapturesGtAndSi :
    (∃ (v : Word) (s : State), s.live 0x004 = true ∧ v.toNat % 2 = 1) ∧
    (∃ (v : Word) (s : State), s.live 0x004 = true ∧ v.toNat % 2 = 0) :=
  ⟨⟨1, { R with gt := 2 ^ 40 + 5, si := 77 }, by decide +kernel⟩,
   ⟨0, R, by decide +kernel⟩⟩

/-- What each clause of `PulsesAndRealign` assumes holds together of some state and operands. -/
theorem witnesses_PulsesAndRealign :
    (∃ (v : Word) (s : State), s.live 0x004 = true ∧ (∀ g < 6, bitOf (s.rd F.ORR_REALIGN_PEND_GRP 0 0 ||| (v.toNat % 64)) g = true → s.groupHasOutput
      g = true) ∧ s.rd F.ORR_REALIGN_PEND_GRP 0 0 < 64) ∧
    (∃ (v : Word) (g : Fin 6) (s : State), s.live 0x004 = true ∧ v.toNat % 64 = 2 ^ g.val ∧ s.rd F.ORR_REALIGN_PEND_GRP 0 0 = 0 ∧ s.groupHasOutput g
      = false) ∧
    (∃ (g : Fin 6) (s : State), bitOf (s.rd F.ORR_REALIGN_PEND_GRP 0 0) g = true ∧ (s.outputsOf g).any (fun n => s.firesAt n (s.grpOfs g) ||
      s.firesAt n 0) = true) ∧
    (∃ (n : Fin 16) (s : State), s.pwr.mainOn = true ∧ s.rd F.ORR_REALIGN_PEND_GRP 0 0 = 0 ∧ s.orr.realigned = [] ∧ s.firesAt n (s.grpOfs
      (s.pulseGroup n)) = true ∧ s.orr.lastPulse.find? (fun x => x.1 == n.val) = none) ∧
    (∃ (s : State), s.pwr.mainOn = true ∧ s.rd F.ORR_REALIGN_PEND_GRP 0 0 = 0 ∧ s.orr.realigned = [] ∧ s.firesAt 16 (s.grpOfs 4) = true ∧
      s.orr.lastPulse.find? (fun x => x.1 == 16) = none) ∧
    (∃ (s : State), s.pwr.mainOn = true ∧ s.rd F.ORR_REALIGN_PEND_GRP 0 0 = 0 ∧ s.orr.realigned = [] ∧ s.firesAt 17 (s.grpOfs 5) = true ∧
      s.orr.lastPulse.find? (fun x => x.1 == 17) = none) ∧
    (∃ (num : Nat) (s : State) (c : CaptureEnt), s.captures.find? (fun x => x.num == num) = some c ∧ c.due ≤ s.gt ∧ s.fwReady = true ∧ (c.period = 0
      ∨ s.gt < c.due + c.period)) ∧
    (∃ (num : Nat) (s : State) (c : CaptureEnt), s.captures.find? (fun x => x.num == num) = some c ∧ s.fwReady = true ∧ c.period ≠ 0 ∧ c.due +
      c.period ≤ s.gt) :=
  ⟨⟨0x11, (R.wr F.ORR_FSYNC_CFG_EN 0 3 1).wr F.ORR_GRID_OUT_CFG_EN 0 0 1, by decide +kernel⟩,
   ⟨0x20, 5, R.wr F.ORR_GRP_OFS 0 5 77, by decide +kernel⟩,
   ⟨0, { (((R.wr F.ORR_REALIGN_PEND_GRP 0 0 1).wr F.ORR_FSYNC_CFG_EN 0 0 1).wr F.ORR_GRP_OFS 0 0 5).wr F.ORR_FSYNC_CFG_PHASE 0 0 5 with gt := 65536 + 10 },
     by decide +kernel⟩,
   ⟨15, { (R.wr F.ORR_FSYNC_CFG_EN 0 15 1).wr F.ORR_FSYNC_CFG_PHASE 0 15 5 with gt := 65536 + 5 }, by decide +kernel⟩,
   ⟨{ R.wr F.ORR_GRID_OUT_CFG_EN 0 0 1 with gt := 65536 }, by decide +kernel⟩,
   ⟨{ R.wr F.ORR_PPS_OUT_CFG_EN 0 0 1 with si := 3000000000 }, by decide +kernel⟩,
   ⟨4, { RF with captures := [cap4] }, cap4, by decide +kernel⟩,
   ⟨4, { RF with captures := [cap4], gt := 700000 }, cap4, by decide +kernel⟩⟩

/-- What each clause of `DoorbellAndCqHeadWrites` assumes holds together of some state and operands. -/
theorem witnesses_DoorbellAndCqHeadWrites :
    (∃ (src : Src) (c : BitVec 8) (v : Word) (s : State), s.liveCtx src c.toNat = true ∧ s.rd F.CTX_STAT_STATE c.toNat 0 = 1 ∧ (v.toNat % 65536 +
      65536 - s.rd F.CTX_SQ_TAIL c.toNat 0) % 65536 ≤ s.sqSize c.toNat ∧ (v.toNat % 65536 + 65536 - s.rd F.CTX_SQ_HEAD c.toNat 0) % 65536 ≤ s.sqSize
      c.toNat) ∧
    (∃ (src : Src) (c : BitVec 8) (v : Word) (s : State), s.liveCtx src c.toNat = true ∧ s.rd F.CTX_STAT_STATE c.toNat 0 = 1 ∧ ¬ ((v.toNat % 65536 +
      65536 - s.rd F.CTX_SQ_TAIL c.toNat 0) % 65536 ≤ s.sqSize c.toNat ∧ (v.toNat % 65536 + 65536 - s.rd F.CTX_SQ_HEAD c.toNat 0) % 65536 ≤ s.sqSize
      c.toNat)) ∧
    (∃ (src : Src) (c : BitVec 8) (v : Word) (s : State), s.liveCtx src c.toNat = true ∧ s.rd F.CTX_STAT_STATE c.toNat 0 ≠ 1) ∧
    (∃ (src : Src) (c : BitVec 8) (v : Word) (s : State), s.liveCtx src c.toNat = true ∧ (v.toNat % 65536 + 65536 - s.rd F.CTX_CQ_HEAD c.toNat 0) %
      65536 ≤ (s.rd F.CTX_CQ_TAIL c.toNat 0 + 65536 - s.rd F.CTX_CQ_HEAD c.toNat 0) % 65536) ∧
    (∃ (src : Src) (c : BitVec 8) (v : Word) (s : State), s.liveCtx src c.toNat = true ∧ (s.rd F.CTX_CQ_TAIL c.toNat 0 + 65536 - s.rd F.CTX_CQ_HEAD
      c.toNat 0) % 65536 < (v.toNat % 65536 + 65536 - s.rd F.CTX_CQ_HEAD c.toNat 0) % 65536) :=
  ⟨⟨.host, 255, 16, (((R.wr F.CTX_STAT_STATE 255 0 1).wr F.CTX_SQ_BASE_HI 255 0 0x10).wr F.CTX_CQ_BASE_HI 255 0 0x10).wr F.CTX_CQ_BASE_LO 255 0
     0x10000, by decide +kernel⟩,
   ⟨.host, 255, 17, (((R.wr F.CTX_STAT_STATE 255 0 1).wr F.CTX_SQ_BASE_HI 255 0 0x10).wr F.CTX_CQ_BASE_HI 255 0 0x10).wr F.CTX_CQ_BASE_LO 255 0
     0x10000, by decide +kernel⟩,
   ⟨.pcie, 255, 16, R, by decide +kernel⟩,
   ⟨.host, 255, 5, ((((R.wr F.CTX_STAT_STATE 255 0 1).wr F.CTX_SQ_BASE_HI 255 0 0x10).wr F.CTX_CQ_BASE_HI 255 0 0x10).wr F.CTX_CQ_BASE_LO 255 0
     0x10000).wr F.CTX_CQ_TAIL 255 0 5, by decide +kernel⟩,
   ⟨.host, 255, 6, ((((R.wr F.CTX_STAT_STATE 255 0 1).wr F.CTX_SQ_BASE_HI 255 0 0x10).wr F.CTX_CQ_BASE_HI 255 0 0x10).wr F.CTX_CQ_BASE_LO 255 0
     0x10000).wr F.CTX_CQ_TAIL 255 0 5, by decide +kernel⟩⟩

/-- What each clause of `ContextLifecycle` assumes holds together of some state and operands. -/
theorem witnesses_ContextLifecycle :
    (∃ (src : Src) (c : BitVec 8) (s : State), s.liveCtx src c.toNat = true ∧ s.fwReady = true ∧ s.rd F.CTX_STAT_STATE c.toNat 0 = 0 ∧ s.ringsOk
      c.toNat = true ∧ s.urgAlloc (s.rd F.CTX_CFG_PART c.toNat 0) + s.bktRate (s.cabCtx c.toNat) 0 ≤ s.rd F.SCH_PART_URG_BUDGET 0 (s.rd
      F.CTX_CFG_PART c.toNat 0)) ∧
    (∃ (src : Src) (c : BitVec 8) (v : Word) (s : State), s.liveCtx src c.toNat = true ∧ s.rd F.CTX_STAT_STATE c.toNat 0 = 1 ∧ v.toNat % 128 = s.rd
      F.CTX_STAT_GEN c.toNat 0 ∧ s.gt < s.rd F.CTX_LEASE_EXP c.toNat 0) ∧
    (∃ (src : Src) (c : BitVec 8) (v : Word) (s : State), s.liveCtx src c.toNat = true ∧ (s.rd F.CTX_STAT_STATE c.toNat 0 ≠ 1 ∨ v.toNat % 128 ≠ s.rd
      F.CTX_STAT_GEN c.toNat 0 ∨ s.rd F.CTX_LEASE_EXP c.toNat 0 ≤ s.gt)) ∧
    (∃ (c : BitVec 8) (s : State), s.rd F.CTX_STAT_STATE c.toNat 0 = 1 ∧ s.rd F.CTX_LEASE_EXP c.toNat 0 ≤ s.gt ∧ s.fwReady = true ∧ s.rdB
      F.CTX_CFG_POLICY c.toNat 0 = false) ∧
    (∃ (src : Src) (c : BitVec 8) (s : State), s.liveCtx src c.toNat = true ∧ s.fwReady = true ∧ s.rd F.CTX_STAT_STATE c.toNat 0 = 2 ∧ s.gt < (s.ctx
      (s.cabCtx c.toNat)).holdEnd) ∧
    (∃ (src : Src) (c : BitVec 8) (s : State), s.liveCtx src c.toNat = true ∧ s.fwReady = true ∧ s.rd F.SK_STAT_ROLE 0 0 = 0 ∧ (s.rd F.CTX_STAT_STATE
      c.toNat 0 = 1 ∨ s.rd F.CTX_STAT_STATE c.toNat 0 = 2) ∧ s.rdB F.CTX_CFG_POLICY c.toNat 0 = false ∧ s.sch.cmds.any (fun x => x.ctx == c.toNat) =
      true) ∧
    (∃ (src : Src) (c : BitVec 8) (s : State), s.liveCtx src c.toNat = true ∧ s.fwReady = true ∧ s.rd F.SK_STAT_ROLE 0 0 = 0 ∧ (s.rd F.CTX_STAT_STATE
      c.toNat 0 = 1 ∨ s.rd F.CTX_STAT_STATE c.toNat 0 = 2) ∧ s.sch.cmds.any (fun x => x.ctx == c.toNat) = false) ∧
    (∃ (c : BitVec 8) (s : State), s.rd F.SK_STAT_ROLE 0 0 = 0 ∧ s.rd F.CTX_STAT_STATE c.toNat 0 = 2 ∧ (s.ctx c.toNat).holdEnd ≤ s.gt ∧ s.fwReady =
      true ∧ s.sch.cmds.any (fun x => x.ctx == c.toNat) = false) :=
  ⟨⟨.host, 255, ((((RF.wr F.CTX_SQ_BASE_HI 255 0 0x10).wr F.CTX_CQ_BASE_HI 255 0 0x10).wr F.CTX_CQ_BASE_LO 255 0 0x10000).wr F.SCH_BKT_RATE 0 1020
     5).wr F.SCH_PART_URG_BUDGET 0 0 5, by decide +kernel⟩,
   ⟨.host, 255, 3, (((((R.wr F.CTX_STAT_STATE 255 0 1).wr F.CTX_SQ_BASE_HI 255 0 0x10).wr F.CTX_CQ_BASE_HI 255 0 0x10).wr F.CTX_CQ_BASE_LO 255 0
     0x10000).wr F.CTX_STAT_GEN 255 0 3).wr F.CTX_LEASE_EXP 255 0 1, by decide +kernel⟩,
   ⟨.host, 255, 3, ((((R.wr F.CTX_STAT_STATE 255 0 1).wr F.CTX_SQ_BASE_HI 255 0 0x10).wr F.CTX_CQ_BASE_HI 255 0 0x10).wr F.CTX_CQ_BASE_LO 255 0
     0x10000).wr F.CTX_STAT_GEN 255 0 3, by decide +kernel⟩,
   ⟨255, (((RF.wr F.CTX_STAT_STATE 255 0 1).wr F.CTX_SQ_BASE_HI 255 0 0x10).wr F.CTX_CQ_BASE_HI 255 0 0x10).wr F.CTX_CQ_BASE_LO 255 0 0x10000,
     by decide +kernel⟩,
   ⟨.host, 255, { ((((RF.wr F.CTX_STAT_STATE 255 0 1).wr F.CTX_SQ_BASE_HI 255 0 0x10).wr F.CTX_CQ_BASE_HI 255 0 0x10).wr F.CTX_CQ_BASE_LO 255 0 0x10000).wr F.CTX_STAT_STATE 255 0 2 with sch := { RF.sch with ctxs := [{ num := 255, holdEnd := 1 }] } },
     by decide +kernel⟩,
   ⟨.host, 255, { ((((RF.wr F.CTX_STAT_STATE 255 0 1).wr F.CTX_SQ_BASE_HI 255 0 0x10).wr F.CTX_CQ_BASE_HI 255 0 0x10).wr F.CTX_CQ_BASE_LO 255 0 0x10000).wr F.CTX_STAT_STATE 255 0 2 with sch := { RF.sch with cmds := [{ id := 3, ctx := 255, desc := {}, phase := .running, consumedAt := 0, admitGt := 0 }] } },
     by decide +kernel⟩,
   ⟨.host, 255, (((RF.wr F.CTX_STAT_STATE 255 0 1).wr F.CTX_SQ_BASE_HI 255 0 0x10).wr F.CTX_CQ_BASE_HI 255 0 0x10).wr F.CTX_CQ_BASE_LO 255 0 0x10000,
     by decide +kernel⟩,
   ⟨255, ((((RF.wr F.CTX_STAT_STATE 255 0 1).wr F.CTX_SQ_BASE_HI 255 0 0x10).wr F.CTX_CQ_BASE_HI 255 0 0x10).wr F.CTX_CQ_BASE_LO 255 0 0x10000).wr
     F.CTX_STAT_STATE 255 0 2, by decide +kernel⟩⟩

/-- What each clause of `AcceptanceAndHandOff` assumes holds together of some state and operands. -/
theorem witnesses_AcceptanceAndHandOff :
    (∃ (c : BitVec 8) (s : State) (bs : List Byte), s.pwr.mainOn = true ∧ s.rd F.CTX_STAT_STATE c.toNat 0 = 1 ∧ s.rd F.CTX_SQ_HEAD c.toNat 0 ≠ s.rd
      F.CTX_SQ_TAIL c.toNat 0 ∧ s.peek (s.sqBase c.toNat + s.rd F.CTX_SQ_HEAD c.toNat 0 % s.sqSize c.toNat * 64) 64 = some (bs, false) ∧ (if
      (parseDesc bs).specOk then 2 else 1) ≤ s.cqFree c.toNat ∧ ((parseDesc bs).cls = 0 ∨ s.handoffs.length < 1024) ∧ (parseDesc bs).gen = s.rd
      F.CTX_STAT_GEN c.toNat 0 ∧ serialLt 32 (s.rd F.CTX_LAST_SEQ c.toNat 0) (parseDesc bs).seq = true) ∧
    (∃ (s : State) (c : Cmd) (rest : List Cmd), s.rd F.SK_STAT_ROLE 0 0 = 0 ∧ s.fwReady = true ∧ s.handoffs = c :: rest ∧ s.cmd c.id = some c ∧
      c.desc.cls ≠ 0 ∧ c.desc.cost ≤ s.bktBurst c.ctx c.desc.cls ∧ s.fenceShed c.desc = none ∧ c.desc.cost ≤ (s.bkt c.ctx c.desc.cls).level ∧
      s.waiters c.ctx c.desc.cls = []) ∧
    (∃ (k : Fin 16) (s : State) (c : Cmd), s.sch.cmds.find? (fun x => x.phase == .urgent && (s.partKettles (s.partOf x.ctx)).contains k.val) = some c
      ∧ s.cmd c.id = some c ∧ s.urgentReady k (s.needGrans c.desc) = true) ∧
    (∃ (src : Src) (c : BitVec 8) (s : State), s.liveCtx src c.toNat = true ∧ s.rd F.CTX_STAT_STATE c.toNat 0 = 1 ∧ s.rd F.CTX_SO_SEL c.toNat 0 < 8 ∧
      (parseDesc ((List.range 16).flatMap (fun w => toBytes 4 (s.rd F.CTX_SO_DESC c.toNat (w * 8 + s.rd F.CTX_SO_SEL c.toNat 0))))).cls ≠ 0) ∧
    (∃ (src : Src) (n : Nat) (tmpl : List Byte) (per : BitVec 8) (anc : BitVec 8) (ph : BitVec 16) (s : State), s.fwReady = true ∧ (parseDesc
      tmpl).cls ≠ 0 ∧ tmpl.length = 64) ∧
    (∃ (src : Src) (c : BitVec 8) (s : State), s.liveCtx src c.toNat = true ∧ s.rd F.CTX_STAT_STATE c.toNat 0 = 1 ∧ s.rd F.CTX_SO_SEL c.toNat 0 < 8) ∧
    (∃ (src : Src) (n : Nat) (tmpl : List Byte) (per : BitVec 8) (anc : BitVec 8) (ph : BitVec 16) (s : State), s.fwReady = true) ∧
    (∃ (num : Nat) (s : State) (o : Order), s.sch.orders.find? (fun x => x.num == num) = some o ∧ o.due ≤ s.gt ∧ s.gt < o.due + o.period * 65536 ∧
      s.fwReady = true ∧ s.soSkips o = false) ∧
    (∃ (num : Nat) (s : State) (o : Order), s.sch.orders.find? (fun x => x.num == num) = some o ∧ s.fwReady = true ∧ o.due + o.period * 65536 ≤ s.gt) :=
  ⟨⟨255, ((((((R.wr F.CTX_STAT_STATE 255 0 1).wr F.CTX_SQ_BASE_HI 255 0 0x10).wr F.CTX_CQ_BASE_HI 255 0 0x10).wr F.CTX_CQ_BASE_LO 255 0 0x10000).wr
     F.CTX_STAT_GEN 255 0 3).wr F.CTX_SQ_TAIL 255 0 1).setBytes 0x1000000000 nop1, nop1, by decide +kernel⟩,
   ⟨{ RF.wr F.SCH_BKT_BURST 0 1021 1 with sch := { RF.sch with cmds := [cmdOf 0 1 .handoff], bkts := [{ ctx := 255, cls := 1, level := 1 }] } },
     cmdOf 0 1 .handoff, [], by decide +kernel⟩,
   ⟨0, { with1 RF (cmdOf 1 0 .urgent) with recipes := [rec1] }, cmdOf 1 0 .urgent, by decide +kernel⟩,
   ⟨.host, 255, (((((R.wr F.CTX_STAT_STATE 255 0 1).wr F.CTX_SQ_BASE_HI 255 0 0x10).wr F.CTX_CQ_BASE_HI 255 0 0x10).wr F.CTX_CQ_BASE_LO 255 0
     0x10000).wr F.CTX_SO_SEL 255 0 7).wr F.CTX_SO_DESC 255 15 256, by decide +kernel⟩,
   ⟨.sous, 0, nop1, 2, 0, 0, RF, by decide +kernel⟩,
   ⟨.host, 255, ((((R.wr F.CTX_STAT_STATE 255 0 1).wr F.CTX_SQ_BASE_HI 255 0 0x10).wr F.CTX_CQ_BASE_HI 255 0 0x10).wr F.CTX_CQ_BASE_LO 255 0
     0x10000).wr F.CTX_SO_SEL 255 0 7, by decide +kernel⟩,
   ⟨.sous, 0, nop1, 2, 0, 0, RF, by decide +kernel⟩,
   ⟨2040, { (((RF.wr F.CTX_STAT_STATE 255 0 1).wr F.CTX_SQ_BASE_HI 255 0 0x10).wr F.CTX_CQ_BASE_HI 255 0 0x10).wr F.CTX_CQ_BASE_LO 255 0 0x10000 with sch := { RF.sch with orders := [order1] } },
     order1, by decide +kernel⟩,
   ⟨2040, { (((RF.wr F.CTX_STAT_STATE 255 0 1).wr F.CTX_SQ_BASE_HI 255 0 0x10).wr F.CTX_CQ_BASE_HI 255 0 0x10).wr F.CTX_CQ_BASE_LO 255 0 0x10000 with sch := { RF.sch with orders := [order1] }, gt := 131072 },
     order1, by decide +kernel⟩⟩

/-- What each clause of `RefillsAndBooks` assumes holds together of some state and operands. -/
theorem witnesses_RefillsAndBooks :
    (∃ (s : State) (b : Bkt), s.orr.refilled < s.gt / 65536 ∧ s.fwReady = true ∧ s.sch.bkts = [b] ∧ b.ctx < 256 ∧ s.bktLive b = true ∧ s.sch.cmds =
      []) ∧
    (∃ (s : State), s.live 0x005 = true) ∧
    (∃ (s : State), s.sch.snapReq = true ∧ s.rd F.SCH_SCHED_STAT_BOOKS_BUSY 0 0 = 0) ∧
    (∃ (v : Word) (s : State), s.live 0x005 = true ∧ (∀ q < 16, q ≠ s.rd F.SCH_PART_SEL 0 0 → s.rd F.SCH_PART_KMASK 0 q &&& (v.toNat % 65536) = 0) ∧
      s.rd F.SCH_PART_URG_BUDGET 0 (s.rd F.SCH_PART_SEL 0 0) ≤ (s.wr F.SCH_PART_KMASK 0 (s.rd F.SCH_PART_SEL 0 0) v.toNat).partCap (s.rd
      F.SCH_PART_SEL 0 0) / 4) ∧
    (∃ (v : Word) (s : State) (q : Nat), s.live 0x005 = true ∧ q < 16 ∧ q ≠ s.rd F.SCH_PART_SEL 0 0 ∧ s.rd F.SCH_PART_KMASK 0 q &&& (v.toNat % 65536)
      ≠ 0) ∧
    (∃ (v : Word) (s : State), s.live 0x005 = true ∧ (∀ q < 16, q ≠ s.rd F.SCH_PART_SEL 0 0 → s.rd F.SCH_PART_KMASK 0 q &&& (v.toNat % 65536) = 0) ∧
      (s.wr F.SCH_PART_KMASK 0 (s.rd F.SCH_PART_SEL 0 0) v.toNat).partCap (s.rd F.SCH_PART_SEL 0 0) / 4 < s.rd F.SCH_PART_URG_BUDGET 0 (s.rd
      F.SCH_PART_SEL 0 0)) ∧
    (∃ (v : Word) (s : State), s.live 0x005 = true ∧ v.toNat % 2 ^ 24 ≤ s.partCap (s.rd F.SCH_PART_SEL 0 0) / 4) ∧
    (∃ (v : Word) (s : State), s.live 0x005 = true ∧ s.partCap (s.rd F.SCH_PART_SEL 0 0) / 4 < v.toNat % 2 ^ 24) :=
  ⟨⟨{ (((((RF.wr F.CTX_STAT_STATE 255 0 1).wr F.CTX_SQ_BASE_HI 255 0 0x10).wr F.CTX_CQ_BASE_HI 255 0 0x10).wr F.CTX_CQ_BASE_LO 255 0 0x10000).wr F.SCH_BKT_BURST 0 1021 4).wr F.SCH_BKT_RATE 0 1021 3 with gt := 65536, sch := { RF.sch with bkts := [{ ctx := 255, cls := 1, level := 2 }] } },
     { ctx := 255, cls := 1, level := 2 }, by decide +kernel⟩,
   ⟨R, by decide +kernel⟩,
   ⟨{ R with sch := { R.sch with snapReq := true } }, by decide +kernel⟩,
   ⟨0xFFFF, R, by decide +kernel⟩,
   ⟨3, R.wr F.SCH_PART_SEL 0 0 15, 0, by decide +kernel⟩,
   ⟨0, R.wr F.SCH_PART_URG_BUDGET 0 0 1, by decide +kernel⟩,
   ⟨1, R, by decide +kernel⟩,
   ⟨0xFFFFFF, R, by decide +kernel⟩⟩

/-- What each clause of `ActionsOfCommands` assumes holds together of some state and operands. -/
theorem witnesses_ActionsOfCommands :
    (∃ (id : Nat) (s : State) (c : Cmd) (bs : List Byte), s.cmd id = some c ∧ c.desc.opcode = 2 ∧ s.mayDispatch c = true ∧ (c.desc.cls = 0 ∨
      s.fwReady = true) ∧ s.rd F.SK_STAT_ROLE 0 0 = 0 ∧ (c.desc.cls ≠ 1 ∨ s.gt ≤ c.desc.deadline) ∧ s.cam.pages = [] ∧ 0 < c.desc.outLen ∧ s.peek
      c.desc.arg c.desc.outLen = some (bs, false)) ∧
    (∃ (id : Nat) (s : State) (c : Cmd), s.cmd id = some c ∧ c.desc.opcode = 4 ∧ s.mayDispatch c = true ∧ (c.desc.cls = 0 ∨ s.fwReady = true) ∧ s.rd
      F.SK_STAT_ROLE 0 0 = 0 ∧ (c.desc.cls ≠ 1 ∨ s.gt ≤ c.desc.deadline)) ∧
    (∃ (id : Nat) (s : State) (c : Cmd), s.cmd id = some c ∧ c.desc.opcode = 4 ∧ c.phase = .running ∧ c.desc.arg ≤ s.gt ∧ s.rd F.SK_STAT_ROLE 0 0 = 0
      ∧ (c.desc.cls ≠ 1 ∨ s.gt ≤ c.desc.deadline)) ∧
    (∃ (id : Nat) (s : State) (c : Cmd), s.cmd id = some c ∧ c.desc.opcode = 7 ∧ s.mayDispatch c = true ∧ (c.desc.cls = 0 ∨ s.fwReady = true) ∧ s.rd
      F.SK_STAT_ROLE 0 0 = 0 ∧ bitOf c.desc.arg 8 = false ∧ s.rdB F.CSI_STR_CTRL_EN (c.desc.arg % 64 / 4) (c.desc.arg % 64 % 4) = true) ∧
    (∃ (id : Nat) (s : State) (c : Cmd) (f : Frame), s.cmd id = some c ∧ c.desc.opcode = 7 ∧ s.mayDispatch c = true ∧ (c.desc.cls = 0 ∨ s.fwReady =
      true) ∧ s.rd F.SK_STAT_ROLE 0 0 = 0 ∧ (c.desc.cls ≠ 1 ∨ s.gt ≤ c.desc.deadline) ∧ bitOf c.desc.arg 8 = true ∧ s.rdB F.CSI_STR_CTRL_EN
      (c.desc.arg % 64 / 4) (c.desc.arg % 64 % 4) = true ∧ s.rdB F.CSI_STR_CTRL_BIND_HOLD (c.desc.arg % 64 / 4) (c.desc.arg % 64 % 4) = false ∧
      (s.cam.frames.filter (fun g => g.stream == c.desc.arg % 64 && !g.isOpen && g.released)).getLast? = some f ∧ s.frame f.id = some f ∧ f.id / 2 ^
      26 = f.stream ∧ f.standing = 1 ∧ s.gt < f.ageGt ∧ c.started = none ∧ c.frames = [] ∧ c.desc.fences = [] ∧ s.tbufs = []) ∧
    (∃ (id : Nat) (s : State) (c : Cmd), s.cmd id = some c ∧ c.desc.opcode = 7 ∧ s.mayDispatch c = true ∧ (c.desc.cls = 0 ∨ s.fwReady = true) ∧ s.rd
      F.SK_STAT_ROLE 0 0 = 0 ∧ bitOf c.desc.arg 8 = true ∧ s.cam.frames.filter (fun g => g.stream == c.desc.arg % 64 && !g.isOpen && g.released) =
      []) ∧
    (∃ (id : Nat) (s : State) (c : Cmd), s.cmd id = some c ∧ c.desc.opcode = 8 ∧ s.mayDispatch c = true ∧ s.fwReady = true ∧ s.orbFree ≠ 0 ∧
      (c.desc.cls ≠ 1 ∨ c.desc.lateOk = true)) ∧
    (∀ x ∈ [((0 : Nat), Instr.nop), (3, Instr.fence), (5, Instr.signal), (6, Instr.lampRequest)], ∃ (id : Nat) (s : State) (c : Cmd), s.cmd id = some
      c ∧ c.desc.opcode = x.1 ∧ s.mayDispatch c = true ∧ (c.desc.cls = 0 ∨ s.fwReady = true) ∧ s.rd F.SK_STAT_ROLE 0 0 = 0 ∧ (c.desc.cls ≠ 1 ∨ s.gt ≤
      c.desc.deadline)) :=
  ⟨⟨3, { with1 RF ({ cmdOf 2 0 .ready with desc := { opcode := 2, arg := 0x1000000000, outLen := 64, outAddr := 0x1000001000 } }) with fresh := 0 },
     { cmdOf 2 0 .ready with desc := { opcode := 2, arg := 0x1000000000, outLen := 64, outAddr := 0x1000001000 } }, List.replicate 64 0#8,
     by decide +kernel⟩,
   ⟨3, { with1 RF (cmdOf 4 0 .ready) with fresh := 0 }, cmdOf 4 0 .ready, by decide +kernel⟩,
   ⟨3, { with1 RF (cmdOf 4 0 .running) with fresh := 0 }, cmdOf 4 0 .running, by decide +kernel⟩,
   ⟨3, ({ with1 RF ({ cmdOf 7 0 .ready with desc := { opcode := 7, arg := 0 } }) with fresh := 0 }).wr F.CSI_STR_CTRL_EN 0 0 1, { cmdOf 7 0 .ready with desc := { opcode := 7, arg := 0 } },
     by decide +kernel⟩,
   ⟨3, ({ with1 RF ({ cmdOf 7 0 .ready with desc := { opcode := 7, arg := 256 } }) with fresh := 0, cam := { RF.cam with frames := [frame1] } }).wr
     F.CSI_STR_CTRL_EN 0 0 1, { cmdOf 7 0 .ready with desc := { opcode := 7, arg := 256 } }, frame1, by decide +kernel⟩,
   ⟨3, ({ with1 RF ({ cmdOf 7 0 .ready with desc := { opcode := 7, arg := 256 } }) with fresh := 0 }).wr F.CSI_STR_CTRL_EN 0 0 1, { cmdOf 7 0 .ready with desc := { opcode := 7, arg := 256 } },
     by decide +kernel⟩,
   ⟨3, { with1 RF (cmdOf 8 0 .ready) with fresh := 0 }, cmdOf 8 0 .ready, by decide +kernel⟩,
   fun x hx => ⟨3, { with1 RF (cmdOf x.1 0 .ready) with fresh := 0 }, cmdOf x.1 0 .ready, by revert x; simp only [List.forall_mem_cons]; exact
     ⟨by decide +kernel, by decide +kernel, by decide +kernel, by decide +kernel, by simp⟩⟩⟩

/-- What each clause of `CommitAndClosingRecord` assumes holds together of some state and operands. -/
theorem witnesses_CommitAndClosingRecord :
    (∃ (id : Nat) (s : State) (c : Cmd), s.cmd id = some c ∧ c.desc.opcode ≠ 1 ∧ c.phase = .running ∧ s.actionDone c = true ∧ s.rd F.SK_STAT_ROLE 0 0
      = 0 ∧ (c.desc.cls ≠ 1 ∨ s.gt ≤ c.desc.deadline)) ∧
    (∃ (id : Nat) (n : Nat) (s : State) (c : Cmd), s.cmd id = some c ∧ c.phase = .commit ∧ c.drained = true ∧ 0 < c.acks) ∧
    (∃ (id : Nat) (p : Nat) (s : State) (c : Cmd), s.sch.cmds = [c] ∧ c.id = id ∧ c.phase = .commit ∧ c.drained = true ∧ c.acks = 0 ∧ (c.desc.cls = 0
      ∨ s.rdB F.SCH_SCHED_STAT_HANDOVER 0 0 = false) ∧ c.provCommit = false ∧ c.fault = none ∧ c.ctx ≠ fwCtx ∧ s.rd F.SK_STAT_ROLE 0 0 = 0 ∧
      s.localPage c.ctx = some p ∧ s.rd F.CTX_STAT_STATE p 0 = 1 ∧ larderBase ≤ s.cqBase p + s.rd F.CTX_CQ_TAIL p 0 % s.cqSize p * 32 ∧ s.cqBase p +
      s.rd F.CTX_CQ_TAIL p 0 % s.cqSize p * 32 + 32 ≤ larderBase + 0x1000000) ∧
    (∃ (id : Nat) (s : State) (c : Cmd), s.cmd id = some c ∧ c.desc.cls = 1 ∧ c.desc.deadline ≤ s.gt ∧ c.phase = .held ∧ s.fwReady = true) ∧
    (∃ (id : Nat) (s : State) (c : Cmd), s.cmd id = some c ∧ c.desc.opcode = 1 ∧ c.phase = .running ∧ c.batch = none ∧ s.partsDone c = true ∧
      s.coverage c = true ∧ s.rd F.SK_STAT_ROLE 0 0 = 0 ∧ (c.desc.cls ≠ 1 ∨ s.gt ≤ c.desc.deadline)) :=
  ⟨⟨3, { with1 RF (cmdOf 4 0 .running) with fresh := 0 }, cmdOf 4 0 .running, by decide +kernel⟩,
   ⟨3, 2, { with1 RF ({ cmdOf 2 0 .commit with drained := true, acks := 2 }) with fresh := 0 }, { cmdOf 2 0 .commit with drained := true, acks := 2 },
     by decide +kernel⟩,
   ⟨3, 255, ({ with1 RF ({ cmdOf 2 0 .commit with drained := true }) with fresh := 0 }).wr F.CTX_STAT_STATE 255 0 1 |>.wr F.CTX_CQ_BASE_LO 255 0
     0x10000000, { cmdOf 2 0 .commit with drained := true }, by decide +kernel⟩,
   ⟨3, { with1 RF (cmdOf 1 1 .held) with gt := 9 }, cmdOf 1 1 .held, by decide +kernel⟩,
   ⟨3, { with1 RF (cmdOf 1 0 .running) with recipes := [{ id := 9, image := [], constBase := 0 }], tiles := [{ num := 0, slots := [sl 31 4] }] },
     cmdOf 1 0 .running, by decide +kernel⟩⟩

/-- What each clause of `DispatchAndBatches` assumes holds together of some state and operands. -/
theorem witnesses_DispatchAndBatches :
    (∃ (s : State) (c : Cmd), s.fwReady = true ∧ s.rd F.SK_STAT_ROLE 0 0 = 0 ∧ s.sch.cmds = [c] ∧ c.desc.cls = 1 ∧ c.desc.opcode = 1 ∧ c.batch = none
      ∧ c.desc.lateOk = true ∧ s.eligible c = true ∧ s.frameSet c = [] ∧ s.partsOf c.desc ≤ (s.candidates c).length) ∧
    (∃ (part : Fin 16) (ks : List (Fin 128)) (s : State) (c : Cmd), s.fwReady = true ∧ s.rd F.SK_STAT_ROLE 0 0 = 0 ∧ s.headB part = some c ∧ s.cmd
      c.id = some c ∧ c.desc.cls = 2 ∧ c.desc.opcode = 1 ∧ c.batch = none ∧ ks.length = s.partsOf c.desc ∧ ks.Nodup ∧ (∀ k ∈ ks, k.val < 16 ∧
      (s.candidates c).contains k.val = true) ∧ s.partOf c.ctx = part) ∧
    (∃ (id : Nat) (s : State) (c : Cmd), s.cmd id = some c ∧ s.fwReady = true ∧ ((s.batchOf c).head?.map (fun m => m.id)) = some id ∧ s.batchDue c
      (s.batchOf c) = true) :=
  ⟨⟨{ with1 RF c1 with recipes := [rec1] }, c1, by decide +kernel⟩,
   ⟨0, [15], { with1 (RF.wr F.SCH_PART_CFG_B_SLOTS 0 0 1) { c1 with desc := { c1.desc with cls := 2 } } with recipes := [rec1] }, { c1 with desc := { c1.desc with cls := 2 } },
     by decide +kernel⟩,
   ⟨3, { with1 RF { c1 with desc := { c1.desc with fillBatch := true } } with recipes := [rec2] }, { c1 with desc := { c1.desc with fillBatch := true } },
     by decide +kernel⟩⟩

/-- What each clause of `KettleStepsAndPasses` assumes holds together of some state and operands. -/
theorem witnesses_KettleStepsAndPasses :
    (∃ (p : Fin 18) (wait : Nat) (s : State) (x : Slot), s.tileRuns p = true ∧ s.rdB F.KT_CTRL_EN p 0 = true ∧ s.rdB F.KT_CTRL_HALT p 0 = false ∧
      (s.tile p).chosen = none ∧ (s.tile p).prev = none ∧ (s.advance p ((s.tile p).cyc + wait)).choice p = some x ∧ x.cls ≠ 0) ∧
    (∃ (p : Fin 18) (wait : Nat) (s : State) (x : Slot) (r : PassRec), s.tileRuns p = true ∧ s.rdB F.KT_CTRL_EN p 0 = true ∧ s.rdB F.KT_CTRL_HALT p 0
      = false ∧ (s.tile p).chosen = none ∧ (s.tile p).prev = some r ∧ (s.tile p).cyc ≤ r.first + 1 ∧ (s.advance p r.first).choice p = some x ∧ x.cls
      ≠ 0) ∧
    (∃ (p : Fin 18) (s : State) (y : Slot × Recipe × Nest), s.chosenPass p = some y ∧ (s.tile p).load = none) ∧
    (∃ (p : Fin 18) (s : State) (y : Slot × Recipe × Nest), s.chosenPass p = some y ∧ y.2.2.ripple = false ∧ (s.tile p).load.isSome = true ∧ (s.tile
      p).flip = none) ∧
    (∃ (p : Fin 18) (s : State) (x : Slot) (r : Recipe) (n : Nest) (c : Nat), s.chosenPass p = some (x, r, n) ∧ s.planned p = some c ∧ (s.tile
      p).load.isSome = true ∧ (n.ripple = true ∨ (s.tile p).flip.isSome = true) ∧ s.tileRuns p = true ∧ ((s.advance p c).accessFault p x.num
      (passReads r n x.pass)).isNone = true ∧ s.rdB F.KT_CNT_CTRL_FREEZE p 0 = false) ∧
    (∃ (p : Fin 18) (s : State) (f : Flight) (rest : List Flight), (s.tile p).flights = f :: rest ∧ s.canRun p (f.final + 192) = true) ∧
    (∃ (p : Fin 18) (s : State) (r : Readout), (s.tile p).readouts.find? (fun y => decide (y.readN < y.rows.length)) = some r ∧ s.canRun p (r.first +
      r.readN * r.per + (r.per - 1) + 192 + 1) = true) ∧
    (∃ (p : Fin 18) (s : State) (o : Readout) (x : Slot) (r : Recipe) (bs : List Byte), (s.tile p).readouts.find? (fun y => decide (y.written <
      y.readN)) = some o ∧ s.slot p o.slot = some x ∧ s.slotRecipe x = some r ∧ (s.accessFault p x.num (((r.whisk o.stage).filter (fun w => w.parLen
      != 0)).map (fun w => (w.param, w.parLen)))).isNone = true ∧ bs = outBytes (r.stageFmt o.stage) ((s.whiskRow p r o (o.rows.getD o.written
      [])).vals.map (outVal (r.stageFmt o.stage) (s.whiskRow p r o (o.rows.getD o.written [])).fp)) ∧ (s.tile p).tagOk x.num (o.addrs.getD o.written
      0) bs.length = true) :=
  ⟨⟨0, 0, onTile 0 rec1 { sl 31 1 with xferNext := 1 } id, { sl 31 1 with xferNext := 1 }, by decide +kernel⟩,
   ⟨0, 3, onTile 0 rec1 { sl 31 2 with xferNext := 1 } (fun t => { t with prev := some { slot := 1, bank := 0, ripple := false, first := 9, final := 9 }, cyc := 10 }),
     { sl 31 2 with xferNext := 1 }, { slot := 1, bank := 0, ripple := false, first := 9, final := 9 }, by decide +kernel⟩,
   ⟨0, onTile 0 rec1 { sl 31 1 with xferNext := 1 } (fun t => { t with chosen := some 31 }), ({ sl 31 1 with xferNext := 1 }, rec1, rec1.nest 0 0 0),
     by decide +kernel⟩,
   ⟨0, onTile 0 rec1 { sl 31 1 with xferNext := 1 } (fun t => { t with chosen := some 31, load := some 0 }), ({ sl 31 1 with xferNext := 1 }, rec1,
     rec1.nest 0 0 0), by decide +kernel⟩,
   ⟨0, onTile 0 rec1 { sl 31 1 with xferNext := 1 } (fun t => { t with chosen := some 31, load := some 0, flip := some 64, cyc := 65 }), { sl 31 1 with xferNext := 1 },
     rec1, rec1.nest 0 0 0, 65, by decide +kernel⟩,
   ⟨0, onTile 0 rec1 (sl 31 2) (fun t => { t with flights := [{ slot := 31, first := 65, final := 65, ends := false }] }), { slot := 31, first := 65, final := 65, ends := false },
     [], by decide +kernel⟩,
   ⟨0, onTile 0 rec1 (sl 31 2) (fun t => { t with readouts := [ro 0] }), ro 0, by decide +kernel⟩,
   ⟨0, onTile 0 recZ (sl 31 2) (fun t => { t with readouts := [ro 1] }), ro 1, sl 31 2, recZ, List.replicate 128 7#8, by decide +kernel⟩⟩

/-- What each clause of `KillsAndKettleCounters` assumes holds together of some state and operands. -/
theorem witnesses_KillsAndKettleCounters :
    (∃ (p : Fin 18) (n : Fin 32) (wait : Nat) (s : State) (x : Slot), s.slot p n = some x ∧ x.st = 1) ∧
    (∃ (p : Fin 18) (n : Fin 32) (wait : Nat) (s : State) (x : Slot), s.slot p n = some x ∧ x.st = 2) ∧
    (∃ (p : Fin 18) (n : Fin 32) (s : State) (x : Slot), s.slot p n = some x ∧ x.st = 3 ∧ x.haloOut = [] ∧ s.planned p = none) ∧
    (∃ (p : Fin 18) (fr : Bool) (s : State), s.live (0x010 + p) = true) :=
  ⟨⟨17, 31, 0, onTile 17 rec1 (sl 31 1) id, sl 31 1, by decide +kernel⟩,
   ⟨17, 31, 0, onTile 17 rec1 (sl 31 2) id, sl 31 2, by decide +kernel⟩,
   ⟨17, 31, onTile 17 rec1 (sl 31 3) id, sl 31 3, by decide +kernel⟩,
   ⟨0, true, R.wr F.KT_ISSUE_CYC 0 0 77, by decide +kernel⟩⟩

/-- What each clause of `VaultControllers` assumes holds together of some state and operands. -/
theorem witnesses_VaultControllers :
    (∃ (v : Fin 18) (s : State), s.pwr.mainOn = true ∧ (s.rd F.VC_STAT_STATE v 0 = 1 ∨ (s.rd F.VC_STAT_STATE v 0 = 0 ∧ s.rd F.RP_TILE_STAT_STATE 0 v
      ≠ 2))) ∧
    (∃ (v : Fin 18) (s : State), s.pwr.mainOn = true ∧ s.rd F.VC_STAT_STATE v 0 = 2 ∧ s.rdB F.VC_CTRL_SR_ALLOW v 0 = true ∧ s.tileGated v = true) ∧
    (∃ (v : Fin 18) (s : State), s.pwr.mainOn = true ∧ s.rd F.VC_STAT_STATE v 0 = 3) ∧
    (∃ (v : Fin 18) (s : State), s.pwr.mainOn = true ∧ s.rd F.VC_STAT_STATE v 0 = 4) ∧
    (∃ (v : Fin 18) (s : State), s.pwr.mainOn = true ∧ s.rd F.VC_STAT_STATE v 0 = 5) ∧
    (∃ (v : Fin 18) (band : Fin 3) (temp : BitVec 8) (s : State), s.pwr.mainOn = true) ∧
    (∃ (v : Fin 18) (ce : Nat) (s : State), s.pwr.mainOn = true ∧ s.rdB F.VC_CTRL_SCRUB_EN v 0 = true ∧ s.rd F.VC_STAT_STATE v 0 = 2) :=
  ⟨⟨17, R.wr F.VC_STAT_STATE 17 0 1, by decide +kernel⟩,
   ⟨0, ((R.wr F.VC_STAT_STATE 0 0 2).wr F.VC_CTRL_SR_ALLOW 0 0 1).wr F.PWR_KGATED 0 0 1, by decide +kernel⟩,
   ⟨17, R.wr F.VC_STAT_STATE 17 0 3, by decide +kernel⟩,
   ⟨17, R.wr F.VC_STAT_STATE 17 0 4, by decide +kernel⟩,
   ⟨17, R.wr F.VC_STAT_STATE 17 0 5, by decide +kernel⟩,
   ⟨17, 2, 0xFF, R, by decide +kernel⟩,
   ⟨17, 0, (R.wr F.VC_STAT_STATE 17 0 2).wr F.VC_CTRL_SCRUB_EN 17 0 1, by decide +kernel⟩⟩

set_option maxRecDepth 10000 in
/-- What each clause of `WindowsLarderAndTransfers` assumes holds together of some state and operands. -/
theorem witnesses_WindowsLarderAndTransfers :
    (∃ (w : Fin 8) (v : Word) (s : State), s.live 0x050 = true ∧ s.rdB F.TV_IWIN_CFG_EN 0 w = false ∧ s.windowOk w (setBit v.toNat 31) = true) ∧
    (∃ (w : Fin 8) (v : Word) (s : State), s.live 0x050 = true ∧ s.rdB F.TV_IWIN_CFG_EN 0 w = false ∧ s.windowOk w (setBit v.toNat 31) = false) ∧
    (∃ (w : Fin 8) (v : Word) (s : State), s.live 0x050 = true) ∧
    (∃ (s : State), s.pwr.mainOn = true ∧ s.rd F.TV_STAT_LARDER_INIT_DONE 0 0 = 0) ∧
    (∃ (p : Fin 18) (bank : Fin 32) (q : PantryReq) (s : State), s.tileRuns p = true ∧ (s.tile p).waiting = [] ∧ q.rank.val = 6 ∧ q.ecc.val = 0 ∧
      q.write = none ∧ q.ofs.toNat / 64 % 32 = bank ∧ q.ofs.toNat % 64 + q.len ≤ 64 ∧ (∀ k < q.len, s.isPoison (pantryPlace p (q.ofs.toNat + k)) =
      false)) ∧
    (∃ (p : Fin 18) (bank : Fin 32) (q : PantryReq) (bs : List Byte) (s : State), s.tileRuns p = true ∧ (s.tile p).waiting = [] ∧ q.rank.val = 6 ∧
      q.ecc.val = 0 ∧ q.write = some bs ∧ q.ofs.toNat / 64 % 32 = bank ∧ q.ofs.toNat % 64 + bs.length ≤ 64) ∧
    (∃ (p : Fin 18) (n : Fin 32) (s : State) (x : Slot) (r : Recipe) (i : Nat) (src : Nat) (dst : Nat) (bs : List Byte), s.slot p n = some x ∧
      s.slotRecipe x = some r ∧ nextXfer r x = some i ∧ (x.st = 1 ∨ x.st = 2) ∧ x.xferBusy = false ∧ (i ≤ r.lead i ∨ i - 1 - r.lead i <
      x.issuedStages) ∧ s.xferMoves x r i = [(src, dst)] ∧ s.cam.pages = [] ∧ s.rd F.SK_STAT_ROLE 0 0 = 0 ∧ bs ≠ [] ∧ s.peek src (r.run64 (r.stageAt
      i 4 4) * 64) = some (bs, false) ∧ (s.tile p).tagOk n dst (r.run64 (r.stageAt i 4 4) * 64) = true) ∧
    (∃ (p : Fin 18) (n : Fin 32) (s : State) (x : Slot) (r : Recipe) (i : Nat), s.slot p n = some x ∧ x.xferBusy = true ∧ s.slotRecipe x = some r ∧
      nextXfer r x = some i) ∧
    (∃ (p : Fin 18) (n : Fin 32) (s : State) (x : Slot) (r : Recipe) (i : Nat) (e : PartEnt) (b : PartEnt), s.slot p n = some x ∧ s.slotRecipe x =
      some r ∧ (List.range r.nStages).find? (fun k => decide (x.haloSent < k) && r.halo k) = some i ∧ x.st = 2 ∧ i ≤ x.doneStages ∧ r.part i x.part =
      some e ∧ r.part (i - 1) x.part = some b) ∧
    (∃ (p : Fin 18) (n : Fin 32) (s : State) (x : Slot) (q : Nat) (m : Nat) (i : Nat) (rest : List (Nat × Nat × Nat)), s.slot p n = some x ∧
      x.haloOut = (q, m, i) :: rest) ∧
    (∃ (addr : Addr) (cb : Addr) (s : State) (lb : List Byte) (img : List Byte), s.rd F.FW_STATE_STATE 0 0 = 4 ∧ s.peek (addr.toNat + 8) 4 = some
      (lb, false) ∧ s.peek addr.toNat (ofBytes lb) = some (img, false) ∧ ({ id := leAt img 0x10 4, image := img, constBase := cb.toNat } :
      Recipe).valid = true ∧ s.pokeOk cb.toNat ((img.drop (({ id := leAt img 0x10 4, image := img, constBase := cb.toNat } : Recipe).at 0x38 4)).take
      (({ id := leAt img 0x10 4, image := img, constBase := cb.toNat } : Recipe).at 0x3C 4)).length = true) :=
  ⟨⟨7, 0x00000000, (R.wr F.TV_IWIN_LEN 0 7 1).wr F.TV_IWIN_CFG_GRAN_LOG2 0 7 12, by decide +kernel⟩,
   ⟨7, 0xFFFFFFFF, R, by decide +kernel⟩,
   ⟨7, 0, R.wr F.TV_IWIN_CFG_EN 0 7 1, by decide +kernel⟩,
   ⟨R, by decide +kernel⟩,
   ⟨0, 31, { rank := 6, slot := none, ofs := 0x3FFFC0, len := 64, write := none, ecc := 0 }, R, by decide +kernel⟩,
   ⟨0, 31, { rank := 6, slot := none, ofs := 0x3FFFC0, len := 64, write := some (List.replicate 64 9#8), ecc := 0 }, List.replicate 64 9#8, R,
     by decide +kernel⟩,
   ⟨0, 31, onTile 0 rec1 (sl 31 1) id, sl 31 1, rec1, 0, 0, 0, List.replicate 64 0#8, by decide +kernel⟩,
   ⟨0, 31, onTile 0 rec1 { sl 31 1 with xferBusy := true } id, { sl 31 1 with xferBusy := true }, rec1, 0, by decide +kernel⟩,
   ⟨0, 31, onTile 0 recH { sl 31 2 with doneStages := 1 } id, { sl 31 2 with doneStages := 1 }, recH, 1, (recH.part 1 0).getD default_, (recH.part 0
     0).getD default_, by decide +kernel⟩,
   ⟨0, 31, onTile 0 rec1 { sl 31 2 with haloOut := [(0, 31, 1)] } id, { sl 31 2 with haloOut := [(0, 31, 1)] }, 0, 31, 1, [], by decide +kernel⟩,
   ⟨0x10000000, 0x1000200000, RF.setBytes 0x10000000 img1, toBytes 4 640, img1, by decide +kernel⟩⟩

/-- What each clause of `LampArbiter` assumes holds together of some state and operands. -/
theorem witnesses_LampArbiter :
    (∃ (i : Fin 32) (due : Nat) (s : State), s.br.points.find? (fun p => p.1 == i.val) = some (i.val, due) ∧ s.br.points.all (fun p => !(decide (p.2
      < due)) && !(p.2 == due && decide (p.1 < i.val))) = true ∧ due ≤ s.gt ∧ s.fwReady = true ∧ (s.rd F.BR_SP_PERIOD 0 i = 0 ∨ s.gt < due + s.rd
      F.BR_SP_PERIOD 0 i * 65536) ∧ s.outEnabled (s.rd F.BR_SP_OUT_OUTPUT 0 i) = true) ∧
    (∃ (i : Fin 32) (due : Nat) (s : State), s.br.points.find? (fun p => p.1 == i.val) = some (i.val, due) ∧ s.br.points.all (fun p => !(decide (p.2
      < due)) && !(p.2 == due && decide (p.1 < i.val))) = true ∧ s.fwReady = true ∧ s.rd F.BR_SP_PERIOD 0 i ≠ 0 ∧ due + s.rd F.BR_SP_PERIOD 0 i *
      65536 ≤ s.gt) ∧
    (∃ (src : Src) (v : Word) (s : State), s.live 0x090 = true ∧ brTrusted src = true) ∧
    (∃ (src : Src) (v : Word) (s : State), s.live 0x090 = true ∧ brTrusted src = false) ∧
    (∃ (id : Nat) (s : State) (z : LampZone), s.br.zones.find? (fun x => x.id == id) = some z ∧ z.isOpen = false ∧ z.start ≤ s.gt ∧ s.gt < z.stop ∧
      s.outEnabled z.out = true) ∧
    (∃ (id : Nat) (s : State) (z : LampZone), s.br.zones.find? (fun x => x.id == id) = some z ∧ z.stop ≤ s.gt) ∧
    (∃ (e : Nat) (s : State), s.br.bootEnd = some e ∧ e ≤ s.gt) ∧
    (∃ (cmd : Nat) (n : Nat) (o : BitVec 7) (s : State) (r : LampRaise), s.br.raises.find? (fun x => x.cmd == cmd && x.out == o.toNat) = some r ∧
      r.sentFor = some n ∧ n + s.specHold ≤ s.gt / 65536 + 1) ∧
    (∃ (m : List Byte) (s : State), s.pwr.pilotOn = true ∧ s.rd F.BR_STAT_LINK 0 0 = 2 ∧ s.br.outst = [] ∧ brGood m = true ∧ leAt m 1 1 = 0x83) ∧
    (∃ (o : BitVec 7) (s : State) (l : LampOut), s.br.lamps.find? (fun x => x.out == o.toNat) = some l ∧ s.br.arbOn = true ∧ l.acked = false ∧
      l.cycle + 2 ≤ s.gt / 65536) ∧
    (∃ (m : List Byte) (s : State), s.pwr.pilotOn = true ∧ s.rd F.BR_STAT_LINK 0 0 = 2 ∧ s.br.outst = [] ∧ brGood m = true ∧ leAt m 1 1 = 0x86 ∧
      bitOf (leAt m 5 1) 1 = false) :=
  ⟨⟨31, 0, { RF with br := { RF.br with points := [(31, 0)] } }, by decide +kernel⟩,
   ⟨0, 0, { RF.wr F.BR_SP_PERIOD 0 0 1 with gt := 65536, br := { RF.br with points := [(0, 0)] } }, by decide +kernel⟩,
   ⟨.pilot, 1, R.wr F.BR_SP_SEL 0 0 31, by decide +kernel⟩,
   ⟨.host, 1, R, by decide +kernel⟩,
   ⟨4, { RF with gt := 5, br := { RF.br with zones := [{ id := 4, out := 112, level := 1000, ramp := 0, start := 5, stop := 6 }] } }, { id := 4, out := 112, level := 1000, ramp := 0, start := 5, stop := 6 },
     by decide +kernel⟩,
   ⟨4, { RF with gt := 6, br := { RF.br with zones := [{ id := 4, out := 112, level := 1000, ramp := 0, start := 5, stop := 6, isOpen := true }] } },
     { id := 4, out := 112, level := 1000, ramp := 0, start := 5, stop := 6, isOpen := true }, by decide +kernel⟩,
   ⟨9, { RF with gt := 9, br := { RF.br with bootEnd := some 9, reqs := [{ key := .boot, out := 0, level := 5, ramp := 0 }] } }, by decide +kernel⟩,
   ⟨3, 1, 80, { RF with gt := 65536000, br := { RF.br with raises := [{ cmd := 3, key := .ctx 1, out := 80, level := 9, ramp := 0, sentFor := some 1 }] } },
     { cmd := 3, key := .ctx 1, out := 80, level := 9, ramp := 0, sentFor := some 1 }, by decide +kernel⟩,
   ⟨msg 0x83 [(0, 2, 4), (2, 1, 112)], { UP with br := { UP.br with lamps := [{ out := 112, level := 9, ramp := 0, spec := false, num := some 4 }] } },
     by decide +kernel⟩,
   ⟨112, { UP with gt := 131072, br := { UP.br with arbOn := true, lamps := [{ out := 112, level := 9, ramp := 0, spec := false, num := some 4 }] } },
     { out := 112, level := 9, ramp := 0, spec := false, num := some 4 }, by decide +kernel⟩,
   ⟨msg 0x86 [(0, 1, 2)], UP, by decide +kernel⟩⟩

/-- What each clause of `BarrierBlock` assumes holds together of some state and operands. -/
theorem witnesses_BarrierBlock :
    (∃ (m : List Byte) (s : State), s.pwr.pilotOn = true ∧ s.pwr.mainOn = true ∧ s.rd F.BR_STAT_LINK 0 0 = 2 ∧ s.br.outst = [] ∧ s.br.rxq.length < 64
      ∧ brGood m = true ∧ leAt m 1 1 = 0x87) ∧
    (∃ (m : List Byte) (s : State), s.pwr.pilotOn = true ∧ s.pwr.mainOn = true ∧ s.rd F.BR_STAT_LINK 0 0 = 2 ∧ s.br.outst = [] ∧ s.br.rxq.length < 64
      ∧ brGood m = true ∧ leAt m 1 1 = 0x85) ∧
    (∃ (m : List Byte) (s : State), s.pwr.pilotOn = true ∧ s.rd F.BR_STAT_LINK 0 0 = 2 ∧ s.br.outst = [] ∧ brGood m = true ∧ leAt m 1 1 = 0x84 ∧
      s.br.dqTags.contains (leAt m 4 1) = true) ∧
    (∃ (m : List Byte) (s : State), s.pwr.pilotOn = true ∧ s.rd F.BR_STAT_LINK 0 0 = 2 ∧ brGood m = true ∧ brKnown (leAt m 1 1) = false) ∧
    (∃ (s : State) (m : BrMsg), s.rd F.BR_STAT_LINK 0 0 = 2 ∧ m ∈ s.br.outst ∧ m.sentAt + s.rd F.BR_CFG_RETX_US 0 0 * 1000 ≤ s.now) ∧
    (∃ (lat : BitVec 16) (s : State), s.rd F.BR_STAT_LINK 0 0 = 1 ∧ s.pwr.pilotOn = true ∧ s.fs.on = true ∧ lat.toNat ≤ 9000) ∧
    (∃ (s : State), s.rd F.BR_STAT_LINK 0 0 ≠ 0) ∧
    (∃ (src : Src) (v : Word) (s : State), s.live 0x090 = true ∧ brTrusted src = true ∧ v.toNat % 2 = 1 ∧ s.rd F.BR_STAT_LINK 0 0 = 2 ∧ s.pwr.pilotOn
      = true ∧ s.br.txq = [] ∧ s.br.outst = []) ∧
    (∃ (src : Src) (v : Word) (s : State), s.live 0x090 = true ∧ brTrusted src = true ∧ v.toNat % 2 = 1 ∧ s.rd F.BR_STAT_LINK 0 0 ≠ 2 ∧
      s.br.txq.length < 32) ∧
    (∃ (src : Src) (v : Word) (s : State), s.live 0x090 = true ∧ brTrusted src = false) ∧
    (∃ (v : Word) (s : State), s.live 0x090 = true ∧ v.toNat % 2 = 1) ∧
    (∃ (v : Word) (s : State), s.live 0x090 = true ∧ v.toNat % 2 = 1 ∧ s.br.dqTags.length < 4) ∧
    (∃ (s : State), s.pwr.pilotOn = true ∧ (s.fwRun = true ∨ (s.pwr.mainOn = false ∧ s.rdB F.BR_CTRL_PILOT_HB 0 0 = true)) ∧ s.rd F.BR_STAT_LINK 0 0
      = 2 ∧ s.br.txq.length < 32) :=
  ⟨⟨msg 0x87 [(0, 1, 3)], UP, by decide +kernel⟩,
   ⟨msg 0x85 [(1, 1, 1)], UP.wr F.PL_WAKE_EN 0 0 15, by decide +kernel⟩,
   ⟨msg 0x84 [(0, 1, 9)], { UP with br := { UP.br with dqTags := [9] } }, by decide +kernel⟩,
   ⟨msg 0x88 [], UP, by decide +kernel⟩,
   ⟨{ UP with now := 100000000, br := { UP.br with outst := [{ num := 4, sentAt := 0, bytes := msg 3 [] }] } }, { num := 4, sentAt := 0, bytes := msg 3 [] },
     by decide +kernel⟩,
   ⟨9000, UP.wr F.BR_STAT_LINK 0 0 1, by decide +kernel⟩,
   ⟨UP, by decide +kernel⟩,
   ⟨.sous, 1, UP, by decide +kernel⟩,
   ⟨.sous, 0xFFFFFFFF, R, by decide +kernel⟩,
   ⟨.command, 1, UP, by decide +kernel⟩,
   ⟨1, { UP with br := { UP.br with rxq := [msg 0x87 []] } }, by decide +kernel⟩,
   ⟨1, { UP with br := { UP.br with dqTags := [3], dqTag := 255 } }, by decide +kernel⟩,
   ⟨UP, by decide +kernel⟩⟩

/-- What each clause of `BadBarrierMessagesAreDiscarded` assumes holds together of some state and operands. -/
theorem witnesses_BadBarrierMessagesAreDiscarded :
    (∃ (m : List Byte) (s : State) (c : Instr), c ∈ [Instr.zcStamp m, .mainsStat m, .levelAck m, .daliReply m, .ioStat m, .fsHeartbeat m, .fsFault m,
      .rxUnknown m] ∧ s.pwr.pilotOn = true ∧ s.rd F.BR_STAT_LINK 0 0 = 2 ∧ brGood m = false) ∧
    (∃ (m : List Byte) (status : Fin 3) (data : List Byte) (s : State) (c : Instr), c ∈ [Instr.levelSet m, .daliQuery m status data, .nsHeartbeat m,
      .failsafeCfg m] ∧ s.fs.on = true ∧ brGood m = false) ∧
    (∃ (m : List Byte) (s : State), s.fs.on = true ∧ brGood m = false ∧ bitOf (leAt m 4 2) 0 = true) ∧
    (∃ (m : List Byte) (s : State), s.fs.on = true ∧ brGood m = false ∧ bitOf (leAt m 4 2) 0 = false ∧ bitOf (leAt m 4 2) 1 = false) ∧
    (∃ (m : List Byte) (s : State), s.fs.on = true ∧ brGood m = false ∧ bitOf (leAt m 4 2) 0 = false ∧ bitOf (leAt m 4 2) 1 = true) ∧
    (∃ (m : List Byte) (s : State), s.fs.on = true ∧ brGood m = false ∧ (leAt m 1 1 < 1 ∨ 5 < leAt m 1 1)) :=
  ⟨⟨badMsg 0x83 [], UP, Instr.levelAck (badMsg 0x83 []), by decide +kernel⟩,
   ⟨badMsg 1 [], 0, [], UP, Instr.levelSet (badMsg 1 []), by decide +kernel⟩,
   ⟨badMsg 5 [(0, 2, 1)], UP, by decide +kernel⟩,
   ⟨badMsg 5 [], UP, by decide +kernel⟩,
   ⟨badMsg 5 [(0, 2, 2)], UP, by decide +kernel⟩,
   ⟨badMsg 6 [], UP, by decide +kernel⟩⟩

/-- What each clause of `FarsideIsConfined` assumes holds together of some state and operands. -/
theorem witnesses_FarsideIsConfined :
    (∃ (m : List Byte) (status : Fin 3) (data : List Byte) (s : State) (c : Instr), c ∈ [Instr.levelSet m, .daliQuery m status data, .nsHeartbeat m,
      .failsafeCfg m, .paramWriteStart m, .paramWriteChunk m, .paramCommit m, .unknownType m]) ∧
    (∃ (period : BitVec 16) (age : BitVec 16) (rms : BitVec 16) (freq : BitVec 16) (o : Fin 81) (delayed : Bool) (v : BitVec 2) (s : State) (c :
      Instr), c ∈ [Instr.fsPowerup, .fsVinLow, .fsVinStop, .zeroCrossing period age rms freq, .flywheelCrossing, .mainsFlagChange period rms freq,
      .brownoutWarn, .dapcStep o delayed, .daliBusFail, .daliBusRecover, .daliCollision, .fieldInputChange v, .relayCoilFault]) :=
  ⟨⟨msg 1 [], 0, [], UP, Instr.levelSet (msg 1 []), by decide +kernel⟩,
   ⟨0, 0, 0, 0, 80, true, 3, UP, Instr.fsPowerup, by decide +kernel⟩⟩

/-- What each clause of `FarsideMessages` assumes holds together of some state and operands. -/
theorem witnesses_FarsideMessages :
    (∃ (m : List Byte) (s : State), s.fs.on = true ∧ brGood m = true ∧ leAt m 1 1 = 1 ∧ s.fs.expect.getD (leAt m 2 2) = leAt m 2 2 ∧ s.outEnabled
      (leAt m 4 1) = true ∧ leAt m 6 2 ≤ 1000) ∧
    (∃ (m : List Byte) (s : State), s.fs.on = true ∧ brGood m = true ∧ leAt m 1 1 = 1 ∧ s.fs.expect.getD (leAt m 2 2) = leAt m 2 2 ∧ (s.outEnabled
      (leAt m 4 1) = false ∨ 1000 < leAt m 6 2)) ∧
    (∃ (m : List Byte) (status : Fin 3) (data : List Byte) (s : State), s.fs.on = true ∧ brGood m = true ∧ leAt m 1 1 = 2 ∧ s.fs.expect.getD (leAt m
      2 2) = leAt m 2 2 ∧ dqRefused m = true) ∧
    (∃ (m : List Byte) (status : Fin 3) (data : List Byte) (s : State), s.fs.on = true ∧ brGood m = true ∧ leAt m 1 1 = 2 ∧ s.fs.expect.getD (leAt m
      2 2) = leAt m 2 2 ∧ dqRefused m = false ∧ s.fs.busFail = false ∧ leAt m 5 1 ≠ 3 ∧ bitOf (leAt m 11 1) 7 = false) ∧
    (∃ (m : List Byte) (s : State), s.fs.on = true ∧ brGood m = true ∧ leAt m 1 1 = 3 ∧ (bitOf (leAt m 4 1) 0 = true ∨ s.fs.expect.getD (leAt m 2 2)
      = leAt m 2 2)) ∧
    (∃ (m : List Byte) (s : State), s.fs.on = true ∧ brGood m = true ∧ leAt m 1 1 = 4 ∧ s.fs.expect.getD (leAt m 2 2) = leAt m 2 2) ∧
    (∃ (m : List Byte) (s : State), s.fs.on = true ∧ brGood m = true ∧ leAt m 1 1 = 5 ∧ s.fs.expect.getD (leAt m 2 2) = leAt m 2 2 ∧ bitOf (leAt m 4
      2) 0 = true ∧ bitOf (leAt m 4 2) 1 = false) ∧
    (∃ (m : List Byte) (s : State), s.fs.on = true ∧ brGood m = true ∧ leAt m 1 1 = 5 ∧ s.fs.expect.getD (leAt m 2 2) = leAt m 2 2 ∧ bitOf (leAt m 4
      2) 0 = false ∧ bitOf (leAt m 4 2) 1 = false ∧ s.fs.staging ≠ []) ∧
    (∃ (m : List Byte) (b : List Byte) (s : State), s.fs.on = true ∧ brGood m = true ∧ leAt m 1 1 = 5 ∧ s.fs.expect.getD (leAt m 2 2) = leAt m 2 2 ∧
      bitOf (leAt m 4 2) 0 = false ∧ bitOf (leAt m 4 2) 1 = true ∧ (s.fsParamChunk m).fs.staging = b ∧ leAt b 0 4 = 0x42505346 ∧ s.fsField 4 4 0 ≤
      leAt b 4 4 ∧ paramInRange b = true) ∧
    (∃ (m : List Byte) (s : State), s.fs.on = true ∧ brGood m = true ∧ (leAt m 1 1 = 0 ∨ 5 < leAt m 1 1) ∧ s.fs.expect.getD (leAt m 2 2) = leAt m 2
      2) :=
  ⟨⟨msg 1 [(0, 1, 112), (2, 2, 1000), (4, 2, 65535)], UP, by decide +kernel⟩,
   ⟨msg 1 [(0, 1, 113)], UP, by decide +kernel⟩,
   ⟨msg 2 [(0, 1, 255)], 2, [], UP, by decide +kernel⟩,
   ⟨msg 2 [(0, 1, 255), (1, 1, 1), (2, 1, 0xA3)], 2, [], UP, by decide +kernel⟩,
   ⟨msg 3 [(0, 1, 3)], { UP with fs := { UP.fs with expect := some 9, failsafe := true } }, by decide +kernel⟩,
   ⟨msg 4 [(0, 1, 0xFF), (1, 2, 10), (3, 2, 2)], UP, by decide +kernel⟩,
   ⟨msg 5 [(0, 2, 0x3F9), (2, 4, 0xABCD)], UP, by decide +kernel⟩,
   ⟨msg 5 [(0, 2, 0x3F8), (2, 4, 0xABCD)], { UP with fs := { UP.fs with staging := pblk } }, by decide +kernel⟩,
   ⟨msg 5 [(0, 2, 2), (2, 4, 0x42505346), (6, 4, 6)], pblk, { UP with fs := { UP.fs with staging := pblk } }, by decide +kernel⟩,
   ⟨msg 6 [], UP, by decide +kernel⟩⟩

/-- What each clause of `FarsidePowerAndCrossings` assumes holds together of some state and operands. -/
theorem witnesses_FarsidePowerAndCrossings :
    (∃ (s : State), s.fs.on = false) ∧
    (∃ (s : State), s.fs.on = true ∧ s.fs.vinLow = false) ∧
    (∃ (s : State), s.fs.on = true) ∧
    (∃ (period : BitVec 16) (age : BitVec 16) (rms : BitVec 16) (freq : BitVec 16) (s : State), s.fs.on = true) ∧
    (∃ (s : State), s.fs.on = true) ∧
    (∃ (half : BitVec 16) (rms : BitVec 16) (freq : BitVec 16) (s : State), s.fs.on = true) ∧
    (∃ (s : State), s.fs.on = true ∧ bitOf s.fs.flags 4 = false) ∧
    (∃ (o : Fin 81) (delayed : Bool) (s : State), s.fs.on = true ∧ s.fs.busFail = false ∧ s.outEnabled o = true ∧ (s.fsOut o).steps + 1 = max 1
      (ceilDiv (s.fsOut o).ramp (s.fsField 0x3C 1 40)) ∧ (s.fsOut o).t0 + (s.fsOut o).steps * s.fsField 0x3C 1 40 * 1000000 ≤ s.now) ∧
    (∃ (s : State), s.fs.on = true ∧ s.fs.busFail = false) ∧
    (∃ (s : State), s.fs.on = true ∧ s.fs.busFail = true) ∧
    (∃ (s : State), s.fs.on = true) ∧
    (∃ (v : BitVec 2) (s : State), s.fs.on = true ∧ v.toNat ^^^ (s.fsField 0x3A 1 0 % 4) ≠ s.fs.inputs) ∧
    (∃ (s : State), s.fs.on = true ∧ s.fs.coilFault = false) :=
  ⟨⟨R, by decide +kernel⟩,
   ⟨UP, by decide +kernel⟩,
   ⟨UP, by decide +kernel⟩,
   ⟨10000, 0, 230, 50, UP, by decide +kernel⟩,
   ⟨UP, by decide +kernel⟩,
   ⟨10000, 230, 50, UP, by decide +kernel⟩,
   ⟨UP, by decide +kernel⟩,
   ⟨80, false, UP, by decide +kernel⟩,
   ⟨UP, by decide +kernel⟩,
   ⟨{ UP with fs := { UP.fs with busFail := true } }, by decide +kernel⟩,
   ⟨UP, by decide +kernel⟩,
   ⟨3, UP, by decide +kernel⟩,
   ⟨UP, by decide +kernel⟩⟩

/-- What each clause of `FramesOfAStream` assumes holds together of some state and operands. -/
theorem witnesses_FramesOfAStream :
    (∃ (port : Fin 16) (vc : Fin 4) (s : State), s.portOn port = true ∧ s.rdB F.CSI_STR_CTRL_EN port vc = true ∧ s.openFrame (port.val * 4 + vc.val)
      = none ∧ s.groupOf (port.val * 4 + vc.val) = none ∧ (∀ c ∈ s.sch.cmds, c.desc.opcode ≠ 7)) ∧
    (∃ (port : Fin 16) (vc : Fin 4) (vcx : Bool) (s : State), s.portOn port = true) ∧
    (∃ (port : Fin 16) (vc : Fin 4) (vcx : Bool) (s : State), s.portOn port = true ∧ (vcx = true ∨ s.rdB F.CSI_STR_CTRL_EN port vc = false)) ∧
    (∃ (port : Fin 16) (vc : Fin 4) (s : State) (f : Frame), s.portOn port = true ∧ s.rdB F.CSI_STR_CTRL_EN port vc = true ∧ s.openFrame (port.val *
      4 + vc.val) = some f ∧ s.frame f.id = some f ∧ f.delivered = false) ∧
    (∃ (port : Fin 16) (k : Packet) (s : State) (f : Frame), s.portOn port = true ∧ k.sot = false ∧ k.hdr = 0 ∧ k.vcx = false ∧ k.crcOk = true ∧
      s.rdB F.CSI_STR_CTRL_EN port k.vc = true ∧ k.payload.length ≤ s.rd F.CSI_STR_MAX_WC port k.vc ∧ k.dt ≠ 0x12 ∧ k.dt.toNat = s.rd
      F.CSI_STR_CTRL_DT port k.vc ∧ k.payload.length = lineBytes (s.rd F.CSI_STR_CTRL_DT port k.vc) (s.rd F.CSI_STR_GEOM_WIDTH port k.vc) ∧
      s.openFrame (port.val * 4 + k.vc.val) = some f ∧ s.frame f.id = some f ∧ f.linesRx < f.lines ∧ f.buf.isSome = true ∧ f.dropping = false ∧
      f.stored < s.rd F.CSI_BUF_LINES port k.vc) ∧
    (∃ (port : Fin 16) (k : Packet) (s : State), s.portOn port = true ∧ k.sot = true) ∧
    (∃ (fr : BitVec 32) (s : State) (x : Frame), s.frame fr.toNat = some x ∧ x.standing = 0 ∧ x.deadline ≤ s.gt ∧ (x.deadline < s.gt ∨ x.isOpen =
      true ∨ x.delivered = false ∨ x.ageGt ≤ s.gt)) ∧
    (∃ (fr : BitVec 32) (s : State) (x : Frame), s.frame fr.toNat = some x ∧ x.standing = 0 ∧ x.isOpen = false ∧ x.delivered = true ∧ s.gt < x.ageGt
      ∧ s.gt ≤ x.deadline ∧ s.sch.cmds.all (fun c => !(c.phase == .prov) && !(c.desc.opcode == 7)) = true) ∧
    (∃ (fr : BitVec 32) (s : State) (x : Frame), s.frame fr.toNat = some x ∧ x.ageGt ≤ s.gt ∧ x.standing = 0 ∧ s.sv.ctxs.all (fun y =>
      !(y.wait.contains fr.toNat || y.run.any (fun r => r.frame == fr.toNat))) = true ∧ s.tbufs.all (fun b => !(b.write && b.frame == fr.toNat)) =
      true ∧ s.md.notifies = []) ∧
    (∃ (s : State) (f : Nat) (rest : List Nat), s.cam.retractQ = f :: rest ∧ s.sv.ctxs.all (fun y => !(y.wait.contains f || y.run.any (fun r =>
      r.frame == f))) = true ∧ (∀ q < 4, s.rdB F.MD_JQ_CFG_EN 0 q = false) ∧ s.md.notifies = [] ∧ s.sch.cmds.all (fun c => !s.holdsFrame c f) = true) :=
  ⟨⟨15, 3, S63, by decide +kernel⟩,
   ⟨15, 3, true, P15, by decide +kernel⟩,
   ⟨15, 3, true, S63, by decide +kernel⟩,
   ⟨15, 3, cam1 S63 frO, frO, by decide +kernel⟩,
   ⟨15, { vc := 3, dt := 0x2A, vcx := false, hdr := 0, sot := false, crcOk := true, payload := List.replicate 8 7#8 }, cam1 S63 frO, frO,
     by decide +kernel⟩,
   ⟨15, { vc := 3, dt := 0x2A, vcx := false, hdr := 2, sot := true, crcOk := true, payload := [] }, P15, by decide +kernel⟩,
   ⟨5, { cam1 RF frO with gt := 9 }, frO, by decide +kernel⟩,
   ⟨5, cam1 RF { frO with isOpen := false, delivered := true }, { frO with isOpen := false, delivered := true }, by decide +kernel⟩,
   ⟨5, { cam1 RF frO with gt := 9 }, frO, by decide +kernel⟩,
   ⟨{ cam1 RF { frO with standing := 2 } with cam := { RF.cam with frames := [{ frO with standing := 2 }], retractQ := [5] } }, 5, [],
     by decide +kernel⟩⟩

/-- What each clause of `DomainsStreamsAndHolds` assumes holds together of some state and operands. -/
theorem witnesses_DomainsStreamsAndHolds :
    (∃ (v : Word) (s : State), s.live 0x006 = true ∧ v.toNat % 2 = 1 ∧ s.rdB F.SPC_DOM_CFG_EN 0 (s.rd F.SPC_DOM_SEL 0 0) = false) ∧
    (∃ (v : Word) (s : State), s.live 0x006 = true ∧ v.toNat % 2 = 0 ∧ s.rdB F.SPC_DOM_CFG_EN 0 (s.rd F.SPC_DOM_SEL 0 0) = true) ∧
    (∃ (port : Fin 16) (vc : Fin 4) (v : Word) (s : State), s.live (0x060 + port) = true ∧ s.rdB F.CSI_STR_CTRL_EN port vc = false ∧ v.toNat % 2 = 1
      ∧ (s.strCtrl port vc v.toNat).streamOk port vc = true) ∧
    (∃ (port : Fin 16) (vc : Fin 4) (v : Word) (s : State), s.live (0x060 + port) = true ∧ s.rdB F.CSI_STR_CTRL_EN port vc = false ∧ v.toNat % 2 = 1
      ∧ (s.strCtrl port vc v.toNat).streamOk port vc = false) ∧
    (∃ (port : Fin 16) (vc : Fin 4) (v : Word) (s : State), s.live (0x060 + port) = true ∧ s.rdB F.CSI_STR_CTRL_EN port vc = true ∧ v.toNat % 2 = 0) ∧
    (∃ (port : Fin 16) (v : Word) (s : State), s.live (0x060 + port) = true ∧ v.toNat / 2 ^ 28 = port) ∧
    (∃ (g : Fin 4) (s : State) (w : AgWin), s.cam.wins.find? (fun x => x.group == g.val) = some w ∧ w.openGt + s.rd F.AG_CFG_TOL 0 g ≤ s.gt ∧ s.rd
      F.AG_CFG_POLICY 0 g = 0 ∧ s.winFull w = false) :=
  ⟨⟨1, RF, by decide +kernel⟩,
   ⟨0, (R.wr F.SPC_DOM_CFG_EN 0 15 1).wr F.SPC_DOM_SEL 0 0 15, by decide +kernel⟩,
   ⟨15, 3, 0xA9, (((R.wr F.CSI_STR_GEOM_WIDTH 15 3 64).wr F.CSI_LINE_PITCH 15 3 64).wr F.CSI_BUF_LINES 15 3 64).wr F.CSI_POOL_CFG_BUF_KIB 15 0 5,
     by decide +kernel⟩,
   ⟨15, 3, 0xA9, (((R.wr F.CSI_STR_GEOM_WIDTH 15 3 64).wr F.CSI_LINE_PITCH 15 3 64).wr F.CSI_BUF_LINES 15 3 64).wr F.CSI_POOL_CFG_BUF_KIB 15 0 4,
     by decide +kernel⟩,
   ⟨15, 3, 0, S63, by decide +kernel⟩,
   ⟨15, 0xF0000005, { R with cam := { R.cam with holds := [{ frame := 0xF0000005, cmd := 3, ctx := 1 }] } }, by decide +kernel⟩,
   ⟨3, { (((R.wr F.AG_CFG_EN 0 3 1).wr F.AG_MEMBERS 0 3 3).wr F.AG_CFG_TOL 0 3 9).wr F.AG_CFG_POLICY 0 3 0 with gt := 9, cam := { R.cam with frames := [frame1], wins := [{ group := 3, openGt := 0, frames := [(0, 5)] }] } },
     { group := 3, openGt := 0, frames := [(0, 5)] }, by decide +kernel⟩⟩

/-- What each clause of `SensorBundles` assumes holds together of some state and operands. -/
theorem witnesses_SensorBundles :
    (∃ (c : Fin 8) (v : Word) (s : State) (h : List Byte) (es : List Byte), s.live 0x0B8 = true ∧ ((s.ctrl c).queue.filter (fun b =>
      !b.started)).length < 16 ∧ s.fetch (s.rd F.SC_PUSH_LO 0 c + v.toNat % 65536 * 2 ^ 32) 32 = some h ∧ s.bundleOk c h = true ∧ s.fetch (s.rd
      F.SC_PUSH_LO 0 c + v.toNat % 65536 * 2 ^ 32 + 32) (8 * leAt h 1 1) = some es ∧ (List.range (leAt h 1 1)).all (fun i => entryOk (es.drop (8 *
      i))) = true) ∧
    (∃ (c : Fin 8) (v : Word) (s : State), s.live 0x0B8 = true ∧ ((s.ctrl c).queue.filter (fun b => !b.started)).length < 16 ∧ s.fetch (s.rd
      F.SC_PUSH_LO 0 c + v.toNat % 65536 * 2 ^ 32) 32 = none) ∧
    (∃ (c : Fin 8) (v : Word) (s : State), s.live 0x0B8 = true ∧ 16 ≤ ((s.ctrl c).queue.filter (fun b => !b.started)).length) ∧
    (∃ (c : Fin 8) (s : State), s.live 0x0B8 = true) ∧
    (∃ (c : Fin 8) (s : State) (y : Bundle × Nat), s.pageOn 0x0B8 = true ∧ s.inReset 0x0B8 = false ∧ s.rd F.SC_CFG_MODE 0 c ≠ 0 ∧ s.rd F.SC_CFG_MODE
      0 c ≠ 3 ∧ (s.ctrl c).queue.all (fun b => !b.started) = true ∧ leastPair (fun (z : Bundle × Nat) => (z.1.due, z.2)) (((s.ctrl c).queue.zip
      (List.range (s.ctrl c).queue.length)).filter (fun z => s.bundleDue z.1)) = some y) ∧
    (∃ (c : Fin 8) (s : State) (b : Bundle), (s.ctrl c).queue.find? (fun x => x.started) = some b ∧ b.whenK = 1) ∧
    (∃ (c : Fin 8) (i : Fin 32) (s : State) (b : Bundle), (s.ctrl c).queue.find? (fun x => x.started && decide (i.val < x.nwr)) = some b) ∧
    (∃ (c : Fin 8) (addr : BitVec 7) (payload : List Byte) (s : State), s.pageOn 0x0B8 = true ∧ s.inReset 0x0B8 = false ∧ s.rd F.SC_CFG_MODE 0 c = 2
      ∧ s.cam.ibi.length < 16) ∧
    (∃ (c : Fin 8) (addr : BitVec 7) (payload : List Byte) (s : State), s.pageOn 0x0B8 = true ∧ s.inReset 0x0B8 = false ∧ s.rd F.SC_CFG_MODE 0 c = 2
      ∧ 16 ≤ s.cam.ibi.length) :=
  ⟨⟨7, 0, atMem ((R.wr F.SC_PROF_CTRL 0 0 7).wr F.SC_PUSH_LO 0 7 0x10000000) 0 (image 64 [(1, 1, 1), (33, 1, 4)]), image 32 [(1, 1, 1)], image 8 [(1,
     1, 4)], by decide +kernel⟩,
   ⟨7, 0xFFFF, R, by decide +kernel⟩,
   ⟨7, 0x10, (R.setCtrl { num := 7, queue := List.replicate 16 bun1 }), by decide +kernel⟩,
   ⟨7, (R.setCtrl { num := 7, queue := List.replicate 16 bun1 }), by decide +kernel⟩,
   ⟨7, (R.setCtrl { num := 7, queue := List.replicate 16 bun1 }).wr F.SC_CFG_MODE 0 7 2, (bun1, 0), by decide +kernel⟩,
   ⟨7, (R.setCtrl { num := 7, queue := [{ bun1 with started := true }] }).wr F.SC_CFG_MODE 0 7 1, { bun1 with started := true }, by decide +kernel⟩,
   ⟨7, 31, (R.setCtrl { num := 7, queue := [{ bun1 with started := true }] }).wr F.SC_CFG_MODE 0 7 1, { bun1 with started := true },
     by decide +kernel⟩,
   ⟨7, 0x7F, [1#8, 2#8, 3#8, 4#8, 5#8], R.wr F.SC_CFG_MODE 0 7 2, by decide +kernel⟩,
   ⟨7, 0x7F, [], { R.wr F.SC_CFG_MODE 0 7 2 with cam := { R.cam with ibi := List.replicate 16 (0, [], 0) } }, by decide +kernel⟩⟩

/-- What each clause of `SieveStripesAndBuffers` assumes holds together of some state and operands. -/
theorem witnesses_SieveStripesAndBuffers :
    (∃ (v : Fin 2) (s : State) (x : SvCtx) (f : Frame), s.pageOn (svPage v) = true ∧ s.inReset (svPage v) = false ∧ s.rdB F.SV_CTRL_EN v 0 = true ∧
      s.rdB F.SV_CTRL_HALT v 0 = false ∧ (s.svInst v).running = none ∧ s.md.notifies = [] ∧ leastPair (fun (y : SvCtx × Frame) => (y.2.capGt,
      y.1.num)) (s.svScan.sv.ctxs.filterMap (fun z => (s.svScan.stripeReady v z).map (fun g => (z, g)))) = some (x, f) ∧ (x.run.isSome = true ∨ s.gt
      < f.ageGt)) ∧
    (∃ (v : Fin 2) (c : Nat) (k : Nat) (s : State) (f : Frame), (s.svInst v).running = some c ∧ (s.svCtx v c).next.bind (fun n => (s.frame n.1).map
      (fun g => (g, n.2))) = some (f, k) ∧ 0 < s.unstored v c k f ∧ (s.svInst v).startGt + s.rd F.SV_CFG_STALL_MAX v 0 < s.gt) ∧
    (∃ (v : Fin 2) (c : Nat) (s : State) (r : SvRun) (f : Frame), (s.svInst v).running = some c ∧ (s.svCtx v c).run = some r ∧ s.frame r.frame = some
      f ∧ s.unstored v c r.stripe f = 0 ∧ (s.stripeRows v c r.stripe).2.1 ≠ s.svH v c) ∧
    (∃ (v : Fin 2) (w : Word) (s : State), s.live (svPage v) = true) ∧
    (∃ (v : Fin 2) (w : Word) (s : State), s.live (svPage v) = true) ∧
    (∃ (v : Fin 2) (w : Word) (c : Nat) (s : State) (u : State), s.live (svPage v) = true ∧ s.rd F.SV_CTX_SEL v 0 = c ∧ s.rdB F.SV_CTX_CFG_EN v c =
      false ∧ w.toNat % 2 = 1 ∧ s.md.notifies = [] ∧ u = (s.lockCheck (svPage v) F.SV_CTX_CFG_EN.ofs w.toNat).svCfg v c w.toNat ∧ u.streamFree v c =
      true ∧ u.saveOk v c = true ∧ (u.goodParams v c (u.rd F.SV_PB_NEXT_LO v c + u.rd F.SV_PB_NEXT_HI v c * 2 ^ 32)).isSome = true) ∧
    (∃ (v : Fin 2) (w : Word) (c : Nat) (s : State) (u : State), s.live (svPage v) = true ∧ s.rd F.SV_CTX_SEL v 0 = c ∧ s.rdB F.SV_CTX_CFG_EN v c =
      false ∧ w.toNat % 2 = 1 ∧ s.md.notifies = [] ∧ u = (s.lockCheck (svPage v) F.SV_CTX_CFG_EN.ofs w.toNat).svCfg v c w.toNat ∧ (u.streamFree v c =
      false ∨ u.saveOk v c = false)) ∧
    (∃ (v : Fin 2) (w : Word) (c : Nat) (s : State), s.live (svPage v) = true ∧ s.rd F.SV_CTX_SEL v 0 = c ∧ s.rdB F.SV_CTX_CFG_EN v c = true ∧
      w.toNat % 2 = 0 ∧ s.md.notifies = [] ∧ (s.svCtx v c).run = none ∧ (s.svCtx v c).wait = []) :=
  ⟨⟨1, withSv SV { frO with isOpen := false } svx { num := 1 }, { svx with readyAt := some 0 }, { frO with isOpen := false }, by decide +kernel⟩,
   ⟨1, 63, 0, { (withSv ((SV.wr F.CSI_STR_GEOM_LINES 0 0 9).wr F.SV_CFG_STALL_MAX 1 0 9) frO svx { num := 1, running := some 63 }) with gt := 10 },
     frO, by decide +kernel⟩,
   ⟨1, 63, withSv ((SV.wr F.CSI_STR_GEOM_LINES 0 0 128).wr F.SV_CTX_CFG_STRIPE_LINES 1 63 64) { frO with linesRx := 68 } svx { num := 1, running := some 63 },
     { frame := 5 }, { frO with linesRx := 68 }, by decide +kernel⟩,
   ⟨1, 0x23F, { RF with sv := { RF.sv with bufs := [svb] } }, by decide +kernel⟩,
   ⟨1, 0xFFFFFFFF, RF, by decide +kernel⟩,
   ⟨1, 1, 63, (memP.wr F.SV_PB_NEXT_LO 1 63 0x10000000).wr F.SV_CTX_SEL 1 0 63, (((memP.wr F.SV_PB_NEXT_LO 1 63 0x10000000).wr F.SV_CTX_SEL 1 0
     63).lockCheck 0x071 F.SV_CTX_CFG_EN.ofs 1).svCfg 1 63 1, by decide +kernel⟩,
   ⟨1, 0x4001, 63, RF.wr F.SV_CTX_SEL 1 0 63, ((RF.wr F.SV_CTX_SEL 1 0 63).lockCheck 0x071 F.SV_CTX_CFG_EN.ofs 0x4001).svCfg 1 63 0x4001,
     by decide +kernel⟩,
   ⟨1, 0, 63, SV.wr F.SV_CTX_SEL 1 0 63, by decide +kernel⟩⟩

/-- What each clause of `MandolineProgramsAndJobs` assumes holds together of some state and operands. -/
theorem witnesses_MandolineProgramsAndJobs :
    (∃ (p : Fin 16) (v : Word) (s : State) (u : State) (g : MdProg), s.live 0x078 = true ∧ s.rdB F.MD_PG_CTRL_EN 0 p = false ∧ v.toNat % 2 = 1 ∧
      s.md.notifies = [] ∧ u = ((((((s.lockWord F.MD_PG_CTRL_EN 0 p v.toNat).wr F.MD_PG_CTRL_SIEVE 0 p (bitsOf v.toNat 1 1)).wr F.MD_PG_CTRL_CTX 0 p
      (bitsOf v.toNat 2 6)).wr F.MD_PG_CTRL_OUT 0 p (bitsOf v.toNat 8 2)).wr F.MD_PG_CTRL_NOTIFY_MODE 0 p (bitsOf v.toNat 10 2)).wr F.MD_PG_CTRL_STEP
      0 p (bitsOf v.toNat 12 4)).wr F.MD_PG_CTRL_ORIGIN 0 p (bitsOf v.toNat 16 16) ∧ u.pgCheck p = .inl g) ∧
    (∃ (p : Fin 16) (v : Word) (s : State) (u : State) (g : MdProg) (e : Nat), s.live 0x078 = true ∧ s.rdB F.MD_PG_CTRL_EN 0 p = false ∧ v.toNat % 2
      = 1 ∧ s.md.notifies = [] ∧ u = ((((((s.lockWord F.MD_PG_CTRL_EN 0 p v.toNat).wr F.MD_PG_CTRL_SIEVE 0 p (bitsOf v.toNat 1 1)).wr
      F.MD_PG_CTRL_CTX 0 p (bitsOf v.toNat 2 6)).wr F.MD_PG_CTRL_OUT 0 p (bitsOf v.toNat 8 2)).wr F.MD_PG_CTRL_NOTIFY_MODE 0 p (bitsOf v.toNat 10
      2)).wr F.MD_PG_CTRL_STEP 0 p (bitsOf v.toNat 12 4)).wr F.MD_PG_CTRL_ORIGIN 0 p (bitsOf v.toNat 16 16) ∧ u.pgCheck p = .inr e) ∧
    (∃ (p : Fin 16) (s : State), s.rdB F.MD_PG_CTRL_EN 0 p = true ∧ s.rdB F.MD_PG_STAT_READY 0 p = false) ∧
    (∃ (s : State) (b : TBuf), s.mdOpen = true ∧ s.nextBand = some b) ∧
    (∃ (p : Nat) (f : Nat) (s : State) (g : MdProg) (b : TBuf) (x : SvBuf), s.md.cur = some (p, f) ∧ s.mdProg p = some g ∧ s.tbufs.find? (fun y =>
      y.prog == p && y.frame == f && y.write) = some b ∧ s.svBufOf (s.mdSrc p).1 (s.mdSrc p).2.1 (s.mdSrc p).2.2 f = some x ∧ s.rd
      F.MD_PG_CTRL_NOTIFY_MODE 0 p = 0 ∧ s.md.notifies = [] ∧ b.bands + 1 < s.rd F.MD_PG_STAT_NBANDS 0 p ∧ s.md.dropAfter = false) ∧
    (∃ (p : Fin 16) (v : Word) (s : State), s.live 0x078 = true) ∧
    (∃ (id : Nat) (d : Nat) (s : State) (c : Cmd), s.cmd id = some c ∧ c.started = none ∧ c.phase ≠ .running ∧ s.bindShed c = some d) ∧
    (∃ (q : Fin 4) (v : Word) (s : State), s.live 0x078 = true) ∧
    (∃ (q : Fin 4) (s : State) (u : State) (bs : List Byte), s.rdB F.MD_CTRL_EN 0 0 = true ∧ s.rdB F.MD_CTRL_HALT 0 0 = false ∧ s.rdB F.MD_JQ_CFG_EN
      0 q = true ∧ s.rd F.MD_JQ_HEAD 0 q ≠ s.rd F.MD_JQ_TAIL 0 q ∧ s.md.jobs.all (fun j => j.queue != q.val) = true ∧ s.unitRead (s.jqEntry q) 64 =
      (u, .inl bs) ∧ (s.frame (leAt bs 48 4)).map (fun f => f.standing) = some 0) ∧
    (∃ (q : Fin 4) (s : State) (u : State) (bs : List Byte), s.rdB F.MD_CTRL_EN 0 0 = true ∧ s.rdB F.MD_CTRL_HALT 0 0 = false ∧ s.rdB F.MD_JQ_CFG_EN
      0 q = true ∧ s.rd F.MD_JQ_HEAD 0 q ≠ s.rd F.MD_JQ_TAIL 0 q ∧ s.md.jobs.all (fun j => j.queue != q.val) = true ∧ s.unitRead (s.jqEntry q) 64 =
      (u, .inl bs) ∧ (s.frame (leAt bs 48 4)).map (fun f => f.standing) ≠ some 0) ∧
    (∃ (s : State) (j : MdJob), s.nextItem 1 = some j ∧ (s.jobBox j j.next = none ∨ j.places.getD j.next none = none)) ∧
    (∃ (s : State) (j : MdJob) (b : Box) (pl : Nat × Nat), s.nextItem 1 = some j ∧ s.jobBox j j.next = some b ∧ j.places.getD j.next none = some pl) ∧
    (∃ (s : State) (u : State) (j : MdJob) (bs : List Byte), s.nextItem 2 = some j ∧ s.unitRead (j.e 16 8 + leAt j.list (8 * j.next) 4) (leAt j.list
      (8 * j.next + 4) 4) = (u, .inl bs)) ∧
    (∃ (q : Fin 4) (s : State) (j : MdJob), s.md.jobs.find? (fun x => x.queue == q.val) = some j ∧ (j.result = 1 → j.count ≤ j.next) ∧ s.rd
      F.MD_JQ_CFG_NOTIFY_MODE 0 q = 0 ∧ s.md.notifies = []) :=
  ⟨⟨15, 0x2FF, (atMem (atMem ({ RF with sv := { RF.sv with ctxs := [{ svx with params := { block := image 256 [(0xC8, 2, 8), (0xCA, 2, 8)] } }] } }
     |>.wr F.MD_PG_SHAPE 0 15 0x10000000 |>.wr F.MD_PG_MESH 0 15 0x10000040 |>.wr F.MD_PG_BAND_BAND_ROWS 0 15 8 |>.wr F.SV_OUT_CFG_CONSUMERS 1 (svOut
     63 2) 1 |>.wr F.MD_PG_POOL_CFG_BUF_KIB 0 15 8) 0 shp8) 64 mesh8), (((((((((atMem (atMem ({ RF with sv := { RF.sv with ctxs := [{ svx with params := { block := image 256 [(0xC8, 2, 8), (0xCA, 2, 8)] } }] } }
     |>.wr F.MD_PG_SHAPE 0 15 0x10000000 |>.wr F.MD_PG_MESH 0 15 0x10000040 |>.wr F.MD_PG_BAND_BAND_ROWS 0 15 8 |>.wr F.SV_OUT_CFG_CONSUMERS 1 (svOut
     63 2) 1 |>.wr F.MD_PG_POOL_CFG_BUF_KIB 0 15 8) 0 shp8) 64 mesh8)).lockWord F.MD_PG_CTRL_EN 0 15 0x2FF).wr F.MD_PG_CTRL_SIEVE 0 15 (bitsOf 0x2FF
     1 1)).wr F.MD_PG_CTRL_CTX 0 15 (bitsOf 0x2FF 2 6)).wr F.MD_PG_CTRL_OUT 0 15 (bitsOf 0x2FF 8 2)).wr F.MD_PG_CTRL_NOTIFY_MODE 0 15 (bitsOf 0x2FF
     10 2)).wr F.MD_PG_CTRL_STEP 0 15 (bitsOf 0x2FF 12 4)).wr F.MD_PG_CTRL_ORIGIN 0 15 (bitsOf 0x2FF 16 16)), ((((((((((atMem (atMem ({ RF with sv := { RF.sv with ctxs := [{ svx with params := { block := image 256 [(0xC8, 2, 8), (0xCA, 2, 8)] } }] } }
     |>.wr F.MD_PG_SHAPE 0 15 0x10000000 |>.wr F.MD_PG_MESH 0 15 0x10000040 |>.wr F.MD_PG_BAND_BAND_ROWS 0 15 8 |>.wr F.SV_OUT_CFG_CONSUMERS 1 (svOut
     63 2) 1 |>.wr F.MD_PG_POOL_CFG_BUF_KIB 0 15 8) 0 shp8) 64 mesh8)).lockWord F.MD_PG_CTRL_EN 0 15 0x2FF).wr F.MD_PG_CTRL_SIEVE 0 15 (bitsOf 0x2FF
     1 1)).wr F.MD_PG_CTRL_CTX 0 15 (bitsOf 0x2FF 2 6)).wr F.MD_PG_CTRL_OUT 0 15 (bitsOf 0x2FF 8 2)).wr F.MD_PG_CTRL_NOTIFY_MODE 0 15 (bitsOf 0x2FF
     10 2)).wr F.MD_PG_CTRL_STEP 0 15 (bitsOf 0x2FF 12 4)).wr F.MD_PG_CTRL_ORIGIN 0 15 (bitsOf 0x2FF 16 16)).pgCheck 15).getLeft?.getD { num := 0, shape := [], hdr := [], nodes := [], modes := [], homs := [], need := [] },
     by decide +kernel⟩,
   ⟨15, 0x2FF, RF, ((((((((RF).lockWord F.MD_PG_CTRL_EN 0 15 0x2FF).wr F.MD_PG_CTRL_SIEVE 0 15 (bitsOf 0x2FF 1 1)).wr F.MD_PG_CTRL_CTX 0 15 (bitsOf
     0x2FF 2 6)).wr F.MD_PG_CTRL_OUT 0 15 (bitsOf 0x2FF 8 2)).wr F.MD_PG_CTRL_NOTIFY_MODE 0 15 (bitsOf 0x2FF 10 2)).wr F.MD_PG_CTRL_STEP 0 15 (bitsOf
     0x2FF 12 4)).wr F.MD_PG_CTRL_ORIGIN 0 15 (bitsOf 0x2FF 16 16)), { num := 0, shape := [], hdr := [], nodes := [], modes := [], homs := [], need := [] },
     1, by decide +kernel⟩,
   ⟨15, MD, by decide +kernel⟩,
   ⟨withMd MD { RF.md with progs := [prg8], cur := none }, tb1, by decide +kernel⟩,
   ⟨15, 5, (withMd MD { RF.md with progs := [prg8], cur := some (15, 5) }).wr F.MD_PG_STAT_NBANDS 0 15 2 |>.wr F.MD_PG_BAND_BAND_ROWS 0 15 8, prg8,
     tb1, svb, by decide +kernel⟩,
   ⟨15, 5, { RF with tbufs := [{ tb1 with hold := true }] }, by decide +kernel⟩,
   ⟨3, 0x04, { with1 (cam1 RF { frO with standing := 2 }) (cmdOf 1 0 .held) with tbufs := [{ tb1 with cmds := [3] }] }, cmdOf 1 0 .held,
     by decide +kernel⟩,
   ⟨3, 0xFFFF0001, RF, by decide +kernel⟩,
   ⟨3, cam1 (atMem (MD.wr F.MD_JQ_CFG_EN 0 3 1 |>.wr F.MD_JQ_TAIL 0 3 1 |>.wr F.MD_JQ_BASE 0 3 0x10000000) 48 (toBytes 4 5)) frO, ((cam1 (atMem
     (MD.wr F.MD_JQ_CFG_EN 0 3 1 |>.wr F.MD_JQ_TAIL 0 3 1 |>.wr F.MD_JQ_BASE 0 3 0x10000000) 48 (toBytes 4 5)) frO).unitRead 0x10000000 64).1, image
     64 [(48, 4, 5)], by decide +kernel⟩,
   ⟨3, MD.wr F.MD_JQ_CFG_EN 0 3 1 |>.wr F.MD_JQ_TAIL 0 3 1 |>.wr F.MD_JQ_BASE 0 3 0x10000000, ((MD.wr F.MD_JQ_CFG_EN 0 3 1 |>.wr F.MD_JQ_TAIL 0 3 1
     |>.wr F.MD_JQ_BASE 0 3 0x10000000).unitRead 0x10000000 64).1, image 64 [], by decide +kernel⟩,
   ⟨{ MD with md := { MD.md with jobs := [{ job1 with list := image 8 [] }] } }, { job1 with list := image 8 [] }, by decide +kernel⟩,
   ⟨{ MD with md := { MD.md with jobs := [job1] } }, job1, (MD.jobBox job1 0).getD { x0 := Q.ofNat 0, y0 := Q.ofNat 0, w := Q.ofNat 0, h := Q.ofNat 0 },
     (0, 0), by decide +kernel⟩,
   ⟨{ MD with md := { MD.md with jobs := [{ job1 with entry := image 64 [(0, 1, 2), (4, 4, 1), (16, 8, 0x10000000)], list := image 8 [(4, 2, 8)] }] } },
     (({ MD with md := { MD.md with jobs := [{ job1 with entry := image 64 [(0, 1, 2), (4, 4, 1), (16, 8, 0x10000000)], list := image 8 [(4, 2, 8)] }] } }).unitRead
     0x10000000 8).1, { job1 with entry := image 64 [(0, 1, 2), (4, 4, 1), (16, 8, 0x10000000)], list := image 8 [(4, 2, 8)] }, image 8 [],
     by decide +kernel⟩,
   ⟨3, { MD with md := { MD.md with jobs := [{ job1 with next := 1 }] } }, { job1 with next := 1 }, by decide +kernel⟩⟩

/-- What each clause of `OrbitSolves` assumes holds together of some state and operands. -/
theorem witnesses_OrbitSolves :
    (∃ (s : State) (c : Cmd) (h : List Byte) (lamps : List Byte) (agents : List Byte) (grid : List Byte), s.pageOn 0x07C = true ∧ s.inReset 0x07C =
      false ∧ s.rdB F.OB_CTRL_EN 0 0 = true ∧ s.rdB F.OB_CTRL_HALT 0 0 = false ∧ s.orb.running = none ∧ s.orb.committing.length ≤ 1 ∧ orbFirst
      (s.orb.queue.filterMap s.cmd) = some c ∧ s.cmd c.id = some c ∧ s.rd F.SK_STAT_ROLE 0 0 = 0 ∧ s.cam.pages = [] ∧ s.peek c.desc.arg 256 = some
      (h, false) ∧ orbHdrOk h = true ∧ orbRegionsOk h c.desc.argLen = true ∧ s.peek (c.desc.arg + leAt h 0x48 4) (orbLamps h * 16) = some (lamps,
      false) ∧ (List.range (orbLamps h)).all (fun i => orbLampOk (entryOf lamps 16 i)) = true ∧ orbOutLen h ≤ c.desc.outLen ∧ s.peek (c.desc.arg +
      leAt h 0x40 4) (orbAgents h * 576) = some (agents, false) ∧ s.peek (c.desc.arg + leAt h 0x44 4) (if orbGridEn h then 2097152 else 0) = some
      (grid, false)) ∧
    (∃ (ce : Bool) (id : Nat) (s : State) (c : Cmd), s.orb.running = some id ∧ s.cmd id = some c) :=
  ⟨⟨{ with1 (atMem ((RF.wr F.OB_CTRL_EN 0 0 1).wr F.SK_STAT_ROLE 0 0 0) 0 orbH) orbC with orb := { RF.orb with queue := [3] } }, orbC, orbH, [],
     List.replicate 576 0#8, [], by decide +kernel⟩,
   ⟨true, 3, { with1 RF { orbC with phase := .running } with orb := { RF.orb with running := some 3 } }, { orbC with phase := .running },
     by decide +kernel⟩⟩

/-- What each clause of `CompositorOutputs` assumes holds together of some state and operands. -/
theorem witnesses_CompositorOutputs :
    (∃ (o : Fin 8) (v : Word) (s : State) (u : State), s.live 0x0A0 = true ∧ s.rdB F.CP_OC_CTRL_EN 0 o = false ∧ v.toNat % 2 = 1 ∧ u =
      (((((s.lockWord F.CP_OC_CTRL_EN 0 o v.toNat).wr F.CP_OC_CTRL_FMT 0 o (bitsOf v.toNat 1 1)).wr F.CP_OC_CTRL_SIEVE 0 o (bitsOf v.toNat 2 1)).wr
      F.CP_OC_CTRL_CTX 0 o (bitsOf v.toNat 3 6)).wr F.CP_OC_CTRL_OUT 0 o (bitsOf v.toNat 9 2)).wr F.CP_OC_CTRL_HOLD_MAX 0 o (bitsOf v.toNat 12 4) ∧
      u.ocOk o = true) ∧
    (∃ (o : Fin 8) (v : Word) (s : State) (u : State), s.live 0x0A0 = true ∧ s.rdB F.CP_OC_CTRL_EN 0 o = false ∧ v.toNat % 2 = 1 ∧ u =
      (((((s.lockWord F.CP_OC_CTRL_EN 0 o v.toNat).wr F.CP_OC_CTRL_FMT 0 o (bitsOf v.toNat 1 1)).wr F.CP_OC_CTRL_SIEVE 0 o (bitsOf v.toNat 2 1)).wr
      F.CP_OC_CTRL_CTX 0 o (bitsOf v.toNat 3 6)).wr F.CP_OC_CTRL_OUT 0 o (bitsOf v.toNat 9 2)).wr F.CP_OC_CTRL_HOLD_MAX 0 o (bitsOf v.toNat 12 4) ∧
      u.ocOk o = false) ∧
    (∃ (o : Fin 8) (v : Word) (s : State), s.live 0x0A0 = true ∧ s.rdB F.CP_OC_CTRL_EN 0 o = true ∧ v.toNat % 2 = 0) ∧
    (∃ (o : Fin 8) (v : Word) (s : State), s.live 0x0A0 = true) ∧
    (∃ (o : Fin 8) (l : Fin 2) (v : Word) (s : State), s.live 0x0A0 = true) ∧
    (∃ (o : Fin 8) (g : Nat) (s : State), s.pageOn 0x0A0 = true ∧ s.inReset 0x0A0 = false ∧ s.rdB F.CP_CTRL_EN 0 0 = true ∧ s.rdB F.CP_OC_CTRL_EN 0 o
      = true ∧ s.boundaryAt o = some g ∧ (s.compOut o).lastGt < g) ∧
    (∃ (o : Fin 8) (g : Nat) (i : Nat) (b : SvBuf) (s : State), s.pageOn 0x0A0 = true ∧ s.inReset 0x0A0 = false ∧ s.rdB F.CP_CTRL_EN 0 0 = true ∧
      s.rdB F.CP_OC_CTRL_EN 0 o = true ∧ s.boundaryAt o = some g ∧ (s.compOut o).lastGt < g ∧ s.rd F.CP_MASK_CFG_MODE 0 o = 0 ∧ s.rdB F.CP_LY_CFG_EN
      0 (lyIdx o 0) = false ∧ s.rdB F.CP_LY_CFG_EN 0 (lyIdx o 1) = false ∧ s.vid.waiting = [] ∧ (s.candidatesOf o).head? = some b ∧ s.ocFree o = some
      i) ∧
    (∃ (o : Fin 8) (g : Nat) (p : CompPic) (s : State), s.pageOn 0x0A0 = true ∧ s.inReset 0x0A0 = false ∧ s.rdB F.CP_CTRL_EN 0 0 = true ∧ s.rdB
      F.CP_OC_CTRL_EN 0 o = true ∧ s.boundaryAt o = some g ∧ (s.compOut o).lastGt < g ∧ s.rd F.CP_MASK_CFG_MODE 0 o = 0 ∧ s.vid.waiting = [] ∧
      s.candidatesOf o = [] ∧ (s.compOut o).prev = some p ∧ (s.compOut o).held < s.rd F.CP_OC_CTRL_HOLD_MAX 0 o) ∧
    (∃ (o : Fin 8) (g : Nat) (s : State), s.pageOn 0x0A0 = true ∧ s.inReset 0x0A0 = false ∧ s.rdB F.CP_CTRL_EN 0 0 = true ∧ s.rdB F.CP_OC_CTRL_EN 0 o
      = true ∧ s.boundaryAt o = some g ∧ (s.compOut o).lastGt < g ∧ s.rd F.CP_MASK_CFG_MODE 0 o = 0 ∧ s.vid.waiting = [] ∧ s.candidatesOf o = [] ∧
      (s.compOut o).prev = none) ∧
    (∃ (p : CompPic) (s : State), s.pageOn 0x0A0 = true ∧ s.inReset 0x0A0 = false ∧ s.rdB F.CP_CTRL_EN 0 0 = true ∧ s.vid.cur = none ∧ leastBy (fun x
      : CompPic => x.bGt * 8 + x.out) s.vid.waiting = some p) ∧
    (∃ (p : CompPic) (s : State), s.vid.cur = some p) :=
  ⟨⟨7, 0x5FD, ({ CP with sv := { RF.sv with ctxs := [{ svx with params := { block := image 256 [(0xC8, 2, 128), (0xCA, 2, 96)] } }] } } |>.wr
     F.CP_OC_CTRL_EN 0 7 0), ((((((({ CP with sv := { RF.sv with ctxs := [{ svx with params := { block := image 256 [(0xC8, 2, 128), (0xCA, 2, 96)] } }] } }
     |>.wr F.CP_OC_CTRL_EN 0 7 0)).lockWord F.CP_OC_CTRL_EN 0 7 0x5FD).wr F.CP_OC_CTRL_FMT 0 7 (bitsOf 0x5FD 1 1)).wr F.CP_OC_CTRL_SIEVE 0 7 (bitsOf
     0x5FD 2 1)).wr F.CP_OC_CTRL_CTX 0 7 (bitsOf 0x5FD 3 6)).wr F.CP_OC_CTRL_OUT 0 7 (bitsOf 0x5FD 9 2)).wr F.CP_OC_CTRL_HOLD_MAX 0 7 (bitsOf 0x5FD
     12 4), by decide +kernel⟩,
   ⟨7, 1, RF, ((((((RF).lockWord F.CP_OC_CTRL_EN 0 7 1).wr F.CP_OC_CTRL_FMT 0 7 (bitsOf 1 1 1)).wr F.CP_OC_CTRL_SIEVE 0 7 (bitsOf 1 2 1)).wr
     F.CP_OC_CTRL_CTX 0 7 (bitsOf 1 3 6)).wr F.CP_OC_CTRL_OUT 0 7 (bitsOf 1 9 2)).wr F.CP_OC_CTRL_HOLD_MAX 0 7 (bitsOf 1 12 4), by decide +kernel⟩,
   ⟨7, 0, { CP with vid := { CP.vid with waiting := [pic1] } }, by decide +kernel⟩,
   ⟨7, 0, CP, by decide +kernel⟩,
   ⟨7, 1, 0xFFFFFFFF, CP, by decide +kernel⟩,
   ⟨7, 65536, CPg, by decide +kernel⟩,
   ⟨7, 65536, 0, svb, ({ cam1 CPg { frame1 with ageGt := 70000 } with sv := { RF.sv with bufs := [svb] } }), by decide +kernel, by decide +kernel,
     by decide +kernel, by decide +kernel, by decide +kernel, by decide +kernel, by decide +kernel, by decide +kernel, by decide +kernel,
     by decide +kernel, (congrArg List.head? (sort_short _ _ (by decide +kernel))).trans (by decide +kernel), by decide +kernel⟩,
   ⟨7, 65536, pic1, { (CPg.wr F.CP_OC_CTRL_HOLD_MAX 0 7 1) with vid := { CP.vid with outs := [co1] } }, by decide +kernel, by decide +kernel,
     by decide +kernel, by decide +kernel, by decide +kernel, by decide +kernel, by decide +kernel, by decide +kernel, (sort_short _ _
     (by decide +kernel)).trans (by decide +kernel), by decide +kernel, by decide +kernel⟩,
   ⟨7, 65536, CPg, by decide +kernel, by decide +kernel, by decide +kernel, by decide +kernel, by decide +kernel, by decide +kernel,
     by decide +kernel, by decide +kernel, (sort_short _ _ (by decide +kernel)).trans (by decide +kernel), by decide +kernel⟩,
   ⟨pic1, { CPg with vid := { CP.vid with waiting := [pic1] } }, by decide +kernel⟩,
   ⟨pic1, { CPg with vid := { CP.vid with cur := some pic1 } }, by decide +kernel⟩⟩

/-- What each clause of `EncoderSessions` assumes holds together of some state and operands. -/
theorem witnesses_EncoderSessions :
    (∃ (n : Fin 8) (v : Word) (s : State) (u : State), s.live 0x0A1 = true ∧ s.rdB F.EN_ES_CFG_EN 0 n = false ∧ v.toNat % 2 = 1 ∧ u = (((((s.lockWord
      F.EN_ES_CFG_EN 0 n v.toNat).wr F.EN_ES_CFG_CODEC 0 n (bitsOf v.toNat 1 3)).wr F.EN_ES_CFG_OUTPUT 0 n (bitsOf v.toNat 4 3)).wr F.EN_ES_CFG_CAVLC
      0 n (bitsOf v.toNat 7 1)).wr F.EN_ES_CFG_LEVEL_IDC 0 n (bitsOf v.toNat 8 8)).wr F.EN_ES_CFG_IDR_PERIOD 0 n (bitsOf v.toNat 16 10) ∧ u.esOk n =
      true) ∧
    (∃ (n : Fin 8) (v : Word) (s : State) (u : State), s.live 0x0A1 = true ∧ s.rdB F.EN_ES_CFG_EN 0 n = false ∧ v.toNat % 2 = 1 ∧ u = (((((s.lockWord
      F.EN_ES_CFG_EN 0 n v.toNat).wr F.EN_ES_CFG_CODEC 0 n (bitsOf v.toNat 1 3)).wr F.EN_ES_CFG_OUTPUT 0 n (bitsOf v.toNat 4 3)).wr F.EN_ES_CFG_CAVLC
      0 n (bitsOf v.toNat 7 1)).wr F.EN_ES_CFG_LEVEL_IDC 0 n (bitsOf v.toNat 8 8)).wr F.EN_ES_CFG_IDR_PERIOD 0 n (bitsOf v.toNat 16 10) ∧ u.esOk n =
      false) ∧
    (∃ (n : Fin 8) (v : Word) (s : State), s.live 0x0A1 = true ∧ s.rdB F.EN_ES_CFG_EN 0 n = true ∧ v.toNat % 2 = 0) ∧
    (∃ (n : Fin 8) (v : Word) (s : State), s.live 0x0A1 = true ∧ v.toNat % 2 = 1) ∧
    (∃ (n : Fin 8) (p : CompPic) (rest : List CompPic) (s : State), s.pageOn 0x0A1 = true ∧ s.inReset 0x0A1 = false ∧ s.rdB F.EN_CTRL_EN 0 0 = true ∧
      s.rdB F.EN_ES_CFG_EN 0 n = true ∧ s.vid.sessions.all (fun x => x.coding.isNone) = true ∧ (s.encSes n).queue = p :: rest) ∧
    (∃ (n : Fin 8) (p : CompPic) (s : State), s.pageOn 0x0A1 = true ∧ s.inReset 0x0A1 = false ∧ s.rdB F.EN_CTRL_EN 0 0 = true ∧ s.rdB F.EN_ES_CFG_EN
      0 n = true ∧ s.vid.sessions.all (fun x => x.coding.isNone) = true ∧ (s.encSes n).queue = [] ∧ s.vid.cur = some p ∧ p.out = s.rd
      F.EN_ES_CFG_OUTPUT 0 n ∧ (s.encSes n).early = none) ∧
    (∃ (n : Fin 8) (len : BitVec 24) (qp : BitVec 8) (p : CompPic) (ty : Nat) (size : Nat) (pos : Nat) (pad : Nat) (need : Nat) (s : State),
      (s.encSes n).coding = some (p, ty) ∧ (s.encSes n).early = none ∧ size = s.rd F.EN_BS_SIZE 0 n * 1024 ∧ pos = s.rd F.EN_BS_WR 0 n % size ∧ need
      = ceilDiv (32 + len.toNat) 32 * 32 ∧ pad = (if size < pos + 32 + len.toNat then size - pos else 0) ∧ pad + need ≤ size - s.bsUsed n (s.rd
      F.EN_BS_RD 0 n)) ∧
    (∃ (n : Fin 8) (len : BitVec 24) (qp : BitVec 8) (p : CompPic) (ty : Nat) (size : Nat) (pos : Nat) (pad : Nat) (need : Nat) (s : State),
      (s.encSes n).coding = some (p, ty) ∧ (s.encSes n).early = none ∧ size = s.rd F.EN_BS_SIZE 0 n * 1024 ∧ pos = s.rd F.EN_BS_WR 0 n % size ∧ need
      = ceilDiv (32 + len.toNat) 32 * 32 ∧ pad = (if size < pos + 32 + len.toNat then size - pos else 0) ∧ size - s.bsUsed n (s.rd F.EN_BS_RD 0 n) <
      pad + need) ∧
    (∃ (n : Fin 8) (v : Word) (s : State), s.live 0x0A1 = true ∧ s.bsUsed n v.toNat ≤ s.rd F.EN_BS_SIZE 0 n * 1024) ∧
    (∃ (n : Fin 8) (v : Word) (s : State), s.live 0x0A1 = true ∧ s.rd F.EN_BS_SIZE 0 n * 1024 < s.bsUsed n v.toNat) :=
  ⟨⟨7, 0x79, EN, ((((((EN).lockWord F.EN_ES_CFG_EN 0 7 0x79).wr F.EN_ES_CFG_CODEC 0 7 (bitsOf 0x79 1 3)).wr F.EN_ES_CFG_OUTPUT 0 7 (bitsOf 0x79 4
     3)).wr F.EN_ES_CFG_CAVLC 0 7 (bitsOf 0x79 7 1)).wr F.EN_ES_CFG_LEVEL_IDC 0 7 (bitsOf 0x79 8 8)).wr F.EN_ES_CFG_IDR_PERIOD 0 7 (bitsOf 0x79 16
     10), by decide +kernel⟩,
   ⟨7, 0x7B, EN, ((((((EN).lockWord F.EN_ES_CFG_EN 0 7 0x7B).wr F.EN_ES_CFG_CODEC 0 7 (bitsOf 0x7B 1 3)).wr F.EN_ES_CFG_OUTPUT 0 7 (bitsOf 0x7B 4
     3)).wr F.EN_ES_CFG_CAVLC 0 7 (bitsOf 0x7B 7 1)).wr F.EN_ES_CFG_LEVEL_IDC 0 7 (bitsOf 0x7B 8 8)).wr F.EN_ES_CFG_IDR_PERIOD 0 7 (bitsOf 0x7B 16
     10), by decide +kernel⟩,
   ⟨7, 0, (EN.wr F.EN_ES_CFG_EN 0 7 1), by decide +kernel⟩,
   ⟨7, 1, (EN.wr F.EN_ES_CFG_EN 0 7 1), by decide +kernel⟩,
   ⟨7, pic1, [], withSes (EN.wr F.EN_ES_CFG_EN 0 7 1) { num := 7, queue := [pic1] } {}, by decide +kernel⟩,
   ⟨7, pic1, withSes ((EN.wr F.EN_ES_CFG_EN 0 7 1).wr F.EN_ES_CFG_OUTPUT 0 7 7) { num := 7 } { cur := some pic1 }, by decide +kernel⟩,
   ⟨7, 1000, 20, pic1, 3, 65536, 0, 0, 1056, withSes (EN.wr F.EN_ES_CFG_EN 0 7 1) { num := 7, coding := some (pic1, 3) } {}, by decide +kernel⟩,
   ⟨7, 70000, 20, pic1, 3, 65536, 0, 65536, 70048, withSes (EN.wr F.EN_ES_CFG_EN 0 7 1) { num := 7, coding := some (pic1, 3) } {}, by decide +kernel⟩,
   ⟨7, 0, (EN.wr F.EN_ES_CFG_EN 0 7 1), by decide +kernel⟩,
   ⟨7, 1, (EN.wr F.EN_ES_CFG_EN 0 7 1), by decide +kernel⟩⟩

/-- What each clause of `PilotAudio` assumes holds together of some state and operands. -/
theorem witnesses_PilotAudio :
    (∃ (rate : Nat) (at_ : Nat) (s : State), s.pil.rateReq = some (rate, at_) ∧ s.pwr.pilotOn = true ∧ s.inReset 0x081 = false ∧ rate ≠ s.rd
      F.PA_STAT_RATE 0 0 ∧ at_ + 1000000 ≤ s.pil.t0 + s.pil.done / 160 * 160 * 62500 ∧ (∀ f, s.pil.fade = some f → f + 320 ≤ s.pil.done / 160 * 160)) ∧
    (∃ (f : Nat) (s : State), s.pil.fade = some f ∧ s.rdB F.PA_STAT_XFADE 0 0 = true ∧ f + 320 ≤ s.pil.done) ∧
    (∃ (s : State), s.paOn = true ∧ 160 * s.pil.frame + 400 ≤ s.pil.done) ∧
    (∃ (s : State), s.paOn = true ∧ s.pwr.mainOn = true ∧ s.rdB F.PA_CTRL_STREAM_EN 0 0 = true ∧ s.pil.hop < s.pil.done / 160) ∧
    (∃ (k : Fin 2) (v : Word) (len0 : BitVec 19) (len1 : BitVec 19) (p : List Byte) (s : State) (g : SimProg), s.live 0x081 = true ∧ bitOf v.toNat k
      = true ∧ s.rdB (simRunFld k) 0 0 = false ∧ p = s.bytesAt (pilotPlace (if k.val = 0 then s.rd F.PA_SIM_PROG0 0 0 else s.rd F.PA_SIM_PROG1 0 0))
      (if k.val = 0 then len0.toNat else len1.toNat) ∧ simHeader p k = some g) ∧
    (∃ (k : Fin 2) (v : Word) (len0 : BitVec 19) (len1 : BitVec 19) (p : List Byte) (s : State), s.live 0x081 = true ∧ bitOf v.toNat k = true ∧ s.rdB
      (simRunFld k) 0 0 = false ∧ p = s.bytesAt (pilotPlace (if k.val = 0 then s.rd F.PA_SIM_PROG0 0 0 else s.rd F.PA_SIM_PROG1 0 0)) (if k.val = 0
      then len0.toNat else len1.toNat) ∧ simHeader p k = none) ∧
    (∃ (k : Fin 2) (v : Word) (len0 : BitVec 19) (len1 : BitVec 19) (s : State), s.live 0x081 = true ∧ bitOf v.toNat k = false ∧ s.rdB (simRunFld k)
      0 0 = true) ∧
    (∃ (k : Fin 2) (sc : List Byte) (g : SimProg) (s : State), s.pil.progs.find? (fun x => x.slot == k.val) = some g ∧ s.paOn = true ∧ g.last <
      s.pil.done / 160 / g.eval * g.eval ∧ g.win ≤ s.pil.feats.length) ∧
    (∃ (v : Byte) (sc : List Byte) (g : SimProg) (s : State), s.pil.progs.find? (fun x => x.slot == 0) = some g ∧ s.paOn = true ∧ g.last < s.pil.done
      / 160 / g.eval * g.eval ∧ g.win ≤ s.pil.feats.length ∧ v.toNat < s.rd F.PA_DET_CFG_DET_THR 0 0 ∧ v.toNat < s.rd F.PA_DET_CFG_ARM_THR 0 0) ∧
    (∃ (v : Byte) (sc : List Byte) (g : SimProg) (s : State), s.pil.progs.find? (fun x => x.slot == 0) = some g ∧ s.paOn = true ∧ g.last < s.pil.done
      / 160 / g.eval * g.eval ∧ g.win ≤ s.pil.feats.length ∧ s.rd F.PA_DET_CFG_DET_THR 0 0 ≤ v.toNat ∧ s.pil.detRun + 1 = s.rd F.PA_DET_CFG_DET_N 0 0
      ∧ s.pil.lastDet = none) ∧
    (∃ (sc : List Byte) (g : SimProg) (cs : List Nat) (s : State), s.pil.progs.find? (fun x => x.slot == 1) = some g ∧ s.paOn = true ∧ g.last <
      s.pil.done / 160 / g.eval * g.eval ∧ g.win ≤ s.pil.feats.length ∧ cs = (List.range g.outs).filter (fun c => decide (bitsOf (s.rd F.PA_EV_THR 0
      (c / 4)) (8 * (c % 4)) 8 ≤ (sc.map BitVec.toNat).getD c 0) && !(s.pil.scores[c]?).any (fun p => decide (bitsOf (s.rd F.PA_EV_THR 0 (c / 4)) (8
      * (c % 4)) 8 ≤ p))) ∧ s.pil.events.length + cs.length ≤ 32) :=
  ⟨⟨1, 0, withPil (RF.wr F.PA_STAT_RATE 0 0 0) { RF.pil with rateReq := some (1, 0), done := 320, fade := some 0 }, by decide +kernel⟩,
   ⟨0, withPil (RF.wr F.PA_STAT_XFADE 0 0 1) { RF.pil with done := 320, fade := some 0 }, by decide +kernel⟩,
   ⟨withPil PA { RF.pil with done := 400, live := List.replicate 400 7 }, by decide +kernel⟩,
   ⟨withPil (PA.wr F.PA_CTRL_STREAM_EN 0 0 1) { RF.pil with done := 160 }, by decide +kernel⟩,
   ⟨1, 2, 0, 32, sim1, PA.setBytes (pilotPlace 0) sim1, simG 1, by decide +kernel⟩,
   ⟨0, 1, 32, 0, simP, PA.setBytes (pilotPlace 0) simP, by decide +kernel⟩,
   ⟨1, 0, 0, 0, withPil (PA.wr F.PA_SIM_CTRL_EVENT_RUN 0 0 1) { RF.pil with progs := [simG 1] }, by decide +kernel⟩,
   ⟨0, [], simG 0, withPil PA { RF.pil with progs := [simG 0], done := 1280, feats := [(0, [])] }, by decide +kernel⟩,
   ⟨1, [], simG 0, withPil (PA.wr F.PA_DET_CFG_DET_THR 0 0 3 |>.wr F.PA_DET_CFG_ARM_THR 0 0 2) { RF.pil with progs := [simG 0], done := 1280, feats := [(0, [])], lowRun := 24 },
     by decide +kernel⟩,
   ⟨3, [], simG 0, withPil (PA.wr F.PA_DET_CFG_DET_THR 0 0 3 |>.wr F.PA_DET_CFG_DET_N 0 0 1) { RF.pil with progs := [simG 0], done := 1280, feats := [(0, [])] },
     by decide +kernel⟩,
   ⟨[9#8], simG 1, [0], withPil (PA.wr F.PA_EV_THR 0 0 9) { RF.pil with progs := [simG 1], done := 1280, feats := [(0, [])], events := List.replicate 31 (0, 0, 0) },
     by decide +kernel⟩⟩

/-- What each clause of `PilotFreezesExportsTimers` assumes holds together of some state and operands. -/
theorem witnesses_PilotFreezesExportsTimers :
    (∃ (s : State), s.freezeOver = true ∧ s.pil.exporting.any (fun e => e.src == 0) = false) ∧
    (∃ (v : Word) (s : State), s.live 0x081 = true) ∧
    (∃ (v : Word) (bs : List Byte) (s : State), s.live 0x081 = true ∧ v.toNat % 2 = 1 ∧ s.pil.exporting = none ∧ s.exportBytes = some bs ∧ s.exportTo
      (s.rd F.PA_EXP_DST 0 0) bs.length = true) ∧
    (∃ (v : Word) (s : State), s.live 0x081 = true ∧ v.toNat % 2 = 1 ∧ s.pil.exporting = none ∧ (∀ bs, s.exportBytes = some bs → s.exportTo (s.rd
      F.PA_EXP_DST 0 0) bs.length = false)) ∧
    (∃ (e : AudioExport) (s : State), s.pil.exporting = some e ∧ s.exportTo e.dst e.bytes.length = true) ∧
    (∃ (t0 : Nat) (s : State), s.pil.offReq = some t0 ∧ (s.rdB F.PA_STAT_IN_PROGRESS 0 0 = false ∨ t0 + 1500000000 ≤ s.now)) ∧
    (∃ (n : Fin 16) (s : State), s.pwr.pilotOn = true ∧ s.rdB F.PL_TMR_CFG_EN 0 n = true ∧ s.rdB F.PL_TMR_CFG_ACTION 0 n = false ∧ s.rd F.PL_TMR_GT 0
      n ≤ s.gt) ∧
    (∃ (n : Fin 16) (s : State), s.pwr.pilotOn = true ∧ s.rdB F.PL_TMR_CFG_EN 0 n = true ∧ s.rdB F.PL_TMR_CFG_ACTION 0 n = true ∧ s.rd F.PL_TMR_GT 0
      n ≤ s.gt + 0x4000 ∧ s.rd F.BR_STAT_LINK 0 0 ≠ 2 ∧ s.br.txq.length < 32) :=
  ⟨⟨{ withPil (PA.wr F.PA_STAT_FROZEN 0 0 1 |>.wr F.PA_FREEZE_MAX 0 0 1) { RF.pil with frozen := some (15999, []) } with now := 2000000000 },
     by decide +kernel⟩,
   ⟨1, withPil (PA.wr F.PA_STAT_FROZEN 0 0 1) { RF.pil with frozen := some (15999, []) }, by decide +kernel⟩,
   ⟨1, [7#8, 0#8], withPil (PA.wr F.PA_EXP_DST 0 0 0x1000000000) { RF.pil with frozen := some (15999, [7]) }, by decide +kernel⟩,
   ⟨1, withPil (PA.wr F.PA_EXP_DST 0 0 0x1000000000) { RF.pil with frozen := none }, by decide +kernel, by decide +kernel, by decide +kernel, by
     intro bs h; exact absurd h (by rw [show State.exportBytes _ = none by decide +kernel]; simp)⟩,
   ⟨{ src := 0, dst := 0x1000000000, bytes := [7#8] }, withPil PA { RF.pil with exporting := some { src := 0, dst := 0x1000000000, bytes := [7#8] } },
     by decide +kernel⟩,
   ⟨0, { withPil (PA.wr F.PA_STAT_IN_PROGRESS 0 0 1) { RF.pil with offReq := some 0 } with now := 1500000000 }, by decide +kernel⟩,
   ⟨15, (R.wr F.PL_TMR_CFG_EN 0 15 1).wr F.PL_WAKE_EN 0 0 15, by decide +kernel⟩,
   ⟨15, ((R.wr F.PL_TMR_CFG_EN 0 15 1).wr F.PL_TMR_CFG_ACTION 0 15 1).wr F.PL_TMR_GT 0 15 0x4000, by decide +kernel⟩⟩

/-- What each clause of `PowerRequests` assumes holds together of some state and operands. -/
theorem witnesses_PowerRequests :
    (∃ (c : Instr) (s : State), (c = .psReqRun ∨ c = .psReqWatch ∨ c = .psReqRest ∨ c = .psReqDeep ∨ c = .psReqOff ∨ ∃ v, c = .kgateWrite v) ∧ s.live
      0x003 = true ∧ s.rdB F.PWR_PS_STAT_BUSY 0 0 = true) ∧
    (∃ (s : State), s.live 0x003 = true ∧ s.rdB F.PWR_PS_STAT_BUSY 0 0 = false ∧ s.gateRefused (s.rd F.PWR_KGATE 0 0) = false) ∧
    (∃ (s : State), s.live 0x003 = true ∧ s.rdB F.PWR_PS_STAT_BUSY 0 0 = false ∧ s.gateRefused (s.rd F.PWR_KGATE 0 0) = true) ∧
    (∃ (s : State), s.live 0x003 = true ∧ s.rdB F.PWR_PS_STAT_BUSY 0 0 = false ∧ s.rdB F.RP_RM_STAT_BUSY 0 0 = false ∧ s.watchRefusal = none) ∧
    (∃ (s : State) (e : Nat), s.live 0x003 = true ∧ s.rdB F.PWR_PS_STAT_BUSY 0 0 = false ∧ s.rdB F.RP_RM_STAT_BUSY 0 0 = false ∧ s.watchRefusal =
      some e) ∧
    (∃ (c : Instr) (n : Nat) (s : State), ((c = .psReqRest ∧ n = 3) ∨ (c = .psReqDeep ∧ n = 4) ∨ (c = .psReqOff ∧ n = 5)) ∧ s.live 0x003 = true ∧
      s.rdB F.PWR_PS_STAT_BUSY 0 0 = false ∧ s.rdB F.RP_RM_STAT_BUSY 0 0 = false ∧ s.ctxBusy = true) ∧
    (∃ (c : Instr) (n : Nat) (s : State), ((c = .psReqRest ∧ n = 3) ∨ (c = .psReqDeep ∧ n = 4) ∨ (c = .psReqOff ∧ n = 5)) ∧ s.live 0x003 = true ∧
      s.rdB F.PWR_PS_STAT_BUSY 0 0 = false ∧ s.rdB F.RP_RM_STAT_BUSY 0 0 = false ∧ s.ctxBusy = false) ∧
    (∃ (v : Word) (s : State), s.live 0x003 = true ∧ s.rdB F.PWR_PS_STAT_BUSY 0 0 = false ∧ s.pwr.st ≠ 0) ∧
    (∃ (v : Word) (s : State), s.live 0x003 = true ∧ s.rdB F.PWR_PS_STAT_BUSY 0 0 = false ∧ s.pwr.st = 0 ∧ s.gateRefused (v.toNat % 65536) = false) ∧
    (∃ (v : Word) (s : State), s.live 0x003 = true ∧ s.rdB F.PWR_PS_STAT_BUSY 0 0 = false ∧ s.pwr.st = 0 ∧ s.gateRefused (v.toNat % 65536) = true) :=
  ⟨⟨Instr.psReqRun, R.wr F.PWR_PS_STAT_BUSY 0 0 1, .inl rfl, by decide +kernel, by decide +kernel⟩,
   ⟨R, by decide +kernel⟩,
   ⟨((R.wr F.SCH_PART_KMASK 0 15 1).wr F.SCH_PART_URG_BUDGET 0 15 1).wr F.PWR_KGATE 0 0 1, by decide +kernel⟩,
   ⟨R, by decide +kernel⟩,
   ⟨R.wr F.PWR_WATCH_PORTS 0 0 31, 4, by decide +kernel⟩,
   ⟨Instr.psReqOff, 5, R.wr F.CTX_STAT_STATE 255 0 1, by decide +kernel⟩,
   ⟨Instr.psReqDeep, 4, R, by decide +kernel⟩,
   ⟨0xFFFFFFFF, { R with pwr := { R.pwr with st := 2 } }, by decide +kernel⟩,
   ⟨0xFFFFFFFF, R, by decide +kernel⟩,
   ⟨1, (R.wr F.SCH_PART_KMASK 0 15 1).wr F.SCH_PART_URG_BUDGET 0 15 1, by decide +kernel⟩⟩

/-- What each clause of `PowerTransitions` assumes holds together of some state and operands. -/
theorem witnesses_PowerTransitions :
    (∃ (k : Fin 16) (p : Nat) (s : State), s.tileOf k = some p ∧ s.pwr.mainOn = true ∧ bitOf s.pwr.gate k = true ∧ s.rd F.RP_KMAP_STATE 0 k = 0 ∧
      bitOf (s.rd F.PWR_KGATED 0 0) k = false ∧ (s.tile p).slots = []) ∧
    (∃ (k : Fin 16) (p : Nat) (s : State), s.tileOf k = some p ∧ s.pwr.mainOn = true ∧ bitOf s.pwr.gate k = false ∧ bitOf (s.rd F.PWR_KGATED 0 0) k =
      true) ∧
    (∃ (n : Nat) (s : State), s.pwr.trans = some (0, n) ∧ n ≠ 3 ∧ s.pwr.mainOn = true ∧ s.gateDone = true) ∧
    (∃ (n : Nat) (s : State), s.pwr.trans = some (2, n) ∧ n ≠ 3 ∧ n ≠ 2 ∧ s.pwr.mainOn = true ∧ s.gateDone = true) ∧
    (∃ (n : Nat) (s : State), s.pwr.trans = some (3, n) ∧ s.pwr.mainOn = true ∧ s.fw.cmd = none) ∧
    (∃ (n : Nat) (s : State), s.pwr.trans = some (4, n) ∧ s.pwr.mainOn = true ∧ s.fw.cmd = none) ∧
    (∃ (n : Nat) (s : State), s.pwr.trans = some (5, n) ∧ s.pwr.mainOn = true ∧ s.pil.offReq = none ∧ s.fw.cmd = none) ∧
    (∃ (s : State), s.pwr.wake = true ∧ s.pwr.pilotOn = true ∧ s.pwr.mainOn = true ∧ s.pwr.trans.any (fun x => x.1 == 3 || x.1 == 4) = true) ∧
    (∃ (s : State), s.pwr.wake = true ∧ s.pwr.pilotOn = true ∧ s.pwr.mainOn = false ∧ (s.pwr.st = 3 ∨ s.pwr.st = 4) ∧ s.pwr.tripBlock = false ∧
      s.pwr.rising = false ∧ s.pwr.offAt + 100000 ≤ s.now) ∧
    (∃ (s : State), s.pwr.pilotRising = true ∧ s.pwr.pilotOn = false) ∧
    (∃ (bs : Bool) (cab : Fin 8) (temp : Byte) (sensor : Fin 21) (s : State), s.pwr.rising = true ∧ s.pwr.pilotOn = true ∧ s.pwr.mainOn = false) :=
  ⟨⟨15, 15, { R with pwr := { R.pwr with gate := 0x8000 } }, by decide +kernel⟩,
   ⟨15, 15, { (R.wr F.PWR_KGATED 0 0 0x8000) with pwr := { R.pwr with gate := 0 } }, by decide +kernel⟩,
   ⟨2, { R with pwr := { R.pwr with trans := some (0, 2) } }, by decide +kernel⟩,
   ⟨0, { R with pwr := { R.pwr with trans := some (2, 0), gate := 0 } }, by decide +kernel⟩,
   ⟨0, { R with pwr := { R.pwr with trans := some (3, 0) } }, by decide +kernel⟩,
   ⟨2, { R with pwr := { R.pwr with trans := some (4, 2) } }, by decide +kernel⟩,
   ⟨0, { R with pwr := { R.pwr with trans := some (5, 0) } }, by decide +kernel⟩,
   ⟨{ R with pwr := { R.pwr with trans := some (4, 0), wake := true } }, by decide +kernel⟩,
   ⟨{ { R with pwr := { R.pwr with st := 4, wake := true, mainOn := false } } with now := 100000 }, by decide +kernel⟩,
   ⟨{ R with pwr := { R.pwr with pilotRising := true, pilotOn := false } }, by decide +kernel⟩,
   ⟨true, 7, 0x80, 20, { R with pwr := { R.pwr with rising := true, mainOn := false } }, by decide +kernel⟩⟩

/-- What each clause of `SupplyAndTemperature` assumes holds together of some state and operands. -/
theorem witnesses_SupplyAndTemperature :
    (∃ (s : State), s.pwr.st = 5 ∧ s.pwr.pilotOn = false) ∧
    (∃ (mv : BitVec 16) (s : State), 10200 < mv.toNat ∧ s.pwr.st = 5 ∧ s.pwr.pilotOn = false) ∧
    (∃ (mv : BitVec 16) (s : State), mv.toNat ≤ 10200) ∧
    (∃ (mv : BitVec 16) (s : State), s.pwr.mainOn = true ∧ s.fw.vinLow = false ∧ mv.toNat < s.rd F.PWR_VIN_CFG_WARN_MV 0 0) ∧
    (∃ (mv : BitVec 16) (s : State), s.pwr.mainOn = true ∧ s.fw.vinLow = true ∧ s.rd F.PWR_VIN_CFG_WARN_MV 0 0 ≤ mv.toNat) ∧
    (∃ (s : State), s.fw.cmd = none) ∧
    (∃ (c : Instr) (temp : Byte) (sensor : Fin 21) (s : State), (c = .thermWarn temp sensor ∨ c = .thermEmerg temp sensor) ∧ s.pwr.mainOn = true ∧
      signed8 temp.toNat < signed8 (s.rd F.PWR_THERM_CFG_EMERG 0 0)) ∧
    (∃ (c : Instr) (temp : Byte) (sensor : Fin 21) (s : State), (c = .thermWarn temp sensor ∨ c = .thermEmerg temp sensor) ∧ s.pwr.mainOn = true ∧
      signed8 (s.rd F.PWR_THERM_CFG_EMERG 0 0) ≤ signed8 temp.toNat ∧ s.rdB F.PWR_THERM_STAT_EMERG 0 0 = false) ∧
    (∃ (temp : Byte) (sensor : Fin 21) (s : State), s.pwr.mainOn = true ∧ s.rdB F.PWR_THERM_STAT_EMERG 0 0 = true ∧ signed8 temp.toNat < signed8
      (s.rd F.PWR_THERM_CFG_EMERG 0 0) - 5) ∧
    (∃ (temp : Byte) (sensor : Fin 21) (s : State), s.pwr.mainOn = true ∧ s.fw.cmd = none ∧ signed8 (s.rd F.PWR_THERM_CFG_TRIP 0 0) ≤ signed8
      temp.toNat) ∧
    (∃ (temp : Byte) (s : State), s.pwr.tripBlock = true ∧ toS 8 temp.toNat < 95) :=
  ⟨⟨{ R with pwr := { R.pwr with st := 5, pilotOn := false } }, by decide +kernel⟩,
   ⟨10201, { R with pwr := { R.pwr with st := 5, pilotOn := false } }, by decide +kernel⟩,
   ⟨10200, R, by decide +kernel⟩,
   ⟨0, R, by decide +kernel⟩,
   ⟨0xFFFF, { R with fw := { R.fw with vinLow := true } }, by decide +kernel⟩,
   ⟨R, by decide +kernel⟩,
   ⟨Instr.thermWarn 0x60 20, 0x60, 20, R, by decide +kernel⟩,
   ⟨Instr.thermEmerg 0x7F 20, 0x7F, 20, R, by decide +kernel⟩,
   ⟨0x80, 20, R.wr F.PWR_THERM_STAT_EMERG 0 0 1, by decide +kernel⟩,
   ⟨0x7F, 20, R, by decide +kernel⟩,
   ⟨94, { R with pwr := { R.pwr with tripBlock := true } }, by decide +kernel⟩⟩

/-- What each clause of `OperatingPointsPadsAndOutputs` assumes holds together of some state and operands. -/
theorem witnesses_OperatingPointsPadsAndOutputs :
    (∃ (v : Word) (s : State), s.live 0x003 = true) ∧
    (∃ (g : Fin 3) (v : Nat) (x : GrpSt) (s : State), s.pwr.mainOn = true ∧ s.pwr.groups.length = 3 ∧ s.grp g = x ∧ x.step = some (1, v) ∧ nextStep { x with supply := v, step := none }
      (s.opTarget g) = none) ∧
    (∃ (v : Word) (n : Nat) (s : State) (u : State), s.live 0x005 = true ∧ n = s.rd F.SCH_PART_SEL 0 0 ∧ u = (if bitsOf v.toNat 8 5 ≤ 28 then s.wr
      F.SCH_PART_CFG_B_SLOTS 0 n (bitsOf v.toNat 8 5) else s) ∧ bitsOf v.toNat 0 2 = s.rd F.SCH_PART_CFG_OP_FLOOR 0 n) ∧
    (∃ (v : Word) (n : Nat) (s : State) (u : State), s.live 0x005 = true ∧ n = s.rd F.SCH_PART_SEL 0 0 ∧ u = (if bitsOf v.toNat 8 5 ≤ 28 then s.wr
      F.SCH_PART_CFG_B_SLOTS 0 n (bitsOf v.toNat 8 5) else s) ∧ s.rd F.SCH_PART_CFG_OP_FLOOR 0 n < bitsOf v.toNat 0 2 ∧ u.capAt n (bitsOf v.toNat 0
      2) / 4 < u.rd F.SCH_PART_URG_BUDGET 0 n) ∧
    (∃ (v : Word) (n : Nat) (s : State) (u : State), s.live 0x005 = true ∧ n = s.rd F.SCH_PART_SEL 0 0 ∧ u = (if bitsOf v.toNat 8 5 ≤ 28 then s.wr
      F.SCH_PART_CFG_B_SLOTS 0 n (bitsOf v.toNat 8 5) else s) ∧ s.rd F.SCH_PART_CFG_OP_FLOOR 0 n < bitsOf v.toNat 0 2 ∧ u.rd F.SCH_PART_URG_BUDGET 0
      n ≤ u.capAt n (bitsOf v.toNat 0 2) / 4) ∧
    (∃ (v : Word) (n : Nat) (s : State) (u : State), s.live 0x005 = true ∧ n = s.rd F.SCH_PART_SEL 0 0 ∧ u = (if bitsOf v.toNat 8 5 ≤ 28 then s.wr
      F.SCH_PART_CFG_B_SLOTS 0 n (bitsOf v.toNat 8 5) else s) ∧ bitsOf v.toNat 0 2 < s.rd F.SCH_PART_CFG_OP_FLOOR 0 n) ∧
    (∃ (v : Word) (s : State), s.live 0x003 = true) ∧
    (∃ (o : Fin 13) (s : State), s.supplyOn o = true ∧ s.pwr.folded.all (fun x => x.1 != o.val) = true) ∧
    (∃ (o : Fin 13) (ok : Bool) (s : State), s.pwr.folded.any (fun x => x.1 == o.val && decide (x.2 + 100000000 ≤ s.now)) = true) :=
  ⟨⟨0xFFFFFFFF, R, by decide +kernel⟩,
   ⟨2, 3, { step := some (1, 3) }, { R with pwr := { R.pwr with groups := [{}, {}, { step := some (1, 3) }] } }, by decide +kernel⟩,
   ⟨0x1C03, 15, R.wr F.SCH_PART_SEL 0 0 15, (R.wr F.SCH_PART_SEL 0 0 15).wr F.SCH_PART_CFG_B_SLOTS 0 15 28, by decide +kernel⟩,
   ⟨0x1D03, 15, ((R.wr F.SCH_PART_SEL 0 0 15).wr F.SCH_PART_CFG_OP_FLOOR 0 15 0).wr F.SCH_PART_URG_BUDGET 0 15 1, ((R.wr F.SCH_PART_SEL 0 0 15).wr
     F.SCH_PART_CFG_OP_FLOOR 0 15 0).wr F.SCH_PART_URG_BUDGET 0 15 1, by decide +kernel⟩,
   ⟨0x1D03, 15, (R.wr F.SCH_PART_SEL 0 0 15).wr F.SCH_PART_CFG_OP_FLOOR 0 15 0, (R.wr F.SCH_PART_SEL 0 0 15).wr F.SCH_PART_CFG_OP_FLOOR 0 15 0,
     by decide +kernel⟩,
   ⟨0x1D00, 15, R.wr F.SCH_PART_SEL 0 0 15, R.wr F.SCH_PART_SEL 0 0 15, by decide +kernel⟩,
   ⟨0xFFFFFFFF, R, by decide +kernel⟩,
   ⟨12, R, by decide +kernel⟩,
   ⟨12, true, { { R with pwr := { R.pwr with folded := [(12, 0)] } } with now := 100000000 }, by decide +kernel⟩⟩

/-- What each clause of `InterruptMessages` assumes holds together of some state and operands. -/
theorem witnesses_InterruptMessages :
    (∃ (v : Fin 64) (s : State), s.msixLive v = true ∧ s.host.sent.contains v.val = false ∧ s.msixMasked v = false ∧ s.host.lastMsg.any (fun x => x.1
      == v.val && decide (s.now < x.2 + s.rd F.IA_VEC_CFG_COAL_US 0 v * 1000)) = false) ∧
    (∃ (v : Fin 64) (s : State), s.msixLive v = true ∧ s.host.sent.contains v.val = false ∧ s.msixMasked v = true) ∧
    (∃ (v : Fin 64) (s : State), s.live 0x0B0 = true ∧ bitOf (s.rd F.PCIE_PBA 0 0) v = true ∧ s.rdB F.PCIE_LINK_STAT_DL_UP 0 0 = true ∧ s.msixLive v
      = true ∧ s.host.lastMsg.any (fun x => x.1 == v.val && decide (s.now < x.2 + s.rd F.IA_VEC_CFG_COAL_US 0 v * 1000)) = false) ∧
    (∃ (v : Fin 64) (s : State), s.live 0x0B0 = true ∧ bitOf (s.rd F.PCIE_PBA 0 0) v = false) ∧
    (∃ (v : Fin 64) (w : Word) (s : State), s.live 0x007 = true ∧ w.toNat % 2 = 1 ∧ s.msixLive v = true ∧ s.msixMasked v = false ∧ s.host.lastMsg.any
      (fun x => x.1 == v.val && decide (s.now < x.2 + s.rd F.IA_VEC_CFG_COAL_US 0 v * 1000)) = false) ∧
    (∃ (v : Fin 64) (w : Word) (s : State), s.live 0x007 = true ∧ w.toNat % 2 = 1 ∧ s.msixLive v = false) ∧
    (∃ (v : Fin 64) (w : Word) (s : State), s.live 0x007 = true ∧ w.toNat % 2 = 0) :=
  ⟨⟨63, MS, by decide +kernel⟩,
   ⟨63, MS.wr F.PCIE_MSIX_CTRL 0 63 1, by decide +kernel⟩,
   ⟨63, MS.wr F.PCIE_PBA 0 0 0x8000000000000000, by decide +kernel⟩,
   ⟨63, MS, by decide +kernel⟩,
   ⟨63, 1, MS, by decide +kernel⟩,
   ⟨63, 1, RF, by decide +kernel⟩,
   ⟨63, 2, RF, by decide +kernel⟩⟩

/-- What each clause of `PcieAndEthernetPorts` assumes holds together of some state and operands. -/
theorem witnesses_PcieAndEthernetPorts :
    (∃ (s : State), s.pcieOn = true) ∧
    (∃ (s : State), s.rdB F.PCIE_LINK_STAT_DL_UP 0 0 = true) ∧
    (∃ (sp : BitVec 3) (w : BitVec 3) (s : State), s.pcieOn = true ∧ s.rdB F.PCIE_LINK_STAT_DL_UP 0 0 = false ∧ 1 ≤ sp.toNat ∧ sp.toNat ≤ 4 ∧
      sp.toNat ≤ s.rd F.PCIE_LINK_CFG_MAX_SPEED 0 0 ∧ (w.toNat = 1 ∨ w.toNat = 2 ∨ w.toNat = 4) ∧ w.toNat ≤ s.rd F.PCIE_LINK_CFG_MAX_WIDTH 0 0) ∧
    (∃ (p : Fin 2) (bs : List Byte) (s : State), s.ethOn p = true ∧ s.rdB F.ETH_MAC_CFG_EN p 0 = true ∧ s.rdB F.ETH_PHY_STAT_LINK p 0 = true) ∧
    (∃ (p : Fin 2) (bs : List Byte) (s : State), s.ethOn p = true ∧ s.rdB F.ETH_MAC_CFG_EN p 0 = true ∧ s.rdB F.ETH_PHY_STAT_LINK p 0 = true ∧
      (bs.length + 4 < 64 ∨ s.rd F.ETH_MTU p 0 < bs.length + 4)) ∧
    (∃ (p : Fin 2) (bs : List Byte) (s : State), s.ethOn p = true ∧ s.rdB F.ETH_MAC_CFG_EN p 0 = true ∧ s.rdB F.ETH_PHY_STAT_LINK p 0 = true ∧ 64 ≤
      bs.length + 4 ∧ bs.length + 4 ≤ s.rd F.ETH_MTU p 0 ∧ ethType bs = 0x8808) ∧
    (∃ (p : Fin 2) (bs : List Byte) (s : State), s.ethOn p = true ∧ s.rdB F.ETH_MAC_CFG_EN p 0 = true ∧ s.rdB F.ETH_PHY_STAT_LINK p 0 = true ∧ 64 ≤
      bs.length + 4 ∧ bs.length + 4 ≤ s.rd F.ETH_MTU p 0 ∧ ethType bs ≠ 0x8808 ∧ s.ethAccepts p bs = false) ∧
    (∃ (p : Fin 2) (bs : List Byte) (s : State), s.ethOn p = true ∧ s.rdB F.ETH_MAC_CFG_EN p 0 = true ∧ s.rdB F.ETH_PHY_STAT_LINK p 0 = true ∧ 64 ≤
      bs.length + 4 ∧ bs.length + 4 ≤ s.rd F.ETH_MTU p 0 ∧ ethType bs ≠ 0x8808 ∧ s.ethAccepts p bs = true ∧ s.rd F.ETH_RX_HEAD p 0 = s.rd
      F.ETH_RX_TAIL p 0) ∧
    (∃ (p : Fin 2) (bs : List Byte) (d : List Byte) (da : Nat) (s : State) (s1 : State) (s2 : State) (s3 : State) (s4 : State), s.ethOn p = true ∧
      s.rdB F.ETH_MAC_CFG_EN p 0 = true ∧ s.rdB F.ETH_PHY_STAT_LINK p 0 = true ∧ 64 ≤ bs.length + 4 ∧ bs.length + 4 ≤ s.rd F.ETH_MTU p 0 ∧ ethType bs
      ≠ 0x8808 ∧ s.ethAccepts p bs = true ∧ s.rd F.ETH_RX_HEAD p 0 ≠ s.rd F.ETH_RX_TAIL p 0 ∧ da = s.rd F.ETH_RX_BASE p 0 + s.rd F.ETH_RX_HEAD p 0 %
      ringLen (s.rd F.ETH_RING_LOG2_RX p 0) * 32 ∧ s.dmaRead p da 16 = (s1, some d) ∧ bs.length ≤ leAt d 8 2 ∧ s1.dmaWrite p (leAt d 0 6) bs = (s2,
      true) ∧ s2.dmaWrite p (da + 8) (toBytes 2 bs.length ++ [BitVec.ofNat 8 (b2n (isPtp bs))]) = (s3, true) ∧ s3.dmaWrite p (da + 16) (toBytes 8
      s.si ++ [0#8]) = (s4, true)) ∧
    (∃ (p : Fin 2) (v : Word) (s : State), s.live (0x0B1 + p.val) = true ∧ (v.toNat % 65536 + 65536 - s.rd F.ETH_TX_TAIL p 0) % 65536 ≤ ringLen (s.rd
      F.ETH_RING_LOG2_TX p 0) ∧ (v.toNat % 65536 + 65536 - s.rd F.ETH_TX_HEAD p 0) % 65536 ≤ ringLen (s.rd F.ETH_RING_LOG2_TX p 0)) ∧
    (∃ (p : Fin 2) (v : Word) (s : State), s.live (0x0B1 + p.val) = true ∧ ringLen (s.rd F.ETH_RING_LOG2_TX p 0) < (v.toNat % 65536 + 65536 - s.rd
      F.ETH_TX_TAIL p 0) % 65536) ∧
    (∃ (p : Fin 2) (v : Word) (s : State), s.live (0x0B1 + p.val) = true ∧ (v.toNat % 65536 + 65536 - s.rd F.ETH_RX_TAIL p 0) % 65536 ≤ ringLen (s.rd
      F.ETH_RING_LOG2_RX p 0) ∧ (v.toNat % 65536 + 65536 - s.rd F.ETH_RX_HEAD p 0) % 65536 ≤ ringLen (s.rd F.ETH_RING_LOG2_RX p 0)) ∧
    (∃ (p : Fin 2) (v : Word) (s : State), s.live (0x0B1 + p.val) = true ∧ ringLen (s.rd F.ETH_RING_LOG2_RX p 0) < (v.toNat % 65536 + 65536 - s.rd
      F.ETH_RX_TAIL p 0) % 65536) ∧
    (∃ (p : Fin 2) (bs : List Byte) (d : List Byte) (da : Nat) (s : State) (s1 : State) (s2 : State) (s3 : State), s.ethOn p = true ∧ s.rdB
      F.ETH_MAC_CFG_EN p 0 = true ∧ s.rdB F.ETH_PHY_STAT_LINK p 0 = true ∧ s.rd F.ETH_TX_HEAD p 0 ≠ s.rd F.ETH_TX_TAIL p 0 ∧ da = s.rd F.ETH_TX_BASE
      p 0 + s.rd F.ETH_TX_HEAD p 0 % ringLen (s.rd F.ETH_RING_LOG2_TX p 0) * 32 ∧ s.dmaRead p da 16 = (s1, some d) ∧ 64 ≤ leAt d 8 2 + 4 ∧ leAt d 8 2
      + 4 ≤ s.rd F.ETH_MTU p 0 ∧ bitOf (leAt d 10 1) 0 = false ∧ bitOf (leAt d 10 1) 1 = false ∧ s1.dmaRead p (leAt d 0 6) (leAt d 8 2) = (s2, some
      bs) ∧ ((s2.emit (.ethTx p bs s.si)).addW F.ETH_TX_FRAMES p 0 1).dmaWrite p (da + 24) [0#8] = (s3, true)) ∧
    (∃ (p : Fin 2) (sp : Fin 3) (s : State), s.ethOn p = true ∧ s.rd F.ETH_PHY_STAT_SPEED p 0 ≠ sp ∧ (sp.val = 0 ∨ s.rd F.ETH_MAC_CFG_SPEED p 0 = 0 ∨
      s.rd F.ETH_MAC_CFG_SPEED p 0 = sp)) :=
  ⟨⟨PADS, by decide +kernel⟩,
   ⟨RF.wr F.PCIE_LINK_STAT_DL_UP 0 0 1, by decide +kernel⟩,
   ⟨4, 4, PADS, by decide +kernel⟩,
   ⟨1, fr60, ET, by decide +kernel⟩,
   ⟨1, [1#8], ET, by decide +kernel⟩,
   ⟨1, image 60 [(12, 2, 0x0888)], ET, by decide +kernel⟩,
   ⟨1, image 60 [(12, 2, 0x0008), (0, 6, 2)], ET.wr F.ETH_MAC_CFG_PROMISC 1 0 0, by decide +kernel⟩,
   ⟨1, fr60, ET, by decide +kernel⟩,
   ⟨1, fr60, image 16 [(0, 6, 0x100), (8, 2, 60)], 0, ETd, (ETd.dmaRead 1 0 16).1, ((ETd.dmaRead 1 0 16).1.dmaWrite 1 0x100 fr60).1, (((ETd.dmaRead 1
     0 16).1.dmaWrite 1 0x100 fr60).1.dmaWrite 1 8 (toBytes 2 60 ++ [0#8])).1, ((((ETd.dmaRead 1 0 16).1.dmaWrite 1 0x100 fr60).1.dmaWrite 1 8
     (toBytes 2 60 ++ [0#8])).1.dmaWrite 1 16 (toBytes 8 0 ++ [0#8])).1, by decide +kernel⟩,
   ⟨1, 0xFFFF0010, ET, by decide +kernel⟩,
   ⟨1, 0x11, ET, by decide +kernel⟩,
   ⟨1, 0x10, ET, by decide +kernel⟩,
   ⟨1, 0x11, ET, by decide +kernel⟩,
   ⟨1, List.replicate 60 0#8, image 16 [(0, 6, 0x100), (8, 2, 60)], 0, ETd, (ETd.dmaRead 1 0 16).1, ((ETd.dmaRead 1 0 16).1.dmaRead 1 0x100 60).1,
     (((((ETd.dmaRead 1 0 16).1.dmaRead 1 0x100 60).1.emit (.ethTx 1 (List.replicate 60 0#8) 0)).addW F.ETH_TX_FRAMES 1 0 1).dmaWrite 1 24 [0#8]).1,
     by decide +kernel⟩,
   ⟨1, 2, PADS, by decide +kernel⟩⟩

/-- What each clause of `TimeInputsUartsAndGpio` assumes holds together of some state and operands. -/
theorem witnesses_TimeInputsUartsAndGpio :
    (∃ (p : Fin 2) (v : Word) (s : State), s.live (0x0B1 + p.val) = true) ∧
    (∃ (p : Fin 2) (s : State), s.host.ptpAt.any (fun x => x.1 == p.val && decide (x.2 + max 1 (s.rd F.ETH_PTP_QUAL_TIMEOUT p 0) * 1000000000 ≤
      s.now)) = true) ∧
    (∃ (r : Bool) (s : State), s.gnssOn = true ∧ s.rdB F.ETH_PPS_CFG_EN 0 0 = true ∧ r ≠ s.rdB F.ETH_PPS_CFG_POL 0 0 ∧ (∀ u, s.host.ppsAt = some u →
      u + 1500000000 ≤ s.now ∨ (u + 999000000 ≤ s.now ∧ s.now ≤ u + 1001000000))) ∧
    (∃ (r : Bool) (u : Nat) (s : State), s.gnssOn = true ∧ s.rdB F.ETH_PPS_CFG_EN 0 0 = true ∧ r ≠ s.rdB F.ETH_PPS_CFG_POL 0 0 ∧ s.host.ppsAt = some
      u ∧ s.now < u + 1500000000 ∧ (s.now < u + 999000000 ∨ u + 1001000000 < s.now)) ∧
    (∃ (u : Nat) (s : State), s.orr.ppsLive = true ∧ s.host.ppsAt = some u ∧ u + 1500000000 ≤ s.now) ∧
    (∃ (b : Byte) (s : State), s.gnssOn = true ∧ s.host.gnRx.length < 4096) ∧
    (∃ (b : Byte) (s : State), s.gnssOn = true ∧ 4096 ≤ s.host.gnRx.length) ∧
    (∃ (v : Word) (s : State), s.live 0x0B1 = true ∧ s.host.gnTx.length < 4096) ∧
    (∃ (v : Word) (s : State), s.live 0x0B1 = true ∧ 4096 ≤ s.host.gnTx.length) ∧
    (∃ (b : Byte) (s : State), s.hioOn = true ∧ s.rdB F.HIO_HU_CFG_EN 0 0 = true) ∧
    (∃ (b : Byte) (s : State), s.hioOn = true ∧ s.rdB F.HIO_HU_CFG_EN 0 0 = true ∧ s.host.huRx.length < 4096) ∧
    (∃ (b : Byte) (s : State), s.hioOn = true ∧ s.rdB F.HIO_HU_CFG_EN 0 0 = true ∧ 4096 ≤ s.host.huRx.length) ∧
    (∃ (v : Word) (s : State), s.live 0x0B4 = true ∧ s.host.huTx.length < 4096) ∧
    (∃ (v : Word) (s : State), s.live 0x0B4 = true ∧ 4096 ≤ s.host.huTx.length) ∧
    (∃ (b : Byte) (l : List Byte) (s : State), s.host.gnTx = b :: l ∧ s.gnssOn = true) ∧
    (∃ (b : Byte) (l : List Byte) (s : State), s.host.huTx = b :: l ∧ s.hioOn = true ∧ s.rdB F.HIO_HU_CFG_EN 0 0 = true) ∧
    (∃ (n : Fin 11) (s : State), s.hioOn = true ∧ bitOf (s.rd F.HIO_GPIO_OE 0 0) n = false ∧ bitOf (s.rd F.HIO_GPIO_RISE_EN 0 0) n = true ∧
      s.gpioLevel n = false) :=
  ⟨⟨1, 0xFFFFFFFF, R, by decide +kernel⟩,
   ⟨1, { { PADS with host := { R.host with ptpAt := [(1, 0)] } } with now := 20000000000 }, by decide +kernel⟩,
   ⟨true, { { (PADS.wr F.ETH_PPS_CFG_EN 0 0 1) with host := { R.host with ppsAt := some 0 } } with now := 1001000000 }, by decide +kernel,
     by decide +kernel, by decide +kernel, by intro u h; cases h; right; decide +kernel⟩,
   ⟨true, 0, { { (PADS.wr F.ETH_PPS_CFG_EN 0 0 1) with host := { R.host with ppsAt := some 0 } } with now := 1001000001 }, by decide +kernel⟩,
   ⟨0, { { (PADS.wr F.ETH_PPS_CFG_EN 0 0 1) with host := { R.host with ppsAt := some 0 } } with now := 1500000000, orr := { R.orr with ppsLive := true } },
     by decide +kernel⟩,
   ⟨7, { PADS with host := { R.host with gnRx := List.replicate 4095 1 } }, by decide +kernel⟩,
   ⟨7, { PADS with host := { R.host with gnRx := List.replicate 4096 1 } }, by decide +kernel⟩,
   ⟨0x1FF, { PADS with host := { R.host with gnTx := List.replicate 4095 1 } }, by decide +kernel⟩,
   ⟨0x1FF, { PADS with host := { R.host with gnTx := List.replicate 4096 1 } }, by decide +kernel⟩,
   ⟨7, (PADS.wr F.HIO_HU_CFG_EN 0 0 1), by decide +kernel⟩,
   ⟨7, { (PADS.wr F.HIO_HU_CFG_EN 0 0 1) with host := { R.host with huRx := List.replicate 4095 1 } }, by decide +kernel⟩,
   ⟨7, { (PADS.wr F.HIO_HU_CFG_EN 0 0 1) with host := { R.host with huRx := List.replicate 4096 1 } }, by decide +kernel⟩,
   ⟨0x1FF, { PADS with host := { R.host with huTx := List.replicate 4095 1 } }, by decide +kernel⟩,
   ⟨0x1FF, { PADS with host := { R.host with huTx := List.replicate 4096 1 } }, by decide +kernel⟩,
   ⟨7, [], { PADS with host := { R.host with gnTx := [7] } }, by decide +kernel⟩,
   ⟨7, [8], { (PADS.wr F.HIO_HU_CFG_EN 0 0 1) with host := { R.host with huTx := [7, 8] } }, by decide +kernel⟩,
   ⟨10, PADS.wr F.HIO_GPIO_RISE_EN 0 0 0x400, by decide +kernel⟩⟩

/-- What each clause of `BootAndReady` assumes holds together of some state and operands. -/
theorem witnesses_BootAndReady :
    (∃ (s : State), s.pwr.mainOn = true ∧ s.rd F.FW_STATE_STATE 0 0 = 0 ∧ s.rstCause ≠ 4 ∧ s.bootSources.1 = false ∧ s.rdB F.TV_STAT_LARDER_INIT_DONE
      0 0 = true) ∧
    (∃ (s : State), s.pwr.mainOn = true ∧ s.rd F.FW_STATE_STATE 0 0 = 0 ∧ s.rstCause ≠ 4 ∧ s.bootSources.1 = true ∧ s.bootRec.trial = false) ∧
    (∃ (v : Word) (o : Nat) (l : Nat) (s : State), s.live 0x0D0 = true ∧ v.toNat % 2 = 1 ∧ s.rd F.FW_STATE_STATE 0 0 = 1 ∧ o = s.rd
      F.FW_HOST_LOAD_OFS 0 0 ∧ l = s.rd F.FW_HOST_LOAD_LEN 0 0 ∧ (o % 4096 ≠ 0 ∨ 0x1000000 < o + l)) ∧
    (∃ (v : Word) (o : Nat) (l : Nat) (img : List Byte) (s : State), s.live 0x0D0 = true ∧ v.toNat % 2 = 1 ∧ s.rd F.FW_STATE_STATE 0 0 = 1 ∧ o = s.rd
      F.FW_HOST_LOAD_OFS 0 0 ∧ l = s.rd F.FW_HOST_LOAD_LEN 0 0 ∧ o % 4096 = 0 ∧ o + l ≤ 0x1000000 ∧ s.peek (larderBase + o) l = some (img, false)) ∧
    (∃ (b : FwBoot) (s : State), s.pwr.mainOn = true ∧ s.rstCause ≠ 4 ∧ s.rd F.FW_STATE_STATE 0 0 = 3 ∧ s.fw.cmd = none) ∧
    (∃ (b : FwBoot) (s : State), s.pwr.mainOn = true ∧ s.rstCause = 4 ∧ s.rd F.FW_STATE_STATE 0 0 = 0 ∧ s.fw.cmd = none) :=
  ⟨⟨R.wr F.SEC_STRAP_BOOTSEL 0 0 1 |>.wr F.TV_STAT_LARDER_INIT_DONE 0 0 1, by decide +kernel⟩,
   ⟨R, by decide +kernel⟩,
   ⟨1, 1, 0, (R.wr F.FW_STATE_STATE 0 0 1).wr F.FW_HOST_LOAD_OFS 0 0 1, by decide +kernel⟩,
   ⟨1, 0, 64, List.replicate 64 0#8, (R.wr F.FW_STATE_STATE 0 0 1).wr F.FW_HOST_LOAD_LEN 0 0 64, by decide +kernel⟩,
   ⟨boot0, R.wr F.FW_STATE_STATE 0 0 3, by decide +kernel⟩,
   ⟨boot0, R.wr F.SYS_RST_CAUSE_CAUSE 0 0 4, by decide +kernel⟩⟩

set_option maxRecDepth 10000 in
/-- What each clause of `MailboxCommands` assumes holds together of some state and operands. -/
theorem witnesses_MailboxCommands :
    (∃ (c : Instr) (src : Src) (s : State), (c = .info src ∨ (∃ l, c = .updBegin src l) ∨ (∃ o a l, c = .updWrite src o a l) ∨ c = .updVerify src ∨ c
      = .updActivateNextBoot src ∨ c = .updActivateLive src ∨ c = .updConfirm src ∨ c = .updRevert src ∨ c = .updAbort src ∨ c = .reboot src ∨ ∃ v, c
      = .tapLock src v) ∧ s.live 0x0D0 = true ∧ (s.mbPermits src = false ∨ s.rdB F.FW_MB_STAT_BUSY 0 0 = true)) ∧
    (∃ (src : Src) (s : State), s.live 0x0D0 = true ∧ s.mbPermits src = true ∧ s.rdB F.FW_MB_STAT_BUSY 0 0 = false ∧ s.fwReady = true) ∧
    (∃ (src : Src) (l : Word) (s : State), s.live 0x0D0 = true ∧ s.mbPermits src = true ∧ s.rdB F.FW_MB_STAT_BUSY 0 0 = false ∧ s.fwReady = true ∧
      s.updBlocked = true) ∧
    (∃ (src : Src) (l : Word) (s : State), s.live 0x0D0 = true ∧ s.mbPermits src = true ∧ s.rdB F.FW_MB_STAT_BUSY 0 0 = false ∧ s.fwReady = true ∧
      s.updBlocked = false ∧ s.rdB F.PWR_PS_STAT_BUSY 0 0 = false ∧ (l.toNat = 0 ∨ l.toNat % 4096 ≠ 0 ∨ imageMax < l.toNat)) ∧
    (∃ (src : Src) (l : Word) (s : State), s.live 0x0D0 = true ∧ s.mbPermits src = true ∧ s.rdB F.FW_MB_STAT_BUSY 0 0 = false ∧ s.fwReady = true ∧
      s.updBlocked = false ∧ s.rdB F.PWR_PS_STAT_BUSY 0 0 = false ∧ 0 < l.toNat ∧ l.toNat % 4096 = 0 ∧ l.toNat ≤ imageMax ∧ s.flashHeld = false) ∧
    (∃ (src : Src) (o : Word) (l : Word) (ad : BitVec 64) (s : State), s.live 0x0D0 = true ∧ s.mbPermits src = true ∧ s.rdB F.FW_MB_STAT_BUSY 0 0 =
      false ∧ s.fwReady = true ∧ s.slotStat s.targetSlot = 1 ∧ (o.toNat % 4096 ≠ 0 ∨ l.toNat % 4096 ≠ 0 ∨ 0x400000 < l.toNat)) ∧
    (∃ (src : Src) (o : Word) (l : Word) (ad : BitVec 64) (s : State), s.live 0x0D0 = true ∧ s.mbPermits src = true ∧ s.rdB F.FW_MB_STAT_BUSY 0 0 =
      false ∧ s.fwReady = true ∧ s.slotStat s.targetSlot = 1 ∧ o.toNat % 4096 = 0 ∧ 4096 ≤ o.toNat ∧ l.toNat % 4096 = 0 ∧ l.toNat ≤ 0x400000 ∧
      o.toNat + l.toNat ≤ slotSize ∧ updSource ad.toNat l.toNat = true ∧ s.flashHeld = false) ∧
    (∃ (c : Instr) (n : Nat) (src : Src) (s : State), ((c = .updVerify src ∧ n = 0x12) ∨ (c = .updAbort src ∧ n = 0x16)) ∧ s.live 0x0D0 = true ∧
      s.mbPermits src = true ∧ s.rdB F.FW_MB_STAT_BUSY 0 0 = false ∧ s.fwReady = true ∧ s.flashHeld = false) ∧
    (∃ (src : Src) (s : State), s.live 0x0D0 = true ∧ s.mbPermits src = true ∧ s.rdB F.FW_MB_STAT_BUSY 0 0 = false ∧ s.fwReady = true ∧ s.updBlocked
      = false ∧ s.slotStat s.targetSlot = 2 ∧ s.flashHeld = false) ∧
    (∃ (src : Src) (s : State), s.live 0x0D0 = true ∧ s.mbPermits src = true ∧ s.rdB F.FW_MB_STAT_BUSY 0 0 = false ∧ s.fwReady = true ∧ s.updBlocked
      = false ∧ s.slotStat s.targetSlot = 2 ∧ s.rdB F.PWR_PS_STAT_BUSY 0 0 = false) ∧
    (∃ (src : Src) (s : State), s.live 0x0D0 = true ∧ s.mbPermits src = true ∧ s.rdB F.FW_MB_STAT_BUSY 0 0 = false ∧ s.fwReady = true ∧ (s.rd
      F.FW_STATE_SRC 0 0 = 3 ∨ (s.bootRec.trial = false ∧ s.rdB F.FW_STATE_LIVE 0 0 = false))) ∧
    (∃ (src : Src) (s : State), s.live 0x0D0 = true ∧ s.mbPermits src = true ∧ s.rdB F.FW_MB_STAT_BUSY 0 0 = false ∧ s.fwReady = true ∧ s.rd
      F.FW_STATE_SRC 0 0 ≠ 3 ∧ s.flashHeld = false ∧ s.rdB F.FW_STATE_LIVE 0 0 = true) ∧
    (∃ (src : Src) (s : State), s.live 0x0D0 = true ∧ s.mbPermits src = true ∧ s.rdB F.FW_MB_STAT_BUSY 0 0 = false ∧ s.fwReady = true ∧ s.rd
      F.FW_STATE_SRC 0 0 ≠ 3 ∧ s.flashHeld = false ∧ s.rdB F.FW_STATE_LIVE 0 0 = false ∧ s.bootRec.trial = true ∧ s.rdB F.FW_STATE_TRIAL 0 0 = true) ∧
    (∃ (src : Src) (s : State), s.live 0x0D0 = true ∧ s.mbPermits src = true ∧ s.rdB F.FW_MB_STAT_BUSY 0 0 = false ∧ s.fwReady = true ∧ s.rdB
      F.FW_STATE_LIVE 0 0 = false ∧ s.rdB F.FW_STATE_TRIAL 0 0 = true ∧ s.bootRec.trial = true ∧ s.flashHeld = false) ∧
    (∃ (src : Src) (s : State), s.live 0x0D0 = true ∧ s.mbPermits src = true ∧ s.rdB F.FW_MB_STAT_BUSY 0 0 = false ∧ s.fwReady = true ∧ s.rdB
      F.FW_STATE_LIVE 0 0 = false ∧ s.rdB F.FW_STATE_TRIAL 0 0 = false ∧ s.updBlocked = false) ∧
    (∃ (src : Src) (s : State), s.live 0x0D0 = true ∧ s.mbPermits src = true ∧ s.rdB F.FW_MB_STAT_BUSY 0 0 = false ∧ s.fwReady = true ∧ s.ctxBusy =
      false) ∧
    (∃ (src : Src) (s : State), s.live 0x0D0 = true ∧ s.mbPermits src = true ∧ s.rdB F.FW_MB_STAT_BUSY 0 0 = false ∧ s.fwReady = true ∧ s.ctxBusy =
      true) ∧
    (∃ (src : Src) (v : Word) (s : State), s.live 0x0D0 = true ∧ s.mbPermits src = true ∧ s.rdB F.FW_MB_STAT_BUSY 0 0 = false ∧ s.fwReady = true ∧
      v.toNat = 2) ∧
    (∃ (src : Src) (v : Word) (s : State), s.live 0x0D0 = true ∧ s.mbPermits src = true ∧ s.rdB F.FW_MB_STAT_BUSY 0 0 = false ∧ s.fwReady = true ∧
      v.toNat ≠ 2) :=
  ⟨⟨Instr.info .host, .host, RF.wr F.FW_MB_STAT_BUSY 0 0 1, .inl rfl, by decide +kernel, by decide +kernel⟩,
   ⟨.host, RF, by decide +kernel⟩,
   ⟨.sous, 4096, RF.wr F.FW_STATE_SRC 0 0 2, by decide +kernel⟩,
   ⟨.pcie, 0x3000000, RF, by decide +kernel⟩,
   ⟨.host, 0x2FFF000, RF, by decide +kernel⟩,
   ⟨.host, 4096, 0x401000, 0x1000000000, writingS, by decide +kernel⟩,
   ⟨.host, 4096, 0x400000, 0x1000000000, writingS, by decide +kernel⟩,
   ⟨Instr.updAbort .host, 0x16, .host, RF, by decide +kernel⟩,
   ⟨.host, verifiedS, by decide +kernel⟩,
   ⟨.host, verifiedS, by decide +kernel⟩,
   ⟨.host, RF, by decide +kernel⟩,
   ⟨.host, RF.wr F.FW_STATE_LIVE 0 0 1, by decide +kernel⟩,
   ⟨.host, trialS, by decide +kernel⟩,
   ⟨.host, trialS, by decide +kernel⟩,
   ⟨.host, RF, by decide +kernel⟩,
   ⟨.host, RF, by decide +kernel⟩,
   ⟨.host, RF.wr F.CTX_STAT_STATE 255 0 1, by decide +kernel⟩,
   ⟨.host, 2, RF, by decide +kernel⟩,
   ⟨.host, 1, RF, by decide +kernel⟩⟩

/-- What each clause of `MailboxEndsHandoverAndTap` assumes holds together of some state and operands. -/
theorem witnesses_MailboxEndsHandoverAndTap :
    (∃ (n : Nat) (k : Nat) (l : List Nat) (s : State), s.fw.cmd = some (n, k :: l) ∧ s.fw.standby = none ∧ s.fwReady = true ∧ s.fw.acting = true) ∧
    (∃ (k : Nat) (l : List Nat) (s : State), s.fw.cmd = some (0x16, k :: l) ∧ s.fw.standby = none ∧ s.fwReady = true ∧ s.fw.acting = true) ∧
    (∃ (k : Nat) (l : List Nat) (s : State), s.fw.cmd = some (0x12, k :: l) ∧ s.fw.standby = none ∧ s.fwReady = true ∧ s.fw.acting = true) ∧
    (∃ (b : Bool) (p : BitVec 12) (s : State), s.pwr.mainOn = true ∧ s.rdB F.SCH_SCHED_STAT_HANDOVER 0 0 = false ∧ s.fwReady = true ∧
      s.fw.standby.isSome = true) ∧
    (∃ (p : BitVec 12) (k : Nat) (h : List Byte) (d : List Byte) (c : Nat × List Nat) (s : State), s.pwr.mainOn = true ∧ s.rdB
      F.SCH_SCHED_STAT_HANDOVER 0 0 = true ∧ s.fw.standby = some (k, h, d) ∧ s.fw.cmd = some c ∧ s.sch.cmds.filter (fun x => x.phase == .commit &&
      x.desc.cls != 0) = []) ∧
    (∃ (i : Fin 5) (s : State), s.pwr.mainOn = true ∧ (s.rd F.SEC_FUSE_CFG_JTAG_LOCK 0 0 = 0 ∨ i.val ≤ 1 ∨ (s.rd F.SEC_FUSE_CFG_JTAG_LOCK 0 0 = 1 ∧
      i.val ≤ 3))) ∧
    (∃ (i : Fin 5) (s : State), s.pwr.mainOn = true ∧ s.rd F.SEC_FUSE_CFG_JTAG_LOCK 0 0 ≠ 0 ∧ (3 < i.val ∨ (1 < i.val ∧ s.rd F.SEC_FUSE_CFG_JTAG_LOCK
      0 0 ≠ 1))) :=
  ⟨⟨0x11, 2, [], acting 0x11, by decide +kernel⟩,
   ⟨2, [], acting 0x16, by decide +kernel⟩,
   ⟨2, [], acting 0x12, by decide +kernel⟩,
   ⟨true, 0, { RF with fw := { RF.fw with standby := some (2, List.replicate 512 0#8, List.replicate 48 0#8), cmd := some (0x13, [2, 1]) } },
     by decide +kernel⟩,
   ⟨0xFFF, 2, List.replicate 512 0#8, List.replicate 48 0#8, (0x13, [2, 1]), ({ RF with fw := { RF.fw with standby := some (2, List.replicate 512 0#8, List.replicate 48 0#8), cmd := some (0x13, [2, 1]) } }).wr
     F.SCH_SCHED_STAT_HANDOVER 0 0 1 |>.wr F.FW_STATE_STATE 0 0 5, by decide +kernel⟩,
   ⟨3, RF, by decide +kernel⟩,
   ⟨4, RF, by decide +kernel⟩⟩

/-- What each clause of `RepairAndHealth` assumes holds together of some state and operands. -/
theorem witnesses_RepairAndHealth :
    (∃ (v : Word) (s : State), s.live 0x001 = true ∧ s.rdB F.RP_RM_STAT_BUSY 0 0 = true) ∧
    (∃ (v : Word) (k : Nat) (q : Nat) (s : State), s.live 0x001 = true ∧ s.rdB F.RP_RM_STAT_BUSY 0 0 = false ∧ k = v.toNat % 32 ∧ k < 16 ∧ s.fwReady
      = true ∧ s.rd F.RP_KMAP_STATE 0 k ≠ 3 ∧ s.rep.waiting.all (fun w => w.1 != k) = true ∧ s.spareTile = some q) ∧
    (∃ (k : Nat) (cause : Nat) (q : Nat) (l : List (Nat × Nat)) (s : State), s.fwReady = true ∧ s.rdB F.RP_RM_STAT_BUSY 0 0 = false ∧ s.rep.waiting =
      (k, cause) :: l ∧ s.spareTile = some q ∧ (s.tile (s.rd F.RP_KMAP_PHYS 0 k)).slots = [] ∧ (s.tile (s.rd F.RP_KMAP_PHYS 0 k)).canary = false) ∧
    (∃ (k : Nat) (p : Nat) (q : Nat) (s : State), k = s.rd F.RP_RM_STAT_LOGICAL 0 0 ∧ p = s.rd F.RP_RM_STAT_SRC 0 0 ∧ q = s.rd F.RP_RM_STAT_DST 0 0 ∧
      s.rdB F.RP_RM_STAT_BUSY 0 0 = true ∧ s.rd F.RP_KMAP_STATE 0 k = 1 ∧ (s.tile p).slots = []) ∧
    (∃ (k : Nat) (p : Nat) (q : Nat) (s : State), k = s.rd F.RP_RM_STAT_LOGICAL 0 0 ∧ p = s.rd F.RP_RM_STAT_SRC 0 0 ∧ q = s.rd F.RP_RM_STAT_DST 0 0 ∧
      p < 18 ∧ q < 18 ∧ p ≠ q ∧ k < 16 ∧ s.rdB F.RP_RM_STAT_BUSY 0 0 = true ∧ s.rd F.RP_KMAP_STATE 0 k = 2 ∧ Memory.wf s.mem = true) ∧
    (∃ (c : Instr) (b : Bool) (p : Fin 18) (u : UnitRepair) (j : Nat) (s : State), ((c = .columnRemap p ∧ b = false) ∨ (c = .bankRemap p ∧ b = true))
      ∧ s.rep.units.find? (fun x => x.tile == p.val && x.bank == b) = some u ∧ s.spareUnit p b = some j ∧ (s.tile p).slots = []) ∧
    (∃ (k : Nat) (p : Nat) (s : State), s.canaryNext = some k ∧ s.tileOf k = some p ∧ s.fwReady = true ∧ s.rep.canary = none ∧ (s.tile p).slots = []
      ∧ 8 ≤ (s.tile p).granuleFree) ∧
    (∃ (k : Nat) (p : Nat) (s : State), s.rep.canary = some k ∧ s.tileOf k = some p) ∧
    (∃ (k : Nat) (p : Nat) (cs : List (Fin 128)) (bs : List (Fin 32)) (s : State), s.rep.canary = some k ∧ s.tileOf k = some p ∧ s.fwReady = false) ∧
    (∃ (p : Fin 18) (m : BitVec 8) (s : State), s.tileGated p = false ∧ s.rd F.RP_AGE_CFG_FAIL 0 0 ≤ m.toNat) :=
  ⟨⟨1, RF.wr F.RP_RM_STAT_BUSY 0 0 1, by decide +kernel⟩,
   ⟨15, 15, 16, RF, by decide +kernel⟩,
   ⟨15, 3, 16, [], { RF with rep := { RF.rep with waiting := [(15, 3)] } }, by decide +kernel⟩,
   ⟨15, 15, 17, remapS 1, by decide +kernel⟩,
   ⟨15, 15, 17, remapS 2, by decide +kernel⟩,
   ⟨Instr.bankRemap 17, true, 17, { tile := 17, bank := true, unit := 31, cause := 2 }, 0, { RF with rep := { RF.rep with units := [{ tile := 17, bank := true, unit := 31, cause := 2 }] } },
     by decide +kernel⟩,
   ⟨15, 15, { RF with rep := { RF.rep with atOnce := [15] } }, by decide +kernel⟩,
   ⟨15, 15, { RF with rep := { RF.rep with canary := some 15 } }, by decide +kernel⟩,
   ⟨15, 15, [127], [31], { R with rep := { RF.rep with canary := some 15 } }, by decide +kernel⟩,
   ⟨17, 0xFF, RF, by decide +kernel⟩⟩

/-- What each clause of `BadFlitsAreDiscarded` assumes holds together of some state and operands. -/
theorem witnesses_BadFlitsAreDiscarded :
    (∃ (n : Fin 2) (bs : List Byte) (s : State), s.skOn = true ∧ s.skUp n = true ∧ (bs.length ≠ 64 ∨ leAt bs 60 4 ≠ crc32c (bs.take 60))) ∧
    (∃ (n : Fin 2) (bs : List Byte) (s : State), s.skOn = true ∧ s.skUp n = true ∧ bs.length = 64 ∧ leAt bs 60 4 = crc32c (bs.take 60) ∧ bitOf (leAt
      bs 0 2) 15 = false ∧ leAt bs 0 2 % 4096 ≠ (s.skPort n).rxSeq) :=
  ⟨⟨1, [], PUP RF, by decide +kernel⟩,
   ⟨1, flit [(0, 2, 5)], PUP RF, by decide +kernel⟩⟩

/-- What each clause of `SkewerLinks` assumes holds together of some state and operands. -/
theorem witnesses_SkewerLinks :
    (∃ (n : Fin 2) (m : Fin 8) (l : BitVec 4) (s : State), s.skOn = true ∧ s.rd F.SK_PT_STAT_STATE 0 n = 1 ∧ m.val ≠ s.skMe ∧ m.val = s.skWants n ∧
      skWidth l.toNat ≠ 0) ∧
    (∃ (n : Fin 2) (m : Fin 8) (l : BitVec 4) (s : State), s.skOn = true ∧ s.rd F.SK_PT_STAT_STATE 0 n = 1 ∧ (m.val = s.skMe ∨ m.val ≠ s.skWants n)) ∧
    (∃ (n : Fin 2) (bs : List Byte) (s : State), s.skOn = true ∧ s.skUp n = true ∧ bs.length = 64 ∧ leAt bs 60 4 = crc32c (bs.take 60) ∧ bitOf (leAt
      bs 0 2) 15 = false ∧ leAt bs 0 2 % 4096 = (s.skPort n).rxSeq ∧ bitOf (leAt bs 2 2) 12 = false ∧ bitOf (leAt bs 0 2) 14 = true ∧ leAt ((bs.drop
      8).take 52) 1 1 / 16 % 8 = s.skMe ∧ (s.skPort 0).waiting = [] ∧ (s.skPort 1).waiting = []) ∧
    (∃ (n : Fin 2) (f : SkFlit) (l : List SkFlit) (s : State), s.skOn = true ∧ s.skUp n = true ∧ (s.skPort n).kept = f :: l ∧ f.sentAt + 4000 ≤ s.now
      ∧ (f :: l).all (fun x => decide (x.resends < 8)) = true) ∧
    (∃ (n : Fin 2) (l : BitVec 4) (s : State), s.skOn = true ∧ s.skUp n = true ∧ skWidth l.toNat ≠ 0) ∧
    (∃ (n : Fin 2) (l : BitVec 4) (s : State), s.skOn = true ∧ s.skUp n = true ∧ skWidth l.toNat = 0 ∧ s.sk.txns.filter (fun x => x.port == n.val) =
      []) ∧
    (∃ (n : Fin 2) (s : State), s.skOn = true ∧ s.rd F.SK_PT_STAT_STATE 0 n = 3 ∧ (s.skPort n).retrainAt + 10000000 ≤ s.now ∧ s.sk.txns.filter (fun x
      => x.port == n.val) = []) :=
  ⟨⟨1, 1, 3, HD.wr F.SK_PT_STAT_STATE 0 1 1, by decide +kernel⟩,
   ⟨1, 2, 0, HD.wr F.SK_PT_STAT_STATE 0 1 1, by decide +kernel⟩,
   ⟨1, flit [(0, 2, 0x4000)], PUP HD, by decide +kernel⟩,
   ⟨1, { lseq := 0, bytes := [1#8], sentAt := 0, resends := 7 }, [], { (withSk (PUP HD) { HD.sk with ports := [{ num := 1, kept := [{ lseq := 0, bytes := [1#8], sentAt := 0, resends := 7 }], retrainAt := 0 }] }) with now := 4000 },
     by decide +kernel⟩,
   ⟨1, 12, PUP HD, by decide +kernel⟩,
   ⟨1, 6, PUP HD, by decide +kernel⟩,
   ⟨1, { (withSk (PUP HD) { HD.sk with ports := [{ num := 1, kept := [{ lseq := 0, bytes := [1#8], sentAt := 0, resends := 7 }], retrainAt := 0 }] }).wr F.SK_PT_STAT_STATE 0 1 3 with now := 10000000 },
     by decide +kernel⟩⟩

/-- What each clause of `TransactionsArePerformedOnce` assumes holds together of some state and operands. -/
theorem witnesses_TransactionsArePerformedOnce :
    (∃ (c : Instr) (src : Fin 8) (tag : BitVec 16) (d : SkDone) (s : State), ((∃ a l, c = .rd src tag a l) ∨ (∃ a b, c = .wr src tag a b) ∨ (∃ o w p
      v, c = .ctxWr src tag o w p v) ∨ ∃ x q, c = .skewerKill src tag x q) ∧ s.skOn = true ∧ s.skRole ≠ 0 ∧ src.val ≠ s.skMe ∧ s.sk.dropped.contains
      src.val = false ∧ s.skMember src = true ∧ s.sk.done.find? (fun x => x.src == src.val && x.tag == tag.toNat) = some d) ∧
    (∃ (c : Instr) (src : Fin 8) (tag : BitVec 16) (s : State), ((∃ a l, c = .rd src tag a l) ∨ (∃ a b, c = .wr src tag a b) ∨ (∃ o w p v, c = .ctxWr
      src tag o w p v) ∨ ∃ x q, c = .skewerKill src tag x q) ∧ s.skOn = true ∧ s.skRole ≠ 0 ∧ src.val ≠ s.skMe ∧ s.sk.dropped.contains src.val =
      false ∧ s.skMember src = true ∧ s.sk.done.find? (fun x => x.src == src.val && x.tag == tag.toNat) = none) :=
  ⟨⟨Instr.rd 7 9 0x1000000000 8, 7, 9, { src := 7, tag := 9, type := 5, data := [1#8] }, withSk HD { HD.sk with done := [{ src := 7, tag := 9, type := 5, data := [1#8] }] },
     .inl ⟨_, _, rfl⟩, by decide +kernel, by decide +kernel, by decide +kernel, by decide +kernel, by decide +kernel, by decide +kernel⟩,
   ⟨Instr.skewerKill 7 9 0x7FF 5, 7, 9, HD, .inr (.inr (.inr ⟨_, _, rfl⟩)), by decide +kernel, by decide +kernel, by decide +kernel,
     by decide +kernel, by decide +kernel, by decide +kernel⟩⟩

/-- What each clause of `CabinetMessages` assumes holds together of some state and operands. -/
theorem witnesses_CabinetMessages :
    (∃ (src : Fin 8) (tag : BitVec 16) (ctx : BitVec 11) (q : Word) (c : Cmd) (s : State), s.skOn = true ∧ s.skRole ≠ 0 ∧ src.val ≠ s.skMe ∧
      s.sk.dropped.contains src.val = false ∧ s.skMember src = true ∧ s.sk.done.find? (fun x => x.src == src.val && x.tag == tag.toNat) = none ∧
      s.sch.cmds.find? (fun x => x.ctx == ctx.toNat && x.desc.seq == q.toNat && s.sk.deleg.any (fun d => d.id == x.id) && x.phase != .commit &&
      x.phase != .prov) = some c) ∧
    (∃ (ctx : BitVec 11) (part : Fin 16) (n : Byte) (r : Byte) (ks : List (Fin 16)) (bs : List Byte) (c : Cmd) (s : State), s.skOn = true ∧ s.skRole
      = 2 ∧ s.skMe ≠ 0 ∧ s.sk.dropped.contains 0 = false ∧ s.skMember 0 = true ∧ s.sk.deleg.find? (fun x => x.ctx == ctx.toNat && x.seq == (parseDesc
      bs).seq && x.attempt == n.toNat) = none ∧ s.sch.cmds.find? (fun x => x.ctx == ctx.toNat && x.desc.seq == (parseDesc bs).seq && x.phase ==
      .away) = some c ∧ (parseDesc bs).opcode ≠ 1) ∧
    (∃ (src : Fin 8) (ctx : BitVec 11) (part : Fin 16) (n : Byte) (r : Byte) (ks : List (Fin 16)) (bs : List Byte) (d : SkDeleg) (s : State), s.skOn
      = true ∧ s.skRole ≠ 0 ∧ src.val ≠ s.skMe ∧ s.sk.dropped.contains src.val = false ∧ s.skMember src = true ∧ s.sk.deleg.find? (fun x => x.ctx ==
      ctx.toNat && x.seq == (parseDesc bs).seq && x.attempt == n.toNat) = some d) ∧
    (∃ (src : Fin 8) (tag : BitVec 16) (x : SkTxn) (bs : List Byte) (s : State) (u : State), s.skOn = true ∧ s.skRole ≠ 0 ∧ src.val ≠ s.skMe ∧
      s.sk.dropped.contains src.val = false ∧ s.skMember src = true ∧ s.sk.txns.find? (fun y => y.dest == src.val && y.tag == tag.toNat) = some x ∧ u
      = { s with sk := { s.sk with txns := s.sk.txns.filter (fun y => !(y.dest == src.val && y.tag == tag.toNat)) } }) ∧
    (∃ (src : Fin 8) (tag : BitVec 16) (x : SkTxn) (bs : List Byte) (s : State) (u : State) (id : Nat) (c : Cmd), s.skOn = true ∧ s.skRole ≠ 0 ∧
      src.val ≠ s.skMe ∧ s.sk.dropped.contains src.val = false ∧ s.skMember src = true ∧ s.sk.txns.find? (fun y => y.dest == src.val && y.tag ==
      tag.toNat) = some x ∧ u = { s with sk := { s.sk with txns := s.sk.txns.filter (fun y => !(y.dest == src.val && y.tag == tag.toNat)) } } ∧ x.cmd
      = some id ∧ x.type = 0 ∧ s.cmd id = some c ∧ c.phase = .running) ∧
    (∃ (src : Fin 8) (tag : BitVec 16) (x : SkTxn) (bs : List Byte) (s : State) (u : State), s.skOn = true ∧ s.skRole ≠ 0 ∧ src.val ≠ s.skMe ∧
      s.sk.dropped.contains src.val = false ∧ s.skMember src = true ∧ s.sk.txns.find? (fun y => y.dest == src.val && y.tag == tag.toNat) = some x ∧ u
      = { s with sk := { s.sk with txns := s.sk.txns.filter (fun y => !(y.dest == src.val && y.tag == tag.toNat)) } } ∧ x.cmd = none) ∧
    (∃ (src : Fin 8) (ctx : BitVec 11) (q : Word) (b : Word) (disp : Byte) (pl : BitVec 16) (c : Cmd) (s : State), s.skOn = true ∧ s.skRole ≠ 0 ∧
      src.val ≠ s.skMe ∧ s.sk.dropped.contains src.val = false ∧ s.skMember src = true ∧ s.sch.cmds.find? (fun x => x.ctx == ctx.toNat && x.desc.seq
      == q.toNat && x.phase == .away) = some c) ∧
    (∃ (src : Fin 8) (ctx : BitVec 11) (q : Word) (b : Word) (disp : Byte) (pl : BitVec 16) (s : State), s.skOn = true ∧ s.skRole = 1 ∧ src.val ≠
      s.skMe ∧ s.sk.dropped.contains src.val = false ∧ s.skMember src = true ∧ s.sch.cmds.find? (fun x => x.ctx == ctx.toNat && x.desc.seq == q.toNat
      && x.phase == .away) = none) ∧
    (∃ (src : Fin 8) (ctx : BitVec 11) (part : Fin 16) (bs : List Byte) (s : State), s.skOn = true ∧ s.skRole = 1 ∧ src.val ≠ s.skMe ∧ s.skMember src
      = true ∧ ctx.toNat / 256 = src.val ∧ (parseDesc bs).cls ≠ 0) ∧
    (∃ (n : Fin 2) (g : Byte) (q : Byte) (s : State), s.skOn = true ∧ s.skRole = 2 ∧ s.skUp n = true) ∧
    (∃ (s : State), s.skOn = true ∧ s.skRole = 2 ∧ (∀ u, s.sk.timeAt = some u → u + 131072 * s.siPerUnit / 19660800 ≤ s.now)) ∧
    (∃ (n : Fin 2) (l : BitVec 16) (s : State), s.skOn = true ∧ s.skUp n = true) ∧
    (∃ (c : Instr) (w : Nat) (src : Src) (v : Word) (s : State), ((c = .cabDoorbell src v ∧ w = 0) ∨ (c = .cabLease src v ∧ w = 1) ∨ (c = .cabCqhead
      src v ∧ w = 2)) ∧ s.live 0x0C0 = true ∧ s.skRole ≠ 1) ∧
    (∃ (c : Instr) (w : Nat) (src : Src) (v : Word) (s : State), ((c = .cabDoorbell src v ∧ w = 0) ∨ (c = .cabLease src v ∧ w = 1) ∨ (c = .cabCqhead
      src v ∧ w = 2)) ∧ s.live 0x0C0 = true ∧ s.skRole = 1 ∧ bitsOf v.toNat 0 11 / 256 = s.skMe) ∧
    (∃ (c : Instr) (w : Nat) (src : Src) (v : Word) (s : State), ((c = .cabDoorbell src v ∧ w = 0) ∨ (c = .cabLease src v ∧ w = 1) ∨ (c = .cabCqhead
      src v ∧ w = 2)) ∧ s.live 0x0C0 = true ∧ s.skRole = 1 ∧ bitsOf v.toNat 0 11 / 256 ≠ s.skMe ∧ s.skMember (bitsOf v.toNat 0 11 / 256) = true) :=
  ⟨⟨0, 9, 0x7FF, 5, { cmdOf 4 2 .running with ctx := 0x7FF }, { with1 FO ({ cmdOf 4 2 .running with ctx := 0x7FF }) with fresh := 0, sk := { HD.sk with deleg := [{ ctx := 0x7FF, seq := 5, attempt := 0, id := 3 }] } },
     by decide +kernel⟩,
   ⟨0x7FF, 0, 0, 0, [], image 64 [(0, 4, 5), (4, 1, 4), (5, 1, 1)], { cmdOf 4 2 .away with ctx := 0x7FF }, { with1 FO ({ cmdOf 4 2 .away with ctx := 0x7FF }) with fresh := 0 },
     by decide +kernel⟩,
   ⟨0, 0x7FF, 0, 3, 0, [], image 64 [(0, 4, 5)], { ctx := 0x7FF, seq := 5, attempt := 3, id := 3, report := 2 }, withSk FO { HD.sk with deleg := [{ ctx := 0x7FF, seq := 5, attempt := 3, id := 3, report := 2 }] },
     by decide +kernel⟩,
   ⟨7, 9, txn1, [1#8], withSk HD { HD.sk with txns := [txn1] }, withSk HD { HD.sk with txns := [] }, by decide +kernel⟩,
   ⟨7, 9, { txn1 with cmd := some 3 }, [], { with1 HD ({ cmdOf 1 2 .running with ctx := 0x7FF }) with fresh := 0, sk := { HD.sk with txns := [{ txn1 with cmd := some 3 }] } },
     { with1 HD ({ cmdOf 1 2 .running with ctx := 0x7FF }) with fresh := 0, sk := { HD.sk with txns := [] } }, 3, { cmdOf 1 2 .running with ctx := 0x7FF },
     by decide +kernel⟩,
   ⟨7, 9, txn1, [], withSk HD { HD.sk with txns := [txn1] }, withSk HD { HD.sk with txns := [] }, by decide +kernel⟩,
   ⟨7, 0x7FF, 5, 0, 0, 0, { cmdOf 1 2 .away with ctx := 0x7FF }, { with1 HD ({ cmdOf 1 2 .away with ctx := 0x7FF }) with fresh := 0 },
     by decide +kernel⟩,
   ⟨7, 0x7FF, 5, 0, 0x53, 0, HD, by decide +kernel⟩,
   ⟨7, 0x7FF, 0, image 64 [(0, 4, 5), (5, 1, 2)], HD, by decide +kernel⟩,
   ⟨1, 0, 1, PUP FO, by decide +kernel⟩,
   ⟨FO, by decide +kernel, by decide +kernel, by intro u h; cases h⟩,
   ⟨1, 0xFFFF, PUP HD, by decide +kernel⟩,
   ⟨Instr.cabLease .host 0xFFFFFFFF, 1, .host, 0xFFFFFFFF, FO, by decide +kernel⟩,
   ⟨Instr.cabCqhead .host 0xFFFF0000, 2, .host, 0xFFFF0000, HD, by decide +kernel⟩,
   ⟨Instr.cabDoorbell .host 0x700, 0, .host, 0x700, HD, by decide +kernel⟩⟩

/-- What each clause of `CabinetMembership` assumes holds together of some state and operands. -/
theorem witnesses_CabinetMembership :
    (∃ (m : Byte) (s : State), s.skOn = true ∧ s.skMe ≠ 0 ∧ bitOf m.toNat s.skMe = true ∧ bitOf m.toNat 0 = true ∧ s.skRole ≠ 1) ∧
    (∃ (v : Word) (n : Nat) (s : State), s.live 0x0C0 = true ∧ bitOf v.toNat 3 = true ∧ s.skMe = 0 ∧ s.skRole ≠ 2 ∧ v.toNat % 8 ≠ 0 ∧ s.skRoute
      (v.toNat % 8) = some n) ∧
    (∃ (m : Fin 8) (s : State), s.skOn = true ∧ s.skRole = 1 ∧ m.val ≠ s.skMe ∧ s.skMember m = true) ∧
    (∃ (s : State), s.skOn = true ∧ s.skRole = 2 ∧ s.sk.hbAt + 50000 ≤ s.now) ∧
    (∃ (m : Fin 8) (down : Bool) (s : State), s.skOn = true ∧ s.skRole = 1 ∧ m.val ≠ s.skMe ∧ s.skMember m = true ∧ (down = true ∨ s.sk.beats.any
      (fun b => b.1 == m.val && decide (b.2 + s.rd F.SK_CFG_LOSS_US 0 0 * 1000 ≤ s.now)) = true) ∧ s.sch.cmds = [] ∧ s.sk.txns = [] ∧ s.sk.placed =
      []) ∧
    (∃ (m : Fin 8) (s : State), s.skOn = true ∧ s.skRole = 2 ∧ m.val ≠ s.skMe ∧ m.val ≠ 0 ∧ s.sch.cmds = [] ∧ s.sk.txns = []) ∧
    (∃ (src : Fin 8) (lost : Fin 8) (s : State), s.skOn = true ∧ s.skRole = 1 ∧ src.val ≠ s.skMe ∧ s.skMember src = true ∧ s.sk.acks.contains
      (lost.val, src.val) = true ∧ s.sk.placed = []) ∧
    (∃ (s : State), s.skOn = true ∧ s.skRole = 2 ∧ s.sch.cmds = []) :=
  ⟨⟨0x81, FO, by decide +kernel⟩,
   ⟨0xF, 0, PUP (HD.wr F.SK_STAT_ROLE 0 0 0), by decide +kernel⟩,
   ⟨7, HD, by decide +kernel⟩,
   ⟨{ FO with now := 50000 }, by decide +kernel⟩,
   ⟨7, false, { (withSk HD { HD.sk with beats := [(7, 0)] }) with now := 65536000 }, by decide +kernel⟩,
   ⟨6, FO, by decide +kernel⟩,
   ⟨7, 6, withSk HD { HD.sk with acks := [(6, 7)] }, by decide +kernel⟩,
   ⟨FO, by decide +kernel⟩⟩

/-- What each clause of `TimeReadsLatch` assumes holds together of some state and operands. -/
theorem witnesses_TimeReadsLatch :
    (∃ (s : State), s.live 0x004 = true) :=
  ⟨{ R with gt := 0xFFFFFFFFFFFF }, by decide +kernel⟩

/-- What each clause of `AccessesThatReachNothing` assumes holds together of some state and operands. -/
theorem witnesses_AccessesThatReachNothing :
    (∃ (page : BitVec 14) (ofs : BitVec 12) (s : State), s.live page.toNat = true) ∧
    (∃ (page : BitVec 14) (ofs : BitVec 12) (s : State), mappedPage page.toNat = true ∧ s.pageOn page.toNat = false) ∧
    (∃ (page : BitVec 14) (ofs : BitVec 12) (s : State) (src : Src) (v : Word), mappedPage page.toNat = true ∧ s.pageOn page.toNat = false ∧
      s.md.notifies = []) ∧
    (∃ (c : Instr) (page : BitVec 14) (s : State), mappedPage page.toNat = false ∧ s.md.notifies = [] ∧ (c = .unmappedAccess page ∨ (∃ o, c =
      .badWidthAccess page o ∨ c = .rcRead page o ∨ c = .loReadLatch page o) ∨ ∃ src o v, c = .registerWrite src page o v ∨ c = .shadowWrite src page
      o v ∨ c = .evtSet src page v ∨ c = .evtClr src page v)) :=
  ⟨⟨0x1FF, 0xFFD, R, by decide +kernel⟩,
   ⟨0x010, 0xFFC, R.wr F.PWR_KGATED 0 0 1, by decide +kernel⟩,
   ⟨0x010, 0xFFC, R.wr F.PWR_KGATED 0 0 1, .host, 0xFFFFFFFF, by decide +kernel⟩,
   ⟨Instr.unmappedAccess 0x3FFF, 0x3FFF, R, by decide +kernel, by decide +kernel, .inl rfl⟩⟩

/-- What each clause of `RegisterRows` assumes holds together of some state and operands. -/
theorem witnesses_RegisterRows :
    (∃ (src : Src) (page : BitVec 14) (v : Word) (s : State), mappedPage page.toNat = true ∧ s.pageOn page.toNat = true ∧ s.md.notifies = [] ∧
      (page.toNat < 0x100 ∨ s.dbPermits src (page.toNat - 0x100) = true)) ∧
    (∃ (src : Src) (page : BitVec 14) (s : State), mappedPage page.toNat = true ∧ s.pageOn page.toNat = true ∧ s.md.notifies = [] ∧ (page.toNat <
      0x100 ∨ s.dbPermits src (page.toNat - 0x100) = true)) ∧
    (∃ (src : Src) (n : Fin 4) (v : Word) (s : State), s.live 0x000 = true ∧ s.md.notifies = []) ∧
    (∃ (src : Src) (c : Byte) (v : Word) (s : State), s.liveCtx src c.toNat = true ∧ s.md.notifies = [] ∧ s.rd F.CTX_STAT_STATE c.toNat 0 ≠ 0 ∧ s.rd
      F.CTX_SQ_BASE_LO c.toNat 0 < 2 ^ 32) ∧
    (∃ (v : Fin 2) (s : State), s.live (0x070 + v.val) = true) :=
  ⟨⟨.host, 0x1FF, 0xFFFFFFFF, R, by decide +kernel⟩,
   ⟨.pcie, 0x007, R, by decide +kernel⟩,
   ⟨.command, 3, 0xFFFFFFFF, R, by decide +kernel⟩,
   ⟨.host, 0xFF, 1, R.wr F.CTX_STAT_STATE 255 0 1, by decide +kernel⟩,
   ⟨1, R.wr F.SV_WAIT_MAX 1 0 9, by decide +kernel⟩⟩

/-- What each clause of `ShadowCopiesAndCommits` assumes holds together of some state and operands. -/
theorem witnesses_ShadowCopiesAndCommits :
    (∃ (src : Src) (n : Fin 16) (v : Word) (s : State), s.live 0x004 = true ∧ s.md.notifies = []) ∧
    (∃ (src : Src) (page : BitVec 14) (v : Word) (arg : Nat) (s : State), mappedPage page.toNat = true ∧ s.pageOn page.toNat = true ∧ s.md.notifies =
      [] ∧ (page.toNat < 0x100 ∨ s.dbPermits src (page.toNat - 0x100) = true) ∧ bitOf v.toNat 3 = false ∧ arg = s.rd F.REG_SHADOW_ARG_LO page.toNat 0
      + s.rd F.REG_SHADOW_ARG_HI page.toNat 0 * 2 ^ 32 ∧ (v.toNat % 4 = 0 ∨ (v.toNat % 4 = 2 ∧ arg ≤ s.gt))) ∧
    (∃ (src : Src) (page : BitVec 14) (v : Word) (arg : Nat) (s : State), mappedPage page.toNat = true ∧ s.pageOn page.toNat = true ∧ s.md.notifies =
      [] ∧ (page.toNat < 0x100 ∨ s.dbPermits src (page.toNat - 0x100) = true) ∧ bitOf v.toNat 3 = false ∧ arg = s.rd F.REG_SHADOW_ARG_LO page.toNat 0
      + s.rd F.REG_SHADOW_ARG_HI page.toNat 0 * 2 ^ 32 ∧ (v.toNat % 4 = 1 ∨ (v.toNat % 4 = 2 ∧ s.gt < arg) ∨ (v.toNat % 4 = 3 ∧ (s.strEnabled (bitsOf
      v.toNat 8 6) = false ∨ serialLt 26 arg (s.nextCount (bitsOf v.toNat 8 6)) = false)))) ∧
    (∃ (src : Src) (page : BitVec 14) (v : Word) (s : State), mappedPage page.toNat = true ∧ s.pageOn page.toNat = true ∧ s.md.notifies = [] ∧
      (page.toNat < 0x100 ∨ s.dbPermits src (page.toNat - 0x100) = true)) ∧
    (∃ (page : BitVec 14) (s : State), s.armed.any (fun a => a.page == page.toNat && s.commitDue a) = true) ∧
    (∃ (page : BitVec 14) (s : State), s.armed.any (fun a => a.page == page.toNat && s.commitDue a) = false) :=
  ⟨⟨.host, 15, 0xFFFFFFFF, R, by decide +kernel⟩,
   ⟨.host, 0x071, 2, 0, R, by decide +kernel⟩,
   ⟨.host, 0x004, 0xFC7, 0, R, by decide +kernel⟩,
   ⟨.host, 0x1FF, 8, R, by decide +kernel⟩,
   ⟨0x004, { R with armed := [{ page := 4, mode := 2, stream := 0, arg := 0 }] }, by decide +kernel⟩,
   ⟨0x004, { R with armed := [{ page := 4, mode := 2, stream := 0, arg := 1 }] }, by decide +kernel⟩⟩

/-- What each clause of `BlockResets` assumes holds together of some state and operands. -/
theorem witnesses_BlockResets :
    (∃ (src : Src) (i : Fin 28) (v : Word) (s : State), s.live 0x002 = true ∧ s.md.notifies = [] ∧ v.toNat = 2 ^ i.val ∧ s.rstOk src i = false) ∧
    (∃ (src : Src) (i : Fin 28) (v : Word) (s : State), s.live 0x002 = true ∧ s.md.notifies = [] ∧ v.toNat = 2 ^ i.val ∧ s.rstOk src i = true ∧ bitOf
      (s.rd F.RST_ACTIVE 0 0) i = true) ∧
    (∃ (src : Src) (i : Fin 28) (v : Word) (s : State), s.live 0x002 = true ∧ s.md.notifies = [] ∧ v.toNat = 2 ^ i.val ∧ s.rstOk src i = true ∧ bitOf
      (s.rd F.RST_ACTIVE 0 0) i = false) ∧
    (∃ (i : Fin 28) (s : State), bitOf (s.rd F.RST_ACTIVE 0 0) i = true) ∧
    (∃ (i : Fin 28) (s : State), bitOf (s.rd F.RST_ACTIVE 0 0) i = false) :=
  ⟨⟨.host, 26, 0x4000000, R, by decide +kernel⟩,
   ⟨.sous, 20, 0x100000, R.wr F.RST_ACTIVE 0 0 0x100000, by decide +kernel⟩,
   ⟨.sous, 20, 0x100000, R, by decide +kernel⟩,
   ⟨27, R.wr F.RST_ACTIVE 0 0 0x8000000, by decide +kernel⟩,
   ⟨27, R, by decide +kernel⟩⟩

/-- What each clause of `InboundPcieAccesses` assumes holds together of some state and operands. -/
theorem witnesses_InboundPcieAccesses :
    (∃ (bar : Fin 3) (ofs : BitVec 24) (s : State), bar ≠ 1 ∧ s.pcieOn = true ∧ s.rdB F.PCIE_LINK_STAT_DL_UP 0 0 = true ∧ s.md.notifies = [] ∧
      ofs.toNat % 4 = 0 ∧ ofs.toNat + 4 ≤ 0x100000) ∧
    (∃ (bar : Fin 3) (ofs : BitVec 24) (s : State) (l : BitVec 9) (bs : List Byte), bar ≠ 1 ∧ s.pcieOn = true ∧ s.rdB F.PCIE_LINK_STAT_DL_UP 0 0 =
      true ∧ s.md.notifies = [] ∧ ofs.toNat % 4 = 0 ∧ ofs.toNat + 4 ≤ 0x100000 ∧ bs.length = 4) ∧
    (∃ (bar : Fin 3) (ofs : BitVec 24) (s : State), bar ≠ 1 ∧ s.pcieOn = true ∧ s.rdB F.PCIE_LINK_STAT_DL_UP 0 0 = true ∧ s.md.notifies = [] ∧
      ofs.toNat % 4 = 0 ∧ ofs.toNat + 4 ≤ 0x100000 ∧ ofs.toNat % 8 = 0) ∧
    (∃ (bar : Fin 3) (ofs : BitVec 24) (l : BitVec 9) (s : State), bar ≠ 1 ∧ s.pcieOn = true ∧ s.rdB F.PCIE_LINK_STAT_DL_UP 0 0 = true ∧
      s.md.notifies = [] ∧ ¬(l.toNat = 4 ∧ ofs.toNat % 4 = 0) ∧ ¬(l.toNat = 8 ∧ ofs.toNat % 8 = 0) ∧ ofs.toNat + l.toNat ≤ 0x100000 ∧ ofs.toNat <
      0x100000) ∧
    (∃ (ofs : BitVec 24) (l : BitVec 9) (s : State), s.pcieOn = true ∧ s.rdB F.PCIE_LINK_STAT_DL_UP 0 0 = true ∧ s.md.notifies = [] ∧ ofs.toNat +
      l.toNat ≤ 0x1000000 ∧ s.iommu 0 ofs.toNat l.toNat false = none) ∧
    (∃ (ofs : BitVec 24) (l : BitVec 9) (s : State) (a : Nat) (pl : Nat) (ps : List Nat), s.pcieOn = true ∧ s.rdB F.PCIE_LINK_STAT_DL_UP 0 0 = true ∧
      s.md.notifies = [] ∧ ofs.toNat + l.toNat ≤ 0x1000000 ∧ s.iommu 0 ofs.toNat l.toNat false = some a ∧ s.locate a = .mem pl ∧ s.places a l.toNat =
      some ps ∧ s.guarded a l.toNat none = false ∧ ps.any s.isPoison = false) ∧
    (∃ (ofs : BitVec 24) (l : BitVec 9) (bs : List Byte) (s : State), s.pcieOn = true ∧ s.rdB F.PCIE_LINK_STAT_DL_UP 0 0 = true ∧ s.md.notifies = []
      ∧ bs ≠ [] ∧ ofs.toNat + bs.length ≤ 0x1000000 ∧ s.iommu 0 ofs.toNat bs.length true = none) ∧
    (∃ (ofs : BitVec 24) (l : BitVec 9) (bs : List Byte) (s : State) (a : Nat) (pl : Nat) (ps : List Nat), s.pcieOn = true ∧ s.rdB
      F.PCIE_LINK_STAT_DL_UP 0 0 = true ∧ s.md.notifies = [] ∧ bs ≠ [] ∧ ofs.toNat + bs.length ≤ 0x1000000 ∧ s.iommu 0 ofs.toNat bs.length true =
      some a ∧ s.locate a = .mem pl ∧ s.places a bs.length = some ps ∧ s.guarded a bs.length none = false ∧ ps.any readOnlyPlace = false) ∧
    (∃ (bar : Fin 3) (ofs : BitVec 24) (l : BitVec 9) (w : Option (List (Option Byte))) (s : State), s.rdB F.PCIE_LINK_STAT_DL_UP 0 0 = false ∧
      s.md.notifies = []) :=
  ⟨⟨2, 0xFFFFC, PC, by decide +kernel⟩,
   ⟨2, 0xFFFFC, PC, 0, [1#8, 2#8, 3#8, 4#8], by decide +kernel⟩,
   ⟨0, 0x4040, PC, by decide +kernel⟩,
   ⟨2, 0xFFFFD, 3, PC, by decide +kernel⟩,
   ⟨0xFFFFFF, 1, PC, by decide +kernel⟩,
   ⟨0xFFC, 4, PC, 0x10000FFC, 0x10000FFC, [0x10000FFC, 0x10000FFD, 0x10000FFE, 0x10000FFF], by decide +kernel⟩,
   ⟨0xFFE, 0, [1#8, 2#8, 3#8], PC, by decide +kernel⟩,
   ⟨0xFFE, 0, [1#8, 2#8], PC, 0x10000FFE, 0x10000FFE, [0x10000FFE, 0x10000FFF], by decide +kernel⟩,
   ⟨1, 0, 0, some [], R, by decide +kernel⟩⟩

/-- What each clause of `RemoteAccessesOfThisMember` assumes holds together of some state and operands. -/
theorem witnesses_RemoteAccessesOfThisMember :
    (∃ (src : Fin 8) (tag : BitVec 16) (addr : Addr) (len : BitVec 9) (pl : Nat) (ps : List Nat) (s : State), s.skOn = true ∧ s.skRole ≠ 0 ∧ src.val
      ≠ s.skMe ∧ s.sk.dropped.contains src.val = false ∧ s.skMember src = true ∧ s.sk.done.find? (fun x => x.src == src.val && x.tag == tag.toNat) =
      none ∧ s.locate (s.homeAddr addr.toNat) = .mem pl ∧ s.places (s.homeAddr addr.toNat) len.toNat = some ps ∧ s.guarded (s.homeAddr addr.toNat)
      len.toNat none = false ∧ ps.any s.isPoison = false) ∧
    (∃ (src : Fin 8) (tag : BitVec 16) (addr : Addr) (len : BitVec 9) (s : State), s.skOn = true ∧ s.skRole ≠ 0 ∧ src.val ≠ s.skMe ∧
      s.sk.dropped.contains src.val = false ∧ s.skMember src = true ∧ s.sk.done.find? (fun x => x.src == src.val && x.tag == tag.toNat) = none ∧
      s.locate (s.homeAddr addr.toNat) = .bad ∧ 0 < len.toNat) ∧
    (∃ (src : Fin 8) (tag : BitVec 16) (addr : Addr) (bs : List Byte) (pl : Nat) (ps : List Nat) (s : State), s.skOn = true ∧ s.skRole ≠ 0 ∧ src.val
      ≠ s.skMe ∧ s.sk.dropped.contains src.val = false ∧ s.skMember src = true ∧ s.md.notifies = [] ∧ bs ≠ [] ∧ s.sk.done.find? (fun x => x.src ==
      src.val && x.tag == tag.toNat) = none ∧ s.locate (s.homeAddr addr.toNat) = .mem pl ∧ s.places (s.homeAddr addr.toNat) bs.length = some ps ∧
      s.guarded (s.homeAddr addr.toNat) bs.length none = false ∧ ps.any readOnlyPlace = false) ∧
    (∃ (src : Fin 8) (tag : BitVec 16) (addr : Addr) (bs : List Byte) (s : State), s.skOn = true ∧ s.skRole ≠ 0 ∧ src.val ≠ s.skMe ∧
      s.sk.dropped.contains src.val = false ∧ s.skMember src = true ∧ s.md.notifies = [] ∧ bs ≠ [] ∧ s.sk.done.find? (fun x => x.src == src.val &&
      x.tag == tag.toNat) = none ∧ s.locate (s.homeAddr addr.toNat) = .bad) ∧
    (∃ (src : Fin 8) (tag : BitVec 16) (orig : Src) (w : Fin 3) (c : BitVec 8) (v : Word) (u : State) (s : State), s.skOn = true ∧ s.skRole ≠ 0 ∧
      src.val ≠ s.skMe ∧ s.sk.dropped.contains src.val = false ∧ s.skMember src = true ∧ s.sk.done.find? (fun x => x.src == src.val && x.tag ==
      tag.toNat) = none ∧ u = s.ctxForward orig w c.toNat v.toNat) :=
  ⟨⟨7, 9, 0x1000000000, 2, 0x1000000000, [0x1000000000, 0x1000000001], HD, by decide +kernel⟩,
   ⟨7, 9, 0x7FFFFFFFF, 256, HD, by decide +kernel⟩,
   ⟨7, 9, 0x1000000000, [1#8, 2#8], 0x1000000000, [0x1000000000, 0x1000000001], HD, by decide +kernel⟩,
   ⟨7, 9, 0x7FFFFFFFF, [1#8], HD, by decide +kernel⟩,
   ⟨0, 9, .pcie, 1, 0xFF, 5, FO.ctxForward .pcie 1 255 5, FO, by decide +kernel⟩⟩


/-! ### Ill-formed commands: one for each check of `Instr.wf`, refused -/

/-- A well-formed order. -/
def o1 : FwOrder := ⟨0, List.replicate 64 0#8, 1, 0, 0⟩
/-- What firmware is given at READY, with one order and one CAPTURE entry. -/
def boot1 (o : FwOrder) (c : CaptureEnt) : Instr :=
  .fwReady { zcDelay := 0, hz60 := false, level := 0, hold := 0, points := [], orders := [o], captures := [c], testSeed := 0, fails := [] }
theorem test_wf_refuses_each :
    [.zcStamp [], .rxUnknown (List.replicate 17 0#8), .daliQuery (List.replicate 16 0#8) 0 (List.replicate 6 0#8),
     .soArm .sous (.firmware 0 (List.replicate 63 0#8) 1 0 0), .soDisarm .sous (.firmware 0 [] 1 0 0),
     .pantryAccess 0 0 [⟨0, none, 0, none, 0, 0⟩] false, .pantryAccess 0 0 [⟨0, none, 60, none, 8, 0⟩] false,
     .pantryAccess 0 1 [⟨0, none, 0, none, 8, 0⟩] false, .pantryAccess 0 0 [⟨0, none, 0, some [], 8, 0⟩] false,
     .bDispatch 0 [], .bDispatch 0 [5, 5], .simmerEval 0 false (List.replicate 17 0#8), .ibiReceive 0 0 (List.replicate 5 0#8),
     .pcieInbound 0 0 1 (some []), .pcieInbound 0 0 0 none, .pcieInbound 0 0 257 none, .flitReceive 0 (List.replicate 63 0#8),
     .rd 0 0 0 0, .wr 0 0 0 [], .rdData 0 0 [], .delegate 0 0 0 0 0 [1] [], .delegate 0 0 0 0 0 [] (List.replicate 64 0#8),
     .handoff 0 0 0 (List.replicate 63 0#8), .ethRxFrame 0 (List.replicate 13 0#8) true].map Instr.wf
      = List.replicate 24 false := by decide +kernel
theorem test_wf_refuses_boot :
    [boot1 ⟨0, [], 1, 0, 0⟩ cap4, boot1 o1 { cap4 with output := 16 }, boot1 o1 { cap4 with cfg := 2 ^ 32 },
      boot1 o1 { cap4 with anchor := 2 ^ 32 }, boot1 o1 { cap4 with due := 2 ^ 64 }, boot1 o1 { cap4 with period := 0xFFF }].map Instr.wf
      = List.replicate 6 false := by decide +kernel
theorem test_wf_accepts : (boot1 o1 cap4).wf = true
    ∧ (Instr.zcStamp (List.replicate 16 0#8)).wf = true ∧ (Instr.bDispatch 0 [5, 6]).wf = true
    ∧ (Instr.pantryAccess 0 1 [⟨0, none, 64, none, 64, 0⟩] false).wf = true ∧ (Instr.rd 0 0 0 256).wf = true := by decide +kernel

/-! ### The worked examples of the specification -/

/-- spec/04: window 0 with FIRST 4, COUNT_LOG2 2, GRAN 4 KiB, OFS 256, LEN 64. -/
def WIN : State := (((((RF.wr F.TV_IWIN_CFG_FIRST 0 0 4).wr F.TV_IWIN_CFG_COUNT_LOG2 0 0 2).wr F.TV_IWIN_CFG_GRAN_LOG2 0 0 4).wr
  F.TV_IWIN_OFS 0 0 256).wr F.TV_IWIN_LEN 0 0 64).wr F.TV_IWIN_CFG_EN 0 0 1
theorem test_window_decode : WIN.placeOf 0x2000123456 = some 0x11D0048456 := by decide +kernel

/-- spec/13: 800 per mille is arc level 246 and 300 per mille is 210 (Table FAR-3: 1 is 1, 1000 is 254). -/
theorem test_arc_levels : [800, 300, 1, 1000, 0].map arcLevel = [246, 210, 1, 254, 0] := by decide +kernel

/-- spec/13: the LEVEL_SET of cycle 6031 with ZC_OFS 1,000,000: bytes 2 to 13. -/
theorem test_level_set_bytes : ((({ UP with gt := 6030 * 65536 + 0x4800 } : State).wr F.BR_ZC_OFS 0 0 1000000).lampSend 0 800 500 false).br.outst.map
    (fun m => (m.bytes.drop 4).take 10) = [[0x00, 0x00, 0x20, 0x03, 0xF4, 0x01, 0xCF, 0x59, 0x0F, 0x00]] := by decide +kernel

/-- spec/07: sixteen Kettles with a floor of OP2 at 50 Hz give 192,000 CU; spec/19: at OP0 320,000, with fifteen 300,000. -/
def CAP (op mask : Nat) : Nat := ((RF.wr F.SCH_PART_CFG_OP_FLOOR 0 0 op).wr F.SCH_PART_KMASK 0 0 mask).partCap 0
theorem test_part_cap : (CAP 2 0xFFFF, CAP 0 0xFFFF, CAP 0 0xFFDF) = (192000, 320000, 300000) := by decide +kernel

/-- spec/23: REFILL with RATE 60,000 and BURST 120,000 takes 4,800 to 64,800, and 64,800 to 120,000. -/
def LV (l : Nat) : State := { ((RF.wr F.CTX_STAT_STATE 4 0 1).wr F.SCH_BKT_RATE 0 17 60000).wr F.SCH_BKT_BURST 0 17 120000 with
  gt := 20002 * 65536, orr := { RF.orr with refilled := 20001 }, sch := { RF.sch with bkts := [{ ctx := 4, cls := 1, level := l }] } }
theorem test_refill : ([4800, 64800].map (fun l => match Machine.exec .refill (LV l) with
    | .next t => (t.bkt 4 1).level
    | _ => 0)) = [64800, 120000] := by decide +kernel

/-- spec/17: the doorbell of context 40 is BAR4 offset 0x2_8064; the context is OPEN, DB_SRC 2, its queue 16 entries. -/
def C40 : State := ((((RF.wr F.CTX_STAT_STATE 40 0 1).wr F.PCIE_DB_SRC 0 2 0x20000).wr F.CTX_RING_CFG_SQ_LOG2 40 0 4).wr F.PCIE_LINK_STAT_DL_UP 0 0 1)
theorem test_pcie_doorbell : (match Machine.exec (.pcieInbound 2 0x28064 4 (some ((toBytes 4 7).map some))) C40 with
    | .next t => t.rd F.CTX_SQ_TAIL 40 0
    | _ => 0) = 7 := by decide +kernel

/-- spec/21: FSYNC_CFG0 reads 0x8002_4000; a write of 0x8002_6000 goes to the shadow, which reads at 0x940; the live register does
not change before the commit. -/
def SH : State := ((((RF.wr F.ORR_FSYNC_CFG_PHASE 0 0 0x4000).wr F.ORR_FSYNC_CFG_PERIOD_CYC 0 0 2).wr F.ORR_FSYNC_CFG_EN 0 0 1).wr
  F.REG_SHADOW_CTRL_COMMIT_AT 4 0 2)
set_option maxRecDepth 10000 in
theorem test_fsync_shadow : ((SH.regRead 0x004 0x140).2, match Machine.exec (.shadowWrite .host 0x004 0x940 0x80026000) SH with
    | .next t => ((t.regRead 0x004 0x140).2, (t.regRead 0x004 0x940).2)
    | _ => (0, 0)) = (0x80024000, 0x80024000, 0x80026000) := by decide +kernel

/-- spec/12: 40 agents and MAX_CONF 64 give an output of 26,368 bytes. -/
theorem test_orbit_output : orbOutLen (image 256 [(0, 2, 40), (6, 2, 64)]) = 26368 := by decide +kernel

/-- spec/08: a frame that starts at `5000:4800` of a stream of period 0x2_0000 has its confirmation deadline at `5002:619A`. -/
theorem test_confirm_deadline : 5000 * 65536 + 0x4800 + 0x20000 + RF.grace = 5002 * 65536 + 0x619A := by decide +kernel

/-- R427: CRC-16/CCITT-FALSE of "123456789"; GEN follows 127 with 1. -/
theorem test_crc_and_gen : crc16 [0x31, 0x32, 0x33, 0x34, 0x35, 0x36, 0x37, 0x38, 0x39] = 0x29B1 ∧ genNext 127 = 1 ∧ genNext 5 = 6 := by decide +kernel

/-- spec/03: the first BROADCAST pass flips at 64, and the second, after a final issue at 160, at 351; the third RIPPLE pass, whose
bank was last issued from at 96 and the other at 192, loads from 224 and issues at 225. -/
theorem test_pass_times :
    ({ num := 0 : TileSt }.flipAt, { num := 0, chosenAt := 65, busFree := 64, prev := some ⟨31, 0, false, 65, 160⟩ : TileSt }.flipAt,
      { num := 0, chosenAt := 97, busFree := 128, prev := some ⟨31, 1, true, 97, 192⟩, prev2 := some ⟨31, 0, true, 1, 96⟩ : TileSt }.issueAt true)
      = (64, 351, 225) := by decide +kernel

/-- spec/11: buffer 1 of a pool at 0x10_0400_0000 with BUF_KIB 3,073. -/
theorem test_tensor_buffer : ((RF.wr F.MD_PG_POOL 0 0 0x1004000000).wr F.MD_PG_POOL_CFG_BUF_KIB 0 0 3073).tbufAddr 0 1 = 0x1004300400 := by decide +kernel

/-- With no command waiting a step goes on. -/
theorem test_step_idle : (match Machine.step R with
    | .next t => t.pending == []
    | _ => false) = true := by decide +kernel

end Sys2Proof.Tests
end

section
/-! PROOF. Accesses that reach no register (O53: R19, R33, R694): what a fault of an access and the record of an unmapped page write, what a
page that is live, off or absent makes of each access, and the statement assembled from these. -/

namespace Sys2Proof.Machine

open Host

/-! ### What the shared operations write -/

/-- With no notify write under way there is none to perform. -/
theorem State.notifyFlush_of_nil {s : State} (h : s.md.notifies = []) : s.notifyFlush = s := by
  have hsame : ({ s with md := { s.md with notifies := [] } } : State) = s := by rw [← h]
  rw [State.notifyFlush, hsame, h, List.foldl_nil]

/-- An answer is no register and no memory. -/
theorem Changes.answer {a s : State} {l : List (Fld × Nat × Nat)} (h : Changes a s l) (v : Nat) (err : Bool) :
    Changes a (s.answer v err) l := h.put rfl rfl

/-- The three flags of BLK_FAULT are one bit wide, and none of them is BLK_FAULT.OFS. -/
theorem faultFld_spec (b : Nat) : (faultFld b).width = 1 ∧ F.REG_BLK_FAULT_OFS.id % 4096 ≠ (faultFld b).id % 4096 := by
  unfold faultFld
  split
  · decide
  · split <;> decide

theorem State.rd_accFault_same (s : State) (page b ofs : Nat) : (s.accFault page b ofs).rd (faultFld b) page 0 = 1 := by
  obtain ⟨hwidth, hofs⟩ := faultFld_spec b
  simp [State.accFault, State.rd_wr_id _ hofs, hwidth]

/-- A fault of an access touches its flag, OFS and the page's events. -/
theorem State.accFault_changes (s : State) (page b ofs : Nat) :
    Changes s (s.accFault page b ofs) [(faultFld b, page, 0), (F.REG_BLK_FAULT_OFS, page, 0), (F.REG_EVT_RAW, page, 0)] := by
  have hraise : Changes s (if s.rdB (faultFld b) page 0 then s else s.raise page 31) [(F.REG_EVT_RAW, page, 0)] := by
    split
    · exact (Changes.refl s).mono (by simp)
    · exact (Changes.refl s).raise page 31
  exact ((hraise.wr (faultFld b) page 0 1).wr F.REG_BLK_FAULT_OFS page 0 ofs).mono (by simp)

/-- What R694 writes: the counter advanced, the page recorded, the record valid, and nothing else. -/
structure UnmappedRecord (s t : State) (page : Nat) : Prop where
  cnt : t.rd F.SYS_UNMAPPED_CNT 0 0 = satInc (s.rd F.SYS_UNMAPPED_CNT 0 0) % 2 ^ F.SYS_UNMAPPED_CNT.width
  last : t.rd F.SYS_UNMAPPED_LAST_PAGE 0 0 = page
  valid : t.rd F.SYS_UNMAPPED_LAST_VALID 0 0 = 1
  frame : Changes s t [(F.SYS_UNMAPPED_CNT, 0, 0), (F.SYS_UNMAPPED_LAST_PAGE, 0, 0), (F.SYS_UNMAPPED_LAST_VALID, 0, 0)]

theorem State.unmapped_record (s : State) {page : Nat} (h : page < 2 ^ 14) : UnmappedRecord s (s.unmapped page) page where
  cnt := by
    have hp : F.SYS_UNMAPPED_LAST_PAGE.id % 4096 ≠ F.SYS_UNMAPPED_CNT.id % 4096 := by decide
    have hv : F.SYS_UNMAPPED_LAST_VALID.id % 4096 ≠ F.SYS_UNMAPPED_CNT.id % 4096 := by decide
    rw [State.unmapped, State.rd_wr_id _ hv, State.rd_wr_id _ hp, State.rd_inc_same]
  last := by
    have hv : F.SYS_UNMAPPED_LAST_VALID.id % 4096 ≠ F.SYS_UNMAPPED_LAST_PAGE.id % 4096 := by decide
    rw [State.unmapped, State.rd_wr_id _ hv, State.rd_wr_same]
    exact Nat.mod_eq_of_lt h
  valid := State.rd_wr_same ..
  frame := (((Changes.refl s).wr F.SYS_UNMAPPED_CNT 0 0 _).wr F.SYS_UNMAPPED_LAST_PAGE 0 0 page).wr F.SYS_UNMAPPED_LAST_VALID 0 0 1

/-! ### A page that is live (R19) -/

theorem State.live_iff {s : State} {page : Nat} :
    s.live page = true ↔ mappedPage page = true ∧ s.pageOn page = true ∧ s.liveOff page = false := by
  simp only [State.live, State.liveOff, Bool.and_eq_true, Bool.not_eq_true', Bool.or_eq_false_iff, and_assoc]

theorem State.badAccess_live {s : State} {page : Nat} (h : s.live page = true) (ofs : Nat) : s.badAccess page ofs = s.accFault page 0 ofs := by
  obtain ⟨hmap, hon, hoff⟩ := State.live_iff.1 h
  simp [State.badAccess, hmap, hon, hoff]

/-! ### A mapped page whose domain is off (R33) -/

section
variable {s : State} {page : Nat} (hmap : mappedPage page = true) (hoff : s.pageOn page = false)
include hmap hoff

theorem State.badAccess_off (ofs : Nat) : s.badAccess page ofs = s := by simp [State.badAccess, hmap, hoff]

theorem State.readOut_off (ofs : Nat) : s.readOut page ofs = s.answer 0 := by simp [State.readOut, State.regRead, hmap, hoff]

theorem State.put_off (hn : s.md.notifies = []) (src : Src) (ofs v : Nat) : s.put src page ofs v = s := by
  have hw : s.regWrite src page ofs v = s := by simp [State.regWrite, hmap, hoff]
  rw [State.put, hw, State.notifyFlush_of_nil hn]

end

/-! ### A page absent from Table REG-7 (R694) -/

section
variable {s : State} {page : Nat} (hmap : mappedPage page = false)
include hmap

theorem State.badAccess_unmapped (ofs : Nat) : s.badAccess page ofs = s.unmapped page := by simp [State.badAccess, hmap]

theorem State.readOut_unmapped (ofs : Nat) : s.readOut page ofs = (s.unmapped page).answer 0 := by simp [State.readOut, State.regRead, hmap]

theorem State.put_unmapped (hn : s.md.notifies = []) (src : Src) (ofs v : Nat) : s.put src page ofs v = s.unmapped page := by
  have hw : s.regWrite src page ofs v = s.unmapped page := by simp [State.regWrite, hmap]
  rw [State.put, hw, State.notifyFlush_of_nil (s := s.unmapped page) hn]

end

/-! ### The rows that access a page -/

section
variable (src : Src) (page : BitVec 14) (ofs : BitVec 12) (v : Word) (s : State)

theorem exec_badWidthAccess : exec (.badWidthAccess page ofs) s = .next ((s.badAccess page.toNat ofs.toNat).answer 0) := rfl
theorem exec_rcRead : exec (.rcRead page ofs) s = .next (s.readOut page.toNat (ofs.toNat / 4 * 4)) := rfl
theorem exec_loReadLatch : exec (.loReadLatch page ofs) s = .next (s.readOut page.toNat (ofs.toNat / 4 * 4)) := rfl
theorem exec_registerWrite : exec (.registerWrite src page ofs v) s = .next (s.put src page.toNat (ofs.toNat / 4 * 4) v.toNat) := rfl
theorem exec_shadowWrite : exec (.shadowWrite src page ofs v) s = .next (s.put src page.toNat (ofs.toNat / 4 * 4) v.toNat) := rfl
theorem exec_evtSet : exec (.evtSet src page v) s = .next (s.put src page.toNat 0x028 v.toNat) := rfl
theorem exec_evtClr : exec (.evtClr src page v) s = .next (s.put src page.toNat 0x024 v.toNat) := rfl
theorem exec_cntClear : exec (.cntClear src page) s = .next (s.put src page.toNat 0x010 1) := rfl

variable {page s}

theorem exec_offPageAccess_off (hmap : mappedPage page.toNat = true) (hoff : s.pageOn page.toNat = false) :
    exec (.offPageAccess page ofs) s = .next (s.answer 0) := by
  change execOffPageAccess page ofs s = _
  simp [execOffPageAccess, hmap, hoff]

theorem exec_unmappedAccess_unmapped (hmap : mappedPage page.toNat = false) :
    exec (.unmappedAccess page) s = .next ((s.unmapped page.toNat).answer 0) := by
  change execUnmappedAccess page s = _
  simp [execUnmappedAccess, hmap]

end

/-- The rows that answer an access of a page: its reads, and its accesses of a bad width or to no page. -/
def AnswersPage (page : BitVec 14) (c : Instr) : Prop :=
  c = .unmappedAccess page ∨ ∃ o, c = .badWidthAccess page o ∨ c = .rcRead page o ∨ c = .loReadLatch page o

/-- The rows that write a word of a page with a value. -/
def WritesPage (page : BitVec 14) (c : Instr) : Prop :=
  ∃ src o v, c = .registerWrite src page o v ∨ c = .shadowWrite src page o v ∨ c = .evtSet src page v ∨ c = .evtClr src page v

theorem WritesPage.not_answers {page : BitVec 14} {c : Instr} (hw : WritesPage page c) : ¬ AnswersPage page c := by
  obtain ⟨src, o, v, rfl | rfl | rfl | rfl⟩ := hw <;> simp [AnswersPage]

theorem exec_answers_unmapped {page : BitVec 14} {c : Instr} {s : State} (hmap : mappedPage page.toNat = false)
    (hc : AnswersPage page c) : exec c s = .next ((s.unmapped page.toNat).answer 0) := by
  obtain rfl | ⟨o, rfl | rfl | rfl⟩ := hc
  · exact exec_unmappedAccess_unmapped hmap
  · rw [exec_badWidthAccess, State.badAccess_unmapped hmap]
  · rw [exec_rcRead, State.readOut_unmapped hmap]
  · rw [exec_loReadLatch, State.readOut_unmapped hmap]

theorem exec_writes_unmapped {page : BitVec 14} {c : Instr} {s : State} (hmap : mappedPage page.toNat = false) (hn : s.md.notifies = [])
    (hc : WritesPage page c) : exec c s = .next (s.unmapped page.toNat) := by
  have hput := State.put_unmapped hmap hn
  obtain ⟨src, o, v, rfl | rfl | rfl | rfl⟩ := hc
  · rw [exec_registerWrite, hput]
  · rw [exec_shadowWrite, hput]
  · rw [exec_evtSet, hput]
  · rw [exec_evtClr, hput]

/-! ### The statement -/

/-- Settles O53. Every access passes through `badAccess`, `readOut` or `put`, and each of these looks at the page first: live, off or absent
from Table REG-7. -/
theorem accessesThatReachNothing : Obligations.AccessesThatReachNothing := by
  refine ⟨fun page ofs s hlive => ?live, fun page ofs s hmap hoff => ?off, fun c page s hmap hn hc => ?absent⟩
  case live =>
    have hflag := s.rd_accFault_same page.toNat 0 ofs.toNat
    have hframe := s.accFault_changes page.toNat 0 ofs.toNat
    rw [exec_badWidthAccess, State.badAccess_live hlive]
    exact ⟨_, rfl, rfl, rfl, hflag, hframe.answer 0 false⟩
  case off =>
    have hread := State.readOut_off hmap hoff
    rw [exec_badWidthAccess, State.badAccess_off hmap hoff, exec_rcRead, exec_loReadLatch, hread]
    refine ⟨exec_offPageAccess_off ofs hmap hoff, rfl, rfl, rfl, fun hn src v => ?_⟩
    simp only [exec_registerWrite, exec_shadowWrite, exec_evtSet, exec_evtClr, exec_cntClear, State.put_off hmap hoff hn, and_self]
  case absent =>
    have hrec := s.unmapped_record page.isLt
    rcases (or_assoc.2 hc : AnswersPage page c ∨ WritesPage page c) with hanswers | hwrites
    · have hframe := hrec.frame.answer 0 false
      exact ⟨_, exec_answers_unmapped hmap hanswers, hrec.cnt, hrec.last, hrec.valid, fun _ => ⟨rfl, rfl⟩, hframe⟩
    · exact ⟨_, exec_writes_unmapped hmap hn hwrites, hrec.cnt, hrec.last, hrec.valid,
        fun hanswers => absurd hanswers hwrites.not_answers, hrec.frame⟩

end Sys2Proof.Machine
end

section
/-! PROOF. SNAP.TAKE (O7: R57): what the operation writes, and that nothing else is touched. -/

namespace Sys2Proof.Machine

open Host

theorem bitOf_at_zero (v : Nat) : bitOf v 0 = (v % 2 == 1) := by simp [bitOf]

/-- A write of SNAP that reaches the ORRERY page is performed. -/
theorem exec_snapTake_live {s : State} (h : s.live 0x004 = true) (v : Word) : exec (.snapTake v) s = .next (s.snapTake v.toNat) :=
  congrArg Outcome.next (State.reach_live h _)

section
variable (s : State) {v : Nat}

theorem State.snapTake_zero (h : v % 2 = 0) : s.snapTake v = s := by simp [State.snapTake, bitOf_at_zero, h]

theorem State.snapTake_one (h : v % 2 = 1) : s.snapTake v = (s.wr F.ORR_SNAP_GT 0 0 s.gt).wr F.ORR_SNAP_SI 0 0 s.si := by
  simp [State.snapTake, bitOf_at_zero, h]

end

/-- Settles O7. The two captures are writes of two fields of different numbers, each with the time of the state before. -/
theorem snapCapturesGtAndSi : Obligations.SnapCapturesGtAndSi := by
  refine ⟨fun v s hlive hv => ?taken, fun v s hlive hv => ?untaken⟩
  case taken =>
    have hids : F.ORR_SNAP_SI.id % 4096 ≠ F.ORR_SNAP_GT.id % 4096 := by decide
    have hexec := exec_snapTake_live hlive v
    rw [s.snapTake_one hv] at hexec
    refine ⟨_, hexec, ?_, State.rd_wr_same .., ((Changes.refl s).wr F.ORR_SNAP_GT 0 0 s.gt).wr F.ORR_SNAP_SI 0 0 s.si⟩
    exact (State.rd_wr_id _ hids ..).trans (State.rd_wr_same ..)
  case untaken => rw [exec_snapTake_live hlive, s.snapTake_zero hv]

end Sys2Proof.Machine
end

section
/-! PROOF. The latched time pairs (O52: R58): what a read of a word of a live page does, what it does to each half of a pair whose LO latches
its HI, and the statement assembled for GT and SI. -/

namespace Sys2Proof.Machine

open Host

/-- A read of a live word lets each of its parts act, and answers the parts as they stood. -/
theorem State.readOut_live {s : State} {page ofs : Nat} (hlive : s.live page = true) (hofs : ofs < 0x800) :
    s.readOut page ofs
      = ((s.parts page ofs).foldl State.partRead s).answer (((s.parts page ofs).map (fun q => s.partView q * 2 ^ q.lsb)).sum) := by
  obtain ⟨hmap, hon, hoff⟩ := State.live_iff.1 hlive
  simp [State.readOut, State.regRead, hmap, hon, hoff, Nat.not_le.2 hofs]

/-- A word that one part fills from bit 0. -/
theorem State.readOut_single {s : State} {page ofs : Nat} {q : Part} (hlive : s.live page = true) (hofs : ofs < 0x800)
    (hparts : s.parts page ofs = [q]) (hlsb : q.lsb = 0) : s.readOut page ofs = (s.partRead q).answer (s.partView q) := by
  simp [State.readOut_live hlive hofs, hparts, hlsb]

/-! ### A pair whose LO latches its HI -/

/-- The LO and the HI word of a 64-bit field of page and index 0. -/
def Fld.loPart (f : Fld) : Part := { fld := f, p := 0, i := 0, lsb := 0, width := 32, shift := 0 }
def Fld.hiPart (f : Fld) : Part := { fld := f, p := 0, i := 0, lsb := 0, width := 32, shift := 32 }

/-- A read-only field whose LO word, alone at offset lo of a page, latches the HI word that follows it; both lie
below the shadow copies of the page. -/
structure LatchedPair (f : Fld) (page lo : Nat) : Prop where
  lo_parts : ∀ s : State, s.parts page lo = [f.loPart]
  hi_parts : ∀ s : State, s.parts page (lo + 4) = [f.hiPart]
  below_shadow : lo + 4 < 0x800
  latch : f.latch = true
  ty : f.ty = .ro
  sel : f.sel = .none
  held : ∀ s : State, s.viewFree f 0 = false

/-- A state with the HI half of a pair latched from a value of the pair. -/
def State.latched (s : State) (f : Fld) (v : Nat) : State := { s with lat := storeSet 0 s.lat (f.key 0 0) (v / 2 ^ 32) }

theorem State.latched_same (s : State) (f : Fld) (v : Nat) : storeGet 0 (s.latched f v).lat (f.key 0 0) = v / 2 ^ 32 := storeGet_set_same ..

theorem State.latched_other (s : State) {f g : Fld} (h : f.id % 4096 ≠ g.id % 4096) (v : Nat) :
    storeGet 0 (s.latched f v).lat (g.key 0 0) = storeGet 0 s.lat (g.key 0 0) :=
  storeGet_set_other 0 0 s.lat (Fld.key_ne_of_id h 0 0 0 0) _

namespace LatchedPair

variable {f : Fld} {page lo : Nat}

theorem partRead_lo (h : LatchedPair f page lo) (s : State) : s.partRead f.loPart = s.latched f (s.view f 0 0) := by
  simp [State.partRead, Fld.loPart, State.latched, h.latch, h.held]

theorem partRead_hi (h : LatchedPair f page lo) (s : State) : s.partRead f.hiPart = s := by
  simp [State.partRead, Fld.hiPart, h.ty, h.held]

theorem partView_lo (h : LatchedPair f page lo) (s : State) : s.partView f.loPart = s.view f 0 0 % 2 ^ 32 := by
  simp [State.partView, Fld.loPart, bitsOf, h.ty, h.sel]

theorem partView_hi (h : LatchedPair f page lo) (s : State) : s.partView f.hiPart = storeGet 0 s.lat (f.key 0 0) % 2 ^ 32 := by
  simp [State.partView, Fld.hiPart, h.ty, h.sel, h.latch]

theorem readOut_lo (h : LatchedPair f page lo) {s : State} (hlive : s.live page = true) :
    s.readOut page lo = (s.latched f (s.view f 0 0)).answer (s.view f 0 0 % 2 ^ 32) := by
  rw [State.readOut_single hlive (Nat.lt_of_le_of_lt (Nat.le_add_right ..) h.below_shadow) (h.lo_parts s) rfl, h.partRead_lo, h.partView_lo]

theorem readOut_hi (h : LatchedPair f page lo) {s : State} (hlive : s.live page = true) :
    s.readOut page (lo + 4) = s.answer (storeGet 0 s.lat (f.key 0 0) % 2 ^ 32) := by
  rw [State.readOut_single hlive h.below_shadow (h.hi_parts s) rfl, h.partRead_hi, h.partView_hi]

end LatchedPair

/-- What R58 says of a read of the LO word of pair f, which leads from s to t and is answered from the value v; g is any other pair, and hi
the offset of the HI word. -/
structure LatchingRead (f g : Fld) (page hi v : Nat) (s t : State) : Prop where
  lo_data : t.rdata = v % 2 ^ 32
  no_error : t.rerr = false
  other : storeGet 0 t.lat (g.key 0 0) = storeGet 0 s.lat (g.key 0 0)
  frame : Changes s t []
  hi_read : ∀ u : State, u.live page = true → u.lat = t.lat → u.readOut page hi = u.answer (v / 2 ^ 32 % 2 ^ 32)

theorem LatchedPair.latchingRead {f g : Fld} {page lo v : Nat} {s : State} (h : LatchedPair f page lo) (hg : f.id % 4096 ≠ g.id % 4096)
    (hlive : s.live page = true) (hv : s.view f 0 0 = v % 2 ^ 64) : LatchingRead f g page (lo + 4) v s (s.readOut page lo) := by
  rw [h.readOut_lo hlive, hv]
  have hhalf : v % 2 ^ 64 / 2 ^ 32 % 2 ^ 32 = v / 2 ^ 32 % 2 ^ 32 := by omega
  constructor
  case lo_data => exact Nat.mod_mod_of_dvd v (by decide)
  case no_error => rfl
  case other => exact s.latched_other hg _
  case frame => exact (Changes.refl s).put rfl rfl
  case hi_read =>
    intro u hu hlat
    have hkept : storeGet 0 u.lat (f.key 0 0) = v % 2 ^ 64 / 2 ^ 32 := by rw [hlat]; exact s.latched_same f _
    rw [h.readOut_hi hu, hkept, hhalf]

/-! ### GT and SI -/

theorem latchedPair_gt : LatchedPair F.ORR_GT 0x004 0x040 where
  lo_parts _ := rfl
  hi_parts _ := rfl
  below_shadow := by decide
  latch := rfl
  ty := rfl
  sel := rfl
  held _ := rfl

theorem latchedPair_si : LatchedPair F.ORR_SI 0x004 0x048 where
  lo_parts _ := rfl
  hi_parts _ := rfl
  below_shadow := by decide
  latch := rfl
  ty := rfl
  sel := rfl
  held _ := rfl

theorem State.view_gt (s : State) : s.view F.ORR_GT 0 0 = s.gt % 2 ^ 64 := rfl
theorem State.view_si (s : State) : s.view F.ORR_SI 0 0 = s.si % 2 ^ 64 := rfl

/-- Settles O52. Each clause is `LatchedPair.latchingRead` of its own pair, with the other pair as the one left alone. -/
theorem timeReadsLatch : Obligations.TimeReadsLatch := by
  have hids : F.ORR_GT.id % 4096 ≠ F.ORR_SI.id % 4096 := by decide
  refine ⟨fun s hlive => ?gt, fun s hlive => ?si⟩
  case gt =>
    have hlo := latchedPair_gt.latchingRead hids hlive s.view_gt
    refine ⟨_, exec_loReadLatch .., hlo.lo_data, hlo.no_error, hlo.other, hlo.frame, fun u hu hlat => ?_⟩
    exact ⟨_, congrArg Outcome.next (hlo.hi_read u hu hlat), rfl, rfl, (Changes.refl u).answer ..⟩
  case si =>
    have hlo := latchedPair_si.latchingRead hids.symm hlive s.view_si
    refine ⟨_, exec_loReadLatch .., hlo.lo_data, hlo.no_error, hlo.other, hlo.frame, fun u hu hlat => ?_⟩
    exact ⟨_, congrArg Outcome.next (hlo.hi_read u hu hlat), rfl, rfl, (Changes.refl u).answer ..⟩

end Sys2Proof.Machine
end

section
/-! PROOF. DOORBELL and CQ_HEAD_WRITE (O9: R199, R200, R206): what counting a refused write does, which case each write falls in, and the
statement assembled from these. -/

namespace Sys2Proof.Machine

open Host

/-! ### A refused write is counted -/

/-- One counter advanced. -/
theorem Changes.inc {a s : State} {l : List (Fld × Nat × Nat)} (h : Changes a s l) (f : Fld) (p i k : Nat) :
    Changes a (s.inc f p i k) (l ++ [(f, p, i)]) := h.wr f p i _

/-- What refusing a write to the page of context c does: counter f of that page is advanced, and beside it only the page's events may
differ. -/
structure RefusalCounted (s t : State) (f : Fld) (c : Nat) : Prop where
  cnt : t.rd f c 0 = satInc (s.rd f c 0) % 2 ^ f.width
  frame : Changes s t [(f, c, 0), (F.REG_EVT_RAW, 0x100 + c, 0)]

/-- A counter advanced and an event of the context's page: the event leaves the counter alone, as it is a field of another number. -/
theorem State.inc_raise_refusalCounted (s : State) {f : Fld} (h : F.REG_EVT_RAW.id % 4096 ≠ f.id % 4096) (c bit : Nat) :
    RefusalCounted s ((s.inc f c 0).raise (0x100 + c) bit) f c where
  cnt := (State.rd_raise_id _ h ..).trans (State.rd_inc_same ..)
  frame := ((Changes.refl s).inc f c 0 1).raise (0x100 + c) bit

theorem State.dbBad_refusalCounted (s : State) (c : Nat) : RefusalCounted s (s.dbBad c) F.CTX_DB_BAD_CNT c :=
  s.inc_raise_refusalCounted (by decide) c 4

/-! ### The cases of a doorbell (R199, R200) -/

/-- The tail that a doorbell of value v carries is no more than the ring's size past SQ_TAIL, and past SQ_HEAD (R199). -/
def State.TailFits (s : State) (c v : Nat) : Prop :=
  (v % 65536 + 65536 - s.rd F.CTX_SQ_TAIL c 0) % 65536 ≤ s.sqSize c ∧ (v % 65536 + 65536 - s.rd F.CTX_SQ_HEAD c 0) % 65536 ≤ s.sqSize c

section
variable {s : State} {c v : Nat}

theorem State.doorbell_accepted (hopen : s.rd F.CTX_STAT_STATE c 0 = 1) (hfits : s.TailFits c v) :
    s.doorbell c v = s.wr F.CTX_SQ_TAIL c 0 (v % 65536) := (if_neg (not_not_intro hopen)).trans (if_pos hfits)

theorem State.doorbell_bad (hopen : s.rd F.CTX_STAT_STATE c 0 = 1) (hfits : ¬ s.TailFits c v) : s.doorbell c v = s.dbBad c :=
  (if_neg (not_not_intro hopen)).trans (if_neg hfits)

theorem State.doorbell_ignored (hopen : s.rd F.CTX_STAT_STATE c 0 ≠ 1) :
    s.doorbell c v = (s.inc F.CTX_DB_IGNORED_CNT c 0).raise (0x100 + c) 4 := if_pos hopen

/-! ### The cases of a CQ_HEAD write (R206) -/

/-- The value v lies between CQ_HEAD and CQ_TAIL, both inclusive, counted round the ring from CQ_HEAD (R206). -/
def State.HeadBetween (s : State) (c v : Nat) : Prop :=
  (v % 65536 + 65536 - s.rd F.CTX_CQ_HEAD c 0) % 65536 ≤ (s.rd F.CTX_CQ_TAIL c 0 + 65536 - s.rd F.CTX_CQ_HEAD c 0) % 65536

theorem State.cqHead_taken (h : s.HeadBetween c v) : s.cqHead c v = s.wr F.CTX_CQ_HEAD c 0 v := if_pos h

theorem State.cqHead_bad (h : ¬ s.HeadBetween c v) : s.cqHead c v = s.dbBad c := if_neg h

end

/-! ### The two rows, from a source that DB_SRC permits (R562) -/

section
variable {src : Src} {c : BitVec 8} {s : State} (hlive : s.liveCtx src c.toNat = true) (v : Word)
include hlive

theorem exec_doorbell_live : exec (.doorbell src c v) s = .next (s.doorbell c.toNat v.toNat) :=
  congrArg Outcome.next (State.ctxWrite_live hlive _)

theorem exec_cqHeadWrite_live : exec (.cqHeadWrite src c v) s = .next (s.cqHead c.toNat v.toNat) :=
  congrArg Outcome.next (State.ctxWrite_live hlive _)

end

/-- Settles O9. A permitted write is performed on its page. What is accepted is one write of one field; what is refused is counted, in
DB_IGNORED_CNT where the context is not OPEN and in DB_BAD_CNT otherwise. -/
theorem doorbellAndCqHeadWrites : Obligations.DoorbellAndCqHeadWrites := by
  refine ⟨fun src c v s hlive hopen htail hhead => ?accepted, fun src c v s hlive hopen hfits => ?bad,
    fun src c v s hlive hopen => ?ignored, fun src c v s hlive hbetween => ?taken, fun src c v s hlive hbeyond => ?refused⟩
  case accepted =>
    have hexec := exec_doorbell_live hlive v
    rw [State.doorbell_accepted hopen ⟨htail, hhead⟩] at hexec
    exact ⟨_, hexec, (State.rd_wr_same ..).trans (Nat.mod_mod ..), (Changes.refl s).wr ..⟩
  case bad =>
    have hexec := exec_doorbell_live hlive v
    rw [State.doorbell_bad hopen hfits] at hexec
    have hcounted := s.dbBad_refusalCounted c.toNat
    exact ⟨_, hexec, hcounted.cnt, hcounted.frame⟩
  case ignored =>
    have hexec := exec_doorbell_live hlive v
    rw [State.doorbell_ignored hopen] at hexec
    have hcounted := s.inc_raise_refusalCounted (f := F.CTX_DB_IGNORED_CNT) (by decide) c.toNat 4
    exact ⟨_, hexec, hcounted.cnt, hcounted.frame⟩
  case taken =>
    have hexec := exec_cqHeadWrite_live hlive v
    rw [State.cqHead_taken hbetween] at hexec
    exact ⟨_, hexec, State.rd_wr_same .., (Changes.refl s).wr ..⟩
  case refused =>
    have hexec := exec_cqHeadWrite_live hlive v
    rw [State.cqHead_bad (Nat.not_le.2 hbeyond)] at hexec
    have hcounted := s.dbBad_refusalCounted c.toNat
    exact ⟨_, hexec, hcounted.cnt, hcounted.frame⟩

end Sys2Proof.Machine
end

section
/-! PROOF. Barrier messages whose sync or CRC is wrong (O22: R430): what each receiver makes of one, that the reception rows hand it to their
receiver, and the statement assembled from these. -/

namespace Sys2Proof.Machine

open Host

/-! ### The Nearside -/

/-- The Nearside with one message discarded and counted. -/
def State.brDiscarded (s : State) : State := (s.inc F.BR_RX_CRC_CNT 0 0).raise 0x090 1

/-- What a discarded message does to the Nearside: the counter and the event that Table FAR-6 gives it, and nothing else. -/
structure NearsideDiscard (s t : State) : Prop where
  cnt : t.rd F.BR_RX_CRC_CNT 0 0 = satInc (s.rd F.BR_RX_CRC_CNT 0 0) % 2 ^ F.BR_RX_CRC_CNT.width
  event : bitOf (t.rd F.REG_EVT_RAW 0x090 0) 1 = true
  registers_only : t = { s with regs := t.regs }
  frame : Changes s t [(F.BR_RX_CRC_CNT, 0, 0), (F.REG_EVT_RAW, 0x090, 0)]

/-- An event of bit 1 shows in EVT_RAW. -/
theorem State.bitOf_rd_raise_one (s : State) (page : Nat) : bitOf ((s.raise page 1).rd F.REG_EVT_RAW page 0) 1 = true := by
  rw [State.rd_raise_same]
  simp only [bitOf, setBit, putBits, beq_iff_eq]
  omega

/-- The event leaves the counter alone, as it is a field of another number. -/
theorem State.brDiscarded_discard (s : State) : NearsideDiscard s s.brDiscarded where
  cnt := (State.rd_raise_id _ (by decide) ..).trans (State.rd_inc_same ..)
  event := State.bitOf_rd_raise_one ..
  registers_only := rfl
  frame := ((Changes.refl s).inc F.BR_RX_CRC_CNT 0 0 1).raise 0x090 1

/-- On a link that is UP the receiver discards the message, whatever a good one would have done. -/
theorem State.brReceive_bad {s : State} {m : List Byte} (hon : s.pwr.pilotOn = true) (hup : s.rd F.BR_STAT_LINK 0 0 = 2)
    (hbad : brGood m = false) (k : State → State) : s.brReceive m k = s.brDiscarded := by
  simp [State.brReceive, State.brDiscarded, hon, hup, hbad]

/-- The reception rows of the known Farside types. -/
def nearsideArrivals (m : List Byte) : List Instr :=
  [.zcStamp m, .mainsStat m, .levelAck m, .daliReply m, .ioStat m, .fsHeartbeat m, .fsFault m]

theorem exec_nearsideArrival {m : List Byte} {c : Instr} (hc : c ∈ nearsideArrivals m) (s : State) :
    ∃ ty k, exec c s = .next (s.brArrive m ty k) := by
  simp only [nearsideArrivals, List.mem_cons, List.not_mem_nil, or_false] at hc
  obtain rfl | rfl | rfl | rfl | rfl | rfl | rfl := hc <;> exact ⟨_, _, rfl⟩

/-- The type byte of a bad message is not looked at: it reaches the receiver on every row. -/
theorem exec_nearsideReception_bad {m : List Byte} {c : Instr} (hc : c ∈ nearsideArrivals m ++ [.rxUnknown m]) (hbad : brGood m = false)
    (s : State) : ∃ k, exec c s = .next (s.brReceive m k) := by
  rcases List.mem_append.1 hc with harrival | hunknown
  · obtain ⟨ty, k, hexec⟩ := exec_nearsideArrival harrival s
    exact ⟨k, hexec.trans (congrArg Outcome.next (if_neg (by simp [hbad])))⟩
  · obtain rfl := List.mem_singleton.1 hunknown
    exact ⟨id, congrArg Outcome.next (if_neg (by simp [hbad]))⟩

/-! ### The Farside -/

/-- The Farside with one message discarded and counted. -/
def State.fsDiscarded (s : State) : State := { s with fs := { s.fs with crcCnt := satInc s.fs.crcCnt } }

/-- The reception rows of the Nearside types other than PARAM_WRITE. -/
def farsideArrivals (m : List Byte) (status : Fin 3) (data : List Byte) : List Instr :=
  [.levelSet m, .daliQuery m status data, .nsHeartbeat m, .failsafeCfg m]

theorem exec_farsideArrival {m data : List Byte} {status : Fin 3} {c : Instr} (hc : c ∈ farsideArrivals m status data) (s : State) :
    ∃ ty k, exec c s = .next (s.fsArrive m ty k) := by
  simp only [farsideArrivals, List.mem_cons, List.not_mem_nil, or_false] at hc
  obtain rfl | rfl | rfl | rfl := hc <;> exact ⟨_, _, rfl⟩

section
variable {s : State} {m : List Byte}

/-! The rows of a PARAM_WRITE, by its START and COMMIT bits, and the row of the other types. -/

theorem exec_paramWriteStart_start (hstart : bitOf (leAt m 4 2) 0 = true) :
    ∃ ty k, exec (.paramWriteStart m) s = .next (s.fsArrive m ty k) := ⟨_, _, congrArg Outcome.next (if_pos hstart)⟩

theorem exec_paramWriteChunk_middle (hstart : bitOf (leAt m 4 2) 0 = false) (hcommit : bitOf (leAt m 4 2) 1 = false) :
    ∃ ty k, exec (.paramWriteChunk m) s = .next (s.fsArrive m ty k) := ⟨_, _, congrArg Outcome.next (if_neg (by simp [hstart, hcommit]))⟩

theorem exec_paramCommit_commit (hstart : bitOf (leAt m 4 2) 0 = false) (hcommit : bitOf (leAt m 4 2) 1 = true) :
    ∃ ty k, exec (.paramCommit m) s = .next (s.fsArrive m ty k) := ⟨_, _, congrArg Outcome.next (if_pos (by simp [hstart, hcommit]))⟩

theorem exec_unknownType_unknown (hty : leAt m 1 1 < 1 ∨ 5 < leAt m 1 1) : ∃ k, exec (.unknownType m) s = .next (s.fsReceive m k) :=
  ⟨_, congrArg Outcome.next (if_neg (by omega))⟩

variable (hon : s.fs.on = true) (hbad : brGood m = false)
include hon hbad

/-- The powered receiver discards the message, whatever a good one would have done. -/
theorem State.fsReceive_bad (k : State → State) : s.fsReceive m k = s.fsDiscarded := by
  simp [State.fsReceive, State.fsDiscarded, hon, hbad]

theorem exec_fsReceive_bad {c : Instr} (hc : ∃ k, exec c s = .next (s.fsReceive m k)) : exec c s = .next s.fsDiscarded := by
  obtain ⟨k, hexec⟩ := hc
  rw [hexec, State.fsReceive_bad hon hbad]

/-- The type byte of a bad message is not looked at: an arrival of any type brings it to the receiver. -/
theorem exec_fsArrive_bad {c : Instr} (hc : ∃ ty k, exec c s = .next (s.fsArrive m ty k)) : exec c s = .next s.fsDiscarded := by
  obtain ⟨ty, k, hexec⟩ := hc
  exact exec_fsReceive_bad hon hbad ⟨k, hexec.trans (congrArg Outcome.next (if_neg (by simp [hbad])))⟩

end

/-- Settles O22. Every row brings its bad message to the receiver of its side, and each receiver looks at sync and CRC before anything else. -/
theorem badBarrierMessagesAreDiscarded : Obligations.BadBarrierMessagesAreDiscarded := by
  refine ⟨fun m s c hc hon hup hbad => ?nearside, fun m status data s c hc hon hbad => ?farside, fun m s hon hbad => ?byContent⟩
  case nearside =>
    obtain ⟨k, hexec⟩ := exec_nearsideReception_bad hc hbad s
    rw [State.brReceive_bad hon hup hbad] at hexec
    have hdiscard := s.brDiscarded_discard
    exact ⟨_, hexec, hdiscard.cnt, hdiscard.registers_only, hdiscard.frame⟩
  case farside => exact exec_fsArrive_bad hon hbad (exec_farsideArrival hc s)
  case byContent =>
    refine ⟨fun hstart => ?start, fun hstart hcommit => ?chunk, fun hstart hcommit => ?commit, fun hty => ?unknown⟩
    case start => exact exec_fsArrive_bad hon hbad (exec_paramWriteStart_start hstart)
    case chunk => exact exec_fsArrive_bad hon hbad (exec_paramWriteChunk_middle hstart hcommit)
    case commit => exact exec_fsArrive_bad hon hbad (exec_paramCommit_commit hstart hcommit)
    case unknown => exact exec_fsReceive_bad hon hbad (exec_unknownType_unknown hty)

end Sys2Proof.Machine
end

section
/-! PROOF. Flits that a port discards (O47: R661): what the taking of ACK, NAK and credits leaves of a port's reception, what a flit with a
bad CRC and one out of order come to, and the statement assembled from these. -/

namespace Sys2Proof.Machine

open Host

/-! ### The record of a port -/

@[simp] theorem State.skPort_num (s : State) (n : Nat) : (s.skPort n).num = n := by
  unfold State.skPort
  cases h : s.sk.ports.find? (fun p => p.num == n) with
  | none => rfl
  | some p => simpa using List.find?_some h

/-- A port's record given anew reads as given, and the other port's as before. -/
theorem State.skPort_setSkPort (s : State) (p : SkPort) (n : Nat) : (s.setSkPort p).skPort n = if p.num = n then p else s.skPort n := by
  unfold State.setSkPort State.skPort
  split
  case isTrue h => simp [h]
  case isFalse h =>
    have hother : (fun q : SkPort => decide (q.num != p.num ∧ q.num == n)) = fun q => q.num == n := by grind
    simp only [List.find?_cons, beq_eq_false_iff_ne.2 h, List.find?_filter, hother]

theorem State.skPort_setSkPort_self (s : State) {p : SkPort} {n : Nat} (h : p.num = n) : (s.setSkPort p).skPort n = p := by
  rw [State.skPort_setSkPort, if_pos h]

/-- What a port holds of its reception: which port it is, the number expected next and, for each VC, where the message coming
in goes. -/
def SkPort.reception (p : SkPort) : Nat × Nat × List (Nat × Nat) := (p.num, p.rxSeq, p.cur)

/-! ### What leaves reception alone -/

/-- No credit field has the number of RX_FLITS. -/
theorem creditFlds_ne_rxFlits (vc : Nat) :
    (availFld vc).id % 4096 ≠ F.SK_RX_FLITS.id % 4096 ∧ (owedFld vc).id % 4096 ≠ F.SK_RX_FLITS.id % 4096 := by
  match vc with
  | 0 | 1 | 2 => decide
  | _ + 3 =>
    change F.SK_PT_CRED1_VCD_AVAIL.id % 4096 ≠ _ ∧ F.SK_PT_CRED1_VCD_OWED.id % 4096 ≠ _
    decide

/-- Nothing has been taken in by any port: no number, no message, no count of RX_FLITS, and with them no command and no byte of memory. -/
structure NothingReceived (s t : State) : Prop where
  port : ∀ n, (t.skPort n).reception = (s.skPort n).reception
  count : ∀ n, t.rd F.SK_RX_FLITS 0 n = s.rd F.SK_RX_FLITS 0 n
  sch : t.sch = s.sch
  mem : t.mem = s.mem

namespace NothingReceived

theorem refl (s : State) : NothingReceived s s := ⟨fun _ => rfl, fun _ => rfl, rfl, rfl⟩

variable {a s : State} (h : NothingReceived a s)
include h

theorem rxSeq (n : Nat) : (s.skPort n).rxSeq = (a.skPort n).rxSeq := congrArg (fun r => r.2.1) (h.port n)
theorem cur (n : Nat) : (s.skPort n).cur = (a.skPort n).cur := congrArg (fun r => r.2.2) (h.port n)
theorem byteAt (x : Nat) : s.byteAt x = a.byteAt x := by simp [State.byteAt, h.mem]

theorem wr {f : Fld} (hf : f.id % 4096 ≠ F.SK_RX_FLITS.id % 4096) (p i v : Nat) : NothingReceived a (s.wr f p i v) :=
  ⟨h.port, fun n => (s.rd_wr_id hf ..).trans (h.count n), h.sch, h.mem⟩

theorem inc {f : Fld} (hf : f.id % 4096 ≠ F.SK_RX_FLITS.id % 4096) (p i k : Nat) : NothingReceived a (s.inc f p i k) := h.wr hf ..

theorem raise (page bit : Nat) : NothingReceived a (s.raise page bit) := h.wr (by decide) ..

theorem emit (o : Out) : NothingReceived a (s.emit o) := ⟨h.port, h.count, h.sch, h.mem⟩

/-- A port's record may change in all that is not its reception. -/
theorem setSkPort {p : SkPort} {n : Nat} (hp : p.reception = (a.skPort n).reception) : NothingReceived a (s.setSkPort p) := by
  refine ⟨fun m => ?_, h.count, h.sch, h.mem⟩
  have hnum : p.num = n := (congrArg Prod.fst hp).trans (a.skPort_num n)
  rw [State.skPort_setSkPort]
  split
  case isTrue hm => rw [hp, ← hm, hnum]
  case isFalse => exact h.port m

/-! ### States of the ports -/

theorem skTopo : NothingReceived a s.skTopo := by
  unfold State.skTopo
  extract_lets v
  split
  · exact h
  · exact (h.wr (by decide) 0 0 v).raise skPage 4

theorem skGo (n st : Nat) : NothingReceived a (s.skGo n st) := by
  unfold State.skGo
  split
  · exact h
  · exact ((h.wr (by decide) 0 n st).raise skPage 0).skTopo

/-! ### ACK, credits and NAK -/

/-- Both credit fields of a VC given values, as when credits come back and when a flit takes one. -/
theorem wrCredits (n vc v w : Nat) : NothingReceived a ((s.wr (availFld vc) 0 n v).wr (owedFld vc) 0 n w) := by
  obtain ⟨havail, howed⟩ := creditFlds_ne_rxFlits vc
  exact (h.wr havail 0 n v).wr howed 0 n w

theorem skRetrain (n : Nat) : NothingReceived a (s.skRetrain n) := ((h.setSkPort (by exact h.port n)).inc (by decide) 0 n 1).skGo n 3

theorem skAcked (n k : Nat) : NothingReceived a (s.skAcked n k) := by
  unfold State.skAcked
  dsimp only
  split
  · exact h.setSkPort (by exact h.port n)
  · exact h

theorem skCredit (n vc k : Nat) : NothingReceived a (s.skCredit n vc k) := h.wrCredits n vc _ _

/-- The kept flits leave again one by one. -/
theorem emitAll (n : Nat) (l : List SkFlit) : NothingReceived a (l.foldl (fun u f => u.emit (.skewer n f.bytes)) s) := by
  induction l generalizing s with
  | nil => exact h
  | cons f l ih => exact ih (h.emit _)

theorem skResend (n : Nat) : NothingReceived a (s.skResend n) := by
  unfold State.skResend
  dsimp only
  split
  · exact h
  split
  · exact h.skRetrain n
  · exact ((h.emitAll n _).setSkPort (by exact h.port n)).inc (by decide) 0 n 1

/-! ### Messages that wait -/

theorem skTake (n vc : Nat) : NothingReceived a (s.skTake n vc) := h.wrCredits n vc _ _

theorem skSendFlit (n vc : Nat) (first : Bool) (payload : List Byte) : NothingReceived a (s.skSendFlit n vc first payload) :=
  (((h.emit _).skTake n vc).inc (by decide) 0 n 1).setSkPort (by exact h.port n)

theorem skSendAll (n vc : Nat) (first : Bool) (l : List (List Byte)) : NothingReceived a (s.skSendAll n vc first l) := by
  induction l generalizing s first with
  | nil => exact h
  | cons payload l ih => exact ih (h.skSendFlit ..) false

theorem skPumpFrom (n : Nat) (blocked : List Nat) (l : List SkMsg) : NothingReceived a (s.skPumpFrom n blocked l) := by
  induction l generalizing s blocked with
  | nil => exact h
  | cons m l ih =>
    unfold State.skPumpFrom
    split
    · exact ih (h.setSkPort (by exact h.port n)) _
    · exact ih (h.skSendAll ..) blocked

theorem skPump (n : Nat) : NothingReceived a (s.skPump n) := (h.setSkPort (by exact h.port n)).skPumpFrom ..

end NothingReceived

/-! ### The two ways a flit is discarded -/

/-- What a port that is UP takes of every flit with a good CRC: its ACK, its credits and its NAK (R661, R662). -/
def State.skHeard (s : State) (n : Nat) (bs : List Byte) : State :=
  let t := (s.skAcked n (leAt bs 2 2 % 4096)).skCredit n (bitsOf (leAt bs 2 2) 13 2) (leAt bs 4 1)
  if bitOf (leAt bs 2 2) 12 then t.skResend n else t

theorem State.skHeard_nothingReceived (s : State) (n : Nat) (bs : List Byte) : NothingReceived s (s.skHeard n bs) := by
  have hcredited := ((NothingReceived.refl s).skAcked n (leAt bs 2 2 % 4096)).skCredit n (bitsOf (leAt bs 2 2) 13 2) (leAt bs 4 1)
  unfold State.skHeard
  dsimp only
  split
  · exact hcredited.skResend n
  · exact hcredited

section
variable {s : State} {n : Nat} {bs : List Byte} (hon : s.skOn = true) (hup : s.skUp n = true)
include hon hup

section
variable (hbad : bs.length ≠ 64 ∨ leAt bs 60 4 ≠ crc32c (bs.take 60))
include hbad

/-- The first flit whose CRC fails is counted and answered by a NAK. -/
theorem State.flitIn_badCrc_first (hnak : (s.skPort n).nakSent = false) :
    s.flitIn n bs = ((s.inc F.SK_CRC_ERR_CNT 0 n).setSkPort { s.skPort n with nakSent := true }).skIdle n 1 0 0 :=
  (if_neg (by simp [hon, hup])).trans ((if_pos hbad).trans (if_neg (ne_true_of_eq_false hnak)))

/-- While that NAK stands, the next is counted only. -/
theorem State.flitIn_badCrc_again (hnak : (s.skPort n).nakSent = true) : s.flitIn n bs = s.inc F.SK_CRC_ERR_CNT 0 n :=
  (if_neg (by simp [hon, hup])).trans ((if_pos hbad).trans (if_pos hnak))

end

section
variable (hlen : bs.length = 64) (hcrc : leAt bs 60 4 = crc32c (bs.take 60))
include hlen hcrc

/-- A flit with a good CRC is heard; one that is not IDLE and has the number expected arrives; then the messages that wait may go. -/
theorem State.flitIn_goodCrc : s.flitIn n bs = ((if bitOf (leAt bs 0 2) 15 then s.skHeard n bs
      else if leAt bs 0 2 % 4096 = ((s.skHeard n bs).skPort n).rxSeq then ((s.skHeard n bs).inc F.SK_RX_FLITS 0 n).skArrive n
        (bitsOf (leAt bs 0 2) 12 2) (bitOf (leAt bs 0 2) 14) ((bs.drop 8).take 52)
      else s.skHeard n bs).skPump 0).skPump 1 :=
  (if_neg (by simp [hon, hup])).trans (if_neg (by simp [hlen, hcrc]))

/-- A flit out of order is heard, and does not arrive. -/
theorem State.flitIn_outOfOrder (hidle : bitOf (leAt bs 0 2) 15 = false) (hseq : leAt bs 0 2 % 4096 ≠ (s.skPort n).rxSeq) :
    s.flitIn n bs = ((s.skHeard n bs).skPump 0).skPump 1 := by
  rw [← (s.skHeard_nothingReceived n bs).rxSeq n] at hseq
  rw [State.flitIn_goodCrc hon hup hlen hcrc, if_neg (by simp [hidle]), if_neg hseq]

end

end

theorem exec_flitReceive (n : Fin 2) (bs : List Byte) (s : State) : exec (.flitReceive n bs) s = .next (s.flitIn n bs) := rfl

/-- Settles O47. A flit with a bad CRC advances one counter and at most sends a NAK. One out of order is heard, and neither hearing it nor
sending what waits takes anything in. -/
theorem badFlitsAreDiscarded : Obligations.BadFlitsAreDiscarded := by
  refine ⟨fun n bs s hon hup hbad => ?badCrc, fun n bs s hon hup hlen hcrc hidle hseq => ?outOfOrder⟩
  case badCrc =>
    have hexec := exec_flitReceive n bs s
    have hcount := s.rd_inc_same F.SK_CRC_ERR_CNT 0 n 1
    have hframe := (Changes.refl s).inc F.SK_CRC_ERR_CNT 0 n 1
    cases hnak : (s.skPort n).nakSent with
    | false =>
      rw [State.flitIn_badCrc_first hon hup hbad hnak] at hexec
      have hport := (s.inc F.SK_CRC_ERR_CNT 0 n).skPort_setSkPort_self (p := { s.skPort n with nakSent := true }) (s.skPort_num n)
      refine ⟨_, hexec, hcount, hport, fun _ => ?_, nofun, hframe.put rfl rfl⟩
      simp only [State.skIdle, State.emit, hport]
      rfl
    | true =>
      rw [State.flitIn_badCrc_again hon hup hbad hnak] at hexec
      have hport : s.skPort n = { s.skPort n with nakSent := true } := by rw [← hnak]
      exact ⟨_, hexec, hcount, hport, nofun, fun _ => rfl, hframe⟩
  case outOfOrder =>
    have hheard := ((s.skHeard_nothingReceived n bs).skPump 0).skPump 1
    have hexec := exec_flitReceive n bs s
    rw [State.flitIn_outOfOrder hon hup hlen hcrc hidle hseq] at hexec
    exact ⟨_, hexec, hheard.rxSeq n, hheard.cur n, hheard.count n, hheard.sch, hheard.byteAt⟩

end Sys2Proof.Machine
end
